-- ==== Sys2Proof/Word.lean ====
section
/-! DEFINITION. Word types and their plainest arithmetic (R1, R2): little-endian bytes, sign extension, and the sparse map used for every large store. -/
namespace Sys2Proof

abbrev Byte := BitVec 8
abbrev Half := BitVec 16
abbrev Word := BitVec 32
abbrev Dbl := BitVec 64
abbrev Quad := BitVec 128

/-- A sparse store: keys strictly rising, no entry equal to the value an unlisted key reads as. -/
abbrev SMap (α : Type) := List (Nat × α)

/-- What an access from outside the tiles asks: to read as many bytes as its data has, to write them, or an atomic, by its operation number (R243). -/
inductive Asks
  | read
  | write
  | atomic (op : Nat)
  deriving DecidableEq, Repr

end Sys2Proof
end

