-- ==== Sys2Proof/Syntax.lean ====
section
/-! DEFINITION. The steps of the machine: one constructor for each row of spec/opcode_table.json. The rows with a word carry the fields of their encoding (R77-R81, R406), highest bits first: `t0`, `t1` targets (R73), `pr` predication (R75), `w` width bit, and the letters of the table for the rest. The rows without a word are the device's own steps and the inputs of other agents; their arguments say which agent and which item (spec/95). -/
namespace Sys2Proof

inductive Instr where
  /-- BR: Unconditional branch to the block at a signed 128-byte offset (R114) -/
  | br (f : BitVec 21) (h : BitVec 2) (pr : BitVec 2)
  /-- CALL: Branch to a relative block and push the left token as return address (R114) -/
  | call (f : BitVec 21) (h : BitVec 2) (pr : BitVec 2)
  /-- BRI: Branch to the block address held in the left token (R114) -/
  | bri (pr : BitVec 2)
  /-- CALLI: Indirect branch to the left token and push the right token as return address (R114) -/
  | calli (pr : BitVec 2)
  /-- RET: Branch to the address popped from the return stack, refilling from the spill area when no entry is resident (R118) -/
  | ret (pr : BitVec 2)
  /-- SCALL: Commit, then freeze the core with the supervisor-call cause and the service number (R120) -/
  | scall (pr : BitVec 2)
  /-- BREAK: After its block commits, freeze the core with the break cause (R121) -/
  | brk (pr : BitVec 2)
  /-- TRAP: Record a trap with a 64-bit code against the block, which cannot then commit (R122) -/
  | trap (pr : BitVec 2)
  /-- MOV: Send the left token to both targets (R123) -/
  | mov (t0 : BitVec 9) (t1 : BitVec 9) (pr : BitVec 2)
  /-- NULL: Send a null token, with the left token only pacing the firing (R123) -/
  | null (t0 : BitVec 9) (t1 : BitVec 9) (pr : BitVec 2)
  /-- PAIR: Build a 128-bit PAIR token from the left and right tokens (R123) -/
  | pair (t0 : BitVec 9) (t1 : BitVec 9) (pr : BitVec 2)
  /-- PLO: Send bits 63:0 of the left token (R123) -/
  | plo (t0 : BitVec 9) (t1 : BitVec 9) (pr : BitVec 2)
  /-- PHI: Send bits 127:64 of the left PAIR token (R123) -/
  | phi (t0 : BitVec 9) (t1 : BitVec 9) (pr : BitVec 2)
  /-- CONST: Send a sign-extended 14-bit immediate (R124) -/
  | const (i : BitVec 14) (t0 : BitVec 9) (pr : BitVec 2)
  /-- APP: Shift the left token left by 14 and append an unsigned 14-bit immediate (R124) -/
  | app (i : BitVec 14) (t0 : BitVec 9) (pr : BitVec 2)
  /-- RDSYS: Send the value of a system register (R136) -/
  | rdsys (t0 : BitVec 9) (s : BitVec 4) (pr : BitVec 2)
  /-- WRSYS: Write the left token to a system register at commit and send its new value (R137) -/
  | wrsys (t0 : BitVec 9) (s : BitVec 4) (pr : BitVec 2)
  /-- ADD: Integer addition modulo 2^W (R126) -/
  | add (w : BitVec 1) (t0 : BitVec 9) (t1 : BitVec 9) (pr : BitVec 2)
  /-- SUB: Integer subtraction modulo 2^W (R126) -/
  | sub (w : BitVec 1) (t0 : BitVec 9) (t1 : BitVec 9) (pr : BitVec 2)
  /-- MUL: Low W bits of the integer product (R126) -/
  | mul (w : BitVec 1) (t0 : BitVec 9) (t1 : BitVec 9) (pr : BitVec 2)
  /-- MULH: High W bits of the signed product (R126) -/
  | mulh (w : BitVec 1) (t0 : BitVec 9) (t1 : BitVec 9) (pr : BitVec 2)
  /-- MULHN: High W bits of the unsigned product (R126) -/
  | mulhn (w : BitVec 1) (t0 : BitVec 9) (t1 : BitVec 9) (pr : BitVec 2)
  /-- MULHSN: High W bits of the signed-by-unsigned product (R126) -/
  | mulhsn (w : BitVec 1) (t0 : BitVec 9) (t1 : BitVec 9) (pr : BitVec 2)
  /-- DIV: Signed division rounded toward zero, under the edge rules of R56 (R126) -/
  | div (w : BitVec 1) (t0 : BitVec 9) (t1 : BitVec 9) (pr : BitVec 2)
  /-- DIVN: Unsigned division (R126) -/
  | divn (w : BitVec 1) (t0 : BitVec 9) (t1 : BitVec 9) (pr : BitVec 2)
  /-- REM: Signed remainder (R126) -/
  | rem (w : BitVec 1) (t0 : BitVec 9) (t1 : BitVec 9) (pr : BitVec 2)
  /-- REMN: Unsigned remainder (R126) -/
  | remn (w : BitVec 1) (t0 : BitVec 9) (t1 : BitVec 9) (pr : BitVec 2)
  /-- MIN: Signed minimum (R126) -/
  | min (w : BitVec 1) (t0 : BitVec 9) (t1 : BitVec 9) (pr : BitVec 2)
  /-- MAX: Signed maximum (R126) -/
  | max (w : BitVec 1) (t0 : BitVec 9) (t1 : BitVec 9) (pr : BitVec 2)
  /-- MINN: Unsigned minimum (R126) -/
  | minn (w : BitVec 1) (t0 : BitVec 9) (t1 : BitVec 9) (pr : BitVec 2)
  /-- MAXN: Unsigned maximum (R126) -/
  | maxn (w : BitVec 1) (t0 : BitVec 9) (t1 : BitVec 9) (pr : BitVec 2)
  /-- AND: Bitwise and (R126) -/
  | and (w : BitVec 1) (t0 : BitVec 9) (t1 : BitVec 9) (pr : BitVec 2)
  /-- OR: Bitwise or (R126) -/
  | or (w : BitVec 1) (t0 : BitVec 9) (t1 : BitVec 9) (pr : BitVec 2)
  /-- XOR: Bitwise exclusive or (R126) -/
  | xor (w : BitVec 1) (t0 : BitVec 9) (t1 : BitVec 9) (pr : BitVec 2)
  /-- ANDN: a and not b (R126) -/
  | andn (w : BitVec 1) (t0 : BitVec 9) (t1 : BitVec 9) (pr : BitVec 2)
  /-- ORN: a or not b (R126) -/
  | orn (w : BitVec 1) (t0 : BitVec 9) (t1 : BitVec 9) (pr : BitVec 2)
  /-- XNOR: not (a xor b) (R126) -/
  | xnor (w : BitVec 1) (t0 : BitVec 9) (t1 : BitVec 9) (pr : BitVec 2)
  /-- SHL: Shift left by b mod W (R126) -/
  | shl (w : BitVec 1) (t0 : BitVec 9) (t1 : BitVec 9) (pr : BitVec 2)
  /-- SHR: Logical shift right by b mod W (R126) -/
  | shr (w : BitVec 1) (t0 : BitVec 9) (t1 : BitVec 9) (pr : BitVec 2)
  /-- SHRA: Arithmetic shift right by b mod W (R126) -/
  | shra (w : BitVec 1) (t0 : BitVec 9) (t1 : BitVec 9) (pr : BitVec 2)
  /-- ROL: Rotate left by b mod W (R126) -/
  | rol (w : BitVec 1) (t0 : BitVec 9) (t1 : BitVec 9) (pr : BitVec 2)
  /-- ROR: Rotate right by b mod W (R126) -/
  | ror (w : BitVec 1) (t0 : BitVec 9) (t1 : BitVec 9) (pr : BitVec 2)
  /-- CLZ: Count leading zero bits (R127) -/
  | clz (w : BitVec 1) (t0 : BitVec 9) (t1 : BitVec 9) (pr : BitVec 2)
  /-- CTZ: Count trailing zero bits (R127) -/
  | ctz (w : BitVec 1) (t0 : BitVec 9) (t1 : BitVec 9) (pr : BitVec 2)
  /-- POPC: Count one bits (R127) -/
  | popc (w : BitVec 1) (t0 : BitVec 9) (t1 : BitVec 9) (pr : BitVec 2)
  /-- BREV: Reverse the bit order (R127) -/
  | brev (w : BitVec 1) (t0 : BitVec 9) (t1 : BitVec 9) (pr : BitVec 2)
  /-- BSWP: Reverse the byte order (R127) -/
  | bswp (w : BitVec 1) (t0 : BitVec 9) (t1 : BitVec 9) (pr : BitVec 2)
  /-- NEG: Integer negation modulo 2^W (R127) -/
  | neg (w : BitVec 1) (t0 : BitVec 9) (t1 : BitVec 9) (pr : BitVec 2)
  /-- ABS: Integer absolute value (R127) -/
  | abs (w : BitVec 1) (t0 : BitVec 9) (t1 : BitVec 9) (pr : BitVec 2)
  /-- NOT: Invert every bit (R127) -/
  | not (w : BitVec 1) (t0 : BitVec 9) (t1 : BitVec 9) (pr : BitVec 2)
  /-- SEXTB: Sign-extend from bit 7 (R127) -/
  | sextb (w : BitVec 1) (t0 : BitVec 9) (t1 : BitVec 9) (pr : BitVec 2)
  /-- SEXTH: Sign-extend from bit 15 (R127) -/
  | sexth (w : BitVec 1) (t0 : BitVec 9) (t1 : BitVec 9) (pr : BitVec 2)
  /-- SEXTW: Sign-extend from bit 31 (64-bit form only) (R127) -/
  | sextw (t0 : BitVec 9) (t1 : BitVec 9) (pr : BitVec 2)
  /-- ZEXTB: Zero-extend from bit 7 (R127) -/
  | zextb (w : BitVec 1) (t0 : BitVec 9) (t1 : BitVec 9) (pr : BitVec 2)
  /-- ZEXTH: Zero-extend from bit 15 (R127) -/
  | zexth (w : BitVec 1) (t0 : BitVec 9) (t1 : BitVec 9) (pr : BitVec 2)
  /-- ZEXTW: Zero-extend from bit 31 (64-bit form only) (R127) -/
  | zextw (t0 : BitVec 9) (t1 : BitVec 9) (pr : BitVec 2)
  /-- BFX: Extract an unsigned bit field (R128) -/
  | bfx (w : BitVec 1) (t0 : BitVec 9) (t1 : BitVec 9) (pr : BitVec 2)
  /-- BFXS: Extract a sign-extended bit field (R128) -/
  | bfxs (w : BitVec 1) (t0 : BitVec 9) (t1 : BitVec 9) (pr : BitVec 2)
  /-- BFI: Insert a bit field from a PAIR of base and value (R128) -/
  | bfi (w : BitVec 1) (t0 : BitVec 9) (t1 : BitVec 9) (pr : BitVec 2)
  /-- LEA: a + (b << scale) modulo 2^W (R126) -/
  | lea (w : BitVec 1) (c : BitVec 2) (t0 : BitVec 9) (t1 : BitVec 9) (pr : BitVec 2)
  /-- ADDI: Add a sign-extended 9-bit immediate (R129) -/
  | addi (w : BitVec 1) (t0 : BitVec 9) (i : BitVec 9) (pr : BitVec 2)
  /-- MULI: Multiply by a sign-extended immediate (R129) -/
  | muli (w : BitVec 1) (t0 : BitVec 9) (i : BitVec 9) (pr : BitVec 2)
  /-- ANDI: Bitwise and with a sign-extended immediate (R129) -/
  | andi (w : BitVec 1) (t0 : BitVec 9) (i : BitVec 9) (pr : BitVec 2)
  /-- ORI: Bitwise or with a sign-extended immediate (R129) -/
  | ori (w : BitVec 1) (t0 : BitVec 9) (i : BitVec 9) (pr : BitVec 2)
  /-- XORI: Bitwise exclusive or with a sign-extended immediate (R129) -/
  | xori (w : BitVec 1) (t0 : BitVec 9) (i : BitVec 9) (pr : BitVec 2)
  /-- SHLI: Shift left by an immediate amount (R129) -/
  | shli (w : BitVec 1) (t0 : BitVec 9) (i : BitVec 9) (pr : BitVec 2)
  /-- SHRI: Logical shift right by an immediate amount (R129) -/
  | shri (w : BitVec 1) (t0 : BitVec 9) (i : BitVec 9) (pr : BitVec 2)
  /-- SHRAI: Arithmetic shift right by an immediate amount (R129) -/
  | shrai (w : BitVec 1) (t0 : BitVec 9) (i : BitVec 9) (pr : BitVec 2)
  /-- ROTI: Rotate left by an immediate amount (R129) -/
  | roti (w : BitVec 1) (t0 : BitVec 9) (i : BitVec 9) (pr : BitVec 2)
  /-- TCMP: Compare two tokens under a condition and send 1 or 0 (R130) -/
  | tcmp (w : BitVec 1) (c : BitVec 4) (t0 : BitVec 9) (t1 : BitVec 9) (pr : BitVec 2)
  /-- TCMPI: Compare a token with an immediate under a condition and send 1 or 0 (R130) -/
  | tcmpi (w : BitVec 1) (c : BitVec 4) (t0 : BitVec 9) (i : BitVec 9) (pr : BitVec 2)
  /-- FADD: Floating addition, rounded once (R131) -/
  | fadd (f : BitVec 2) (r : BitVec 3) (t0 : BitVec 9) (t1 : BitVec 9) (pr : BitVec 2)
  /-- FSUB: Floating subtraction, rounded once (R131) -/
  | fsub (f : BitVec 2) (r : BitVec 3) (t0 : BitVec 9) (t1 : BitVec 9) (pr : BitVec 2)
  /-- FMUL: Floating multiplication, rounded once (R131) -/
  | fmul (f : BitVec 2) (r : BitVec 3) (t0 : BitVec 9) (t1 : BitVec 9) (pr : BitVec 2)
  /-- FMA: Fused multiply-add, rounded once (R131) -/
  | fma (f : BitVec 2) (r : BitVec 3) (t0 : BitVec 9) (t1 : BitVec 9) (pr : BitVec 2)
  /-- FDIV: Floating division, rounded once (R131) -/
  | fdiv (f : BitVec 2) (r : BitVec 3) (t0 : BitVec 9) (t1 : BitVec 9) (pr : BitVec 2)
  /-- FSQRT: Floating square root, rounded once (R131) -/
  | fsqrt (f : BitVec 2) (r : BitVec 3) (t0 : BitVec 9) (t1 : BitVec 9) (pr : BitVec 2)
  /-- FMIN: Floating minimum, NaN-propagating (R132) -/
  | fmin (f : BitVec 2) (t0 : BitVec 9) (t1 : BitVec 9) (pr : BitVec 2)
  /-- FMAX: Floating maximum, NaN-propagating (R132) -/
  | fmax (f : BitVec 2) (t0 : BitVec 9) (t1 : BitVec 9) (pr : BitVec 2)
  /-- FMINNUM: Floating minimum preferring the non-NaN operand (R132) -/
  | fminnum (f : BitVec 2) (t0 : BitVec 9) (t1 : BitVec 9) (pr : BitVec 2)
  /-- FMAXNUM: Floating maximum preferring the non-NaN operand (R132) -/
  | fmaxnum (f : BitVec 2) (t0 : BitVec 9) (t1 : BitVec 9) (pr : BitVec 2)
  /-- FCMP: Floating compare under a condition, sending 1 or 0 (R133) -/
  | fcmp (f : BitVec 2) (c : BitVec 3) (t0 : BitVec 9) (t1 : BitVec 9) (pr : BitVec 2)
  /-- FCVT: Convert between floating and integer formats as the selected pair gives (R135) -/
  | fcvt (x : BitVec 5) (t0 : BitVec 9) (s : BitVec 1) (r : BitVec 3) (pr : BitVec 2)
  /-- FABS: Clear the sign bit (R134) -/
  | fabs (f : BitVec 2) (t0 : BitVec 9) (t1 : BitVec 9) (pr : BitVec 2)
  /-- FNEG: Invert the sign bit (R134) -/
  | fneg (f : BitVec 2) (t0 : BitVec 9) (t1 : BitVec 9) (pr : BitVec 2)
  /-- FCLASS: Classify a floating value into a one-hot token (R134) -/
  | fclass (f : BitVec 2) (t0 : BitVec 9) (t1 : BitVec 9) (pr : BitVec 2)
  /-- FCOPYSIGN: Copy the sign bit of b onto a (R134) -/
  | fcopysign (f : BitVec 2) (t0 : BitVec 9) (t1 : BitVec 9) (pr : BitVec 2)
  /-- LDB: Load a byte, zero-extended (R237) -/
  | ldb (l : BitVec 5) (t0 : BitVec 9) (z : BitVec 2) (o : BitVec 2) (i : BitVec 5) (pr : BitVec 2)
  /-- LDBS: Load a byte, sign-extended (R237) -/
  | ldbs (l : BitVec 5) (t0 : BitVec 9) (z : BitVec 2) (o : BitVec 2) (i : BitVec 5) (pr : BitVec 2)
  /-- LDH: Load a half, zero-extended (R237) -/
  | ldh (l : BitVec 5) (t0 : BitVec 9) (z : BitVec 2) (o : BitVec 2) (i : BitVec 5) (pr : BitVec 2)
  /-- LDHS: Load a half, sign-extended (R237) -/
  | ldhs (l : BitVec 5) (t0 : BitVec 9) (z : BitVec 2) (o : BitVec 2) (i : BitVec 5) (pr : BitVec 2)
  /-- LDW: Load a word, zero-extended (R237) -/
  | ldw (l : BitVec 5) (t0 : BitVec 9) (z : BitVec 2) (o : BitVec 2) (i : BitVec 5) (pr : BitVec 2)
  /-- LDWS: Load a word, sign-extended (R237) -/
  | ldws (l : BitVec 5) (t0 : BitVec 9) (z : BitVec 2) (o : BitVec 2) (i : BitVec 5) (pr : BitVec 2)
  /-- LDD: Load a double (R237) -/
  | ldd (l : BitVec 5) (t0 : BitVec 9) (z : BitVec 2) (o : BitVec 2) (i : BitVec 5) (pr : BitVec 2)
  /-- LDQ: Load a quad as a PAIR token (R237) -/
  | ldq (l : BitVec 5) (t0 : BitVec 9) (z : BitVec 2) (o : BitVec 2) (i : BitVec 5) (pr : BitVec 2)
  /-- STB: Store a byte at commit (R238) -/
  | stb (l : BitVec 5) (z : BitVec 2) (o : BitVec 2) (i : BitVec 14) (pr : BitVec 2)
  /-- STH: Store a half at commit (R238) -/
  | sth (l : BitVec 5) (z : BitVec 2) (o : BitVec 2) (i : BitVec 14) (pr : BitVec 2)
  /-- STW: Store a word at commit (R238) -/
  | stw (l : BitVec 5) (z : BitVec 2) (o : BitVec 2) (i : BitVec 14) (pr : BitVec 2)
  /-- STD: Store a double at commit (R238) -/
  | std (l : BitVec 5) (z : BitVec 2) (o : BitVec 2) (i : BitVec 14) (pr : BitVec 2)
  /-- STQ: Store a quad from a PAIR at commit (R238) -/
  | stq (l : BitVec 5) (z : BitVec 2) (o : BitVec 2) (i : BitVec 14) (pr : BitVec 2)
  /-- STN4: Store one nibble as a masked write (R239) -/
  | stn4 (l : BitVec 5) (z : BitVec 2) (o : BitVec 2) (i : BitVec 13) (n : BitVec 1) (pr : BitVec 2)
  /-- LDV: Unit-stride vector load into a v-register (R240) -/
  | ldv (l : BitVec 5) (v : BitVec 5) (d : BitVec 5) (z : BitVec 2) (o : BitVec 2) (pr : BitVec 2)
  /-- LDV_STR: Strided vector load (R240) -/
  | ldvStr (l : BitVec 5) (v : BitVec 5) (d : BitVec 5) (z : BitVec 2) (o : BitVec 2) (pr : BitVec 2)
  /-- LDV_IDX: Indexed (gather) vector load (R240) -/
  | ldvIdx (l : BitVec 5) (v : BitVec 5) (d : BitVec 5) (z : BitVec 2) (o : BitVec 2) (pr : BitVec 2)
  /-- STV: Unit-stride vector store (R240) -/
  | stv (l : BitVec 5) (v : BitVec 5) (d : BitVec 5) (z : BitVec 2) (o : BitVec 2) (pr : BitVec 2)
  /-- STV_STR: Strided vector store (R240) -/
  | stvStr (l : BitVec 5) (v : BitVec 5) (d : BitVec 5) (z : BitVec 2) (o : BitVec 2) (pr : BitVec 2)
  /-- STV_IDX: Indexed (scatter) vector store (R240) -/
  | stvIdx (l : BitVec 5) (v : BitVec 5) (d : BitVec 5) (z : BitVec 2) (o : BitVec 2) (pr : BitVec 2)
  /-- AADD: Atomic add at the home, returning the old value (R242) -/
  | aadd (l : BitVec 5) (t0 : BitVec 9) (z : BitVec 2) (o : BitVec 2) (s : BitVec 3) (w : BitVec 2) (pr : BitVec 2)
  /-- AAND: Atomic and (R242) -/
  | aand (l : BitVec 5) (t0 : BitVec 9) (z : BitVec 2) (o : BitVec 2) (s : BitVec 3) (w : BitVec 2) (pr : BitVec 2)
  /-- AOR: Atomic or (R242) -/
  | aor (l : BitVec 5) (t0 : BitVec 9) (z : BitVec 2) (o : BitVec 2) (s : BitVec 3) (w : BitVec 2) (pr : BitVec 2)
  /-- AXOR: Atomic exclusive or (R242) -/
  | axor (l : BitVec 5) (t0 : BitVec 9) (z : BitVec 2) (o : BitVec 2) (s : BitVec 3) (w : BitVec 2) (pr : BitVec 2)
  /-- AMIN: Atomic signed minimum (R242) -/
  | amin (l : BitVec 5) (t0 : BitVec 9) (z : BitVec 2) (o : BitVec 2) (s : BitVec 3) (w : BitVec 2) (pr : BitVec 2)
  /-- AMAX: Atomic signed maximum (R242) -/
  | amax (l : BitVec 5) (t0 : BitVec 9) (z : BitVec 2) (o : BitVec 2) (s : BitVec 3) (w : BitVec 2) (pr : BitVec 2)
  /-- AMINN: Atomic unsigned minimum (R242) -/
  | aminn (l : BitVec 5) (t0 : BitVec 9) (z : BitVec 2) (o : BitVec 2) (s : BitVec 3) (w : BitVec 2) (pr : BitVec 2)
  /-- AMAXN: Atomic unsigned maximum (R242) -/
  | amaxn (l : BitVec 5) (t0 : BitVec 9) (z : BitVec 2) (o : BitVec 2) (s : BitVec 3) (w : BitVec 2) (pr : BitVec 2)
  /-- ASWP: Atomic swap (R242) -/
  | aswp (l : BitVec 5) (t0 : BitVec 9) (z : BitVec 2) (o : BitVec 2) (s : BitVec 3) (w : BitVec 2) (pr : BitVec 2)
  /-- ACAS: Atomic compare-and-swap of 4, 8 or 16 bytes (R242) -/
  | acas (l : BitVec 5) (t0 : BitVec 9) (z : BitVec 2) (o : BitVec 2) (s : BitVec 3) (w : BitVec 2) (pr : BitVec 2)
  /-- AFADD: Atomic floating add with RNE at the home (R243) -/
  | afadd (l : BitVec 5) (t0 : BitVec 9) (z : BitVec 2) (o : BitVec 2) (s : BitVec 3) (w : BitVec 2) (pr : BitVec 2)
  /-- FENCE_FULL: Full fence with release and acquire work at its scope (R216) -/
  | fenceFull (s : BitVec 3) (pr : BitVec 2)
  /-- FENCE_ACQ: Acquire fence (R216) -/
  | fenceAcq (s : BitVec 3) (pr : BitVec 2)
  /-- FENCE_REL: Release fence (R216) -/
  | fenceRel (s : BitVec 3) (pr : BitVec 2)
  /-- FENCE_SS: Store-store fence draining its scope's classes (R216) -/
  | fenceSs (s : BitVec 3) (pr : BitVec 2)
  /-- ACQ: Acquire on a binder, waiting on its condition, then invalidating its regions (R219) -/
  | acq (l : BitVec 5) (t0 : BitVec 9) (z : BitVec 2) (o : BitVec 2) (s : BitVec 3) (pr : BitVec 2)
  /-- REL: Release on a binder: drain, write back regions, write WORD after commit (R218) -/
  | rel (l : BitVec 5) (z : BitVec 2) (o : BitVec 2) (i : BitVec 14) (pr : BitVec 2)
  /-- WBR: Write back the dirty nibbles of covered L1D lines (R249) -/
  | wbr (z : BitVec 2) (pr : BitVec 2)
  /-- INVR: Write back and invalidate covered L1D lines (R249) -/
  | invr (z : BitVec 2) (pr : BitVec 2)
  /-- PREF: Prefetch hint for covered lines (R249) -/
  | pref (z : BitVec 2) (pr : BitVec 2)
  /-- IBAR: Fetch barrier: discard younger blocks, write back, invalidate block caches, refetch (R251) -/
  | ibar (pr : BitVec 2)
  /-- LNCFG: At commit, bind an AGE to a port and start it on a loop-nest record (R253) -/
  | lncfg (pr : BitVec 2)
  /-- VSETL: Grant a vector length for a format and set VL and VTYPE (R143) -/
  | vsetl (v : BitVec 5) (t0 : BitVec 9) (a : BitVec 4) (pr : BitVec 2)
  /-- VGETL: Return the largest grant for a format at the current width (R143) -/
  | vgetl (v : BitVec 5) (t0 : BitVec 9) (a : BitVec 4) (pr : BitVec 2)
  /-- VBCAST: Broadcast a token element into a v-register (R143) -/
  | vbcast (v : BitVec 5) (a : BitVec 5) (pr : BitVec 2)
  /-- VIDX: Write each element's index (R143) -/
  | vidx (v : BitVec 5) (a : BitVec 5) (pr : BitVec 2)
  /-- VEXTR: Extract one element as a token (R144) -/
  | vextr (v : BitVec 5) (t0 : BitVec 9) (a : BitVec 5) (pr : BitVec 2)
  /-- VADD: Element-wise addition (R145) -/
  | vadd (v : BitVec 5) (d : BitVec 5) (a : BitVec 5) (b : BitVec 5) (pr : BitVec 2)
  /-- VSUB: Element-wise subtraction (R145) -/
  | vsub (v : BitVec 5) (d : BitVec 5) (a : BitVec 5) (b : BitVec 5) (pr : BitVec 2)
  /-- VRSUB: Element-wise reverse subtraction (R145) -/
  | vrsub (v : BitVec 5) (d : BitVec 5) (a : BitVec 5) (b : BitVec 5) (pr : BitVec 2)
  /-- VMUL: Element-wise multiplication (R145) -/
  | vmul (v : BitVec 5) (d : BitVec 5) (a : BitVec 5) (b : BitVec 5) (pr : BitVec 2)
  /-- VDIV: Element-wise division (R145) -/
  | vdiv (v : BitVec 5) (d : BitVec 5) (a : BitVec 5) (b : BitVec 5) (pr : BitVec 2)
  /-- VMIN: Element-wise minimum (R145) -/
  | vmin (v : BitVec 5) (d : BitVec 5) (a : BitVec 5) (b : BitVec 5) (pr : BitVec 2)
  /-- VMAX: Element-wise maximum (R145) -/
  | vmax (v : BitVec 5) (d : BitVec 5) (a : BitVec 5) (b : BitVec 5) (pr : BitVec 2)
  /-- VABSD: Element-wise absolute difference (R145) -/
  | vabsd (v : BitVec 5) (d : BitVec 5) (a : BitVec 5) (b : BitVec 5) (pr : BitVec 2)
  /-- VFMA: Element-wise fused multiply-add into vd (R146) -/
  | vfma (v : BitVec 5) (d : BitVec 5) (a : BitVec 5) (b : BitVec 5) (pr : BitVec 2)
  /-- VFMS: Element-wise fused multiply-subtract (R146) -/
  | vfms (v : BitVec 5) (d : BitVec 5) (a : BitVec 5) (b : BitVec 5) (pr : BitVec 2)
  /-- VFNMA: Negated fused multiply-add (R146) -/
  | vfnma (v : BitVec 5) (d : BitVec 5) (a : BitVec 5) (b : BitVec 5) (pr : BitVec 2)
  /-- VFNMS: Negated fused multiply-subtract (R146) -/
  | vfnms (v : BitVec 5) (d : BitVec 5) (a : BitVec 5) (b : BitVec 5) (pr : BitVec 2)
  /-- VDOTI8: I8 lane dot products accumulated into I32 lanes (R147) -/
  | vdoti8 (v : BitVec 5) (d : BitVec 5) (a : BitVec 5) (b : BitVec 5) (pr : BitVec 2)
  /-- VDOTI4: I4 lane dot products accumulated into I32 lanes (R147) -/
  | vdoti4 (v : BitVec 5) (d : BitVec 5) (a : BitVec 5) (b : BitVec 5) (pr : BitVec 2)
  /-- VAND: Element-wise bitwise and (R148) -/
  | vand (v : BitVec 5) (d : BitVec 5) (a : BitVec 5) (b : BitVec 5) (pr : BitVec 2)
  /-- VOR: Element-wise bitwise or (R148) -/
  | vor (v : BitVec 5) (d : BitVec 5) (a : BitVec 5) (b : BitVec 5) (pr : BitVec 2)
  /-- VXOR: Element-wise exclusive or (R148) -/
  | vxor (v : BitVec 5) (d : BitVec 5) (a : BitVec 5) (b : BitVec 5) (pr : BitVec 2)
  /-- VANDN: Element-wise a and not b (R148) -/
  | vandn (v : BitVec 5) (d : BitVec 5) (a : BitVec 5) (b : BitVec 5) (pr : BitVec 2)
  /-- VSHL: Element-wise shift left (R148) -/
  | vshl (v : BitVec 5) (d : BitVec 5) (a : BitVec 5) (b : BitVec 5) (pr : BitVec 2)
  /-- VSHR: Element-wise logical shift right (R148) -/
  | vshr (v : BitVec 5) (d : BitVec 5) (a : BitVec 5) (b : BitVec 5) (pr : BitVec 2)
  /-- VSHRA: Element-wise arithmetic shift right (R148) -/
  | vshra (v : BitVec 5) (d : BitVec 5) (a : BitVec 5) (b : BitVec 5) (pr : BitVec 2)
  /-- VNOT: Element-wise bitwise not (R148) -/
  | vnot (v : BitVec 5) (d : BitVec 5) (a : BitVec 5) (pr : BitVec 2)
  /-- VCMP: Element-wise compare writing a MASK register (R149) -/
  | vcmp (v : BitVec 5) (d : BitVec 5) (a : BitVec 5) (b : BitVec 5) (c : BitVec 3) (pr : BitVec 2)
  /-- VMOV: Copy all lanes and the tag of va (R150) -/
  | vmov (v : BitVec 5) (d : BitVec 5) (a : BitVec 5) (pr : BitVec 2)
  /-- VSEL: Select elements of va or vb under the mask in vd (R150) -/
  | vsel (v : BitVec 5) (d : BitVec 5) (a : BitVec 5) (b : BitVec 5) (pr : BitVec 2)
  /-- VCMPCT: Compact the masked-true elements of va (R150) -/
  | vcmpct (v : BitVec 5) (d : BitVec 5) (a : BitVec 5) (b : BitVec 5) (pr : BitVec 2)
  /-- VPERMX: Permute va by I32 indices in vb (R150) -/
  | vpermx (v : BitVec 5) (d : BitVec 5) (a : BitVec 5) (b : BitVec 5) (pr : BitVec 2)
  /-- VSLIDEUP: Slide elements up by s (R150) -/
  | vslideup (v : BitVec 5) (d : BitVec 5) (a : BitVec 5) (s : BitVec 5) (pr : BitVec 2)
  /-- VSLIDEDN: Slide elements down by s (R150) -/
  | vslidedn (v : BitVec 5) (d : BitVec 5) (a : BitVec 5) (s : BitVec 5) (pr : BitVec 2)
  /-- VZIP: Interleave va and vb (R150) -/
  | vzip (v : BitVec 5) (d : BitVec 5) (a : BitVec 5) (b : BitVec 5) (pr : BitVec 2)
  /-- VUNZIP: Take the even elements of va followed by vb (R150) -/
  | vunzip (v : BitVec 5) (d : BitVec 5) (a : BitVec 5) (b : BitVec 5) (pr : BitVec 2)
  /-- RSUM: Reduce elements to their sum, rounded once (R152) -/
  | rsum (v : BitVec 5) (t0 : BitVec 9) (a : BitVec 5) (pr : BitVec 2)
  /-- RMAX: Reduce to the maximum element (R151) -/
  | rmax (v : BitVec 5) (t0 : BitVec 9) (a : BitVec 5) (pr : BitVec 2)
  /-- RMIN: Reduce to the minimum element (R151) -/
  | rmin (v : BitVec 5) (t0 : BitVec 9) (a : BitVec 5) (pr : BitVec 2)
  /-- RSUMW: Reduce to a widened sum (R151) -/
  | rsumw (v : BitVec 5) (t0 : BitVec 9) (a : BitVec 5) (pr : BitVec 2)
  /-- RCOUNT: Count the true lanes of a mask (R151) -/
  | rcount (v : BitVec 5) (t0 : BitVec 9) (a : BitVec 5) (pr : BitVec 2)
  /-- RFIRST: Index of the lowest true lane of a mask (R151) -/
  | rfirst (v : BitVec 5) (t0 : BitVec 9) (a : BitVec 5) (pr : BitVec 2)
  /-- VSCAN_SUM: Inclusive prefix sums, each rounded once (R153) -/
  | vscanSum (v : BitVec 5) (d : BitVec 5) (a : BitVec 5) (pr : BitVec 2)
  /-- VSCAN_MAX: Inclusive prefix maxima (R153) -/
  | vscanMax (v : BitVec 5) (d : BitVec 5) (a : BitVec 5) (pr : BitVec 2)
  /-- VSCAN_MIN: Inclusive prefix minima (R153) -/
  | vscanMin (v : BitVec 5) (d : BitVec 5) (a : BitVec 5) (pr : BitVec 2)
  /-- VSCAN_SEGSUM: Segmented prefix sums under a mask (R153) -/
  | vscanSegsum (v : BitVec 5) (d : BitVec 5) (a : BitVec 5) (b : BitVec 5) (pr : BitVec 2)
  /-- EXP2: Element-wise 2^x rounded once with RNE (R154) -/
  | exp2 (v : BitVec 5) (d : BitVec 5) (a : BitVec 5) (pr : BitVec 2)
  /-- LOG2: Element-wise log2 (R154) -/
  | log2 (v : BitVec 5) (d : BitVec 5) (a : BitVec 5) (pr : BitVec 2)
  /-- RCP: Element-wise reciprocal (R154) -/
  | rcp (v : BitVec 5) (d : BitVec 5) (a : BitVec 5) (pr : BitVec 2)
  /-- RSQ: Element-wise reciprocal square root (R154) -/
  | rsq (v : BitVec 5) (d : BitVec 5) (a : BitVec 5) (pr : BitVec 2)
  /-- SQRT: Element-wise square root (R154) -/
  | sqrt (v : BitVec 5) (d : BitVec 5) (a : BitVec 5) (pr : BitVec 2)
  /-- TANH: Element-wise hyperbolic tangent (R154) -/
  | tanh (v : BitVec 5) (d : BitVec 5) (a : BitVec 5) (pr : BitVec 2)
  /-- SIGM: Element-wise logistic sigmoid (R154) -/
  | sigm (v : BitVec 5) (d : BitVec 5) (a : BitVec 5) (pr : BitVec 2)
  /-- ERF: Element-wise error function (R154) -/
  | erf (v : BitVec 5) (d : BitVec 5) (a : BitVec 5) (pr : BitVec 2)
  /-- VCVT: Convert elements of va into the format named in vb (R155) -/
  | vcvt (v : BitVec 5) (d : BitVec 5) (a : BitVec 5) (b : BitVec 4) (r : BitVec 3) (pr : BitVec 2)
  /-- VDEQ: Decode CB2 indices into BF16 weights (R157) -/
  | vdeq (v : BitVec 5) (d : BitVec 5) (a : BitVec 5) (b : BitVec 3) (pr : BitVec 2)
  /-- VSCL: Scale elements by S12 block scales (R157) -/
  | vscl (v : BitVec 5) (d : BitVec 5) (a : BitVec 5) (b : BitVec 5) (pr : BitVec 2)
  /-- VQNT: Quantise elements by S12 block scales into a narrow format (R157) -/
  | vqnt (v : BitVec 5) (d : BitVec 5) (a : BitVec 5) (b : BitVec 5) (pr : BitVec 2)
  /-- VAMAX: Compute one S12 scale per group of 32 elements (R158) -/
  | vamax (v : BitVec 5) (d : BitVec 5) (a : BitVec 5) (pr : BitVec 2)
  /-- PACK: Narrow two widened registers into one (R156) -/
  | pack (v : BitVec 5) (d : BitVec 5) (a : BitVec 5) (b : BitVec 5) (pr : BitVec 2)
  /-- UNPKLO: Widen the low half of a narrow register (R156) -/
  | unpklo (v : BitVec 5) (d : BitVec 5) (a : BitVec 5) (pr : BitVec 2)
  /-- UNPKHI: Widen the high half of a narrow register (R156) -/
  | unpkhi (v : BitVec 5) (d : BitVec 5) (a : BitVec 5) (pr : BitVec 2)
  /-- GETTAG: Send the format tag of a v-register (R159) -/
  | gettag (v : BitVec 5) (t0 : BitVec 9) (a : BitVec 5) (pr : BitVec 2)
  /-- SETTAG: Set the format tag of a v-register (R159) -/
  | settag (v : BitVec 5) (a : BitVec 5) (pr : BitVec 2)
  /-- CLRTAG: Set a v-register's tag to NONE (R159) -/
  | clrtag (v : BitVec 5) (a : BitVec 5) (pr : BitVec 2)
  /-- MSHAPE: Request an accumulator shape, granted at commit (R167) -/
  | mshape (t0 : BitVec 9) (pr : BitVec 2)
  /-- MZERO: Zero the named m-registers at commit (R168) -/
  | mzero (m : BitVec 8) (pr : BitVec 2)
  /-- MWAIT: Send MSTAT once operations on the named m-registers complete (R169) -/
  | mwait (t0 : BitVec 9) (m : BitVec 8) (pr : BitVec 2)
  /-- MSTAT: Send MSTAT and the full column count (R170) -/
  | mstat (t0 : BitVec 9) (pr : BitVec 2)
  /-- MTSCL: Set the tensor scales of an m-register at commit (R171) -/
  | mtscl (k : BitVec 3) (pr : BitVec 2)
  /-- MMA: Multiply two port streams into an accumulator (R175) -/
  | mma (v : BitVec 5) (d : BitVec 3) (a : BitVec 3) (b : BitVec 3) (c : BitVec 1) (pr : BitVec 2)
  /-- MMAS: Multiply two scaled narrow port streams into an accumulator (R175) -/
  | mmas (v : BitVec 5) (d : BitVec 3) (a : BitVec 3) (b : BitVec 3) (c : BitVec 1) (pr : BitVec 2)
  /-- MMAV: Accumulate an outer product of two v-registers (R178) -/
  | mmav (v : BitVec 5) (k : BitVec 3) (a : BitVec 5) (b : BitVec 5) (pr : BitVec 2)
  /-- MMAV_SUB: Subtract an outer product of two v-registers (R178) -/
  | mmavSub (v : BitVec 5) (k : BitVec 3) (a : BitVec 5) (b : BitVec 5) (pr : BitVec 2)
  /-- MLDV: Load one accumulator row from a v-register (R179) -/
  | mldv (v : BitVec 5) (k : BitVec 3) (a : BitVec 5) (r : BitVec 5) (pr : BitVec 2)
  /-- MRDV: Read one accumulator row into a v-register (R179) -/
  | mrdv (v : BitVec 5) (d : BitVec 5) (k : BitVec 3) (r : BitVec 5) (pr : BitVec 2)
  /-- MSTO: Snapshot, scale and round an accumulator into an outbound port (R181) -/
  | msto (v : BitVec 5) (k : BitVec 3) (n : BitVec 3) (r : BitVec 3) (g : BitVec 4) (c : BitVec 1) (pr : BitVec 2)
  /-- MADDM: Add two m-registers element-wise (R180) -/
  | maddm (v : BitVec 5) (d : BitVec 3) (a : BitVec 3) (b : BitVec 3) (pr : BitVec 2)
  /-- MTRN: Transpose each 32 x 32 slice of an m-register (R180) -/
  | mtrn (v : BitVec 5) (d : BitVec 3) (a : BitVec 3) (pr : BitVec 2)
  /-- MCOPY: Copy an m-register with its tag (R180) -/
  | mcopy (v : BitVec 5) (d : BitVec 3) (a : BitVec 3) (pr : BitVec 2)
  /-- SPAWN: At commit push a child frame counted in the spawner's segment (R287) -/
  | spawn (pr : BitVec 2)
  /-- SPAWNA: At commit push a child frame counted in an ancestor's segment (R288) -/
  | spawna (pr : BitVec 2)
  /-- JOIN: Commit to the continuation and suspend unless the join counter is zero (R289) -/
  | join (pr : BitVec 2)
  /-- TASKEND: End the task at commit, clearing ports and AGEs and applying retirement (R291) -/
  | taskend (pr : BitVec 2)
  /-- YIELD: Write the suspension record, push a resume frame and fall idle (R292) -/
  | yield (pr : BitVec 2)
  /-- TASKID: Send the TASKID, own segment or parent segment (R293) -/
  | taskid (t0 : BitVec 9) (n : BitVec 2) (pr : BitVec 2)
  /-- WIDTH: Set the width hint of the resident task at commit (R294) -/
  | width (pr : BitVec 2)
  /-- LAUNCH: At commit release and post a launch record to the placement unit (R295) -/
  | launch (pr : BitVec 2)
  /-- DOMWAIT: Wait until the steal domain is quiescent and send the round count (R296) -/
  | domwait (t0 : BitVec 9) (pr : BitVec 2)
  /-- CHCFG: Bind a port to a neighbour port with a key at commit (R299) -/
  | chcfg (n : BitVec 4) (pr : BitVec 2)
  /-- CHCFG_AGE: Bind a port to an AGE at commit, continuing a stopped AGE (R300) -/
  | chcfgAge (n : BitVec 4) (pr : BitVec 2)
  /-- CHLEN: Send a port's count, credit and binding state (R301) -/
  | chlen (t0 : BitVec 9) (n : BitVec 4) (pr : BitVec 2)
  /-- CHCLR: Empty a port at commit, optionally removing its binding (R302) -/
  | chclr (t1 : BitVec 1) (n : BitVec 4) (pr : BitVec 2)
  /-- WAITC: Wait for posted stores of the named classes to be performed (R362) -/
  | waitc (t0 : BitVec 9) (m : BitVec 3) (pr : BitVec 2)
  /-- WAITC_AGE: Wait until an AGE is idle, faulted or stopped (R362) -/
  | waitcAge (t0 : BitVec 9) (n : BitVec 3) (pr : BitVec 2)
  /-- WAITC_JOIN: Wait without suspending until the own join counter reads zero (R362) -/
  | waitcJoin (t0 : BitVec 9) (pr : BitVec 2)
  /-- RDC: Send a selected counter value (R363) -/
  | rdc (t0 : BitVec 9) (c : BitVec 5) (pr : BitVec 2)
  /-- JADD: Add a signed amount to a join counter after a release at its scope (R364) -/
  | jadd (s : BitVec 3) (pr : BitVec 2)
  /-- PCFG: Configure a performance counter at commit (R365) -/
  | pcfg (n : BitVec 3) (pr : BitVec 2)
  /-- TIME: Send TIMEBASE, its status or the time of the last step (R366) -/
  | time (t0 : BitVec 9) (q : BitVec 2) (pr : BitVec 2)
  /-- CBLD: Load the context's codebook from memory at commit (R341) -/
  | cbld (z : BitVec 2) (pr : BitVec 2)
  /-- ALINV: Invalidate translations and lookaside entries for a page, zone or context (R336) -/
  | alinv (s : BitVec 3) (z : BitVec 2) (pr : BitVec 2)
  /-- ATTR: Query the home's translation attributes for an address (R337) -/
  | attr (t0 : BitVec 9) (z : BitVec 2) (pr : BitVec 2)
  /-- DMAPQ: Query the decode map version, opcode validity or scan-map version (R343) -/
  | dmapq (t0 : BitVec 9) (q : BitVec 2) (pr : BitVec 2)
  /-- WL_LAUNCH: Fence at device scope and queue a launch post on the command port (R407) -/
  | wlLaunch (s : BitVec 5) (d : BitVec 5)
  /-- WL_FENCE: Wait until named launches are final, then acquire (R407) -/
  | wlFence (s : BitVec 5) (d : BitVec 5)
  /-- WL_POLL: Read a launch record's STATE with acquire (R407) -/
  | wlPoll (s : BitVec 5) (d : BitVec 5)
  /-- WL_WAIT: Wait for a final STATE or a deadline (R407) -/
  | wlWait (t0 : BitVec 5) (s : BitVec 5) (d : BitVec 5)
  /-- WL_CANCEL: Ask the placement unit to cancel a launch (R408) -/
  | wlCancel (s : BitVec 5) (d : BitVec 5)
  /-- WL_STATUS: Return a command-port status item (R408) -/
  | wlStatus (s : BitVec 5) (d : BitVec 5)
  /-- WL_PRIO: Change the priority of a launch (R408) -/
  | wlPrio (t0 : BitVec 5) (s : BitVec 5) (d : BitVec 5)
  /-- BLOCK_FETCH: A core or engine hart fetches a block, checks it and injects read-slot tokens (R83) -/
  | blockFetch (hart : Nat) (guess : Option Dbl)
  /-- RETURN_STACK_SPILL: The oldest CALL block spills return-stack entry 0 to its slot before commit (R117) -/
  | returnStackSpill (hart : Nat)
  /-- BLOCK_COMMIT: The oldest block meeting every commit condition commits all its effects at one step (R25) -/
  | blockCommit (hart : Nat)
  /-- FAULT_TAKE: The oldest block with a recorded fault takes it, discards and freezes the core (R480) -/
  | faultTake (hart : Nat)
  /-- OCHRE_PACKET_ENQUEUE: A stopped sender's packet enters the Slate queue once room frees (R283) -/
  | ochrePacketEnqueue (row : Nat)
  /-- OCHRE_PACKET_READ: A Slate core reads a packet from its queue, freeing room (R283) -/
  | ochrePacketRead (row : Nat)
  /-- LOAD_REPLY: A load's value returns from its home and resolves the load (R237) -/
  | loadReply (hart tag idx : Nat)
  /-- ATOMIC_PERFORM: An atomic of the oldest block is performed at its home, binding the block (R244) -/
  | atomicPerform (hart tag idx : Nat)
  /-- HOST_ATOMIC_CAS_RETRY: The home repeats a read and CAS at a host location until it succeeds (R245) -/
  | hostAtomicCasRetry (hart tag idx : Nat) (other : Dbl)
  /-- POSTED_STORE_PERFORM: A posted store is performed at its target and its class count falls (R210) -/
  | postedStorePerform (hart n : Nat)
  /-- REL_ITEM_PERFORM: A committed REL drains, writes back its regions and writes WORD (R218) -/
  | relItemPerform (hart n : Nat)
  /-- STORE_RETRY_REOFFER: 256 cycles after a retry reply the agent offers the store again (R282) -/
  | storeRetryReoffer (hart n : Nat)
  /-- REPLAY_ENTRY_PERFORM: A replay entry is performed in sequence, lowering its class count (R282) -/
  | replayEntryPerform (bank : Nat)
  /-- RPLCMD_REPLAY: A Slate core starts replay of a selected agent's entries (R282) -/
  | rplcmdReplay (bank : Nat)
  /-- RPLCMD_DISCARD: A Slate core discards a selected agent's replay entries (R383) -/
  | rplcmdDiscard (bank : Nat)
  /-- REPLAY_HWM_READ: Reading the high-water mark returns and clears it (R383) -/
  | replayHwmRead (bank : Nat)
  /-- PAGE_WALK_COMPLETE: A home walk completes, serving the requests waiting on that page (R199) -/
  | pageWalkComplete (ctx zone : Nat) (va : Dbl)
  /-- L1D_EVICTION: An L1D line is evicted and its dirty nibbles written back (R223) -/
  | l1dEviction (hart zone line : Nat)
  /-- INVALIDATION_COMPLETE: A home completes an invalidation after its old-entry requests are performed (R200) -/
  | invalidationComplete 
  /-- PAGE_MOVE: The placement unit moves a page between HBM stacks by copy and CAS (R204) -/
  | pageMove (ctx : Nat) (va : Dbl) (stack : Nat)
  /-- WIDEN_RESERVE: The placement unit reserves idle completing tiles and the core stops fetching (R31) -/
  | widenReserve (hart : Nat)
  /-- WIDEN_REDISTRIBUTE: After drain and BUSY clear, registers are redistributed and CWIDTH set (R32) -/
  | widenRedistribute (hart : Nat)
  /-- TENSOR_ISSUE: A tensor instruction issues once oldest, node free and BUSY clear (R163) -/
  | tensorIssue (hart tag idx : Nat)
  /-- MMA_ENTRY_CONSUME: An MMA consumes and checks the next entry arriving on its port (R176) -/
  | mmaEntryConsume (hart node : Nat)
  /-- TENSOR_OP_COMPLETE: A tensor operation completes and clears its BUSY bit (R163) -/
  | tensorOpComplete (hart node : Nat)
  /-- MSTO_ENTRY_PUSH: An MSTO output entry enters its port as room allows after commit (R182) -/
  | mstoEntryPush (hart node : Nat)
  /-- MATRIX_NODE_MODE_CHANGE: A matrix node enters or leaves narrowed mode at a group boundary (R185) -/
  | matrixNodeModeChange (hart node : Nat)
  /-- PORT_ENTRY_DELIVER: An agreed binding sends an entry over the link into the inbound port (R277) -/
  | portEntryDeliver (place port : Nat)
  /-- PORT_CREDIT_RETURN: A committed pop returns one credit to the sender (R277) -/
  | portCreditReturn (place port : Nat)
  /-- AGE_RECORD_FETCH: An AGE reads its record with the two SEAL reads and starts or faults (R255) -/
  | ageRecordFetch (place age : Nat)
  /-- AGE_ELEMENT_DELIVER: A reader AGE packs elements and delivers an entry into its port (R257) -/
  | ageElementDeliver (place age : Nat)
  /-- AGE_ELEMENT_WRITE: A writer AGE pops an entry and writes its elements (R257) -/
  | ageElementWrite (place age : Nat)
  /-- OWNER_POP: An idle core's deque engine takes a frame from its ring or overflow (R267) -/
  | ownerPop (hart : Nat)
  /-- THEFT_REQUEST: A victim MT performs a thief's request by overflow hand-over or CAS (R268) -/
  | theftRequest (hart : Nat)
  /-- THEFT_COPY_COMPLETE: The thief finishes copying the slot, clears TRANSIT and starts the frame (R268) -/
  | theftCopyComplete (hart : Nat)
  /-- THEFT_REPLY: A thief receives a reply and moves its victim pointer on empty (R322) -/
  | theftReply (hart : Nat)
  /-- THEFT_LAP_WAIT_EXPIRY: 64 cycles after a lap of empty replies the thief starts a new lap (R322) -/
  | theftLapWaitExpiry (hart : Nat)
  /-- POOL_TAKE_RETRY: A waiting deque engine retries the take once segments are added (R264) -/
  | poolTakeRetry (place : Nat)
  /-- JOIN_WORD_READ: The oldest JOIN block reads its word with acquire and commits (R289) -/
  | joinWordRead (hart : Nat)
  /-- JOIN_SUSPEND: After the suspension record the CAS to SUSP completes or is retried (R272) -/
  | joinSuspend (hart : Nat)
  /-- JCOUNT_DECREMENT: The home decrements a join counter and resumes or retires as the old word gives (R274) -/
  | jcountDecrement 
  /-- RESUME_FRAME_HANDOFF: The placement unit pushes a resume frame onto the domain's origin core (R275) -/
  | resumeFrameHandoff 
  /-- GRAPH_COMPLETE: After drain the placement unit adds to the binder, writes STATE and frees the rectangle (R13) -/
  | graphComplete (graph : Nat)
  /-- QUIESCENCE_TOKEN_FORWARD: An idle core forwards the domain token, coloured, and whitens (R276) -/
  | quiescenceTokenForward (hart : Nat)
  /-- ENGINE_KICK_START: A kick ends an idle hart's binder wait and it starts at EENTRY (R305) -/
  | engineKickStart (place : Nat)
  /-- LAUNCH_POST: The placement unit reads and checks a posted launch record (R310) -/
  | launchPost 
  /-- PLACEMENT_DECISION: The placement unit places the head launch or a restore into a rectangle (R317) -/
  | placementDecision 
  /-- LAUNCH_AGE_TICK: After AGEP a held launch gains one level (R315) -/
  | launchAgeTick (n : Nat)
  /-- BACKFILL_RESERVE: After BFWAIT at the head, a cluster is reserved for the launch (R319) -/
  | backfillReserve 
  /-- TIME_TRIGGER_SLOT: TIMEBASE reaches a slot and the entry posts or counts a miss (R312) -/
  | timeTriggerSlot (entry : Nat)
  /-- LAUNCH_TABLE_ENABLE: Setting EN fixes the first slot of a launch-table entry (R344) -/
  | launchTableEnable (entry : Nat)
  /-- MISSED_READ: Reading MISSED returns and clears the missed-slot counter (R358) -/
  | missedRead (entry : Nat)
  /-- DOORBELL_WRITE: A host doorbell write posts a launch record address (R412) -/
  | doorbellWrite (page : Nat) (addr : Dbl)
  /-- LAUNCH_PAGE_CANCEL: A write to CANCEL cancels the launch at CMDADDR (R412) -/
  | launchPageCancel (page : Nat)
  /-- LAUNCH_PAGE_PRIOSET: A write to PRIOSET changes the priority of the launch at CMDADDR (R412) -/
  | launchPagePrioset (page : Nat) (prio : BitVec 5)
  /-- LASTERR_READ: Reading LASTERR returns and clears the latest refused record (R412) -/
  | lasterrRead (page : Nat)
  /-- TINV_INVALIDATE: A GO write starts a table invalidation for a context (R411) -/
  | tinvInvalidate (ctl : Dbl)
  /-- PE_SWAP_OUT: PECMD OP 1 swaps a rectangle out to its shadow bank (R389) -/
  | peSwapOut (cmd : Dbl)
  /-- PE_PRELOAD_SHADOW: PECMD OP 2 preloads a shadow bank from a Sepia image (R404) -/
  | pePreloadShadow (cmd : Dbl)
  /-- PE_CLOCK_STOP: PECMD OP 3 stops a rectangle's clocks and writes a Sepia image (R393) -/
  | peClockStop (cmd : Dbl)
  /-- PE_DRAIN_IVORY: PECMD OP 4 restores an image in drain mode and drains it to an Ivory record (R396) -/
  | peDrainIvory (cmd : Dbl)
  /-- PE_RESTORE_SEPIA: PECMD OP 5 restores a Sepia image into a rectangle (R394) -/
  | peRestoreSepia (cmd : Dbl)
  /-- PE_RESTORE_IVORY: PECMD OP 6 restores an Ivory record into a rectangle (R402) -/
  | peRestoreIvory (cmd : Dbl)
  /-- SHADOW_SWAP: A tile takes the swap signal and exchanges live and shadow sides in 96 cycles (R389) -/
  | shadowSwap (place : Nat)
  /-- STREAMER_WRITE_OUT: The streamer writes a swapped-out shadow side as a Sepia image (R391) -/
  | streamerWriteOut (place : Nat)
  /-- SCRATCH_PAGE_EXCHANGE: The streamer exchanges one scratch page and sets its resident bit (R392) -/
  | scratchPageExchange (place page : Nat)
  /-- ARRIVAL_LOG_APPEND: A message for a non-live context goes to its shadow bank or arrival log (R388) -/
  | arrivalLogAppend (image : Nat)
  /-- HELD_MESSAGE_REOFFER: A home offers a refused message again every 256 cycles (R388) -/
  | heldMessageReoffer 
  /-- DRAIN_COMPLETE: Drain steps end and the Ivory record is written (R396) -/
  | drainComplete 
  /-- DRAIN_LIMIT_EXPIRY: The drain limit expires and the drain stops with status 3 or 4 (R397) -/
  | drainLimitExpiry 
  /-- DBG_RESUME: DBGCTL resume continues held blocks and fetch (R376) -/
  | dbgResume (hart : Nat)
  /-- DBG_REEXECUTE: DBGCTL re-execute discards unbound held blocks and resumes (R376) -/
  | dbgReexecute (hart : Nat)
  /-- DBG_END_CONTEXT: DBGCTL end stops and discards the whole context and reports it ended (R376) -/
  | dbgEndContext (hart : Nat)
  /-- DBG_HALT: DBGCTL halt stops a running core, freezing it with cause 0x74 (R376) -/
  | dbgHalt (hart : Nat)
  /-- DBG_STEP: DBGCTL step resumes until one more block commits (R376) -/
  | dbgStep (hart : Nat)
  /-- DBG_RESOLVE: DBGCTL resolve marks an emulated load's LSID resolved (R376) -/
  | dbgResolve (hart tag lsid : Nat)
  /-- DBG_THALT_WRITE: Writing THALT halts or releases token flow of a frozen core (R377) -/
  | dbgThaltWrite (hart : Nat) (on : Bool)
  /-- DBG_INJECT: An INJECT GO write delivers a token into a held block (R379) -/
  | dbgInject (hart : Nat) (ctl : Dbl)
  /-- DBG_REGISTER_WRITE: A Slate write into a frozen core's register area marks the core (R109) -/
  | dbgRegisterWrite (place offset size : Nat) (value : Dbl)
  /-- PORT_CONTROL_WRITE: A Slate write of a port control word reshapes the queue (R479) -/
  | portControlWrite (place port : Nat) (value : Dbl)
  /-- ENGINE_RESUME: ECMD 1 resumes a frozen engine hart (R376) -/
  | engineResume (place : Nat)
  /-- ENGINE_REEXECUTE: ECMD 2 re-executes a frozen engine hart's block (R376) -/
  | engineReexecute (place : Nat)
  /-- ENGINE_RETURN_IDLE: ECMD 3 returns an engine hart to idle (R376) -/
  | engineReturnIdle (place : Nat)
  /-- AGE_RESUME: The AGE control RESUME bit resumes an AGE at its faulting element (R258) -/
  | ageResume (place age : Nat)
  /-- AGE_STOP: The AGE control STOP bit stops an AGE into its save area (R376) -/
  | ageStop (place age : Nat)
  /-- WATCH_ARM: Setting EN arms a watchpoint's pages as WT and then sets ARMED (R380) -/
  | watchArm (ctx n : Nat)
  /-- WATCH_DISARM: Clearing EN disarms pages no other descriptor covers (R380) -/
  | watchDisarm (ctx n : Nat)
  /-- TRACE_GAP_RECORD: Once room returns, one gap record reports lost trace copies (R383) -/
  | traceGapRecord (place : Nat)
  /-- REGISTER_WRITE: A write to a register with no behaviour of its own sets its fields (R5); `host`: by the external host, in BAR2 (R410) -/
  | registerWrite (host : Bool) (offset : Nat) (value : Dbl)
  /-- ISLAND_POINT_CHANGE: An island's operating point change takes effect between cycles (R433) -/
  | islandPointChange (n : Nat)
  /-- POWER_SAMPLE: Every 10 us the Pewter core samples power and raises or clears the alarm (R434) -/
  | powerSample (watts : Nat)
  /-- VALARM_COUNT_READ: Reading COUNT returns and clears the alarm count (R434) -/
  | valarmCountRead 
  /-- ISLAND_CAP_STEP: Every 100 us under overload one more XT island is lowered a point (R435) -/
  | islandCapStep (row : Nat)
  /-- JUNCTION_OVERTEMP: A junction at 105 C sets its die's islands to point 3 (R437) -/
  | junctionOvertemp (die : Nat)
  /-- PTP_MESSAGE: An IEEE 1588 message disciplines TIMEBASE by slewing or stepping (R360) -/
  | ptpMessage (ref : Dbl)
  /-- PTP_HOLDOVER_TIMEOUT: Two seconds without messages puts SYNC into holdover (R437) -/
  | ptpHoldoverTimeout 
  /-- FUNCTION_READY: A function becomes usable at bring-up and its READY bit sets (R436) -/
  | functionReady (bit : Nat)
  /-- DUMPV_CLEAR: Writing 1 to READY bit 23 clears DUMPV (R440) -/
  | dumpvClear 
  /-- DEVICE_RESET: Device reset clears core state and starts bring-up (R95) -/
  | deviceReset 
  /-- MACHINE_CHECK: A unit fails its checks and the Pewter core writes the fatal dump (R440) -/
  | machineCheck (place unit : Nat)
  /-- WATCHDOG_EXPIRY: The Pewter watchdog expires and the fatal dump is written (R440) -/
  | watchdogExpiry 
  /-- FIRMWARE_UPDATE: An update is written to the slot and verified for the next reset (R439) -/
  | firmwareUpdate (image : Nat)
  /-- DECODE_MAP_LOAD: The Indigo core verifies and loads a decode map while every core is stopped (R342) -/
  | decodeMapLoad (image : Nat)
  /-- KEY_INSTALL: An operator installs a public key in the Indigo core (R347) -/
  | keyInstall (key : Nat)
  /-- OBJECT_LOAD: The loader places, relocates, verifies and maps a code object (R347) -/
  | objectLoad (ctx : Nat) (object : Dbl) (bases : Dbl × Dbl) (frames : List Nat)
  /-- OBJECT_UNLOAD: An object is withdrawn now or marked pending until REFCNT reaches 0 (R350) -/
  | objectUnload (ctx : Nat) (object : Dbl) (forced : Bool)
  /-- ATS_TRANSLATION_COMPLETION: An ATS completion returns and the home translates or asks PRI (R414) -/
  | atsTranslationCompletion (ctx : Nat) (va : Dbl) (rights : Bool × Bool) (frameSize : Nat × Nat)
  /-- PRI_RESPONSE: A Page Request Group Response arrives; success retranslates, failure faults (R414) -/
  | priResponse (ctx : Nat) (va : Dbl) (code : Nat)
  /-- ATS_INVALIDATION: An ATS invalidation is taken and completed after the home's steps (R415) -/
  | atsInvalidation (pasid : Nat) (va : Dbl) (pages : Nat)
  /-- COMPLETION_TIMEOUT: A host or fabric access exceeds its completion timeout (R416) -/
  | completionTimeout (hart tag idx : Nat)
  /-- HOST_APERTURE_ACCESS: A host access through an aperture is translated and performed at its home (R413) -/
  | hostApertureAccess (aperture offset : Nat) (asks : Asks) (data : List Byte)
  /-- PEER_ACCESS: An incoming CXL.mem access, its port and address, is performed at the frame's home (R418) -/
  | peerAccess (portPa : Nat × Nat) (asks : Asks) (data : List Byte)
  /-- BACK_INVALIDATE_RESPONSE: A back-invalidate snoop response lets a waiting device write proceed (R417) -/
  | backInvalidateResponse (pa : Nat)
  /-- RING_ENABLE: EN turning on configures a network work ring (R420) -/
  | ringEnable (port ring : Nat)
  /-- RING_ENTRY_TAKE: TAIL passing HEAD makes the port acquire and take a work entry (R420) -/
  | ringEntryTake (port ring : Nat)
  /-- NETWORK_ENTRY_COMPLETE: A work entry completes and the port RELs its completion binder (R419) -/
  | networkEntryComplete (port ring : Nat)
  /-- NETWORK_PACKET_RECEIVE: A received packet's data is written through the homes (R419) -/
  | networkPacketReceive (port ctx : Nat) (va : Dbl) (packet : Option (Nat × Nat) × List Byte)
  /-- MG_OPEN_SOURCE: MGCMD OP 1 opens a source session and starts round 0 (R426) -/
  | mgOpenSource (slot : Nat)
  /-- MG_OPEN_TARGET: MGCMD OP 2 opens a target session (R428) -/
  | mgOpenTarget (slot : Nat)
  /-- MG_FINAL_STOP: MGCMD OP 3 or the end of pre-copy stops, drains and sends the context (R427) -/
  | mgFinalStop (slotCmd : Nat × Bool)
  /-- MG_ABORT: MGCMD OP 4 aborts a session before GO (R431) -/
  | mgAbort (slot : Nat)
  /-- MG_CLOSE: MGCMD OP 5 closes a session slot (R423) -/
  | mgClose (slot : Nat)
  /-- MG_KEY_EXCHANGE: The Indigo cores agree a session secret and derive keys (R425) -/
  | mgKeyExchange (slot handle : Nat)
  /-- MG_ROUND: The engine harvests bitmaps and sends a round's dirty pages and ROUNDEND (R426) -/
  | mgRound (slot : Nat)
  /-- MG_DEADLINE: TIMEBASE reaches DEADLINE and the final stop begins (R426) -/
  | mgDeadline (slot : Nat)
  /-- MG_PAGE_RECEIVE: The target applies or drops a received PAGE by its round (R428) -/
  | mgPageReceive (slot seq page round : Nat) (auth : Bool) (data : List Byte)
  /-- MG_ROUNDEND_RECEIVE: The target records a round's PAGE count (R430) -/
  | mgRoundendReceive (slot seq round count : Nat) (auth : Bool)
  /-- MG_IVORY_RECEIVE: The target stores part of an Ivory record (R430) -/
  | mgIvoryReceive (slot seq : Nat) (part : Nat × Nat) (auth : Bool) (data : List Byte)
  /-- MG_FINAL_RECEIVE: The target records FINAL and sends READY once complete (R430) -/
  | mgFinalReceive (slot seq records : Nat) (entries : List (Dbl × Nat × Nat × Nat)) (auth : Bool)
  /-- MG_READY_RECEIVE: The source marks launches migrated, commits and sends GO (R430) -/
  | mgReadyReceive (slot seq : Nat) (auth : Bool)
  /-- MG_GO_RECEIVE: The target rewrites CTXID, restores records and accepts launches (R430) -/
  | mgGoReceive (slot seq : Nat) (auth : Bool)
  /-- MG_ABORT_RECEIVE: An ABORT message ends the session as its state gives (R431) -/
  | mgAbortReceive (slot seq status : Nat) (auth : Bool)
  /-- MG_LINK_FAILURE: A link failure ends the session with status 11 (R431) -/
  | mgLinkFailure (slot : Nat)
  /-- RISC_V_CORE_ACCESS: A load, store, AMO or fence of a Slate, application or Pewter core reaches device memory or a mailbox at its home (R229) -/
  | riscVCoreAccess (agent : Nat) (pa : Nat) (asks : Asks) (data : List Byte)
  /-- MINRES_EXPIRY: A resident graph reaches MINRES of residence and becomes eligible for priority pre-emption (R320) -/
  | minresExpiry (graph : Nat)
  /-- WL_WAIT_DEADLINE: TIMEBASE reaches the rs2 deadline of a pending wl.wait, which returns STATE as it stands (R407) -/
  | wlWaitDeadline (core : Nat)
  /-- DEQUE_SPILL_RESUME: A Slate core resumes a faulted deque spill, which is repeated from its start (R270) -/
  | dequeSpillResume (place : Nat)
  /-- RING_RESUME: A Slate core resumes a network work ring stopped at its faulting entry (R420) -/
  | ringResume (port ring : Nat)
  /-- MIGRATION_ENGINE_RESUME: A Slate core resumes the target migration engine, which applies again a message whose write faulted (R428) -/
  | migrationEngineResume (slot : Nat)
  /-- CXL_CACHE_SNOOP: The host snoops a zone 0xF0 line that the device caches as COH over CXL.cache (R414) -/
  | cxlCacheSnoop (ctx : Nat) (va : Dbl)
  /-- MEMORY_SOFT_ERROR: A soft error strikes an SRAM or HBM granule; a corrected error is counted, and an uncorrectable one stays in the location (R203) -/
  | memorySoftError (pa : Nat) (uncorrectable : Bool)
  deriving DecidableEq, Repr

end Sys2Proof
end

