-- ==== Sys2Proof/WellFormed.lean ====
section
/-! DEFINITION. Which field values make an instruction (R75, R79, R81 and the reserved fields of the instruction chapters). A word whose fields break a check is not an instruction. What depends on the rest of the block (R82, R83 checks 5 to 9) is the fetch's own work. -/
namespace Sys2Proof

/-- The empty target (R73). -/
def noTarget : BitVec 9 := 0x07F

/-- A tag that VCVT and MSTO may convert to (R155, R181): not NONE, CB2 or MASK. -/
def convTag (t : BitVec 4) : Bool := t ≠ 0 && t ≠ 9 && t ≠ 14

/-- The reserved bits of a shift or rotate count are zero (R129): the count is imm9[4:0] in .w and imm9[5:0] in .d. -/
def shiftImm (w : BitVec 1) (i : BitVec 9) : Bool := if w = 1 then i < 64 else i < 32

/-- Well-formed: the word that encodes it is an instruction. A step or event of the device has no word and nothing to check. -/
def Instr.wf (i : Instr) : Bool :=
  match i with
  | .br _ _ pr => pr ≠ 3
  | .call _ _ pr => pr ≠ 3
  | .bri pr => pr ≠ 3
  | .calli pr => pr ≠ 3
  | .ret pr => pr ≠ 3
  | .scall pr => pr ≠ 3
  | .brk pr => pr ≠ 3
  | .trap pr => pr ≠ 3
  | .mov _ _ pr => pr ≠ 3
  | .null _ _ pr => pr ≠ 3
  | .pair _ _ pr => pr ≠ 3
  | .plo _ _ pr => pr ≠ 3
  | .phi _ _ pr => pr ≠ 3
  | .const _ _ pr => pr ≠ 3
  | .app _ _ pr => pr ≠ 3
  | .rdsys _ s pr => pr ≠ 3 && s ≤ 12
  | .wrsys _ s pr => pr ≠ 3 && s ≤ 12
  | .add _ _ _ pr => pr ≠ 3
  | .sub _ _ _ pr => pr ≠ 3
  | .mul _ _ _ pr => pr ≠ 3
  | .mulh _ _ _ pr => pr ≠ 3
  | .mulhn _ _ _ pr => pr ≠ 3
  | .mulhsn _ _ _ pr => pr ≠ 3
  | .div _ _ _ pr => pr ≠ 3
  | .divn _ _ _ pr => pr ≠ 3
  | .rem _ _ _ pr => pr ≠ 3
  | .remn _ _ _ pr => pr ≠ 3
  | .min _ _ _ pr => pr ≠ 3
  | .max _ _ _ pr => pr ≠ 3
  | .minn _ _ _ pr => pr ≠ 3
  | .maxn _ _ _ pr => pr ≠ 3
  | .and _ _ _ pr => pr ≠ 3
  | .or _ _ _ pr => pr ≠ 3
  | .xor _ _ _ pr => pr ≠ 3
  | .andn _ _ _ pr => pr ≠ 3
  | .orn _ _ _ pr => pr ≠ 3
  | .xnor _ _ _ pr => pr ≠ 3
  | .shl _ _ _ pr => pr ≠ 3
  | .shr _ _ _ pr => pr ≠ 3
  | .shra _ _ _ pr => pr ≠ 3
  | .rol _ _ _ pr => pr ≠ 3
  | .ror _ _ _ pr => pr ≠ 3
  | .clz _ _ _ pr => pr ≠ 3
  | .ctz _ _ _ pr => pr ≠ 3
  | .popc _ _ _ pr => pr ≠ 3
  | .brev _ _ _ pr => pr ≠ 3
  | .bswp _ _ _ pr => pr ≠ 3
  | .neg _ _ _ pr => pr ≠ 3
  | .abs _ _ _ pr => pr ≠ 3
  | .not _ _ _ pr => pr ≠ 3
  | .sextb _ _ _ pr => pr ≠ 3
  | .sexth _ _ _ pr => pr ≠ 3
  | .sextw _ _ pr => pr ≠ 3
  | .zextb _ _ _ pr => pr ≠ 3
  | .zexth _ _ _ pr => pr ≠ 3
  | .zextw _ _ pr => pr ≠ 3
  | .bfx _ _ _ pr => pr ≠ 3
  | .bfxs _ _ _ pr => pr ≠ 3
  | .bfi _ _ _ pr => pr ≠ 3
  | .lea _ _ _ _ pr => pr ≠ 3
  | .addi _ _ _ pr => pr ≠ 3
  | .muli _ _ _ pr => pr ≠ 3
  | .andi _ _ _ pr => pr ≠ 3
  | .ori _ _ _ pr => pr ≠ 3
  | .xori _ _ _ pr => pr ≠ 3
  | .shli w _ i pr => pr ≠ 3 && shiftImm w i
  | .shri w _ i pr => pr ≠ 3 && shiftImm w i
  | .shrai w _ i pr => pr ≠ 3 && shiftImm w i
  | .roti w _ i pr => pr ≠ 3 && shiftImm w i
  | .tcmp _ c _ _ pr => pr ≠ 3 && c ≤ 9
  | .tcmpi _ c _ _ pr => pr ≠ 3 && c ≤ 9
  | .fadd _ r _ _ pr => pr ≠ 3 && r ≠ 7
  | .fsub _ r _ _ pr => pr ≠ 3 && r ≠ 7
  | .fmul _ r _ _ pr => pr ≠ 3 && r ≠ 7
  | .fma _ r _ _ pr => pr ≠ 3 && r ≠ 7
  | .fdiv _ r _ _ pr => pr ≠ 3 && r ≠ 7
  | .fsqrt _ r _ _ pr => pr ≠ 3 && r ≠ 7
  | .fmin _ _ _ pr => pr ≠ 3
  | .fmax _ _ _ pr => pr ≠ 3
  | .fminnum _ _ _ pr => pr ≠ 3
  | .fmaxnum _ _ _ pr => pr ≠ 3
  | .fcmp _ c _ _ pr => pr ≠ 3 && c ≤ 4
  | .fcvt x _ _ r pr => pr ≠ 3 && x ≤ 27 && r ≠ 7
  | .fabs _ _ _ pr => pr ≠ 3
  | .fneg _ _ _ pr => pr ≠ 3
  | .fclass _ _ _ pr => pr ≠ 3
  | .fcopysign _ _ _ pr => pr ≠ 3
  | .ldb _ _ _ _ _ pr => pr ≠ 3
  | .ldbs _ _ _ _ _ pr => pr ≠ 3
  | .ldh _ _ _ _ _ pr => pr ≠ 3
  | .ldhs _ _ _ _ _ pr => pr ≠ 3
  | .ldw _ _ _ _ _ pr => pr ≠ 3
  | .ldws _ _ _ _ _ pr => pr ≠ 3
  | .ldd _ _ _ _ _ pr => pr ≠ 3
  | .ldq _ _ _ _ _ pr => pr ≠ 3
  | .stb _ _ _ _ pr => pr ≠ 3
  | .sth _ _ _ _ pr => pr ≠ 3
  | .stw _ _ _ _ pr => pr ≠ 3
  | .std _ _ _ _ pr => pr ≠ 3
  | .stq _ _ _ _ pr => pr ≠ 3
  | .stn4 _ _ _ _ _ pr => pr ≠ 3
  | .ldv _ _ _ _ _ pr => pr ≠ 3
  | .ldvStr _ _ _ _ _ pr => pr ≠ 3
  | .ldvIdx _ _ _ _ _ pr => pr ≠ 3
  | .stv _ _ _ _ _ pr => pr ≠ 3
  | .stvStr _ _ _ _ _ pr => pr ≠ 3
  | .stvIdx _ _ _ _ _ pr => pr ≠ 3
  | .aadd _ _ _ _ s w pr => pr ≠ 3 && s ≤ 4 && w ≤ 1
  | .aand _ _ _ _ s w pr => pr ≠ 3 && s ≤ 4 && w ≤ 1
  | .aor _ _ _ _ s w pr => pr ≠ 3 && s ≤ 4 && w ≤ 1
  | .axor _ _ _ _ s w pr => pr ≠ 3 && s ≤ 4 && w ≤ 1
  | .amin _ _ _ _ s w pr => pr ≠ 3 && s ≤ 4 && w ≤ 1
  | .amax _ _ _ _ s w pr => pr ≠ 3 && s ≤ 4 && w ≤ 1
  | .aminn _ _ _ _ s w pr => pr ≠ 3 && s ≤ 4 && w ≤ 1
  | .amaxn _ _ _ _ s w pr => pr ≠ 3 && s ≤ 4 && w ≤ 1
  | .aswp _ _ _ _ s w pr => pr ≠ 3 && s ≤ 4 && w ≤ 1
  | .acas _ _ _ _ s w pr => pr ≠ 3 && s ≤ 4 && w ≤ 2
  | .afadd _ _ _ _ s w pr => pr ≠ 3 && s ≤ 4 && w ≤ 1
  | .fenceFull s pr => pr ≠ 3 && s ≤ 4
  | .fenceAcq s pr => pr ≠ 3 && s ≤ 4
  | .fenceRel s pr => pr ≠ 3 && s ≤ 4
  | .fenceSs s pr => pr ≠ 3 && s ≤ 4
  | .acq _ _ _ _ s pr => pr ≠ 3 && s ≤ 4
  | .rel _ _ _ _ pr => pr ≠ 3
  | .wbr _ pr => pr ≠ 3
  | .invr _ pr => pr ≠ 3
  | .pref _ pr => pr ≠ 3
  | .ibar pr => pr ≠ 3
  | .lncfg pr => pr ≠ 3
  | .vsetl _ _ a pr => pr ≠ 3 && a ≠ 0
  | .vgetl _ _ _ pr => pr ≠ 3
  | .vbcast _ _ pr => pr ≠ 3
  | .vidx _ _ pr => pr ≠ 3
  | .vextr _ _ _ pr => pr ≠ 3
  | .vadd _ _ _ _ pr => pr ≠ 3
  | .vsub _ _ _ _ pr => pr ≠ 3
  | .vrsub _ _ _ _ pr => pr ≠ 3
  | .vmul _ _ _ _ pr => pr ≠ 3
  | .vdiv _ _ _ _ pr => pr ≠ 3
  | .vmin _ _ _ _ pr => pr ≠ 3
  | .vmax _ _ _ _ pr => pr ≠ 3
  | .vabsd _ _ _ _ pr => pr ≠ 3
  | .vfma _ _ _ _ pr => pr ≠ 3
  | .vfms _ _ _ _ pr => pr ≠ 3
  | .vfnma _ _ _ _ pr => pr ≠ 3
  | .vfnms _ _ _ _ pr => pr ≠ 3
  | .vdoti8 _ _ _ _ pr => pr ≠ 3
  | .vdoti4 _ _ _ _ pr => pr ≠ 3
  | .vand _ _ _ _ pr => pr ≠ 3
  | .vor _ _ _ _ pr => pr ≠ 3
  | .vxor _ _ _ _ pr => pr ≠ 3
  | .vandn _ _ _ _ pr => pr ≠ 3
  | .vshl _ _ _ _ pr => pr ≠ 3
  | .vshr _ _ _ _ pr => pr ≠ 3
  | .vshra _ _ _ _ pr => pr ≠ 3
  | .vnot _ _ _ pr => pr ≠ 3
  | .vcmp _ _ _ _ _ pr => pr ≠ 3
  | .vmov _ _ _ pr => pr ≠ 3
  | .vsel _ _ _ _ pr => pr ≠ 3
  | .vcmpct _ _ _ _ pr => pr ≠ 3
  | .vpermx _ _ _ _ pr => pr ≠ 3
  | .vslideup _ _ _ _ pr => pr ≠ 3
  | .vslidedn _ _ _ _ pr => pr ≠ 3
  | .vzip _ _ _ _ pr => pr ≠ 3
  | .vunzip _ _ _ _ pr => pr ≠ 3
  | .rsum _ _ _ pr => pr ≠ 3
  | .rmax _ _ _ pr => pr ≠ 3
  | .rmin _ _ _ pr => pr ≠ 3
  | .rsumw _ _ _ pr => pr ≠ 3
  | .rcount _ _ _ pr => pr ≠ 3
  | .rfirst _ _ _ pr => pr ≠ 3
  | .vscanSum _ _ _ pr => pr ≠ 3
  | .vscanMax _ _ _ pr => pr ≠ 3
  | .vscanMin _ _ _ pr => pr ≠ 3
  | .vscanSegsum _ _ _ _ pr => pr ≠ 3
  | .exp2 _ _ _ pr => pr ≠ 3
  | .log2 _ _ _ pr => pr ≠ 3
  | .rcp _ _ _ pr => pr ≠ 3
  | .rsq _ _ _ pr => pr ≠ 3
  | .sqrt _ _ _ pr => pr ≠ 3
  | .tanh _ _ _ pr => pr ≠ 3
  | .sigm _ _ _ pr => pr ≠ 3
  | .erf _ _ _ pr => pr ≠ 3
  | .vcvt _ _ _ b r pr => pr ≠ 3 && convTag b && r ≠ 7
  | .vdeq _ _ _ _ pr => pr ≠ 3
  | .vscl _ _ _ _ pr => pr ≠ 3
  | .vqnt _ _ _ _ pr => pr ≠ 3
  | .vamax _ _ _ pr => pr ≠ 3
  | .pack _ _ _ _ pr => pr ≠ 3
  | .unpklo _ _ _ pr => pr ≠ 3
  | .unpkhi _ _ _ pr => pr ≠ 3
  | .gettag _ _ _ pr => pr ≠ 3
  | .settag _ _ pr => pr ≠ 3
  | .clrtag _ _ pr => pr ≠ 3
  | .mshape _ pr => pr ≠ 3
  | .mzero _ pr => pr ≠ 3
  | .mwait _ _ pr => pr ≠ 3
  | .mstat _ pr => pr ≠ 3
  | .mtscl _ pr => pr ≠ 3
  | .mma _ _ _ _ _ pr => pr ≠ 3
  | .mmas _ _ _ _ _ pr => pr ≠ 3
  | .mmav _ _ _ _ pr => pr ≠ 3
  | .mmavSub _ _ _ _ pr => pr ≠ 3
  | .mldv _ _ _ _ pr => pr ≠ 3
  | .mrdv _ _ _ _ pr => pr ≠ 3
  | .msto _ _ _ r g _ pr => pr ≠ 3 && convTag g && g ≠ 15 && r ≠ 7
  | .maddm _ _ _ _ pr => pr ≠ 3
  | .mtrn _ _ _ pr => pr ≠ 3
  | .mcopy _ _ _ pr => pr ≠ 3
  | .spawn pr => pr ≠ 3
  | .spawna pr => pr ≠ 3
  | .join pr => pr ≠ 3
  | .taskend pr => pr ≠ 3
  | .yield pr => pr ≠ 3
  | .taskid _ n pr => pr ≠ 3 && n ≠ 3
  | .width pr => pr ≠ 3
  | .launch pr => pr ≠ 3
  | .domwait _ pr => pr ≠ 3
  | .chcfg _ pr => pr ≠ 3
  | .chcfgAge _ pr => pr ≠ 3
  | .chlen _ _ pr => pr ≠ 3
  | .chclr _ _ pr => pr ≠ 3
  | .waitc t0 _ pr => pr ≠ 3 && t0 ≠ noTarget
  | .waitcAge t0 _ pr => pr ≠ 3 && t0 ≠ noTarget
  | .waitcJoin t0 pr => pr ≠ 3 && t0 ≠ noTarget
  | .rdc t0 c pr => pr ≠ 3 && (c ≤ 5 || (8 ≤ c && c ≤ 23)) && t0 ≠ noTarget
  | .jadd s pr => pr ≠ 3 && s ≤ 4
  | .pcfg _ pr => pr ≠ 3
  | .time t0 q pr => pr ≠ 3 && q ≠ 3 && t0 ≠ noTarget
  | .cbld _ pr => pr ≠ 3
  | .alinv s _ pr => pr ≠ 3 && s ≠ 7
  | .attr _ _ pr => pr ≠ 3
  | .dmapq _ q pr => pr ≠ 3 && q ≠ 3
  | .wlLaunch _ _ => true
  | .wlFence _ _ => true
  | .wlPoll _ _ => true
  | .wlWait _ _ _ => true
  | .wlCancel _ _ => true
  | .wlStatus _ _ => true
  | .wlPrio _ _ _ => true
  | .blockFetch _ _ => true
  | .returnStackSpill _ => true
  | .blockCommit _ => true
  | .faultTake _ => true
  | .ochrePacketEnqueue _ => true
  | .ochrePacketRead _ => true
  | .loadReply _ _ _ => true
  | .atomicPerform _ _ _ => true
  | .hostAtomicCasRetry _ _ _ _ => true
  | .postedStorePerform _ _ => true
  | .relItemPerform _ _ => true
  | .storeRetryReoffer _ _ => true
  | .replayEntryPerform _ => true
  | .rplcmdReplay _ => true
  | .rplcmdDiscard _ => true
  | .replayHwmRead _ => true
  | .pageWalkComplete _ _ _ => true
  | .l1dEviction _ _ _ => true
  | .invalidationComplete => true
  | .pageMove _ _ _ => true
  | .widenReserve _ => true
  | .widenRedistribute _ => true
  | .tensorIssue _ _ _ => true
  | .mmaEntryConsume _ _ => true
  | .tensorOpComplete _ _ => true
  | .mstoEntryPush _ _ => true
  | .matrixNodeModeChange _ _ => true
  | .portEntryDeliver _ _ => true
  | .portCreditReturn _ _ => true
  | .ageRecordFetch _ _ => true
  | .ageElementDeliver _ _ => true
  | .ageElementWrite _ _ => true
  | .ownerPop _ => true
  | .theftRequest _ => true
  | .theftCopyComplete _ => true
  | .theftReply _ => true
  | .theftLapWaitExpiry _ => true
  | .poolTakeRetry _ => true
  | .joinWordRead _ => true
  | .joinSuspend _ => true
  | .jcountDecrement => true
  | .resumeFrameHandoff => true
  | .graphComplete _ => true
  | .quiescenceTokenForward _ => true
  | .engineKickStart _ => true
  | .launchPost => true
  | .placementDecision => true
  | .launchAgeTick _ => true
  | .backfillReserve => true
  | .timeTriggerSlot _ => true
  | .launchTableEnable _ => true
  | .missedRead _ => true
  | .doorbellWrite _ _ => true
  | .launchPageCancel _ => true
  | .launchPagePrioset _ _ => true
  | .lasterrRead _ => true
  | .tinvInvalidate _ => true
  | .peSwapOut _ => true
  | .pePreloadShadow _ => true
  | .peClockStop _ => true
  | .peDrainIvory _ => true
  | .peRestoreSepia _ => true
  | .peRestoreIvory _ => true
  | .shadowSwap _ => true
  | .streamerWriteOut _ => true
  | .scratchPageExchange _ _ => true
  | .arrivalLogAppend _ => true
  | .heldMessageReoffer => true
  | .drainComplete => true
  | .drainLimitExpiry => true
  | .dbgResume _ => true
  | .dbgReexecute _ => true
  | .dbgEndContext _ => true
  | .dbgHalt _ => true
  | .dbgStep _ => true
  | .dbgResolve _ _ _ => true
  | .dbgThaltWrite _ _ => true
  | .dbgInject _ _ => true
  | .dbgRegisterWrite _ _ _ _ => true
  | .portControlWrite _ _ _ => true
  | .engineResume _ => true
  | .engineReexecute _ => true
  | .engineReturnIdle _ => true
  | .ageResume _ _ => true
  | .ageStop _ _ => true
  | .watchArm _ _ => true
  | .watchDisarm _ _ => true
  | .traceGapRecord _ => true
  | .registerWrite _ _ _ => true
  | .islandPointChange _ => true
  | .powerSample _ => true
  | .valarmCountRead => true
  | .islandCapStep _ => true
  | .junctionOvertemp _ => true
  | .ptpMessage _ => true
  | .ptpHoldoverTimeout => true
  | .functionReady _ => true
  | .dumpvClear => true
  | .deviceReset => true
  | .machineCheck _ _ => true
  | .watchdogExpiry => true
  | .firmwareUpdate _ => true
  | .decodeMapLoad _ => true
  | .keyInstall _ => true
  | .objectLoad _ _ _ _ => true
  | .objectUnload _ _ _ => true
  | .atsTranslationCompletion _ _ _ _ => true
  | .priResponse _ _ _ => true
  | .atsInvalidation _ _ _ => true
  | .completionTimeout _ _ _ => true
  | .hostApertureAccess _ _ _ _ => true
  | .peerAccess p _ _ => decide (p.1 < 8)
  | .backInvalidateResponse _ => true
  | .ringEnable _ _ => true
  | .ringEntryTake _ _ => true
  | .networkEntryComplete _ _ => true
  | .networkPacketReceive _ _ _ _ => true
  | .mgOpenSource _ => true
  | .mgOpenTarget _ => true
  | .mgFinalStop _ => true
  | .mgAbort _ => true
  | .mgClose _ => true
  | .mgKeyExchange _ _ => true
  | .mgRound _ => true
  | .mgDeadline _ => true
  | .mgPageReceive _ _ _ _ _ _ => true
  | .mgRoundendReceive _ _ _ _ _ => true
  | .mgIvoryReceive _ _ _ _ _ => true
  | .mgFinalReceive _ _ _ _ _ => true
  | .mgReadyReceive _ _ _ => true
  | .mgGoReceive _ _ _ => true
  | .mgAbortReceive _ _ _ _ => true
  | .mgLinkFailure _ => true
  | .riscVCoreAccess _ _ _ _ => true
  | .minresExpiry _ => true
  | .wlWaitDeadline _ => true
  | .dequeSpillResume _ => true
  | .ringResume _ _ => true
  | .migrationEngineResume _ => true
  | .cxlCacheSnoop _ _ => true
  | .memorySoftError _ _ => true

end Sys2Proof
end

