-- ==== Sys2Proof/Decode.lean ====
section
/-! DEFINITION. Decoding and encoding of the 233 Welit words (R77-R82) and the 7 custom-0 words of the application cores (R406). A word is cut, from bit 0 upward, into the fields its major opcode's format gives (R77; a field that some row of the opcode splits is cut there); then the row is chosen by its fixed fields, and the fields must be well formed. -/
namespace Sys2Proof

/-- Why a word is not an instruction: the filler word (R74), an unassigned opcode, sub-field or fixed field (R79, R81), a reserved field value (WellFormed). -/
inductive Reject where
  | filler
  | unassigned
  | reserved
  deriving DecidableEq, Repr

/-- What a word decodes to. -/
inductive Decoded where
  | ok (i : Instr)
  | no (why : Reject)
  deriving DecidableEq, Repr

/-- Cut a number into fields of the given widths, lowest first. -/
def unpackFields : List Nat → Nat → List Nat
  | [], _ => []
  | n :: ns, x => x % 2 ^ n :: unpackFields ns (x / 2 ^ n)

/-- Join fields (width, value), lowest first. -/
def packFields : List (Nat × Nat) → Nat
  | [] => 0
  | (n, v) :: r => v + 2 ^ n * packFields r

/-- The field widths of bits 24:0 under each major opcode, lowest first (R77). -/
def layout (op : Nat) : List Nat :=
  match op with
  | 1 | 2 => [2, 2, 21]
  | 3 | 4 | 95 => [2, 9, 9, 5]
  | 5 | 6 => [2, 9, 14]
  | 7 | 102 | 108 => [2, 4, 5, 9, 5]
  | 16 | 17 | 18 | 19 | 20 | 21 | 22 | 23 => [2, 9, 9, 4, 1]
  | 24 | 25 | 26 | 27 | 28 | 29 | 30 | 31 => [2, 9, 9, 4, 1]
  | 33 | 34 | 35 | 36 | 37 | 38 | 39 | 40 => [2, 9, 9, 4, 1]
  | 48 | 49 => [2, 9, 9, 4, 1]
  | 32 => [2, 9, 9, 2, 2, 1]
  | 50 | 51 | 52 | 53 | 54 | 55 | 56 | 57 => [2, 9, 9, 3, 2]
  | 59 | 94 => [2, 9, 9, 3, 2]
  | 58 => [2, 3, 1, 5, 9, 5]
  | 64 | 65 | 66 | 67 | 68 | 69 | 70 | 71 => [2, 5, 2, 2, 9, 5]
  | 72 | 73 | 74 | 75 | 76 | 93 => [2, 14, 2, 2, 5]
  | 77 => [2, 1, 13, 2, 2, 5]
  | 78 | 79 => [2, 4, 2, 2, 5, 5, 5]
  | 80 | 81 | 82 | 83 | 84 | 85 | 86 | 87 => [2, 2, 3, 2, 2, 9, 5]
  | 88 | 89 | 90 | 92 => [2, 2, 3, 2, 2, 9, 5]
  | 91 => [2, 3, 6, 9, 5]
  | 96 => [2, 4, 4, 1, 9, 5]
  | 97 | 98 | 99 | 100 | 101 | 103 | 104 | 107 => [2, 3, 5, 5, 5, 5]
  | 105 => [2, 3, 4, 1, 5, 5, 5]
  | 106 => [2, 3, 3, 2, 5, 5, 5]
  | 112 => [2, 3, 5, 1, 9, 5]
  | 113 | 114 => [2, 8, 1, 3, 3, 3, 5]
  | 115 => [2, 3, 5, 5, 3, 2, 5]
  | 116 => [2, 3, 5, 3, 2, 3, 2, 5]
  | 117 => [2, 4, 1, 4, 3, 3, 3, 5]
  | 118 => [2, 3, 3, 2, 3, 2, 3, 2, 5]
  | 120 => [2, 2, 7, 9, 5]
  | 121 => [2, 4, 1, 4, 9, 5]
  | 122 => [2, 2, 1, 2, 4, 9, 5]
  | 123 => [2, 2, 3, 4, 9, 5]
  | _ => []

/-- The rows of major opcode 0x01 (R79): bits 1:0, 3:2, 24:4. -/
def rows01 (f0 f2 f4 : Nat) : Option Instr :=
  some (.br (BitVec.ofNat 21 f4) (BitVec.ofNat 2 f2) (BitVec.ofNat 2 f0))

/-- The rows of major opcode 0x02 (R79): bits 1:0, 3:2, 24:4. -/
def rows02 (f0 f2 f4 : Nat) : Option Instr :=
  some (.call (BitVec.ofNat 21 f4) (BitVec.ofNat 2 f2) (BitVec.ofNat 2 f0))

/-- The rows of major opcode 0x03 (R79): bits 1:0, 10:2, 19:11, 24:20. -/
def rows03 (f0 f2 f11 f20 : Nat) : Option Instr :=
  if f2 = 127 ∧ f11 = 127 ∧ f20 = 0 then some (.bri (BitVec.ofNat 2 f0))
  else if f2 = 127 ∧ f11 = 127 ∧ f20 = 1 then some (.calli (BitVec.ofNat 2 f0))
  else if f2 = 127 ∧ f11 = 127 ∧ f20 = 2 then some (.ret (BitVec.ofNat 2 f0))
  else if f2 = 127 ∧ f11 = 127 ∧ f20 = 3 then some (.scall (BitVec.ofNat 2 f0))
  else if f2 = 127 ∧ f11 = 127 ∧ f20 = 4 then some (.brk (BitVec.ofNat 2 f0))
  else if f2 = 127 ∧ f11 = 127 ∧ f20 = 5 then some (.trap (BitVec.ofNat 2 f0))
  else none

/-- The rows of major opcode 0x04 (R79): bits 1:0, 10:2, 19:11, 24:20. -/
def rows04 (f0 f2 f11 f20 : Nat) : Option Instr :=
  if f20 = 0 then some (.mov (BitVec.ofNat 9 f11) (BitVec.ofNat 9 f2) (BitVec.ofNat 2 f0))
  else if f20 = 1 then some (.null (BitVec.ofNat 9 f11) (BitVec.ofNat 9 f2) (BitVec.ofNat 2 f0))
  else if f20 = 2 then some (.pair (BitVec.ofNat 9 f11) (BitVec.ofNat 9 f2) (BitVec.ofNat 2 f0))
  else if f20 = 3 then some (.plo (BitVec.ofNat 9 f11) (BitVec.ofNat 9 f2) (BitVec.ofNat 2 f0))
  else if f20 = 4 then some (.phi (BitVec.ofNat 9 f11) (BitVec.ofNat 9 f2) (BitVec.ofNat 2 f0))
  else none

/-- The rows of major opcode 0x05 (R79): bits 1:0, 10:2, 24:11. -/
def rows05 (f0 f2 f11 : Nat) : Option Instr :=
  some (.const (BitVec.ofNat 14 f11) (BitVec.ofNat 9 f2) (BitVec.ofNat 2 f0))

/-- The rows of major opcode 0x06 (R79): bits 1:0, 10:2, 24:11. -/
def rows06 (f0 f2 f11 : Nat) : Option Instr :=
  some (.app (BitVec.ofNat 14 f11) (BitVec.ofNat 9 f2) (BitVec.ofNat 2 f0))

/-- The rows of major opcode 0x07 (R79): bits 1:0, 5:2, 10:6, 19:11, 24:20. -/
def rows07 (f0 f2 f6 f11 f20 : Nat) : Option Instr :=
  if f6 = 0 ∧ f20 = 0 then some (.rdsys (BitVec.ofNat 9 f11) (BitVec.ofNat 4 f2) (BitVec.ofNat 2 f0))
  else if f6 = 0 ∧ f20 = 1 then some (.wrsys (BitVec.ofNat 9 f11) (BitVec.ofNat 4 f2) (BitVec.ofNat 2 f0))
  else none

/-- The rows of major opcode 0x10 (R79): bits 1:0, 10:2, 19:11, 23:20, 24:24. -/
def rows10 (f0 f2 f11 f20 f24 : Nat) : Option Instr :=
  if f20 = 0 then some (.add (BitVec.ofNat 1 f24) (BitVec.ofNat 9 f11) (BitVec.ofNat 9 f2) (BitVec.ofNat 2 f0))
  else none

/-- The rows of major opcode 0x11 (R79): bits 1:0, 10:2, 19:11, 23:20, 24:24. -/
def rows11 (f0 f2 f11 f20 f24 : Nat) : Option Instr :=
  if f20 = 0 then some (.sub (BitVec.ofNat 1 f24) (BitVec.ofNat 9 f11) (BitVec.ofNat 9 f2) (BitVec.ofNat 2 f0))
  else none

/-- The rows of major opcode 0x12 (R79): bits 1:0, 10:2, 19:11, 23:20, 24:24. -/
def rows12 (f0 f2 f11 f20 f24 : Nat) : Option Instr :=
  if f20 = 0 then some (.mul (BitVec.ofNat 1 f24) (BitVec.ofNat 9 f11) (BitVec.ofNat 9 f2) (BitVec.ofNat 2 f0))
  else none

/-- The rows of major opcode 0x13 (R79): bits 1:0, 10:2, 19:11, 23:20, 24:24. -/
def rows13 (f0 f2 f11 f20 f24 : Nat) : Option Instr :=
  if f20 = 0 then some (.mulh (BitVec.ofNat 1 f24) (BitVec.ofNat 9 f11) (BitVec.ofNat 9 f2) (BitVec.ofNat 2 f0))
  else if f20 = 1 then some (.mulhn (BitVec.ofNat 1 f24) (BitVec.ofNat 9 f11) (BitVec.ofNat 9 f2) (BitVec.ofNat 2 f0))
  else if f20 = 2 then some (.mulhsn (BitVec.ofNat 1 f24) (BitVec.ofNat 9 f11) (BitVec.ofNat 9 f2) (BitVec.ofNat 2 f0))
  else none

/-- The rows of major opcode 0x14 (R79): bits 1:0, 10:2, 19:11, 23:20, 24:24. -/
def rows14 (f0 f2 f11 f20 f24 : Nat) : Option Instr :=
  if f20 = 0 then some (.div (BitVec.ofNat 1 f24) (BitVec.ofNat 9 f11) (BitVec.ofNat 9 f2) (BitVec.ofNat 2 f0))
  else if f20 = 1 then some (.divn (BitVec.ofNat 1 f24) (BitVec.ofNat 9 f11) (BitVec.ofNat 9 f2) (BitVec.ofNat 2 f0))
  else none

/-- The rows of major opcode 0x15 (R79): bits 1:0, 10:2, 19:11, 23:20, 24:24. -/
def rows15 (f0 f2 f11 f20 f24 : Nat) : Option Instr :=
  if f20 = 0 then some (.rem (BitVec.ofNat 1 f24) (BitVec.ofNat 9 f11) (BitVec.ofNat 9 f2) (BitVec.ofNat 2 f0))
  else if f20 = 1 then some (.remn (BitVec.ofNat 1 f24) (BitVec.ofNat 9 f11) (BitVec.ofNat 9 f2) (BitVec.ofNat 2 f0))
  else none

/-- The rows of major opcode 0x16 (R79): bits 1:0, 10:2, 19:11, 23:20, 24:24. -/
def rows16 (f0 f2 f11 f20 f24 : Nat) : Option Instr :=
  if f20 = 0 then some (.min (BitVec.ofNat 1 f24) (BitVec.ofNat 9 f11) (BitVec.ofNat 9 f2) (BitVec.ofNat 2 f0))
  else if f20 = 1 then some (.max (BitVec.ofNat 1 f24) (BitVec.ofNat 9 f11) (BitVec.ofNat 9 f2) (BitVec.ofNat 2 f0))
  else if f20 = 2 then some (.minn (BitVec.ofNat 1 f24) (BitVec.ofNat 9 f11) (BitVec.ofNat 9 f2) (BitVec.ofNat 2 f0))
  else if f20 = 3 then some (.maxn (BitVec.ofNat 1 f24) (BitVec.ofNat 9 f11) (BitVec.ofNat 9 f2) (BitVec.ofNat 2 f0))
  else none

/-- The rows of major opcode 0x17 (R79): bits 1:0, 10:2, 19:11, 23:20, 24:24. -/
def rows17 (f0 f2 f11 f20 f24 : Nat) : Option Instr :=
  if f20 = 0 then some (.and (BitVec.ofNat 1 f24) (BitVec.ofNat 9 f11) (BitVec.ofNat 9 f2) (BitVec.ofNat 2 f0))
  else none

/-- The rows of major opcode 0x18 (R79): bits 1:0, 10:2, 19:11, 23:20, 24:24. -/
def rows18 (f0 f2 f11 f20 f24 : Nat) : Option Instr :=
  if f20 = 0 then some (.or (BitVec.ofNat 1 f24) (BitVec.ofNat 9 f11) (BitVec.ofNat 9 f2) (BitVec.ofNat 2 f0))
  else none

/-- The rows of major opcode 0x19 (R79): bits 1:0, 10:2, 19:11, 23:20, 24:24. -/
def rows19 (f0 f2 f11 f20 f24 : Nat) : Option Instr :=
  if f20 = 0 then some (.xor (BitVec.ofNat 1 f24) (BitVec.ofNat 9 f11) (BitVec.ofNat 9 f2) (BitVec.ofNat 2 f0))
  else none

/-- The rows of major opcode 0x1A (R79): bits 1:0, 10:2, 19:11, 23:20, 24:24. -/
def rows1A (f0 f2 f11 f20 f24 : Nat) : Option Instr :=
  if f20 = 0 then some (.andn (BitVec.ofNat 1 f24) (BitVec.ofNat 9 f11) (BitVec.ofNat 9 f2) (BitVec.ofNat 2 f0))
  else if f20 = 1 then some (.orn (BitVec.ofNat 1 f24) (BitVec.ofNat 9 f11) (BitVec.ofNat 9 f2) (BitVec.ofNat 2 f0))
  else if f20 = 2 then some (.xnor (BitVec.ofNat 1 f24) (BitVec.ofNat 9 f11) (BitVec.ofNat 9 f2) (BitVec.ofNat 2 f0))
  else none

/-- The rows of major opcode 0x1B (R79): bits 1:0, 10:2, 19:11, 23:20, 24:24. -/
def rows1B (f0 f2 f11 f20 f24 : Nat) : Option Instr :=
  if f20 = 0 then some (.shl (BitVec.ofNat 1 f24) (BitVec.ofNat 9 f11) (BitVec.ofNat 9 f2) (BitVec.ofNat 2 f0))
  else none

/-- The rows of major opcode 0x1C (R79): bits 1:0, 10:2, 19:11, 23:20, 24:24. -/
def rows1C (f0 f2 f11 f20 f24 : Nat) : Option Instr :=
  if f20 = 0 then some (.shr (BitVec.ofNat 1 f24) (BitVec.ofNat 9 f11) (BitVec.ofNat 9 f2) (BitVec.ofNat 2 f0))
  else if f20 = 1 then some (.shra (BitVec.ofNat 1 f24) (BitVec.ofNat 9 f11) (BitVec.ofNat 9 f2) (BitVec.ofNat 2 f0))
  else none

/-- The rows of major opcode 0x1D (R79): bits 1:0, 10:2, 19:11, 23:20, 24:24. -/
def rows1D (f0 f2 f11 f20 f24 : Nat) : Option Instr :=
  if f20 = 0 then some (.rol (BitVec.ofNat 1 f24) (BitVec.ofNat 9 f11) (BitVec.ofNat 9 f2) (BitVec.ofNat 2 f0))
  else if f20 = 1 then some (.ror (BitVec.ofNat 1 f24) (BitVec.ofNat 9 f11) (BitVec.ofNat 9 f2) (BitVec.ofNat 2 f0))
  else none

/-- The rows of major opcode 0x1E (R79): bits 1:0, 10:2, 19:11, 23:20, 24:24. -/
def rows1E (f0 f2 f11 f20 f24 : Nat) : Option Instr :=
  if f20 = 0 then some (.clz (BitVec.ofNat 1 f24) (BitVec.ofNat 9 f11) (BitVec.ofNat 9 f2) (BitVec.ofNat 2 f0))
  else if f20 = 1 then some (.ctz (BitVec.ofNat 1 f24) (BitVec.ofNat 9 f11) (BitVec.ofNat 9 f2) (BitVec.ofNat 2 f0))
  else if f20 = 2 then some (.popc (BitVec.ofNat 1 f24) (BitVec.ofNat 9 f11) (BitVec.ofNat 9 f2) (BitVec.ofNat 2 f0))
  else if f20 = 3 then some (.brev (BitVec.ofNat 1 f24) (BitVec.ofNat 9 f11) (BitVec.ofNat 9 f2) (BitVec.ofNat 2 f0))
  else if f20 = 4 then some (.bswp (BitVec.ofNat 1 f24) (BitVec.ofNat 9 f11) (BitVec.ofNat 9 f2) (BitVec.ofNat 2 f0))
  else if f20 = 5 then some (.neg (BitVec.ofNat 1 f24) (BitVec.ofNat 9 f11) (BitVec.ofNat 9 f2) (BitVec.ofNat 2 f0))
  else if f20 = 6 then some (.abs (BitVec.ofNat 1 f24) (BitVec.ofNat 9 f11) (BitVec.ofNat 9 f2) (BitVec.ofNat 2 f0))
  else if f20 = 7 then some (.not (BitVec.ofNat 1 f24) (BitVec.ofNat 9 f11) (BitVec.ofNat 9 f2) (BitVec.ofNat 2 f0))
  else if f20 = 8 then some (.sextb (BitVec.ofNat 1 f24) (BitVec.ofNat 9 f11) (BitVec.ofNat 9 f2) (BitVec.ofNat 2 f0))
  else if f20 = 9 then some (.sexth (BitVec.ofNat 1 f24) (BitVec.ofNat 9 f11) (BitVec.ofNat 9 f2) (BitVec.ofNat 2 f0))
  else if f20 = 10 ∧ f24 = 1 then some (.sextw (BitVec.ofNat 9 f11) (BitVec.ofNat 9 f2) (BitVec.ofNat 2 f0))
  else if f20 = 11 then some (.zextb (BitVec.ofNat 1 f24) (BitVec.ofNat 9 f11) (BitVec.ofNat 9 f2) (BitVec.ofNat 2 f0))
  else if f20 = 12 then some (.zexth (BitVec.ofNat 1 f24) (BitVec.ofNat 9 f11) (BitVec.ofNat 9 f2) (BitVec.ofNat 2 f0))
  else if f20 = 13 ∧ f24 = 1 then some (.zextw (BitVec.ofNat 9 f11) (BitVec.ofNat 9 f2) (BitVec.ofNat 2 f0))
  else none

/-- The rows of major opcode 0x1F (R79): bits 1:0, 10:2, 19:11, 23:20, 24:24. -/
def rows1F (f0 f2 f11 f20 f24 : Nat) : Option Instr :=
  if f20 = 0 then some (.bfx (BitVec.ofNat 1 f24) (BitVec.ofNat 9 f11) (BitVec.ofNat 9 f2) (BitVec.ofNat 2 f0))
  else if f20 = 1 then some (.bfxs (BitVec.ofNat 1 f24) (BitVec.ofNat 9 f11) (BitVec.ofNat 9 f2) (BitVec.ofNat 2 f0))
  else if f20 = 2 then some (.bfi (BitVec.ofNat 1 f24) (BitVec.ofNat 9 f11) (BitVec.ofNat 9 f2) (BitVec.ofNat 2 f0))
  else none

/-- The rows of major opcode 0x20 (R79): bits 1:0, 10:2, 19:11, 21:20, 23:22, 24:24. -/
def rows20 (f0 f2 f11 f20 f22 f24 : Nat) : Option Instr :=
  if f22 = 0 then some (.lea (BitVec.ofNat 1 f24) (BitVec.ofNat 2 f20) (BitVec.ofNat 9 f11) (BitVec.ofNat 9 f2) (BitVec.ofNat 2 f0))
  else none

/-- The rows of major opcode 0x21 (R79): bits 1:0, 10:2, 19:11, 23:20, 24:24. -/
def rows21 (f0 f2 f11 f20 f24 : Nat) : Option Instr :=
  if f20 = 0 then some (.addi (BitVec.ofNat 1 f24) (BitVec.ofNat 9 f11) (BitVec.ofNat 9 f2) (BitVec.ofNat 2 f0))
  else none

/-- The rows of major opcode 0x22 (R79): bits 1:0, 10:2, 19:11, 23:20, 24:24. -/
def rows22 (f0 f2 f11 f20 f24 : Nat) : Option Instr :=
  if f20 = 0 then some (.muli (BitVec.ofNat 1 f24) (BitVec.ofNat 9 f11) (BitVec.ofNat 9 f2) (BitVec.ofNat 2 f0))
  else none

/-- The rows of major opcode 0x23 (R79): bits 1:0, 10:2, 19:11, 23:20, 24:24. -/
def rows23 (f0 f2 f11 f20 f24 : Nat) : Option Instr :=
  if f20 = 0 then some (.andi (BitVec.ofNat 1 f24) (BitVec.ofNat 9 f11) (BitVec.ofNat 9 f2) (BitVec.ofNat 2 f0))
  else none

/-- The rows of major opcode 0x24 (R79): bits 1:0, 10:2, 19:11, 23:20, 24:24. -/
def rows24 (f0 f2 f11 f20 f24 : Nat) : Option Instr :=
  if f20 = 0 then some (.ori (BitVec.ofNat 1 f24) (BitVec.ofNat 9 f11) (BitVec.ofNat 9 f2) (BitVec.ofNat 2 f0))
  else none

/-- The rows of major opcode 0x25 (R79): bits 1:0, 10:2, 19:11, 23:20, 24:24. -/
def rows25 (f0 f2 f11 f20 f24 : Nat) : Option Instr :=
  if f20 = 0 then some (.xori (BitVec.ofNat 1 f24) (BitVec.ofNat 9 f11) (BitVec.ofNat 9 f2) (BitVec.ofNat 2 f0))
  else none

/-- The rows of major opcode 0x26 (R79): bits 1:0, 10:2, 19:11, 23:20, 24:24. -/
def rows26 (f0 f2 f11 f20 f24 : Nat) : Option Instr :=
  if f20 = 0 then some (.shli (BitVec.ofNat 1 f24) (BitVec.ofNat 9 f11) (BitVec.ofNat 9 f2) (BitVec.ofNat 2 f0))
  else none

/-- The rows of major opcode 0x27 (R79): bits 1:0, 10:2, 19:11, 23:20, 24:24. -/
def rows27 (f0 f2 f11 f20 f24 : Nat) : Option Instr :=
  if f20 = 0 then some (.shri (BitVec.ofNat 1 f24) (BitVec.ofNat 9 f11) (BitVec.ofNat 9 f2) (BitVec.ofNat 2 f0))
  else if f20 = 1 then some (.shrai (BitVec.ofNat 1 f24) (BitVec.ofNat 9 f11) (BitVec.ofNat 9 f2) (BitVec.ofNat 2 f0))
  else none

/-- The rows of major opcode 0x28 (R79): bits 1:0, 10:2, 19:11, 23:20, 24:24. -/
def rows28 (f0 f2 f11 f20 f24 : Nat) : Option Instr :=
  if f20 = 0 then some (.roti (BitVec.ofNat 1 f24) (BitVec.ofNat 9 f11) (BitVec.ofNat 9 f2) (BitVec.ofNat 2 f0))
  else none

/-- The rows of major opcode 0x30 (R79): bits 1:0, 10:2, 19:11, 23:20, 24:24. -/
def rows30 (f0 f2 f11 f20 f24 : Nat) : Option Instr :=
  some (.tcmp (BitVec.ofNat 1 f24) (BitVec.ofNat 4 f20) (BitVec.ofNat 9 f11) (BitVec.ofNat 9 f2) (BitVec.ofNat 2 f0))

/-- The rows of major opcode 0x31 (R79): bits 1:0, 10:2, 19:11, 23:20, 24:24. -/
def rows31 (f0 f2 f11 f20 f24 : Nat) : Option Instr :=
  some (.tcmpi (BitVec.ofNat 1 f24) (BitVec.ofNat 4 f20) (BitVec.ofNat 9 f11) (BitVec.ofNat 9 f2) (BitVec.ofNat 2 f0))

/-- The rows of major opcode 0x32 (R79): bits 1:0, 10:2, 19:11, 22:20, 24:23. -/
def rows32 (f0 f2 f11 f20 f23 : Nat) : Option Instr :=
  some (.fadd (BitVec.ofNat 2 f23) (BitVec.ofNat 3 f20) (BitVec.ofNat 9 f11) (BitVec.ofNat 9 f2) (BitVec.ofNat 2 f0))

/-- The rows of major opcode 0x33 (R79): bits 1:0, 10:2, 19:11, 22:20, 24:23. -/
def rows33 (f0 f2 f11 f20 f23 : Nat) : Option Instr :=
  some (.fsub (BitVec.ofNat 2 f23) (BitVec.ofNat 3 f20) (BitVec.ofNat 9 f11) (BitVec.ofNat 9 f2) (BitVec.ofNat 2 f0))

/-- The rows of major opcode 0x34 (R79): bits 1:0, 10:2, 19:11, 22:20, 24:23. -/
def rows34 (f0 f2 f11 f20 f23 : Nat) : Option Instr :=
  some (.fmul (BitVec.ofNat 2 f23) (BitVec.ofNat 3 f20) (BitVec.ofNat 9 f11) (BitVec.ofNat 9 f2) (BitVec.ofNat 2 f0))

/-- The rows of major opcode 0x35 (R79): bits 1:0, 10:2, 19:11, 22:20, 24:23. -/
def rows35 (f0 f2 f11 f20 f23 : Nat) : Option Instr :=
  some (.fma (BitVec.ofNat 2 f23) (BitVec.ofNat 3 f20) (BitVec.ofNat 9 f11) (BitVec.ofNat 9 f2) (BitVec.ofNat 2 f0))

/-- The rows of major opcode 0x36 (R79): bits 1:0, 10:2, 19:11, 22:20, 24:23. -/
def rows36 (f0 f2 f11 f20 f23 : Nat) : Option Instr :=
  some (.fdiv (BitVec.ofNat 2 f23) (BitVec.ofNat 3 f20) (BitVec.ofNat 9 f11) (BitVec.ofNat 9 f2) (BitVec.ofNat 2 f0))

/-- The rows of major opcode 0x37 (R79): bits 1:0, 10:2, 19:11, 22:20, 24:23. -/
def rows37 (f0 f2 f11 f20 f23 : Nat) : Option Instr :=
  some (.fsqrt (BitVec.ofNat 2 f23) (BitVec.ofNat 3 f20) (BitVec.ofNat 9 f11) (BitVec.ofNat 9 f2) (BitVec.ofNat 2 f0))

/-- The rows of major opcode 0x38 (R79): bits 1:0, 10:2, 19:11, 22:20, 24:23. -/
def rows38 (f0 f2 f11 f20 f23 : Nat) : Option Instr :=
  if f20 = 0 then some (.fmin (BitVec.ofNat 2 f23) (BitVec.ofNat 9 f11) (BitVec.ofNat 9 f2) (BitVec.ofNat 2 f0))
  else if f20 = 1 then some (.fmax (BitVec.ofNat 2 f23) (BitVec.ofNat 9 f11) (BitVec.ofNat 9 f2) (BitVec.ofNat 2 f0))
  else if f20 = 2 then some (.fminnum (BitVec.ofNat 2 f23) (BitVec.ofNat 9 f11) (BitVec.ofNat 9 f2) (BitVec.ofNat 2 f0))
  else if f20 = 3 then some (.fmaxnum (BitVec.ofNat 2 f23) (BitVec.ofNat 9 f11) (BitVec.ofNat 9 f2) (BitVec.ofNat 2 f0))
  else none

/-- The rows of major opcode 0x39 (R79): bits 1:0, 10:2, 19:11, 22:20, 24:23. -/
def rows39 (f0 f2 f11 f20 f23 : Nat) : Option Instr :=
  some (.fcmp (BitVec.ofNat 2 f23) (BitVec.ofNat 3 f20) (BitVec.ofNat 9 f11) (BitVec.ofNat 9 f2) (BitVec.ofNat 2 f0))

/-- The rows of major opcode 0x3A (R79): bits 1:0, 4:2, 5:5, 10:6, 19:11, 24:20. -/
def rows3A (f0 f2 f5 f6 f11 f20 : Nat) : Option Instr :=
  if f6 = 0 then some (.fcvt (BitVec.ofNat 5 f20) (BitVec.ofNat 9 f11) (BitVec.ofNat 1 f5) (BitVec.ofNat 3 f2) (BitVec.ofNat 2 f0))
  else none

/-- The rows of major opcode 0x3B (R79): bits 1:0, 10:2, 19:11, 22:20, 24:23. -/
def rows3B (f0 f2 f11 f20 f23 : Nat) : Option Instr :=
  if f20 = 0 then some (.fabs (BitVec.ofNat 2 f23) (BitVec.ofNat 9 f11) (BitVec.ofNat 9 f2) (BitVec.ofNat 2 f0))
  else if f20 = 1 then some (.fneg (BitVec.ofNat 2 f23) (BitVec.ofNat 9 f11) (BitVec.ofNat 9 f2) (BitVec.ofNat 2 f0))
  else if f20 = 2 then some (.fclass (BitVec.ofNat 2 f23) (BitVec.ofNat 9 f11) (BitVec.ofNat 9 f2) (BitVec.ofNat 2 f0))
  else if f20 = 3 then some (.fcopysign (BitVec.ofNat 2 f23) (BitVec.ofNat 9 f11) (BitVec.ofNat 9 f2) (BitVec.ofNat 2 f0))
  else none

/-- The rows of major opcode 0x40 (R79): bits 1:0, 6:2, 8:7, 10:9, 19:11, 24:20. -/
def rows40 (f0 f2 f7 f9 f11 f20 : Nat) : Option Instr :=
  some (.ldb (BitVec.ofNat 5 f20) (BitVec.ofNat 9 f11) (BitVec.ofNat 2 f9) (BitVec.ofNat 2 f7) (BitVec.ofNat 5 f2) (BitVec.ofNat 2 f0))

/-- The rows of major opcode 0x41 (R79): bits 1:0, 6:2, 8:7, 10:9, 19:11, 24:20. -/
def rows41 (f0 f2 f7 f9 f11 f20 : Nat) : Option Instr :=
  some (.ldbs (BitVec.ofNat 5 f20) (BitVec.ofNat 9 f11) (BitVec.ofNat 2 f9) (BitVec.ofNat 2 f7) (BitVec.ofNat 5 f2) (BitVec.ofNat 2 f0))

/-- The rows of major opcode 0x42 (R79): bits 1:0, 6:2, 8:7, 10:9, 19:11, 24:20. -/
def rows42 (f0 f2 f7 f9 f11 f20 : Nat) : Option Instr :=
  some (.ldh (BitVec.ofNat 5 f20) (BitVec.ofNat 9 f11) (BitVec.ofNat 2 f9) (BitVec.ofNat 2 f7) (BitVec.ofNat 5 f2) (BitVec.ofNat 2 f0))

/-- The rows of major opcode 0x43 (R79): bits 1:0, 6:2, 8:7, 10:9, 19:11, 24:20. -/
def rows43 (f0 f2 f7 f9 f11 f20 : Nat) : Option Instr :=
  some (.ldhs (BitVec.ofNat 5 f20) (BitVec.ofNat 9 f11) (BitVec.ofNat 2 f9) (BitVec.ofNat 2 f7) (BitVec.ofNat 5 f2) (BitVec.ofNat 2 f0))

/-- The rows of major opcode 0x44 (R79): bits 1:0, 6:2, 8:7, 10:9, 19:11, 24:20. -/
def rows44 (f0 f2 f7 f9 f11 f20 : Nat) : Option Instr :=
  some (.ldw (BitVec.ofNat 5 f20) (BitVec.ofNat 9 f11) (BitVec.ofNat 2 f9) (BitVec.ofNat 2 f7) (BitVec.ofNat 5 f2) (BitVec.ofNat 2 f0))

/-- The rows of major opcode 0x45 (R79): bits 1:0, 6:2, 8:7, 10:9, 19:11, 24:20. -/
def rows45 (f0 f2 f7 f9 f11 f20 : Nat) : Option Instr :=
  some (.ldws (BitVec.ofNat 5 f20) (BitVec.ofNat 9 f11) (BitVec.ofNat 2 f9) (BitVec.ofNat 2 f7) (BitVec.ofNat 5 f2) (BitVec.ofNat 2 f0))

/-- The rows of major opcode 0x46 (R79): bits 1:0, 6:2, 8:7, 10:9, 19:11, 24:20. -/
def rows46 (f0 f2 f7 f9 f11 f20 : Nat) : Option Instr :=
  some (.ldd (BitVec.ofNat 5 f20) (BitVec.ofNat 9 f11) (BitVec.ofNat 2 f9) (BitVec.ofNat 2 f7) (BitVec.ofNat 5 f2) (BitVec.ofNat 2 f0))

/-- The rows of major opcode 0x47 (R79): bits 1:0, 6:2, 8:7, 10:9, 19:11, 24:20. -/
def rows47 (f0 f2 f7 f9 f11 f20 : Nat) : Option Instr :=
  some (.ldq (BitVec.ofNat 5 f20) (BitVec.ofNat 9 f11) (BitVec.ofNat 2 f9) (BitVec.ofNat 2 f7) (BitVec.ofNat 5 f2) (BitVec.ofNat 2 f0))

/-- The rows of major opcode 0x48 (R79): bits 1:0, 15:2, 17:16, 19:18, 24:20. -/
def rows48 (f0 f2 f16 f18 f20 : Nat) : Option Instr :=
  some (.stb (BitVec.ofNat 5 f20) (BitVec.ofNat 2 f18) (BitVec.ofNat 2 f16) (BitVec.ofNat 14 f2) (BitVec.ofNat 2 f0))

/-- The rows of major opcode 0x49 (R79): bits 1:0, 15:2, 17:16, 19:18, 24:20. -/
def rows49 (f0 f2 f16 f18 f20 : Nat) : Option Instr :=
  some (.sth (BitVec.ofNat 5 f20) (BitVec.ofNat 2 f18) (BitVec.ofNat 2 f16) (BitVec.ofNat 14 f2) (BitVec.ofNat 2 f0))

/-- The rows of major opcode 0x4A (R79): bits 1:0, 15:2, 17:16, 19:18, 24:20. -/
def rows4A (f0 f2 f16 f18 f20 : Nat) : Option Instr :=
  some (.stw (BitVec.ofNat 5 f20) (BitVec.ofNat 2 f18) (BitVec.ofNat 2 f16) (BitVec.ofNat 14 f2) (BitVec.ofNat 2 f0))

/-- The rows of major opcode 0x4B (R79): bits 1:0, 15:2, 17:16, 19:18, 24:20. -/
def rows4B (f0 f2 f16 f18 f20 : Nat) : Option Instr :=
  some (.std (BitVec.ofNat 5 f20) (BitVec.ofNat 2 f18) (BitVec.ofNat 2 f16) (BitVec.ofNat 14 f2) (BitVec.ofNat 2 f0))

/-- The rows of major opcode 0x4C (R79): bits 1:0, 15:2, 17:16, 19:18, 24:20. -/
def rows4C (f0 f2 f16 f18 f20 : Nat) : Option Instr :=
  some (.stq (BitVec.ofNat 5 f20) (BitVec.ofNat 2 f18) (BitVec.ofNat 2 f16) (BitVec.ofNat 14 f2) (BitVec.ofNat 2 f0))

/-- The rows of major opcode 0x4D (R79): bits 1:0, 2:2, 15:3, 17:16, 19:18, 24:20. -/
def rows4D (f0 f2 f3 f16 f18 f20 : Nat) : Option Instr :=
  some (.stn4 (BitVec.ofNat 5 f20) (BitVec.ofNat 2 f18) (BitVec.ofNat 2 f16) (BitVec.ofNat 13 f3) (BitVec.ofNat 1 f2) (BitVec.ofNat 2 f0))

/-- The rows of major opcode 0x4E (R79): bits 1:0, 5:2, 7:6, 9:8, 14:10, 19:15, 24:20. -/
def rows4E (f0 f2 f6 f8 f10 f15 f20 : Nat) : Option Instr :=
  if f2 = 0 then some (.ldv (BitVec.ofNat 5 f20) (BitVec.ofNat 5 f15) (BitVec.ofNat 5 f10) (BitVec.ofNat 2 f8) (BitVec.ofNat 2 f6) (BitVec.ofNat 2 f0))
  else if f2 = 1 then some (.ldvStr (BitVec.ofNat 5 f20) (BitVec.ofNat 5 f15) (BitVec.ofNat 5 f10) (BitVec.ofNat 2 f8) (BitVec.ofNat 2 f6) (BitVec.ofNat 2 f0))
  else if f2 = 2 then some (.ldvIdx (BitVec.ofNat 5 f20) (BitVec.ofNat 5 f15) (BitVec.ofNat 5 f10) (BitVec.ofNat 2 f8) (BitVec.ofNat 2 f6) (BitVec.ofNat 2 f0))
  else none

/-- The rows of major opcode 0x4F (R79): bits 1:0, 5:2, 7:6, 9:8, 14:10, 19:15, 24:20. -/
def rows4F (f0 f2 f6 f8 f10 f15 f20 : Nat) : Option Instr :=
  if f2 = 0 then some (.stv (BitVec.ofNat 5 f20) (BitVec.ofNat 5 f15) (BitVec.ofNat 5 f10) (BitVec.ofNat 2 f8) (BitVec.ofNat 2 f6) (BitVec.ofNat 2 f0))
  else if f2 = 1 then some (.stvStr (BitVec.ofNat 5 f20) (BitVec.ofNat 5 f15) (BitVec.ofNat 5 f10) (BitVec.ofNat 2 f8) (BitVec.ofNat 2 f6) (BitVec.ofNat 2 f0))
  else if f2 = 2 then some (.stvIdx (BitVec.ofNat 5 f20) (BitVec.ofNat 5 f15) (BitVec.ofNat 5 f10) (BitVec.ofNat 2 f8) (BitVec.ofNat 2 f6) (BitVec.ofNat 2 f0))
  else none

/-- The rows of major opcode 0x50 (R79): bits 1:0, 3:2, 6:4, 8:7, 10:9, 19:11, 24:20. -/
def rows50 (f0 f2 f4 f7 f9 f11 f20 : Nat) : Option Instr :=
  some (.aadd (BitVec.ofNat 5 f20) (BitVec.ofNat 9 f11) (BitVec.ofNat 2 f9) (BitVec.ofNat 2 f7) (BitVec.ofNat 3 f4) (BitVec.ofNat 2 f2) (BitVec.ofNat 2 f0))

/-- The rows of major opcode 0x51 (R79): bits 1:0, 3:2, 6:4, 8:7, 10:9, 19:11, 24:20. -/
def rows51 (f0 f2 f4 f7 f9 f11 f20 : Nat) : Option Instr :=
  some (.aand (BitVec.ofNat 5 f20) (BitVec.ofNat 9 f11) (BitVec.ofNat 2 f9) (BitVec.ofNat 2 f7) (BitVec.ofNat 3 f4) (BitVec.ofNat 2 f2) (BitVec.ofNat 2 f0))

/-- The rows of major opcode 0x52 (R79): bits 1:0, 3:2, 6:4, 8:7, 10:9, 19:11, 24:20. -/
def rows52 (f0 f2 f4 f7 f9 f11 f20 : Nat) : Option Instr :=
  some (.aor (BitVec.ofNat 5 f20) (BitVec.ofNat 9 f11) (BitVec.ofNat 2 f9) (BitVec.ofNat 2 f7) (BitVec.ofNat 3 f4) (BitVec.ofNat 2 f2) (BitVec.ofNat 2 f0))

/-- The rows of major opcode 0x53 (R79): bits 1:0, 3:2, 6:4, 8:7, 10:9, 19:11, 24:20. -/
def rows53 (f0 f2 f4 f7 f9 f11 f20 : Nat) : Option Instr :=
  some (.axor (BitVec.ofNat 5 f20) (BitVec.ofNat 9 f11) (BitVec.ofNat 2 f9) (BitVec.ofNat 2 f7) (BitVec.ofNat 3 f4) (BitVec.ofNat 2 f2) (BitVec.ofNat 2 f0))

/-- The rows of major opcode 0x54 (R79): bits 1:0, 3:2, 6:4, 8:7, 10:9, 19:11, 24:20. -/
def rows54 (f0 f2 f4 f7 f9 f11 f20 : Nat) : Option Instr :=
  some (.amin (BitVec.ofNat 5 f20) (BitVec.ofNat 9 f11) (BitVec.ofNat 2 f9) (BitVec.ofNat 2 f7) (BitVec.ofNat 3 f4) (BitVec.ofNat 2 f2) (BitVec.ofNat 2 f0))

/-- The rows of major opcode 0x55 (R79): bits 1:0, 3:2, 6:4, 8:7, 10:9, 19:11, 24:20. -/
def rows55 (f0 f2 f4 f7 f9 f11 f20 : Nat) : Option Instr :=
  some (.amax (BitVec.ofNat 5 f20) (BitVec.ofNat 9 f11) (BitVec.ofNat 2 f9) (BitVec.ofNat 2 f7) (BitVec.ofNat 3 f4) (BitVec.ofNat 2 f2) (BitVec.ofNat 2 f0))

/-- The rows of major opcode 0x56 (R79): bits 1:0, 3:2, 6:4, 8:7, 10:9, 19:11, 24:20. -/
def rows56 (f0 f2 f4 f7 f9 f11 f20 : Nat) : Option Instr :=
  some (.aminn (BitVec.ofNat 5 f20) (BitVec.ofNat 9 f11) (BitVec.ofNat 2 f9) (BitVec.ofNat 2 f7) (BitVec.ofNat 3 f4) (BitVec.ofNat 2 f2) (BitVec.ofNat 2 f0))

/-- The rows of major opcode 0x57 (R79): bits 1:0, 3:2, 6:4, 8:7, 10:9, 19:11, 24:20. -/
def rows57 (f0 f2 f4 f7 f9 f11 f20 : Nat) : Option Instr :=
  some (.amaxn (BitVec.ofNat 5 f20) (BitVec.ofNat 9 f11) (BitVec.ofNat 2 f9) (BitVec.ofNat 2 f7) (BitVec.ofNat 3 f4) (BitVec.ofNat 2 f2) (BitVec.ofNat 2 f0))

/-- The rows of major opcode 0x58 (R79): bits 1:0, 3:2, 6:4, 8:7, 10:9, 19:11, 24:20. -/
def rows58 (f0 f2 f4 f7 f9 f11 f20 : Nat) : Option Instr :=
  some (.aswp (BitVec.ofNat 5 f20) (BitVec.ofNat 9 f11) (BitVec.ofNat 2 f9) (BitVec.ofNat 2 f7) (BitVec.ofNat 3 f4) (BitVec.ofNat 2 f2) (BitVec.ofNat 2 f0))

/-- The rows of major opcode 0x59 (R79): bits 1:0, 3:2, 6:4, 8:7, 10:9, 19:11, 24:20. -/
def rows59 (f0 f2 f4 f7 f9 f11 f20 : Nat) : Option Instr :=
  some (.acas (BitVec.ofNat 5 f20) (BitVec.ofNat 9 f11) (BitVec.ofNat 2 f9) (BitVec.ofNat 2 f7) (BitVec.ofNat 3 f4) (BitVec.ofNat 2 f2) (BitVec.ofNat 2 f0))

/-- The rows of major opcode 0x5A (R79): bits 1:0, 3:2, 6:4, 8:7, 10:9, 19:11, 24:20. -/
def rows5A (f0 f2 f4 f7 f9 f11 f20 : Nat) : Option Instr :=
  some (.afadd (BitVec.ofNat 5 f20) (BitVec.ofNat 9 f11) (BitVec.ofNat 2 f9) (BitVec.ofNat 2 f7) (BitVec.ofNat 3 f4) (BitVec.ofNat 2 f2) (BitVec.ofNat 2 f0))

/-- The rows of major opcode 0x5B (R79): bits 1:0, 4:2, 10:5, 19:11, 24:20. -/
def rows5B (f0 f2 f5 f11 f20 : Nat) : Option Instr :=
  if f5 = 0 ∧ f11 = 127 ∧ f20 = 0 then some (.fenceFull (BitVec.ofNat 3 f2) (BitVec.ofNat 2 f0))
  else if f5 = 0 ∧ f11 = 127 ∧ f20 = 1 then some (.fenceAcq (BitVec.ofNat 3 f2) (BitVec.ofNat 2 f0))
  else if f5 = 0 ∧ f11 = 127 ∧ f20 = 2 then some (.fenceRel (BitVec.ofNat 3 f2) (BitVec.ofNat 2 f0))
  else if f5 = 0 ∧ f11 = 127 ∧ f20 = 3 then some (.fenceSs (BitVec.ofNat 3 f2) (BitVec.ofNat 2 f0))
  else none

/-- The rows of major opcode 0x5C (R79): bits 1:0, 3:2, 6:4, 8:7, 10:9, 19:11, 24:20. -/
def rows5C (f0 f2 f4 f7 f9 f11 f20 : Nat) : Option Instr :=
  if f2 = 0 then some (.acq (BitVec.ofNat 5 f20) (BitVec.ofNat 9 f11) (BitVec.ofNat 2 f9) (BitVec.ofNat 2 f7) (BitVec.ofNat 3 f4) (BitVec.ofNat 2 f0))
  else none

/-- The rows of major opcode 0x5D (R79): bits 1:0, 15:2, 17:16, 19:18, 24:20. -/
def rows5D (f0 f2 f16 f18 f20 : Nat) : Option Instr :=
  some (.rel (BitVec.ofNat 5 f20) (BitVec.ofNat 2 f18) (BitVec.ofNat 2 f16) (BitVec.ofNat 14 f2) (BitVec.ofNat 2 f0))

/-- The rows of major opcode 0x5E (R79): bits 1:0, 10:2, 19:11, 22:20, 24:23. -/
def rows5E (f0 f2 f11 f20 f23 : Nat) : Option Instr :=
  if f2 = 127 ∧ f11 = 127 ∧ f20 = 0 then some (.wbr (BitVec.ofNat 2 f23) (BitVec.ofNat 2 f0))
  else if f2 = 127 ∧ f11 = 127 ∧ f20 = 1 then some (.invr (BitVec.ofNat 2 f23) (BitVec.ofNat 2 f0))
  else if f2 = 127 ∧ f11 = 127 ∧ f20 = 2 then some (.pref (BitVec.ofNat 2 f23) (BitVec.ofNat 2 f0))
  else if f2 = 127 ∧ f11 = 127 ∧ f20 = 3 ∧ f23 = 0 then some (.ibar (BitVec.ofNat 2 f0))
  else none

/-- The rows of major opcode 0x5F (R79): bits 1:0, 10:2, 19:11, 24:20. -/
def rows5F (f0 f2 f11 f20 : Nat) : Option Instr :=
  if f2 = 127 ∧ f11 = 127 ∧ f20 = 0 then some (.lncfg (BitVec.ofNat 2 f0))
  else none

/-- The rows of major opcode 0x60 (R79): bits 1:0, 5:2, 9:6, 10:10, 19:11, 24:20. -/
def rows60 (f0 f2 f6 f10 f11 f20 : Nat) : Option Instr :=
  if f2 = 0 ∧ f10 = 0 then some (.vsetl (BitVec.ofNat 5 f20) (BitVec.ofNat 9 f11) (BitVec.ofNat 4 f6) (BitVec.ofNat 2 f0))
  else if f2 = 1 ∧ f10 = 0 then some (.vgetl (BitVec.ofNat 5 f20) (BitVec.ofNat 9 f11) (BitVec.ofNat 4 f6) (BitVec.ofNat 2 f0))
  else if f2 = 2 ∧ f11 = 127 then some (.vbcast (BitVec.ofNat 5 f20) (BitVec.ofNat 5 (f10 * 16 + f6)) (BitVec.ofNat 2 f0))
  else if f2 = 3 ∧ f11 = 127 then some (.vidx (BitVec.ofNat 5 f20) (BitVec.ofNat 5 (f10 * 16 + f6)) (BitVec.ofNat 2 f0))
  else if f2 = 4 then some (.vextr (BitVec.ofNat 5 f20) (BitVec.ofNat 9 f11) (BitVec.ofNat 5 (f10 * 16 + f6)) (BitVec.ofNat 2 f0))
  else none

/-- The rows of major opcode 0x61 (R79): bits 1:0, 4:2, 9:5, 14:10, 19:15, 24:20. -/
def rows61 (f0 f2 f5 f10 f15 f20 : Nat) : Option Instr :=
  if f2 = 0 then some (.vadd (BitVec.ofNat 5 f20) (BitVec.ofNat 5 f15) (BitVec.ofNat 5 f10) (BitVec.ofNat 5 f5) (BitVec.ofNat 2 f0))
  else if f2 = 1 then some (.vsub (BitVec.ofNat 5 f20) (BitVec.ofNat 5 f15) (BitVec.ofNat 5 f10) (BitVec.ofNat 5 f5) (BitVec.ofNat 2 f0))
  else if f2 = 2 then some (.vrsub (BitVec.ofNat 5 f20) (BitVec.ofNat 5 f15) (BitVec.ofNat 5 f10) (BitVec.ofNat 5 f5) (BitVec.ofNat 2 f0))
  else if f2 = 3 then some (.vmul (BitVec.ofNat 5 f20) (BitVec.ofNat 5 f15) (BitVec.ofNat 5 f10) (BitVec.ofNat 5 f5) (BitVec.ofNat 2 f0))
  else if f2 = 4 then some (.vdiv (BitVec.ofNat 5 f20) (BitVec.ofNat 5 f15) (BitVec.ofNat 5 f10) (BitVec.ofNat 5 f5) (BitVec.ofNat 2 f0))
  else if f2 = 5 then some (.vmin (BitVec.ofNat 5 f20) (BitVec.ofNat 5 f15) (BitVec.ofNat 5 f10) (BitVec.ofNat 5 f5) (BitVec.ofNat 2 f0))
  else if f2 = 6 then some (.vmax (BitVec.ofNat 5 f20) (BitVec.ofNat 5 f15) (BitVec.ofNat 5 f10) (BitVec.ofNat 5 f5) (BitVec.ofNat 2 f0))
  else if f2 = 7 then some (.vabsd (BitVec.ofNat 5 f20) (BitVec.ofNat 5 f15) (BitVec.ofNat 5 f10) (BitVec.ofNat 5 f5) (BitVec.ofNat 2 f0))
  else none

/-- The rows of major opcode 0x62 (R79): bits 1:0, 4:2, 9:5, 14:10, 19:15, 24:20. -/
def rows62 (f0 f2 f5 f10 f15 f20 : Nat) : Option Instr :=
  if f2 = 0 then some (.vfma (BitVec.ofNat 5 f20) (BitVec.ofNat 5 f15) (BitVec.ofNat 5 f10) (BitVec.ofNat 5 f5) (BitVec.ofNat 2 f0))
  else if f2 = 1 then some (.vfms (BitVec.ofNat 5 f20) (BitVec.ofNat 5 f15) (BitVec.ofNat 5 f10) (BitVec.ofNat 5 f5) (BitVec.ofNat 2 f0))
  else if f2 = 2 then some (.vfnma (BitVec.ofNat 5 f20) (BitVec.ofNat 5 f15) (BitVec.ofNat 5 f10) (BitVec.ofNat 5 f5) (BitVec.ofNat 2 f0))
  else if f2 = 3 then some (.vfnms (BitVec.ofNat 5 f20) (BitVec.ofNat 5 f15) (BitVec.ofNat 5 f10) (BitVec.ofNat 5 f5) (BitVec.ofNat 2 f0))
  else if f2 = 4 then some (.vdoti8 (BitVec.ofNat 5 f20) (BitVec.ofNat 5 f15) (BitVec.ofNat 5 f10) (BitVec.ofNat 5 f5) (BitVec.ofNat 2 f0))
  else if f2 = 5 then some (.vdoti4 (BitVec.ofNat 5 f20) (BitVec.ofNat 5 f15) (BitVec.ofNat 5 f10) (BitVec.ofNat 5 f5) (BitVec.ofNat 2 f0))
  else none

/-- The rows of major opcode 0x63 (R79): bits 1:0, 4:2, 9:5, 14:10, 19:15, 24:20. -/
def rows63 (f0 f2 f5 f10 f15 f20 : Nat) : Option Instr :=
  if f2 = 0 then some (.vand (BitVec.ofNat 5 f20) (BitVec.ofNat 5 f15) (BitVec.ofNat 5 f10) (BitVec.ofNat 5 f5) (BitVec.ofNat 2 f0))
  else if f2 = 1 then some (.vor (BitVec.ofNat 5 f20) (BitVec.ofNat 5 f15) (BitVec.ofNat 5 f10) (BitVec.ofNat 5 f5) (BitVec.ofNat 2 f0))
  else if f2 = 2 then some (.vxor (BitVec.ofNat 5 f20) (BitVec.ofNat 5 f15) (BitVec.ofNat 5 f10) (BitVec.ofNat 5 f5) (BitVec.ofNat 2 f0))
  else if f2 = 3 then some (.vandn (BitVec.ofNat 5 f20) (BitVec.ofNat 5 f15) (BitVec.ofNat 5 f10) (BitVec.ofNat 5 f5) (BitVec.ofNat 2 f0))
  else if f2 = 4 then some (.vshl (BitVec.ofNat 5 f20) (BitVec.ofNat 5 f15) (BitVec.ofNat 5 f10) (BitVec.ofNat 5 f5) (BitVec.ofNat 2 f0))
  else if f2 = 5 then some (.vshr (BitVec.ofNat 5 f20) (BitVec.ofNat 5 f15) (BitVec.ofNat 5 f10) (BitVec.ofNat 5 f5) (BitVec.ofNat 2 f0))
  else if f2 = 6 then some (.vshra (BitVec.ofNat 5 f20) (BitVec.ofNat 5 f15) (BitVec.ofNat 5 f10) (BitVec.ofNat 5 f5) (BitVec.ofNat 2 f0))
  else if f2 = 7 ∧ f5 = 0 then some (.vnot (BitVec.ofNat 5 f20) (BitVec.ofNat 5 f15) (BitVec.ofNat 5 f10) (BitVec.ofNat 2 f0))
  else none

/-- The rows of major opcode 0x64 (R79): bits 1:0, 4:2, 9:5, 14:10, 19:15, 24:20. -/
def rows64 (f0 f2 f5 f10 f15 f20 : Nat) : Option Instr :=
  some (.vcmp (BitVec.ofNat 5 f20) (BitVec.ofNat 5 f15) (BitVec.ofNat 5 f10) (BitVec.ofNat 5 f5) (BitVec.ofNat 3 f2) (BitVec.ofNat 2 f0))

/-- The rows of major opcode 0x65 (R79): bits 1:0, 4:2, 9:5, 14:10, 19:15, 24:20. -/
def rows65 (f0 f2 f5 f10 f15 f20 : Nat) : Option Instr :=
  if f2 = 0 ∧ f5 = 0 then some (.vmov (BitVec.ofNat 5 f20) (BitVec.ofNat 5 f15) (BitVec.ofNat 5 f10) (BitVec.ofNat 2 f0))
  else if f2 = 1 then some (.vsel (BitVec.ofNat 5 f20) (BitVec.ofNat 5 f15) (BitVec.ofNat 5 f10) (BitVec.ofNat 5 f5) (BitVec.ofNat 2 f0))
  else if f2 = 2 then some (.vcmpct (BitVec.ofNat 5 f20) (BitVec.ofNat 5 f15) (BitVec.ofNat 5 f10) (BitVec.ofNat 5 f5) (BitVec.ofNat 2 f0))
  else if f2 = 3 then some (.vpermx (BitVec.ofNat 5 f20) (BitVec.ofNat 5 f15) (BitVec.ofNat 5 f10) (BitVec.ofNat 5 f5) (BitVec.ofNat 2 f0))
  else if f2 = 4 then some (.vslideup (BitVec.ofNat 5 f20) (BitVec.ofNat 5 f15) (BitVec.ofNat 5 f10) (BitVec.ofNat 5 f5) (BitVec.ofNat 2 f0))
  else if f2 = 5 then some (.vslidedn (BitVec.ofNat 5 f20) (BitVec.ofNat 5 f15) (BitVec.ofNat 5 f10) (BitVec.ofNat 5 f5) (BitVec.ofNat 2 f0))
  else if f2 = 6 then some (.vzip (BitVec.ofNat 5 f20) (BitVec.ofNat 5 f15) (BitVec.ofNat 5 f10) (BitVec.ofNat 5 f5) (BitVec.ofNat 2 f0))
  else if f2 = 7 then some (.vunzip (BitVec.ofNat 5 f20) (BitVec.ofNat 5 f15) (BitVec.ofNat 5 f10) (BitVec.ofNat 5 f5) (BitVec.ofNat 2 f0))
  else none

/-- The rows of major opcode 0x66 (R79): bits 1:0, 5:2, 10:6, 19:11, 24:20. -/
def rows66 (f0 f2 f6 f11 f20 : Nat) : Option Instr :=
  if f2 = 0 then some (.rsum (BitVec.ofNat 5 f20) (BitVec.ofNat 9 f11) (BitVec.ofNat 5 f6) (BitVec.ofNat 2 f0))
  else if f2 = 1 then some (.rmax (BitVec.ofNat 5 f20) (BitVec.ofNat 9 f11) (BitVec.ofNat 5 f6) (BitVec.ofNat 2 f0))
  else if f2 = 2 then some (.rmin (BitVec.ofNat 5 f20) (BitVec.ofNat 9 f11) (BitVec.ofNat 5 f6) (BitVec.ofNat 2 f0))
  else if f2 = 3 then some (.rsumw (BitVec.ofNat 5 f20) (BitVec.ofNat 9 f11) (BitVec.ofNat 5 f6) (BitVec.ofNat 2 f0))
  else if f2 = 4 then some (.rcount (BitVec.ofNat 5 f20) (BitVec.ofNat 9 f11) (BitVec.ofNat 5 f6) (BitVec.ofNat 2 f0))
  else if f2 = 5 then some (.rfirst (BitVec.ofNat 5 f20) (BitVec.ofNat 9 f11) (BitVec.ofNat 5 f6) (BitVec.ofNat 2 f0))
  else none

/-- The rows of major opcode 0x67 (R79): bits 1:0, 4:2, 9:5, 14:10, 19:15, 24:20. -/
def rows67 (f0 f2 f5 f10 f15 f20 : Nat) : Option Instr :=
  if f2 = 0 ∧ f5 = 0 then some (.vscanSum (BitVec.ofNat 5 f20) (BitVec.ofNat 5 f15) (BitVec.ofNat 5 f10) (BitVec.ofNat 2 f0))
  else if f2 = 1 ∧ f5 = 0 then some (.vscanMax (BitVec.ofNat 5 f20) (BitVec.ofNat 5 f15) (BitVec.ofNat 5 f10) (BitVec.ofNat 2 f0))
  else if f2 = 2 ∧ f5 = 0 then some (.vscanMin (BitVec.ofNat 5 f20) (BitVec.ofNat 5 f15) (BitVec.ofNat 5 f10) (BitVec.ofNat 2 f0))
  else if f2 = 3 then some (.vscanSegsum (BitVec.ofNat 5 f20) (BitVec.ofNat 5 f15) (BitVec.ofNat 5 f10) (BitVec.ofNat 5 f5) (BitVec.ofNat 2 f0))
  else none

/-- The rows of major opcode 0x68 (R79): bits 1:0, 4:2, 9:5, 14:10, 19:15, 24:20. -/
def rows68 (f0 f2 f5 f10 f15 f20 : Nat) : Option Instr :=
  if f2 = 0 ∧ f5 = 0 then some (.exp2 (BitVec.ofNat 5 f20) (BitVec.ofNat 5 f15) (BitVec.ofNat 5 f10) (BitVec.ofNat 2 f0))
  else if f2 = 1 ∧ f5 = 0 then some (.log2 (BitVec.ofNat 5 f20) (BitVec.ofNat 5 f15) (BitVec.ofNat 5 f10) (BitVec.ofNat 2 f0))
  else if f2 = 2 ∧ f5 = 0 then some (.rcp (BitVec.ofNat 5 f20) (BitVec.ofNat 5 f15) (BitVec.ofNat 5 f10) (BitVec.ofNat 2 f0))
  else if f2 = 3 ∧ f5 = 0 then some (.rsq (BitVec.ofNat 5 f20) (BitVec.ofNat 5 f15) (BitVec.ofNat 5 f10) (BitVec.ofNat 2 f0))
  else if f2 = 4 ∧ f5 = 0 then some (.sqrt (BitVec.ofNat 5 f20) (BitVec.ofNat 5 f15) (BitVec.ofNat 5 f10) (BitVec.ofNat 2 f0))
  else if f2 = 5 ∧ f5 = 0 then some (.tanh (BitVec.ofNat 5 f20) (BitVec.ofNat 5 f15) (BitVec.ofNat 5 f10) (BitVec.ofNat 2 f0))
  else if f2 = 6 ∧ f5 = 0 then some (.sigm (BitVec.ofNat 5 f20) (BitVec.ofNat 5 f15) (BitVec.ofNat 5 f10) (BitVec.ofNat 2 f0))
  else if f2 = 7 ∧ f5 = 0 then some (.erf (BitVec.ofNat 5 f20) (BitVec.ofNat 5 f15) (BitVec.ofNat 5 f10) (BitVec.ofNat 2 f0))
  else none

/-- The rows of major opcode 0x69 (R79): bits 1:0, 4:2, 8:5, 9:9, 14:10, 19:15, 24:20. -/
def rows69 (f0 f2 f5 f9 f10 f15 f20 : Nat) : Option Instr :=
  if f9 = 0 then some (.vcvt (BitVec.ofNat 5 f20) (BitVec.ofNat 5 f15) (BitVec.ofNat 5 f10) (BitVec.ofNat 4 f5) (BitVec.ofNat 3 f2) (BitVec.ofNat 2 f0))
  else none

/-- The rows of major opcode 0x6A (R79): bits 1:0, 4:2, 7:5, 9:8, 14:10, 19:15, 24:20. -/
def rows6A (f0 f2 f5 f8 f10 f15 f20 : Nat) : Option Instr :=
  if f2 = 0 ∧ f8 = 0 then some (.vdeq (BitVec.ofNat 5 f20) (BitVec.ofNat 5 f15) (BitVec.ofNat 5 f10) (BitVec.ofNat 3 f5) (BitVec.ofNat 2 f0))
  else if f2 = 1 then some (.vscl (BitVec.ofNat 5 f20) (BitVec.ofNat 5 f15) (BitVec.ofNat 5 f10) (BitVec.ofNat 5 (f8 * 8 + f5)) (BitVec.ofNat 2 f0))
  else if f2 = 2 then some (.vqnt (BitVec.ofNat 5 f20) (BitVec.ofNat 5 f15) (BitVec.ofNat 5 f10) (BitVec.ofNat 5 (f8 * 8 + f5)) (BitVec.ofNat 2 f0))
  else if f2 = 3 ∧ f5 = 0 ∧ f8 = 0 then some (.vamax (BitVec.ofNat 5 f20) (BitVec.ofNat 5 f15) (BitVec.ofNat 5 f10) (BitVec.ofNat 2 f0))
  else none

/-- The rows of major opcode 0x6B (R79): bits 1:0, 4:2, 9:5, 14:10, 19:15, 24:20. -/
def rows6B (f0 f2 f5 f10 f15 f20 : Nat) : Option Instr :=
  if f2 = 0 then some (.pack (BitVec.ofNat 5 f20) (BitVec.ofNat 5 f15) (BitVec.ofNat 5 f10) (BitVec.ofNat 5 f5) (BitVec.ofNat 2 f0))
  else if f2 = 1 ∧ f5 = 0 then some (.unpklo (BitVec.ofNat 5 f20) (BitVec.ofNat 5 f15) (BitVec.ofNat 5 f10) (BitVec.ofNat 2 f0))
  else if f2 = 2 ∧ f5 = 0 then some (.unpkhi (BitVec.ofNat 5 f20) (BitVec.ofNat 5 f15) (BitVec.ofNat 5 f10) (BitVec.ofNat 2 f0))
  else none

/-- The rows of major opcode 0x6C (R79): bits 1:0, 5:2, 10:6, 19:11, 24:20. -/
def rows6C (f0 f2 f6 f11 f20 : Nat) : Option Instr :=
  if f2 = 0 then some (.gettag (BitVec.ofNat 5 f20) (BitVec.ofNat 9 f11) (BitVec.ofNat 5 f6) (BitVec.ofNat 2 f0))
  else if f2 = 1 ∧ f11 = 127 then some (.settag (BitVec.ofNat 5 f20) (BitVec.ofNat 5 f6) (BitVec.ofNat 2 f0))
  else if f2 = 2 ∧ f11 = 127 then some (.clrtag (BitVec.ofNat 5 f20) (BitVec.ofNat 5 f6) (BitVec.ofNat 2 f0))
  else none

/-- The rows of major opcode 0x70 (R79): bits 1:0, 4:2, 9:5, 10:10, 19:11, 24:20. -/
def rows70 (f0 f2 f5 f10 f11 f20 : Nat) : Option Instr :=
  if f2 = 0 ∧ f5 = 0 ∧ f10 = 0 ∧ f20 = 0 then some (.mshape (BitVec.ofNat 9 f11) (BitVec.ofNat 2 f0))
  else if f10 = 0 ∧ f11 = 127 ∧ f20 = 1 then some (.mzero (BitVec.ofNat 8 (f5 * 8 + f2)) (BitVec.ofNat 2 f0))
  else if f10 = 0 ∧ f20 = 2 then some (.mwait (BitVec.ofNat 9 f11) (BitVec.ofNat 8 (f5 * 8 + f2)) (BitVec.ofNat 2 f0))
  else if f2 = 0 ∧ f5 = 0 ∧ f10 = 0 ∧ f20 = 3 then some (.mstat (BitVec.ofNat 9 f11) (BitVec.ofNat 2 f0))
  else if f5 = 0 ∧ f10 = 0 ∧ f11 = 127 ∧ f20 = 4 then some (.mtscl (BitVec.ofNat 3 f2) (BitVec.ofNat 2 f0))
  else none

/-- The rows of major opcode 0x71 (R79): bits 1:0, 9:2, 10:10, 13:11, 16:14, 19:17, 24:20. -/
def rows71 (f0 f2 f10 f11 f14 f17 f20 : Nat) : Option Instr :=
  if f2 = 0 then some (.mma (BitVec.ofNat 5 f20) (BitVec.ofNat 3 f17) (BitVec.ofNat 3 f14) (BitVec.ofNat 3 f11) (BitVec.ofNat 1 f10) (BitVec.ofNat 2 f0))
  else none

/-- The rows of major opcode 0x72 (R79): bits 1:0, 9:2, 10:10, 13:11, 16:14, 19:17, 24:20. -/
def rows72 (f0 f2 f10 f11 f14 f17 f20 : Nat) : Option Instr :=
  if f2 = 0 then some (.mmas (BitVec.ofNat 5 f20) (BitVec.ofNat 3 f17) (BitVec.ofNat 3 f14) (BitVec.ofNat 3 f11) (BitVec.ofNat 1 f10) (BitVec.ofNat 2 f0))
  else none

/-- The rows of major opcode 0x73 (R79): bits 1:0, 4:2, 9:5, 14:10, 17:15, 19:18, 24:20. -/
def rows73 (f0 f2 f5 f10 f15 f18 f20 : Nat) : Option Instr :=
  if f2 = 0 ∧ f18 = 0 then some (.mmav (BitVec.ofNat 5 f20) (BitVec.ofNat 3 f15) (BitVec.ofNat 5 f10) (BitVec.ofNat 5 f5) (BitVec.ofNat 2 f0))
  else if f2 = 1 ∧ f18 = 0 then some (.mmavSub (BitVec.ofNat 5 f20) (BitVec.ofNat 3 f15) (BitVec.ofNat 5 f10) (BitVec.ofNat 5 f5) (BitVec.ofNat 2 f0))
  else none

/-- The rows of major opcode 0x74 (R79): bits 1:0, 4:2, 9:5, 12:10, 14:13, 17:15, 19:18, 24:20. -/
def rows74 (f0 f2 f5 f10 f13 f15 f18 f20 : Nat) : Option Instr :=
  if f2 = 0 ∧ f18 = 0 then some (.mldv (BitVec.ofNat 5 f20) (BitVec.ofNat 3 f15) (BitVec.ofNat 5 (f13 * 8 + f10)) (BitVec.ofNat 5 f5) (BitVec.ofNat 2 f0))
  else if f2 = 1 ∧ f13 = 0 then some (.mrdv (BitVec.ofNat 5 f20) (BitVec.ofNat 5 (f18 * 8 + f15)) (BitVec.ofNat 3 f10) (BitVec.ofNat 5 f5) (BitVec.ofNat 2 f0))
  else none

/-- The rows of major opcode 0x75 (R79): bits 1:0, 5:2, 6:6, 10:7, 13:11, 16:14, 19:17, 24:20. -/
def rows75 (f0 f2 f6 f7 f11 f14 f17 f20 : Nat) : Option Instr :=
  if f2 = 0 then some (.msto (BitVec.ofNat 5 f20) (BitVec.ofNat 3 f17) (BitVec.ofNat 3 f14) (BitVec.ofNat 3 f11) (BitVec.ofNat 4 f7) (BitVec.ofNat 1 f6) (BitVec.ofNat 2 f0))
  else none

/-- The rows of major opcode 0x76 (R79): bits 1:0, 4:2, 7:5, 9:8, 12:10, 14:13, 17:15, 19:18, 24:20. -/
def rows76 (f0 f2 f5 f8 f10 f13 f15 f18 f20 : Nat) : Option Instr :=
  if f2 = 0 ∧ f8 = 0 ∧ f13 = 0 ∧ f18 = 0 then some (.maddm (BitVec.ofNat 5 f20) (BitVec.ofNat 3 f15) (BitVec.ofNat 3 f10) (BitVec.ofNat 3 f5) (BitVec.ofNat 2 f0))
  else if f2 = 1 ∧ f5 = 0 ∧ f8 = 0 ∧ f13 = 0 ∧ f18 = 0 then some (.mtrn (BitVec.ofNat 5 f20) (BitVec.ofNat 3 f15) (BitVec.ofNat 3 f10) (BitVec.ofNat 2 f0))
  else if f2 = 2 ∧ f5 = 0 ∧ f8 = 0 ∧ f13 = 0 ∧ f18 = 0 then some (.mcopy (BitVec.ofNat 5 f20) (BitVec.ofNat 3 f15) (BitVec.ofNat 3 f10) (BitVec.ofNat 2 f0))
  else none

/-- The rows of major opcode 0x78 (R79): bits 1:0, 3:2, 10:4, 19:11, 24:20. -/
def rows78 (f0 f2 f4 f11 f20 : Nat) : Option Instr :=
  if f2 = 0 ∧ f4 = 0 ∧ f11 = 127 ∧ f20 = 0 then some (.spawn (BitVec.ofNat 2 f0))
  else if f2 = 0 ∧ f4 = 0 ∧ f11 = 127 ∧ f20 = 1 then some (.spawna (BitVec.ofNat 2 f0))
  else if f2 = 0 ∧ f4 = 0 ∧ f11 = 127 ∧ f20 = 2 then some (.join (BitVec.ofNat 2 f0))
  else if f2 = 0 ∧ f4 = 0 ∧ f11 = 127 ∧ f20 = 3 then some (.taskend (BitVec.ofNat 2 f0))
  else if f2 = 0 ∧ f4 = 0 ∧ f11 = 127 ∧ f20 = 4 then some (.yield (BitVec.ofNat 2 f0))
  else if f4 = 0 ∧ f20 = 5 then some (.taskid (BitVec.ofNat 9 f11) (BitVec.ofNat 2 f2) (BitVec.ofNat 2 f0))
  else if f2 = 0 ∧ f4 = 0 ∧ f11 = 127 ∧ f20 = 6 then some (.width (BitVec.ofNat 2 f0))
  else if f2 = 0 ∧ f4 = 0 ∧ f11 = 127 ∧ f20 = 7 then some (.launch (BitVec.ofNat 2 f0))
  else if f2 = 0 ∧ f4 = 0 ∧ f20 = 8 then some (.domwait (BitVec.ofNat 9 f11) (BitVec.ofNat 2 f0))
  else none

/-- The rows of major opcode 0x79 (R79): bits 1:0, 5:2, 6:6, 10:7, 19:11, 24:20. -/
def rows79 (f0 f2 f6 f7 f11 f20 : Nat) : Option Instr :=
  if f6 = 0 ∧ f7 = 0 ∧ f11 = 127 ∧ f20 = 0 then some (.chcfg (BitVec.ofNat 4 f2) (BitVec.ofNat 2 f0))
  else if f6 = 1 ∧ f7 = 0 ∧ f11 = 127 ∧ f20 = 0 then some (.chcfgAge (BitVec.ofNat 4 f2) (BitVec.ofNat 2 f0))
  else if f6 = 0 ∧ f7 = 0 ∧ f20 = 1 then some (.chlen (BitVec.ofNat 9 f11) (BitVec.ofNat 4 f2) (BitVec.ofNat 2 f0))
  else if f7 = 0 ∧ f11 = 127 ∧ f20 = 2 then some (.chclr (BitVec.ofNat 1 f6) (BitVec.ofNat 4 f2) (BitVec.ofNat 2 f0))
  else none

/-- The rows of major opcode 0x7A (R79): bits 1:0, 3:2, 4:4, 6:5, 10:7, 19:11, 24:20. -/
def rows7A (f0 f2 f4 f5 f7 f11 f20 : Nat) : Option Instr :=
  if f5 = 0 ∧ f7 = 0 ∧ f20 = 0 then some (.waitc (BitVec.ofNat 9 f11) (BitVec.ofNat 3 (f4 * 4 + f2)) (BitVec.ofNat 2 f0))
  else if f5 = 1 ∧ f7 = 0 ∧ f20 = 0 then some (.waitcAge (BitVec.ofNat 9 f11) (BitVec.ofNat 3 (f4 * 4 + f2)) (BitVec.ofNat 2 f0))
  else if f2 = 0 ∧ f4 = 0 ∧ f5 = 2 ∧ f7 = 0 ∧ f20 = 0 then some (.waitcJoin (BitVec.ofNat 9 f11) (BitVec.ofNat 2 f0))
  else if f7 = 0 ∧ f20 = 1 then some (.rdc (BitVec.ofNat 9 f11) (BitVec.ofNat 5 (f5 * 8 + f4 * 4 + f2)) (BitVec.ofNat 2 f0))
  else if f5 = 0 ∧ f7 = 0 ∧ f11 = 127 ∧ f20 = 2 then some (.jadd (BitVec.ofNat 3 (f4 * 4 + f2)) (BitVec.ofNat 2 f0))
  else if f5 = 0 ∧ f7 = 0 ∧ f11 = 127 ∧ f20 = 3 then some (.pcfg (BitVec.ofNat 3 (f4 * 4 + f2)) (BitVec.ofNat 2 f0))
  else if f4 = 0 ∧ f5 = 0 ∧ f7 = 0 ∧ f20 = 4 then some (.time (BitVec.ofNat 9 f11) (BitVec.ofNat 2 f2) (BitVec.ofNat 2 f0))
  else none

/-- The rows of major opcode 0x7B (R79): bits 1:0, 3:2, 6:4, 10:7, 19:11, 24:20. -/
def rows7B (f0 f2 f4 f7 f11 f20 : Nat) : Option Instr :=
  if f4 = 0 ∧ f7 = 0 ∧ f11 = 127 ∧ f20 = 0 then some (.cbld (BitVec.ofNat 2 f2) (BitVec.ofNat 2 f0))
  else if f7 = 0 ∧ f11 = 127 ∧ f20 = 1 then some (.alinv (BitVec.ofNat 3 f4) (BitVec.ofNat 2 f2) (BitVec.ofNat 2 f0))
  else if f4 = 0 ∧ f7 = 0 ∧ f20 = 2 then some (.attr (BitVec.ofNat 9 f11) (BitVec.ofNat 2 f2) (BitVec.ofNat 2 f0))
  else if f4 = 0 ∧ f7 = 0 ∧ f20 = 3 then some (.dmapq (BitVec.ofNat 9 f11) (BitVec.ofNat 2 f2) (BitVec.ofNat 2 f0))
  else none

/-- The row of a word, by its major opcode and the fields below it. -/
def rowOf (op : Nat) (fs : List Nat) : Option Instr :=
  match op, fs with
  | 1, [f0, f2, f4] => rows01 f0 f2 f4
  | 2, [f0, f2, f4] => rows02 f0 f2 f4
  | 3, [f0, f2, f11, f20] => rows03 f0 f2 f11 f20
  | 4, [f0, f2, f11, f20] => rows04 f0 f2 f11 f20
  | 5, [f0, f2, f11] => rows05 f0 f2 f11
  | 6, [f0, f2, f11] => rows06 f0 f2 f11
  | 7, [f0, f2, f6, f11, f20] => rows07 f0 f2 f6 f11 f20
  | 16, [f0, f2, f11, f20, f24] => rows10 f0 f2 f11 f20 f24
  | 17, [f0, f2, f11, f20, f24] => rows11 f0 f2 f11 f20 f24
  | 18, [f0, f2, f11, f20, f24] => rows12 f0 f2 f11 f20 f24
  | 19, [f0, f2, f11, f20, f24] => rows13 f0 f2 f11 f20 f24
  | 20, [f0, f2, f11, f20, f24] => rows14 f0 f2 f11 f20 f24
  | 21, [f0, f2, f11, f20, f24] => rows15 f0 f2 f11 f20 f24
  | 22, [f0, f2, f11, f20, f24] => rows16 f0 f2 f11 f20 f24
  | 23, [f0, f2, f11, f20, f24] => rows17 f0 f2 f11 f20 f24
  | 24, [f0, f2, f11, f20, f24] => rows18 f0 f2 f11 f20 f24
  | 25, [f0, f2, f11, f20, f24] => rows19 f0 f2 f11 f20 f24
  | 26, [f0, f2, f11, f20, f24] => rows1A f0 f2 f11 f20 f24
  | 27, [f0, f2, f11, f20, f24] => rows1B f0 f2 f11 f20 f24
  | 28, [f0, f2, f11, f20, f24] => rows1C f0 f2 f11 f20 f24
  | 29, [f0, f2, f11, f20, f24] => rows1D f0 f2 f11 f20 f24
  | 30, [f0, f2, f11, f20, f24] => rows1E f0 f2 f11 f20 f24
  | 31, [f0, f2, f11, f20, f24] => rows1F f0 f2 f11 f20 f24
  | 32, [f0, f2, f11, f20, f22, f24] => rows20 f0 f2 f11 f20 f22 f24
  | 33, [f0, f2, f11, f20, f24] => rows21 f0 f2 f11 f20 f24
  | 34, [f0, f2, f11, f20, f24] => rows22 f0 f2 f11 f20 f24
  | 35, [f0, f2, f11, f20, f24] => rows23 f0 f2 f11 f20 f24
  | 36, [f0, f2, f11, f20, f24] => rows24 f0 f2 f11 f20 f24
  | 37, [f0, f2, f11, f20, f24] => rows25 f0 f2 f11 f20 f24
  | 38, [f0, f2, f11, f20, f24] => rows26 f0 f2 f11 f20 f24
  | 39, [f0, f2, f11, f20, f24] => rows27 f0 f2 f11 f20 f24
  | 40, [f0, f2, f11, f20, f24] => rows28 f0 f2 f11 f20 f24
  | 48, [f0, f2, f11, f20, f24] => rows30 f0 f2 f11 f20 f24
  | 49, [f0, f2, f11, f20, f24] => rows31 f0 f2 f11 f20 f24
  | 50, [f0, f2, f11, f20, f23] => rows32 f0 f2 f11 f20 f23
  | 51, [f0, f2, f11, f20, f23] => rows33 f0 f2 f11 f20 f23
  | 52, [f0, f2, f11, f20, f23] => rows34 f0 f2 f11 f20 f23
  | 53, [f0, f2, f11, f20, f23] => rows35 f0 f2 f11 f20 f23
  | 54, [f0, f2, f11, f20, f23] => rows36 f0 f2 f11 f20 f23
  | 55, [f0, f2, f11, f20, f23] => rows37 f0 f2 f11 f20 f23
  | 56, [f0, f2, f11, f20, f23] => rows38 f0 f2 f11 f20 f23
  | 57, [f0, f2, f11, f20, f23] => rows39 f0 f2 f11 f20 f23
  | 58, [f0, f2, f5, f6, f11, f20] => rows3A f0 f2 f5 f6 f11 f20
  | 59, [f0, f2, f11, f20, f23] => rows3B f0 f2 f11 f20 f23
  | 64, [f0, f2, f7, f9, f11, f20] => rows40 f0 f2 f7 f9 f11 f20
  | 65, [f0, f2, f7, f9, f11, f20] => rows41 f0 f2 f7 f9 f11 f20
  | 66, [f0, f2, f7, f9, f11, f20] => rows42 f0 f2 f7 f9 f11 f20
  | 67, [f0, f2, f7, f9, f11, f20] => rows43 f0 f2 f7 f9 f11 f20
  | 68, [f0, f2, f7, f9, f11, f20] => rows44 f0 f2 f7 f9 f11 f20
  | 69, [f0, f2, f7, f9, f11, f20] => rows45 f0 f2 f7 f9 f11 f20
  | 70, [f0, f2, f7, f9, f11, f20] => rows46 f0 f2 f7 f9 f11 f20
  | 71, [f0, f2, f7, f9, f11, f20] => rows47 f0 f2 f7 f9 f11 f20
  | 72, [f0, f2, f16, f18, f20] => rows48 f0 f2 f16 f18 f20
  | 73, [f0, f2, f16, f18, f20] => rows49 f0 f2 f16 f18 f20
  | 74, [f0, f2, f16, f18, f20] => rows4A f0 f2 f16 f18 f20
  | 75, [f0, f2, f16, f18, f20] => rows4B f0 f2 f16 f18 f20
  | 76, [f0, f2, f16, f18, f20] => rows4C f0 f2 f16 f18 f20
  | 77, [f0, f2, f3, f16, f18, f20] => rows4D f0 f2 f3 f16 f18 f20
  | 78, [f0, f2, f6, f8, f10, f15, f20] => rows4E f0 f2 f6 f8 f10 f15 f20
  | 79, [f0, f2, f6, f8, f10, f15, f20] => rows4F f0 f2 f6 f8 f10 f15 f20
  | 80, [f0, f2, f4, f7, f9, f11, f20] => rows50 f0 f2 f4 f7 f9 f11 f20
  | 81, [f0, f2, f4, f7, f9, f11, f20] => rows51 f0 f2 f4 f7 f9 f11 f20
  | 82, [f0, f2, f4, f7, f9, f11, f20] => rows52 f0 f2 f4 f7 f9 f11 f20
  | 83, [f0, f2, f4, f7, f9, f11, f20] => rows53 f0 f2 f4 f7 f9 f11 f20
  | 84, [f0, f2, f4, f7, f9, f11, f20] => rows54 f0 f2 f4 f7 f9 f11 f20
  | 85, [f0, f2, f4, f7, f9, f11, f20] => rows55 f0 f2 f4 f7 f9 f11 f20
  | 86, [f0, f2, f4, f7, f9, f11, f20] => rows56 f0 f2 f4 f7 f9 f11 f20
  | 87, [f0, f2, f4, f7, f9, f11, f20] => rows57 f0 f2 f4 f7 f9 f11 f20
  | 88, [f0, f2, f4, f7, f9, f11, f20] => rows58 f0 f2 f4 f7 f9 f11 f20
  | 89, [f0, f2, f4, f7, f9, f11, f20] => rows59 f0 f2 f4 f7 f9 f11 f20
  | 90, [f0, f2, f4, f7, f9, f11, f20] => rows5A f0 f2 f4 f7 f9 f11 f20
  | 91, [f0, f2, f5, f11, f20] => rows5B f0 f2 f5 f11 f20
  | 92, [f0, f2, f4, f7, f9, f11, f20] => rows5C f0 f2 f4 f7 f9 f11 f20
  | 93, [f0, f2, f16, f18, f20] => rows5D f0 f2 f16 f18 f20
  | 94, [f0, f2, f11, f20, f23] => rows5E f0 f2 f11 f20 f23
  | 95, [f0, f2, f11, f20] => rows5F f0 f2 f11 f20
  | 96, [f0, f2, f6, f10, f11, f20] => rows60 f0 f2 f6 f10 f11 f20
  | 97, [f0, f2, f5, f10, f15, f20] => rows61 f0 f2 f5 f10 f15 f20
  | 98, [f0, f2, f5, f10, f15, f20] => rows62 f0 f2 f5 f10 f15 f20
  | 99, [f0, f2, f5, f10, f15, f20] => rows63 f0 f2 f5 f10 f15 f20
  | 100, [f0, f2, f5, f10, f15, f20] => rows64 f0 f2 f5 f10 f15 f20
  | 101, [f0, f2, f5, f10, f15, f20] => rows65 f0 f2 f5 f10 f15 f20
  | 102, [f0, f2, f6, f11, f20] => rows66 f0 f2 f6 f11 f20
  | 103, [f0, f2, f5, f10, f15, f20] => rows67 f0 f2 f5 f10 f15 f20
  | 104, [f0, f2, f5, f10, f15, f20] => rows68 f0 f2 f5 f10 f15 f20
  | 105, [f0, f2, f5, f9, f10, f15, f20] => rows69 f0 f2 f5 f9 f10 f15 f20
  | 106, [f0, f2, f5, f8, f10, f15, f20] => rows6A f0 f2 f5 f8 f10 f15 f20
  | 107, [f0, f2, f5, f10, f15, f20] => rows6B f0 f2 f5 f10 f15 f20
  | 108, [f0, f2, f6, f11, f20] => rows6C f0 f2 f6 f11 f20
  | 112, [f0, f2, f5, f10, f11, f20] => rows70 f0 f2 f5 f10 f11 f20
  | 113, [f0, f2, f10, f11, f14, f17, f20] => rows71 f0 f2 f10 f11 f14 f17 f20
  | 114, [f0, f2, f10, f11, f14, f17, f20] => rows72 f0 f2 f10 f11 f14 f17 f20
  | 115, [f0, f2, f5, f10, f15, f18, f20] => rows73 f0 f2 f5 f10 f15 f18 f20
  | 116, [f0, f2, f5, f10, f13, f15, f18, f20] => rows74 f0 f2 f5 f10 f13 f15 f18 f20
  | 117, [f0, f2, f6, f7, f11, f14, f17, f20] => rows75 f0 f2 f6 f7 f11 f14 f17 f20
  | 118, [f0, f2, f5, f8, f10, f13, f15, f18, f20] => rows76 f0 f2 f5 f8 f10 f13 f15 f18 f20
  | 120, [f0, f2, f4, f11, f20] => rows78 f0 f2 f4 f11 f20
  | 121, [f0, f2, f6, f7, f11, f20] => rows79 f0 f2 f6 f7 f11 f20
  | 122, [f0, f2, f4, f5, f7, f11, f20] => rows7A f0 f2 f4 f5 f7 f11 f20
  | 123, [f0, f2, f4, f7, f11, f20] => rows7B f0 f2 f4 f7 f11 f20
  | _, _ => none

/-- The custom-0 rows (R406): RISC-V R format, opcode 0x0B, funct3 by instruction, funct7 0. -/
def rowsWl (f0 f7 f12 f15 f20 f25 : Nat) : Option Instr :=
  if f0 = 11 ∧ f12 = 0 ∧ f20 = 0 ∧ f25 = 0 then some (.wlLaunch (BitVec.ofNat 5 f15) (BitVec.ofNat 5 f7))
  else if f0 = 11 ∧ f12 = 1 ∧ f20 = 0 ∧ f25 = 0 then some (.wlFence (BitVec.ofNat 5 f15) (BitVec.ofNat 5 f7))
  else if f0 = 11 ∧ f12 = 2 ∧ f20 = 0 ∧ f25 = 0 then some (.wlPoll (BitVec.ofNat 5 f15) (BitVec.ofNat 5 f7))
  else if f0 = 11 ∧ f12 = 3 ∧ f25 = 0 then some (.wlWait (BitVec.ofNat 5 f20) (BitVec.ofNat 5 f15) (BitVec.ofNat 5 f7))
  else if f0 = 11 ∧ f12 = 4 ∧ f20 = 0 ∧ f25 = 0 then some (.wlCancel (BitVec.ofNat 5 f15) (BitVec.ofNat 5 f7))
  else if f0 = 11 ∧ f12 = 5 ∧ f20 = 0 ∧ f25 = 0 then some (.wlStatus (BitVec.ofNat 5 f15) (BitVec.ofNat 5 f7))
  else if f0 = 11 ∧ f12 = 6 ∧ f25 = 0 then some (.wlPrio (BitVec.ofNat 5 f20) (BitVec.ofNat 5 f15) (BitVec.ofNat 5 f7))
  else none

/-- Keep a row whose fields are well formed. -/
def checked (o : Option Instr) : Decoded :=
  match o with
  | none => .no .unassigned
  | some i => if i.wf then .ok i else .no .reserved

/-- Decode a Welit word (R77): total, rejecting by name. -/
def decode (w : Word) : Decoded :=
  if w = 0 then .no .filler
  else checked (rowOf (w.toNat / 2 ^ 25) (unpackFields (layout (w.toNat / 2 ^ 25)) w.toNat))

/-- Decode a custom-0 word of an application core (R406). -/
def decodeWl (w : Word) : Decoded :=
  match unpackFields [7, 5, 3, 5, 5, 7] w.toNat with
  | [f0, f7, f12, f15, f20, f25] => checked (rowsWl f0 f7 f12 f15 f20 f25)
  | _ => .no .unassigned

/-- The instruction of a Welit word, if it is one. -/
def decodeWord (w : Word) : Option Instr :=
  match decode w with
  | .ok i => some i
  | .no _ => none

/-- Decode the bytes at an address, lowest first: one 32-bit little-endian word (R1, R77). -/
def decodeBytes (bs : List Byte) : Option (Instr × List Byte) :=
  match bs with
  | a :: b :: c :: d :: r =>
    match decode (d ++ c ++ b ++ a) with
    | .ok i => some (i, r)
    | .no _ => none
  | _ => none

/-- What the decoders read from a row of spec/opcode_table.json: one 32-bit word, Welit or custom-0. -/
def decodeTableWord (nbits w : Nat) : Option Instr :=
  if nbits ≤ 32 ∧ w < 2 ^ 32 then
    match decode (BitVec.ofNat 32 w) with
    | .ok i => some i
    | .no _ =>
      match decodeWl (BitVec.ofNat 32 w) with
      | .ok i => some i
      | .no _ => none
  else none

/-- The fields of an instruction's word (width, value), lowest first; a step or event has no word. -/
def Instr.fields (i : Instr) : List (Nat × Nat) :=
  match i with
  | .br f h pr => [(2, pr.toNat), (2, h.toNat), (21, f.toNat), (7, 1)]
  | .call f h pr => [(2, pr.toNat), (2, h.toNat), (21, f.toNat), (7, 2)]
  | .bri pr => [(2, pr.toNat), (9, 127), (9, 127), (5, 0), (7, 3)]
  | .calli pr => [(2, pr.toNat), (9, 127), (9, 127), (5, 1), (7, 3)]
  | .ret pr => [(2, pr.toNat), (9, 127), (9, 127), (5, 2), (7, 3)]
  | .scall pr => [(2, pr.toNat), (9, 127), (9, 127), (5, 3), (7, 3)]
  | .brk pr => [(2, pr.toNat), (9, 127), (9, 127), (5, 4), (7, 3)]
  | .trap pr => [(2, pr.toNat), (9, 127), (9, 127), (5, 5), (7, 3)]
  | .mov t0 t1 pr => [(2, pr.toNat), (9, t1.toNat), (9, t0.toNat), (5, 0), (7, 4)]
  | .null t0 t1 pr => [(2, pr.toNat), (9, t1.toNat), (9, t0.toNat), (5, 1), (7, 4)]
  | .pair t0 t1 pr => [(2, pr.toNat), (9, t1.toNat), (9, t0.toNat), (5, 2), (7, 4)]
  | .plo t0 t1 pr => [(2, pr.toNat), (9, t1.toNat), (9, t0.toNat), (5, 3), (7, 4)]
  | .phi t0 t1 pr => [(2, pr.toNat), (9, t1.toNat), (9, t0.toNat), (5, 4), (7, 4)]
  | .const i t0 pr => [(2, pr.toNat), (9, t0.toNat), (14, i.toNat), (7, 5)]
  | .app i t0 pr => [(2, pr.toNat), (9, t0.toNat), (14, i.toNat), (7, 6)]
  | .rdsys t0 s pr => [(2, pr.toNat), (4, s.toNat), (5, 0), (9, t0.toNat), (5, 0), (7, 7)]
  | .wrsys t0 s pr => [(2, pr.toNat), (4, s.toNat), (5, 0), (9, t0.toNat), (5, 1), (7, 7)]
  | .add w t0 t1 pr => [(2, pr.toNat), (9, t1.toNat), (9, t0.toNat), (4, 0), (1, w.toNat), (7, 16)]
  | .sub w t0 t1 pr => [(2, pr.toNat), (9, t1.toNat), (9, t0.toNat), (4, 0), (1, w.toNat), (7, 17)]
  | .mul w t0 t1 pr => [(2, pr.toNat), (9, t1.toNat), (9, t0.toNat), (4, 0), (1, w.toNat), (7, 18)]
  | .mulh w t0 t1 pr => [(2, pr.toNat), (9, t1.toNat), (9, t0.toNat), (4, 0), (1, w.toNat), (7, 19)]
  | .mulhn w t0 t1 pr => [(2, pr.toNat), (9, t1.toNat), (9, t0.toNat), (4, 1), (1, w.toNat), (7, 19)]
  | .mulhsn w t0 t1 pr => [(2, pr.toNat), (9, t1.toNat), (9, t0.toNat), (4, 2), (1, w.toNat), (7, 19)]
  | .div w t0 t1 pr => [(2, pr.toNat), (9, t1.toNat), (9, t0.toNat), (4, 0), (1, w.toNat), (7, 20)]
  | .divn w t0 t1 pr => [(2, pr.toNat), (9, t1.toNat), (9, t0.toNat), (4, 1), (1, w.toNat), (7, 20)]
  | .rem w t0 t1 pr => [(2, pr.toNat), (9, t1.toNat), (9, t0.toNat), (4, 0), (1, w.toNat), (7, 21)]
  | .remn w t0 t1 pr => [(2, pr.toNat), (9, t1.toNat), (9, t0.toNat), (4, 1), (1, w.toNat), (7, 21)]
  | .min w t0 t1 pr => [(2, pr.toNat), (9, t1.toNat), (9, t0.toNat), (4, 0), (1, w.toNat), (7, 22)]
  | .max w t0 t1 pr => [(2, pr.toNat), (9, t1.toNat), (9, t0.toNat), (4, 1), (1, w.toNat), (7, 22)]
  | .minn w t0 t1 pr => [(2, pr.toNat), (9, t1.toNat), (9, t0.toNat), (4, 2), (1, w.toNat), (7, 22)]
  | .maxn w t0 t1 pr => [(2, pr.toNat), (9, t1.toNat), (9, t0.toNat), (4, 3), (1, w.toNat), (7, 22)]
  | .and w t0 t1 pr => [(2, pr.toNat), (9, t1.toNat), (9, t0.toNat), (4, 0), (1, w.toNat), (7, 23)]
  | .or w t0 t1 pr => [(2, pr.toNat), (9, t1.toNat), (9, t0.toNat), (4, 0), (1, w.toNat), (7, 24)]
  | .xor w t0 t1 pr => [(2, pr.toNat), (9, t1.toNat), (9, t0.toNat), (4, 0), (1, w.toNat), (7, 25)]
  | .andn w t0 t1 pr => [(2, pr.toNat), (9, t1.toNat), (9, t0.toNat), (4, 0), (1, w.toNat), (7, 26)]
  | .orn w t0 t1 pr => [(2, pr.toNat), (9, t1.toNat), (9, t0.toNat), (4, 1), (1, w.toNat), (7, 26)]
  | .xnor w t0 t1 pr => [(2, pr.toNat), (9, t1.toNat), (9, t0.toNat), (4, 2), (1, w.toNat), (7, 26)]
  | .shl w t0 t1 pr => [(2, pr.toNat), (9, t1.toNat), (9, t0.toNat), (4, 0), (1, w.toNat), (7, 27)]
  | .shr w t0 t1 pr => [(2, pr.toNat), (9, t1.toNat), (9, t0.toNat), (4, 0), (1, w.toNat), (7, 28)]
  | .shra w t0 t1 pr => [(2, pr.toNat), (9, t1.toNat), (9, t0.toNat), (4, 1), (1, w.toNat), (7, 28)]
  | .rol w t0 t1 pr => [(2, pr.toNat), (9, t1.toNat), (9, t0.toNat), (4, 0), (1, w.toNat), (7, 29)]
  | .ror w t0 t1 pr => [(2, pr.toNat), (9, t1.toNat), (9, t0.toNat), (4, 1), (1, w.toNat), (7, 29)]
  | .clz w t0 t1 pr => [(2, pr.toNat), (9, t1.toNat), (9, t0.toNat), (4, 0), (1, w.toNat), (7, 30)]
  | .ctz w t0 t1 pr => [(2, pr.toNat), (9, t1.toNat), (9, t0.toNat), (4, 1), (1, w.toNat), (7, 30)]
  | .popc w t0 t1 pr => [(2, pr.toNat), (9, t1.toNat), (9, t0.toNat), (4, 2), (1, w.toNat), (7, 30)]
  | .brev w t0 t1 pr => [(2, pr.toNat), (9, t1.toNat), (9, t0.toNat), (4, 3), (1, w.toNat), (7, 30)]
  | .bswp w t0 t1 pr => [(2, pr.toNat), (9, t1.toNat), (9, t0.toNat), (4, 4), (1, w.toNat), (7, 30)]
  | .neg w t0 t1 pr => [(2, pr.toNat), (9, t1.toNat), (9, t0.toNat), (4, 5), (1, w.toNat), (7, 30)]
  | .abs w t0 t1 pr => [(2, pr.toNat), (9, t1.toNat), (9, t0.toNat), (4, 6), (1, w.toNat), (7, 30)]
  | .not w t0 t1 pr => [(2, pr.toNat), (9, t1.toNat), (9, t0.toNat), (4, 7), (1, w.toNat), (7, 30)]
  | .sextb w t0 t1 pr => [(2, pr.toNat), (9, t1.toNat), (9, t0.toNat), (4, 8), (1, w.toNat), (7, 30)]
  | .sexth w t0 t1 pr => [(2, pr.toNat), (9, t1.toNat), (9, t0.toNat), (4, 9), (1, w.toNat), (7, 30)]
  | .sextw t0 t1 pr => [(2, pr.toNat), (9, t1.toNat), (9, t0.toNat), (4, 10), (1, 1), (7, 30)]
  | .zextb w t0 t1 pr => [(2, pr.toNat), (9, t1.toNat), (9, t0.toNat), (4, 11), (1, w.toNat), (7, 30)]
  | .zexth w t0 t1 pr => [(2, pr.toNat), (9, t1.toNat), (9, t0.toNat), (4, 12), (1, w.toNat), (7, 30)]
  | .zextw t0 t1 pr => [(2, pr.toNat), (9, t1.toNat), (9, t0.toNat), (4, 13), (1, 1), (7, 30)]
  | .bfx w t0 t1 pr => [(2, pr.toNat), (9, t1.toNat), (9, t0.toNat), (4, 0), (1, w.toNat), (7, 31)]
  | .bfxs w t0 t1 pr => [(2, pr.toNat), (9, t1.toNat), (9, t0.toNat), (4, 1), (1, w.toNat), (7, 31)]
  | .bfi w t0 t1 pr => [(2, pr.toNat), (9, t1.toNat), (9, t0.toNat), (4, 2), (1, w.toNat), (7, 31)]
  | .lea w c t0 t1 pr => [(2, pr.toNat), (9, t1.toNat), (9, t0.toNat), (2, c.toNat), (2, 0), (1, w.toNat), (7, 32)]
  | .addi w t0 i pr => [(2, pr.toNat), (9, i.toNat), (9, t0.toNat), (4, 0), (1, w.toNat), (7, 33)]
  | .muli w t0 i pr => [(2, pr.toNat), (9, i.toNat), (9, t0.toNat), (4, 0), (1, w.toNat), (7, 34)]
  | .andi w t0 i pr => [(2, pr.toNat), (9, i.toNat), (9, t0.toNat), (4, 0), (1, w.toNat), (7, 35)]
  | .ori w t0 i pr => [(2, pr.toNat), (9, i.toNat), (9, t0.toNat), (4, 0), (1, w.toNat), (7, 36)]
  | .xori w t0 i pr => [(2, pr.toNat), (9, i.toNat), (9, t0.toNat), (4, 0), (1, w.toNat), (7, 37)]
  | .shli w t0 i pr => [(2, pr.toNat), (9, i.toNat), (9, t0.toNat), (4, 0), (1, w.toNat), (7, 38)]
  | .shri w t0 i pr => [(2, pr.toNat), (9, i.toNat), (9, t0.toNat), (4, 0), (1, w.toNat), (7, 39)]
  | .shrai w t0 i pr => [(2, pr.toNat), (9, i.toNat), (9, t0.toNat), (4, 1), (1, w.toNat), (7, 39)]
  | .roti w t0 i pr => [(2, pr.toNat), (9, i.toNat), (9, t0.toNat), (4, 0), (1, w.toNat), (7, 40)]
  | .tcmp w c t0 t1 pr => [(2, pr.toNat), (9, t1.toNat), (9, t0.toNat), (4, c.toNat), (1, w.toNat), (7, 48)]
  | .tcmpi w c t0 i pr => [(2, pr.toNat), (9, i.toNat), (9, t0.toNat), (4, c.toNat), (1, w.toNat), (7, 49)]
  | .fadd f r t0 t1 pr => [(2, pr.toNat), (9, t1.toNat), (9, t0.toNat), (3, r.toNat), (2, f.toNat), (7, 50)]
  | .fsub f r t0 t1 pr => [(2, pr.toNat), (9, t1.toNat), (9, t0.toNat), (3, r.toNat), (2, f.toNat), (7, 51)]
  | .fmul f r t0 t1 pr => [(2, pr.toNat), (9, t1.toNat), (9, t0.toNat), (3, r.toNat), (2, f.toNat), (7, 52)]
  | .fma f r t0 t1 pr => [(2, pr.toNat), (9, t1.toNat), (9, t0.toNat), (3, r.toNat), (2, f.toNat), (7, 53)]
  | .fdiv f r t0 t1 pr => [(2, pr.toNat), (9, t1.toNat), (9, t0.toNat), (3, r.toNat), (2, f.toNat), (7, 54)]
  | .fsqrt f r t0 t1 pr => [(2, pr.toNat), (9, t1.toNat), (9, t0.toNat), (3, r.toNat), (2, f.toNat), (7, 55)]
  | .fmin f t0 t1 pr => [(2, pr.toNat), (9, t1.toNat), (9, t0.toNat), (3, 0), (2, f.toNat), (7, 56)]
  | .fmax f t0 t1 pr => [(2, pr.toNat), (9, t1.toNat), (9, t0.toNat), (3, 1), (2, f.toNat), (7, 56)]
  | .fminnum f t0 t1 pr => [(2, pr.toNat), (9, t1.toNat), (9, t0.toNat), (3, 2), (2, f.toNat), (7, 56)]
  | .fmaxnum f t0 t1 pr => [(2, pr.toNat), (9, t1.toNat), (9, t0.toNat), (3, 3), (2, f.toNat), (7, 56)]
  | .fcmp f c t0 t1 pr => [(2, pr.toNat), (9, t1.toNat), (9, t0.toNat), (3, c.toNat), (2, f.toNat), (7, 57)]
  | .fcvt x t0 s r pr => [(2, pr.toNat), (3, r.toNat), (1, s.toNat), (5, 0), (9, t0.toNat), (5, x.toNat), (7, 58)]
  | .fabs f t0 t1 pr => [(2, pr.toNat), (9, t1.toNat), (9, t0.toNat), (3, 0), (2, f.toNat), (7, 59)]
  | .fneg f t0 t1 pr => [(2, pr.toNat), (9, t1.toNat), (9, t0.toNat), (3, 1), (2, f.toNat), (7, 59)]
  | .fclass f t0 t1 pr => [(2, pr.toNat), (9, t1.toNat), (9, t0.toNat), (3, 2), (2, f.toNat), (7, 59)]
  | .fcopysign f t0 t1 pr => [(2, pr.toNat), (9, t1.toNat), (9, t0.toNat), (3, 3), (2, f.toNat), (7, 59)]
  | .ldb l t0 z o i pr => [(2, pr.toNat), (5, i.toNat), (2, o.toNat), (2, z.toNat), (9, t0.toNat), (5, l.toNat), (7, 64)]
  | .ldbs l t0 z o i pr => [(2, pr.toNat), (5, i.toNat), (2, o.toNat), (2, z.toNat), (9, t0.toNat), (5, l.toNat), (7, 65)]
  | .ldh l t0 z o i pr => [(2, pr.toNat), (5, i.toNat), (2, o.toNat), (2, z.toNat), (9, t0.toNat), (5, l.toNat), (7, 66)]
  | .ldhs l t0 z o i pr => [(2, pr.toNat), (5, i.toNat), (2, o.toNat), (2, z.toNat), (9, t0.toNat), (5, l.toNat), (7, 67)]
  | .ldw l t0 z o i pr => [(2, pr.toNat), (5, i.toNat), (2, o.toNat), (2, z.toNat), (9, t0.toNat), (5, l.toNat), (7, 68)]
  | .ldws l t0 z o i pr => [(2, pr.toNat), (5, i.toNat), (2, o.toNat), (2, z.toNat), (9, t0.toNat), (5, l.toNat), (7, 69)]
  | .ldd l t0 z o i pr => [(2, pr.toNat), (5, i.toNat), (2, o.toNat), (2, z.toNat), (9, t0.toNat), (5, l.toNat), (7, 70)]
  | .ldq l t0 z o i pr => [(2, pr.toNat), (5, i.toNat), (2, o.toNat), (2, z.toNat), (9, t0.toNat), (5, l.toNat), (7, 71)]
  | .stb l z o i pr => [(2, pr.toNat), (14, i.toNat), (2, o.toNat), (2, z.toNat), (5, l.toNat), (7, 72)]
  | .sth l z o i pr => [(2, pr.toNat), (14, i.toNat), (2, o.toNat), (2, z.toNat), (5, l.toNat), (7, 73)]
  | .stw l z o i pr => [(2, pr.toNat), (14, i.toNat), (2, o.toNat), (2, z.toNat), (5, l.toNat), (7, 74)]
  | .std l z o i pr => [(2, pr.toNat), (14, i.toNat), (2, o.toNat), (2, z.toNat), (5, l.toNat), (7, 75)]
  | .stq l z o i pr => [(2, pr.toNat), (14, i.toNat), (2, o.toNat), (2, z.toNat), (5, l.toNat), (7, 76)]
  | .stn4 l z o i n pr => [(2, pr.toNat), (1, n.toNat), (13, i.toNat), (2, o.toNat), (2, z.toNat), (5, l.toNat), (7, 77)]
  | .ldv l v d z o pr => [(2, pr.toNat), (4, 0), (2, o.toNat), (2, z.toNat), (5, d.toNat), (5, v.toNat), (5, l.toNat), (7, 78)]
  | .ldvStr l v d z o pr => [(2, pr.toNat), (4, 1), (2, o.toNat), (2, z.toNat), (5, d.toNat), (5, v.toNat), (5, l.toNat), (7, 78)]
  | .ldvIdx l v d z o pr => [(2, pr.toNat), (4, 2), (2, o.toNat), (2, z.toNat), (5, d.toNat), (5, v.toNat), (5, l.toNat), (7, 78)]
  | .stv l v d z o pr => [(2, pr.toNat), (4, 0), (2, o.toNat), (2, z.toNat), (5, d.toNat), (5, v.toNat), (5, l.toNat), (7, 79)]
  | .stvStr l v d z o pr => [(2, pr.toNat), (4, 1), (2, o.toNat), (2, z.toNat), (5, d.toNat), (5, v.toNat), (5, l.toNat), (7, 79)]
  | .stvIdx l v d z o pr => [(2, pr.toNat), (4, 2), (2, o.toNat), (2, z.toNat), (5, d.toNat), (5, v.toNat), (5, l.toNat), (7, 79)]
  | .aadd l t0 z o s w pr => [(2, pr.toNat), (2, w.toNat), (3, s.toNat), (2, o.toNat), (2, z.toNat), (9, t0.toNat), (5, l.toNat), (7, 80)]
  | .aand l t0 z o s w pr => [(2, pr.toNat), (2, w.toNat), (3, s.toNat), (2, o.toNat), (2, z.toNat), (9, t0.toNat), (5, l.toNat), (7, 81)]
  | .aor l t0 z o s w pr => [(2, pr.toNat), (2, w.toNat), (3, s.toNat), (2, o.toNat), (2, z.toNat), (9, t0.toNat), (5, l.toNat), (7, 82)]
  | .axor l t0 z o s w pr => [(2, pr.toNat), (2, w.toNat), (3, s.toNat), (2, o.toNat), (2, z.toNat), (9, t0.toNat), (5, l.toNat), (7, 83)]
  | .amin l t0 z o s w pr => [(2, pr.toNat), (2, w.toNat), (3, s.toNat), (2, o.toNat), (2, z.toNat), (9, t0.toNat), (5, l.toNat), (7, 84)]
  | .amax l t0 z o s w pr => [(2, pr.toNat), (2, w.toNat), (3, s.toNat), (2, o.toNat), (2, z.toNat), (9, t0.toNat), (5, l.toNat), (7, 85)]
  | .aminn l t0 z o s w pr => [(2, pr.toNat), (2, w.toNat), (3, s.toNat), (2, o.toNat), (2, z.toNat), (9, t0.toNat), (5, l.toNat), (7, 86)]
  | .amaxn l t0 z o s w pr => [(2, pr.toNat), (2, w.toNat), (3, s.toNat), (2, o.toNat), (2, z.toNat), (9, t0.toNat), (5, l.toNat), (7, 87)]
  | .aswp l t0 z o s w pr => [(2, pr.toNat), (2, w.toNat), (3, s.toNat), (2, o.toNat), (2, z.toNat), (9, t0.toNat), (5, l.toNat), (7, 88)]
  | .acas l t0 z o s w pr => [(2, pr.toNat), (2, w.toNat), (3, s.toNat), (2, o.toNat), (2, z.toNat), (9, t0.toNat), (5, l.toNat), (7, 89)]
  | .afadd l t0 z o s w pr => [(2, pr.toNat), (2, w.toNat), (3, s.toNat), (2, o.toNat), (2, z.toNat), (9, t0.toNat), (5, l.toNat), (7, 90)]
  | .fenceFull s pr => [(2, pr.toNat), (3, s.toNat), (6, 0), (9, 127), (5, 0), (7, 91)]
  | .fenceAcq s pr => [(2, pr.toNat), (3, s.toNat), (6, 0), (9, 127), (5, 1), (7, 91)]
  | .fenceRel s pr => [(2, pr.toNat), (3, s.toNat), (6, 0), (9, 127), (5, 2), (7, 91)]
  | .fenceSs s pr => [(2, pr.toNat), (3, s.toNat), (6, 0), (9, 127), (5, 3), (7, 91)]
  | .acq l t0 z o s pr => [(2, pr.toNat), (2, 0), (3, s.toNat), (2, o.toNat), (2, z.toNat), (9, t0.toNat), (5, l.toNat), (7, 92)]
  | .rel l z o i pr => [(2, pr.toNat), (14, i.toNat), (2, o.toNat), (2, z.toNat), (5, l.toNat), (7, 93)]
  | .wbr z pr => [(2, pr.toNat), (9, 127), (9, 127), (3, 0), (2, z.toNat), (7, 94)]
  | .invr z pr => [(2, pr.toNat), (9, 127), (9, 127), (3, 1), (2, z.toNat), (7, 94)]
  | .pref z pr => [(2, pr.toNat), (9, 127), (9, 127), (3, 2), (2, z.toNat), (7, 94)]
  | .ibar pr => [(2, pr.toNat), (9, 127), (9, 127), (3, 3), (2, 0), (7, 94)]
  | .lncfg pr => [(2, pr.toNat), (9, 127), (9, 127), (5, 0), (7, 95)]
  | .vsetl v t0 a pr => [(2, pr.toNat), (4, 0), (4, a.toNat), (1, 0), (9, t0.toNat), (5, v.toNat), (7, 96)]
  | .vgetl v t0 a pr => [(2, pr.toNat), (4, 1), (4, a.toNat), (1, 0), (9, t0.toNat), (5, v.toNat), (7, 96)]
  | .vbcast v a pr => [(2, pr.toNat), (4, 2), (4, a.toNat % 16), (1, a.toNat / 16), (9, 127), (5, v.toNat), (7, 96)]
  | .vidx v a pr => [(2, pr.toNat), (4, 3), (4, a.toNat % 16), (1, a.toNat / 16), (9, 127), (5, v.toNat), (7, 96)]
  | .vextr v t0 a pr => [(2, pr.toNat), (4, 4), (4, a.toNat % 16), (1, a.toNat / 16), (9, t0.toNat), (5, v.toNat), (7, 96)]
  | .vadd v d a b pr => [(2, pr.toNat), (3, 0), (5, b.toNat), (5, a.toNat), (5, d.toNat), (5, v.toNat), (7, 97)]
  | .vsub v d a b pr => [(2, pr.toNat), (3, 1), (5, b.toNat), (5, a.toNat), (5, d.toNat), (5, v.toNat), (7, 97)]
  | .vrsub v d a b pr => [(2, pr.toNat), (3, 2), (5, b.toNat), (5, a.toNat), (5, d.toNat), (5, v.toNat), (7, 97)]
  | .vmul v d a b pr => [(2, pr.toNat), (3, 3), (5, b.toNat), (5, a.toNat), (5, d.toNat), (5, v.toNat), (7, 97)]
  | .vdiv v d a b pr => [(2, pr.toNat), (3, 4), (5, b.toNat), (5, a.toNat), (5, d.toNat), (5, v.toNat), (7, 97)]
  | .vmin v d a b pr => [(2, pr.toNat), (3, 5), (5, b.toNat), (5, a.toNat), (5, d.toNat), (5, v.toNat), (7, 97)]
  | .vmax v d a b pr => [(2, pr.toNat), (3, 6), (5, b.toNat), (5, a.toNat), (5, d.toNat), (5, v.toNat), (7, 97)]
  | .vabsd v d a b pr => [(2, pr.toNat), (3, 7), (5, b.toNat), (5, a.toNat), (5, d.toNat), (5, v.toNat), (7, 97)]
  | .vfma v d a b pr => [(2, pr.toNat), (3, 0), (5, b.toNat), (5, a.toNat), (5, d.toNat), (5, v.toNat), (7, 98)]
  | .vfms v d a b pr => [(2, pr.toNat), (3, 1), (5, b.toNat), (5, a.toNat), (5, d.toNat), (5, v.toNat), (7, 98)]
  | .vfnma v d a b pr => [(2, pr.toNat), (3, 2), (5, b.toNat), (5, a.toNat), (5, d.toNat), (5, v.toNat), (7, 98)]
  | .vfnms v d a b pr => [(2, pr.toNat), (3, 3), (5, b.toNat), (5, a.toNat), (5, d.toNat), (5, v.toNat), (7, 98)]
  | .vdoti8 v d a b pr => [(2, pr.toNat), (3, 4), (5, b.toNat), (5, a.toNat), (5, d.toNat), (5, v.toNat), (7, 98)]
  | .vdoti4 v d a b pr => [(2, pr.toNat), (3, 5), (5, b.toNat), (5, a.toNat), (5, d.toNat), (5, v.toNat), (7, 98)]
  | .vand v d a b pr => [(2, pr.toNat), (3, 0), (5, b.toNat), (5, a.toNat), (5, d.toNat), (5, v.toNat), (7, 99)]
  | .vor v d a b pr => [(2, pr.toNat), (3, 1), (5, b.toNat), (5, a.toNat), (5, d.toNat), (5, v.toNat), (7, 99)]
  | .vxor v d a b pr => [(2, pr.toNat), (3, 2), (5, b.toNat), (5, a.toNat), (5, d.toNat), (5, v.toNat), (7, 99)]
  | .vandn v d a b pr => [(2, pr.toNat), (3, 3), (5, b.toNat), (5, a.toNat), (5, d.toNat), (5, v.toNat), (7, 99)]
  | .vshl v d a b pr => [(2, pr.toNat), (3, 4), (5, b.toNat), (5, a.toNat), (5, d.toNat), (5, v.toNat), (7, 99)]
  | .vshr v d a b pr => [(2, pr.toNat), (3, 5), (5, b.toNat), (5, a.toNat), (5, d.toNat), (5, v.toNat), (7, 99)]
  | .vshra v d a b pr => [(2, pr.toNat), (3, 6), (5, b.toNat), (5, a.toNat), (5, d.toNat), (5, v.toNat), (7, 99)]
  | .vnot v d a pr => [(2, pr.toNat), (3, 7), (5, 0), (5, a.toNat), (5, d.toNat), (5, v.toNat), (7, 99)]
  | .vcmp v d a b c pr => [(2, pr.toNat), (3, c.toNat), (5, b.toNat), (5, a.toNat), (5, d.toNat), (5, v.toNat), (7, 100)]
  | .vmov v d a pr => [(2, pr.toNat), (3, 0), (5, 0), (5, a.toNat), (5, d.toNat), (5, v.toNat), (7, 101)]
  | .vsel v d a b pr => [(2, pr.toNat), (3, 1), (5, b.toNat), (5, a.toNat), (5, d.toNat), (5, v.toNat), (7, 101)]
  | .vcmpct v d a b pr => [(2, pr.toNat), (3, 2), (5, b.toNat), (5, a.toNat), (5, d.toNat), (5, v.toNat), (7, 101)]
  | .vpermx v d a b pr => [(2, pr.toNat), (3, 3), (5, b.toNat), (5, a.toNat), (5, d.toNat), (5, v.toNat), (7, 101)]
  | .vslideup v d a s pr => [(2, pr.toNat), (3, 4), (5, s.toNat), (5, a.toNat), (5, d.toNat), (5, v.toNat), (7, 101)]
  | .vslidedn v d a s pr => [(2, pr.toNat), (3, 5), (5, s.toNat), (5, a.toNat), (5, d.toNat), (5, v.toNat), (7, 101)]
  | .vzip v d a b pr => [(2, pr.toNat), (3, 6), (5, b.toNat), (5, a.toNat), (5, d.toNat), (5, v.toNat), (7, 101)]
  | .vunzip v d a b pr => [(2, pr.toNat), (3, 7), (5, b.toNat), (5, a.toNat), (5, d.toNat), (5, v.toNat), (7, 101)]
  | .rsum v t0 a pr => [(2, pr.toNat), (4, 0), (5, a.toNat), (9, t0.toNat), (5, v.toNat), (7, 102)]
  | .rmax v t0 a pr => [(2, pr.toNat), (4, 1), (5, a.toNat), (9, t0.toNat), (5, v.toNat), (7, 102)]
  | .rmin v t0 a pr => [(2, pr.toNat), (4, 2), (5, a.toNat), (9, t0.toNat), (5, v.toNat), (7, 102)]
  | .rsumw v t0 a pr => [(2, pr.toNat), (4, 3), (5, a.toNat), (9, t0.toNat), (5, v.toNat), (7, 102)]
  | .rcount v t0 a pr => [(2, pr.toNat), (4, 4), (5, a.toNat), (9, t0.toNat), (5, v.toNat), (7, 102)]
  | .rfirst v t0 a pr => [(2, pr.toNat), (4, 5), (5, a.toNat), (9, t0.toNat), (5, v.toNat), (7, 102)]
  | .vscanSum v d a pr => [(2, pr.toNat), (3, 0), (5, 0), (5, a.toNat), (5, d.toNat), (5, v.toNat), (7, 103)]
  | .vscanMax v d a pr => [(2, pr.toNat), (3, 1), (5, 0), (5, a.toNat), (5, d.toNat), (5, v.toNat), (7, 103)]
  | .vscanMin v d a pr => [(2, pr.toNat), (3, 2), (5, 0), (5, a.toNat), (5, d.toNat), (5, v.toNat), (7, 103)]
  | .vscanSegsum v d a b pr => [(2, pr.toNat), (3, 3), (5, b.toNat), (5, a.toNat), (5, d.toNat), (5, v.toNat), (7, 103)]
  | .exp2 v d a pr => [(2, pr.toNat), (3, 0), (5, 0), (5, a.toNat), (5, d.toNat), (5, v.toNat), (7, 104)]
  | .log2 v d a pr => [(2, pr.toNat), (3, 1), (5, 0), (5, a.toNat), (5, d.toNat), (5, v.toNat), (7, 104)]
  | .rcp v d a pr => [(2, pr.toNat), (3, 2), (5, 0), (5, a.toNat), (5, d.toNat), (5, v.toNat), (7, 104)]
  | .rsq v d a pr => [(2, pr.toNat), (3, 3), (5, 0), (5, a.toNat), (5, d.toNat), (5, v.toNat), (7, 104)]
  | .sqrt v d a pr => [(2, pr.toNat), (3, 4), (5, 0), (5, a.toNat), (5, d.toNat), (5, v.toNat), (7, 104)]
  | .tanh v d a pr => [(2, pr.toNat), (3, 5), (5, 0), (5, a.toNat), (5, d.toNat), (5, v.toNat), (7, 104)]
  | .sigm v d a pr => [(2, pr.toNat), (3, 6), (5, 0), (5, a.toNat), (5, d.toNat), (5, v.toNat), (7, 104)]
  | .erf v d a pr => [(2, pr.toNat), (3, 7), (5, 0), (5, a.toNat), (5, d.toNat), (5, v.toNat), (7, 104)]
  | .vcvt v d a b r pr => [(2, pr.toNat), (3, r.toNat), (4, b.toNat), (1, 0), (5, a.toNat), (5, d.toNat), (5, v.toNat), (7, 105)]
  | .vdeq v d a b pr => [(2, pr.toNat), (3, 0), (3, b.toNat), (2, 0), (5, a.toNat), (5, d.toNat), (5, v.toNat), (7, 106)]
  | .vscl v d a b pr => [(2, pr.toNat), (3, 1), (3, b.toNat % 8), (2, b.toNat / 8), (5, a.toNat), (5, d.toNat), (5, v.toNat), (7, 106)]
  | .vqnt v d a b pr => [(2, pr.toNat), (3, 2), (3, b.toNat % 8), (2, b.toNat / 8), (5, a.toNat), (5, d.toNat), (5, v.toNat), (7, 106)]
  | .vamax v d a pr => [(2, pr.toNat), (3, 3), (3, 0), (2, 0), (5, a.toNat), (5, d.toNat), (5, v.toNat), (7, 106)]
  | .pack v d a b pr => [(2, pr.toNat), (3, 0), (5, b.toNat), (5, a.toNat), (5, d.toNat), (5, v.toNat), (7, 107)]
  | .unpklo v d a pr => [(2, pr.toNat), (3, 1), (5, 0), (5, a.toNat), (5, d.toNat), (5, v.toNat), (7, 107)]
  | .unpkhi v d a pr => [(2, pr.toNat), (3, 2), (5, 0), (5, a.toNat), (5, d.toNat), (5, v.toNat), (7, 107)]
  | .gettag v t0 a pr => [(2, pr.toNat), (4, 0), (5, a.toNat), (9, t0.toNat), (5, v.toNat), (7, 108)]
  | .settag v a pr => [(2, pr.toNat), (4, 1), (5, a.toNat), (9, 127), (5, v.toNat), (7, 108)]
  | .clrtag v a pr => [(2, pr.toNat), (4, 2), (5, a.toNat), (9, 127), (5, v.toNat), (7, 108)]
  | .mshape t0 pr => [(2, pr.toNat), (3, 0), (5, 0), (1, 0), (9, t0.toNat), (5, 0), (7, 112)]
  | .mzero m pr => [(2, pr.toNat), (3, m.toNat % 8), (5, m.toNat / 8), (1, 0), (9, 127), (5, 1), (7, 112)]
  | .mwait t0 m pr => [(2, pr.toNat), (3, m.toNat % 8), (5, m.toNat / 8), (1, 0), (9, t0.toNat), (5, 2), (7, 112)]
  | .mstat t0 pr => [(2, pr.toNat), (3, 0), (5, 0), (1, 0), (9, t0.toNat), (5, 3), (7, 112)]
  | .mtscl k pr => [(2, pr.toNat), (3, k.toNat), (5, 0), (1, 0), (9, 127), (5, 4), (7, 112)]
  | .mma v d a b c pr => [(2, pr.toNat), (8, 0), (1, c.toNat), (3, b.toNat), (3, a.toNat), (3, d.toNat), (5, v.toNat), (7, 113)]
  | .mmas v d a b c pr => [(2, pr.toNat), (8, 0), (1, c.toNat), (3, b.toNat), (3, a.toNat), (3, d.toNat), (5, v.toNat), (7, 114)]
  | .mmav v k a b pr => [(2, pr.toNat), (3, 0), (5, b.toNat), (5, a.toNat), (3, k.toNat), (2, 0), (5, v.toNat), (7, 115)]
  | .mmavSub v k a b pr => [(2, pr.toNat), (3, 1), (5, b.toNat), (5, a.toNat), (3, k.toNat), (2, 0), (5, v.toNat), (7, 115)]
  | .mldv v k a r pr => [(2, pr.toNat), (3, 0), (5, r.toNat), (3, a.toNat % 8), (2, a.toNat / 8), (3, k.toNat), (2, 0), (5, v.toNat), (7, 116)]
  | .mrdv v d k r pr => [(2, pr.toNat), (3, 1), (5, r.toNat), (3, k.toNat), (2, 0), (3, d.toNat % 8), (2, d.toNat / 8), (5, v.toNat), (7, 116)]
  | .msto v k n r g c pr => [(2, pr.toNat), (4, 0), (1, c.toNat), (4, g.toNat), (3, r.toNat), (3, n.toNat), (3, k.toNat), (5, v.toNat), (7, 117)]
  | .maddm v d a b pr => [(2, pr.toNat), (3, 0), (3, b.toNat), (2, 0), (3, a.toNat), (2, 0), (3, d.toNat), (2, 0), (5, v.toNat), (7, 118)]
  | .mtrn v d a pr => [(2, pr.toNat), (3, 1), (3, 0), (2, 0), (3, a.toNat), (2, 0), (3, d.toNat), (2, 0), (5, v.toNat), (7, 118)]
  | .mcopy v d a pr => [(2, pr.toNat), (3, 2), (3, 0), (2, 0), (3, a.toNat), (2, 0), (3, d.toNat), (2, 0), (5, v.toNat), (7, 118)]
  | .spawn pr => [(2, pr.toNat), (2, 0), (7, 0), (9, 127), (5, 0), (7, 120)]
  | .spawna pr => [(2, pr.toNat), (2, 0), (7, 0), (9, 127), (5, 1), (7, 120)]
  | .join pr => [(2, pr.toNat), (2, 0), (7, 0), (9, 127), (5, 2), (7, 120)]
  | .taskend pr => [(2, pr.toNat), (2, 0), (7, 0), (9, 127), (5, 3), (7, 120)]
  | .yield pr => [(2, pr.toNat), (2, 0), (7, 0), (9, 127), (5, 4), (7, 120)]
  | .taskid t0 n pr => [(2, pr.toNat), (2, n.toNat), (7, 0), (9, t0.toNat), (5, 5), (7, 120)]
  | .width pr => [(2, pr.toNat), (2, 0), (7, 0), (9, 127), (5, 6), (7, 120)]
  | .launch pr => [(2, pr.toNat), (2, 0), (7, 0), (9, 127), (5, 7), (7, 120)]
  | .domwait t0 pr => [(2, pr.toNat), (2, 0), (7, 0), (9, t0.toNat), (5, 8), (7, 120)]
  | .chcfg n pr => [(2, pr.toNat), (4, n.toNat), (1, 0), (4, 0), (9, 127), (5, 0), (7, 121)]
  | .chcfgAge n pr => [(2, pr.toNat), (4, n.toNat), (1, 1), (4, 0), (9, 127), (5, 0), (7, 121)]
  | .chlen t0 n pr => [(2, pr.toNat), (4, n.toNat), (1, 0), (4, 0), (9, t0.toNat), (5, 1), (7, 121)]
  | .chclr t1 n pr => [(2, pr.toNat), (4, n.toNat), (1, t1.toNat), (4, 0), (9, 127), (5, 2), (7, 121)]
  | .waitc t0 m pr => [(2, pr.toNat), (2, m.toNat % 4), (1, m.toNat / 4), (2, 0), (4, 0), (9, t0.toNat), (5, 0), (7, 122)]
  | .waitcAge t0 n pr => [(2, pr.toNat), (2, n.toNat % 4), (1, n.toNat / 4), (2, 1), (4, 0), (9, t0.toNat), (5, 0), (7, 122)]
  | .waitcJoin t0 pr => [(2, pr.toNat), (2, 0), (1, 0), (2, 2), (4, 0), (9, t0.toNat), (5, 0), (7, 122)]
  | .rdc t0 c pr => [(2, pr.toNat), (2, c.toNat % 4), (1, c.toNat / 4 % 2), (2, c.toNat / 8), (4, 0), (9, t0.toNat), (5, 1), (7, 122)]
  | .jadd s pr => [(2, pr.toNat), (2, s.toNat % 4), (1, s.toNat / 4), (2, 0), (4, 0), (9, 127), (5, 2), (7, 122)]
  | .pcfg n pr => [(2, pr.toNat), (2, n.toNat % 4), (1, n.toNat / 4), (2, 0), (4, 0), (9, 127), (5, 3), (7, 122)]
  | .time t0 q pr => [(2, pr.toNat), (2, q.toNat), (1, 0), (2, 0), (4, 0), (9, t0.toNat), (5, 4), (7, 122)]
  | .cbld z pr => [(2, pr.toNat), (2, z.toNat), (3, 0), (4, 0), (9, 127), (5, 0), (7, 123)]
  | .alinv s z pr => [(2, pr.toNat), (2, z.toNat), (3, s.toNat), (4, 0), (9, 127), (5, 1), (7, 123)]
  | .attr t0 z pr => [(2, pr.toNat), (2, z.toNat), (3, 0), (4, 0), (9, t0.toNat), (5, 2), (7, 123)]
  | .dmapq t0 q pr => [(2, pr.toNat), (2, q.toNat), (3, 0), (4, 0), (9, t0.toNat), (5, 3), (7, 123)]
  | .wlLaunch s d => [(7, 11), (5, d.toNat), (3, 0), (5, s.toNat), (5, 0), (7, 0)]
  | .wlFence s d => [(7, 11), (5, d.toNat), (3, 1), (5, s.toNat), (5, 0), (7, 0)]
  | .wlPoll s d => [(7, 11), (5, d.toNat), (3, 2), (5, s.toNat), (5, 0), (7, 0)]
  | .wlWait t0 s d => [(7, 11), (5, d.toNat), (3, 3), (5, s.toNat), (5, t0.toNat), (7, 0)]
  | .wlCancel s d => [(7, 11), (5, d.toNat), (3, 4), (5, s.toNat), (5, 0), (7, 0)]
  | .wlStatus s d => [(7, 11), (5, d.toNat), (3, 5), (5, s.toNat), (5, 0), (7, 0)]
  | .wlPrio t0 s d => [(7, 11), (5, d.toNat), (3, 6), (5, s.toNat), (5, t0.toNat), (7, 0)]
  | .blockFetch _ _ => []
  | .returnStackSpill _ => []
  | .blockCommit _ => []
  | .faultTake _ => []
  | .ochrePacketEnqueue _ => []
  | .ochrePacketRead _ => []
  | .loadReply _ _ _ => []
  | .atomicPerform _ _ _ => []
  | .hostAtomicCasRetry _ _ _ _ => []
  | .postedStorePerform _ _ => []
  | .relItemPerform _ _ => []
  | .storeRetryReoffer _ _ => []
  | .replayEntryPerform _ => []
  | .rplcmdReplay _ => []
  | .rplcmdDiscard _ => []
  | .replayHwmRead _ => []
  | .pageWalkComplete _ _ _ => []
  | .l1dEviction _ _ _ => []
  | .invalidationComplete => []
  | .pageMove _ _ _ => []
  | .widenReserve _ => []
  | .widenRedistribute _ => []
  | .tensorIssue _ _ _ => []
  | .mmaEntryConsume _ _ => []
  | .tensorOpComplete _ _ => []
  | .mstoEntryPush _ _ => []
  | .matrixNodeModeChange _ _ => []
  | .portEntryDeliver _ _ => []
  | .portCreditReturn _ _ => []
  | .ageRecordFetch _ _ => []
  | .ageElementDeliver _ _ => []
  | .ageElementWrite _ _ => []
  | .ownerPop _ => []
  | .theftRequest _ => []
  | .theftCopyComplete _ => []
  | .theftReply _ => []
  | .theftLapWaitExpiry _ => []
  | .poolTakeRetry _ => []
  | .joinWordRead _ => []
  | .joinSuspend _ => []
  | .jcountDecrement => []
  | .resumeFrameHandoff => []
  | .graphComplete _ => []
  | .quiescenceTokenForward _ => []
  | .engineKickStart _ => []
  | .launchPost => []
  | .placementDecision => []
  | .launchAgeTick _ => []
  | .backfillReserve => []
  | .timeTriggerSlot _ => []
  | .launchTableEnable _ => []
  | .missedRead _ => []
  | .doorbellWrite _ _ => []
  | .launchPageCancel _ => []
  | .launchPagePrioset _ _ => []
  | .lasterrRead _ => []
  | .tinvInvalidate _ => []
  | .peSwapOut _ => []
  | .pePreloadShadow _ => []
  | .peClockStop _ => []
  | .peDrainIvory _ => []
  | .peRestoreSepia _ => []
  | .peRestoreIvory _ => []
  | .shadowSwap _ => []
  | .streamerWriteOut _ => []
  | .scratchPageExchange _ _ => []
  | .arrivalLogAppend _ => []
  | .heldMessageReoffer => []
  | .drainComplete => []
  | .drainLimitExpiry => []
  | .dbgResume _ => []
  | .dbgReexecute _ => []
  | .dbgEndContext _ => []
  | .dbgHalt _ => []
  | .dbgStep _ => []
  | .dbgResolve _ _ _ => []
  | .dbgThaltWrite _ _ => []
  | .dbgInject _ _ => []
  | .dbgRegisterWrite _ _ _ _ => []
  | .portControlWrite _ _ _ => []
  | .engineResume _ => []
  | .engineReexecute _ => []
  | .engineReturnIdle _ => []
  | .ageResume _ _ => []
  | .ageStop _ _ => []
  | .watchArm _ _ => []
  | .watchDisarm _ _ => []
  | .traceGapRecord _ => []
  | .registerWrite _ _ _ => []
  | .islandPointChange _ => []
  | .powerSample _ => []
  | .valarmCountRead => []
  | .islandCapStep _ => []
  | .junctionOvertemp _ => []
  | .ptpMessage _ => []
  | .ptpHoldoverTimeout => []
  | .functionReady _ => []
  | .dumpvClear => []
  | .deviceReset => []
  | .machineCheck _ _ => []
  | .watchdogExpiry => []
  | .firmwareUpdate _ => []
  | .decodeMapLoad _ => []
  | .keyInstall _ => []
  | .objectLoad _ _ _ _ => []
  | .objectUnload _ _ _ => []
  | .atsTranslationCompletion _ _ _ _ => []
  | .priResponse _ _ _ => []
  | .atsInvalidation _ _ _ => []
  | .completionTimeout _ _ _ => []
  | .hostApertureAccess _ _ _ _ => []
  | .peerAccess _ _ _ => []
  | .backInvalidateResponse _ => []
  | .ringEnable _ _ => []
  | .ringEntryTake _ _ => []
  | .networkEntryComplete _ _ => []
  | .networkPacketReceive _ _ _ _ => []
  | .mgOpenSource _ => []
  | .mgOpenTarget _ => []
  | .mgFinalStop _ => []
  | .mgAbort _ => []
  | .mgClose _ => []
  | .mgKeyExchange _ _ => []
  | .mgRound _ => []
  | .mgDeadline _ => []
  | .mgPageReceive _ _ _ _ _ _ => []
  | .mgRoundendReceive _ _ _ _ _ => []
  | .mgIvoryReceive _ _ _ _ _ => []
  | .mgFinalReceive _ _ _ _ _ => []
  | .mgReadyReceive _ _ _ => []
  | .mgGoReceive _ _ _ => []
  | .mgAbortReceive _ _ _ _ => []
  | .mgLinkFailure _ => []
  | .riscVCoreAccess _ _ _ _ => []
  | .minresExpiry _ => []
  | .wlWaitDeadline _ => []
  | .dequeSpillResume _ => []
  | .ringResume _ _ => []
  | .migrationEngineResume _ => []
  | .cxlCacheSnoop _ _ => []
  | .memorySoftError _ _ => []

/-- The word of an instruction (R77). -/
def encode (i : Instr) : Word := BitVec.ofNat 32 (packFields i.fields)

end Sys2Proof
end

