-- ==== Sys2Proof/Config.lean ====
section
/-! DEFINITION. Fixed parts of the machine and the free values the spec leaves open: opaque constants without a body, so that no proof can use a particular value. -/
namespace Sys2Proof.Config

/-- HomeHash (R197): the bank of a page, fixed for a TILEREV and not given by the spec; taken modulo 512 where used. -/
opaque homeHash : Nat → Nat → Nat → Nat

/-- The first 16 bytes of the digest of the Synwen public key (R346, R347). -/
opaque synwenKey : Nat

/-- The verdict of the Indigo core's ML-DSA-87 check of a decode map or firmware image (R342, R439), a function of the signer and the image. -/
opaque signatureOk : Nat → Nat → Bool

/-- The verdict of the Indigo core's ML-DSA-87 check of a code object (R347), a function of the key, of bytes 0 to SIGOFF - 1, and of the signature that follows them. -/
opaque objectSigned : Nat → List (BitVec 8) → List (BitVec 8) → Bool

/-- The version number that a verified decode map or firmware image carries (R342, R439); never zero is asked of it where used (R477). -/
opaque imageVersion : Nat → BitVec 32

/-- The identifier of a code object (R349), a function of its signed bytes; the spec does not say how it is formed. -/
opaque objectId : List (BitVec 8) → BitVec 64

/-- The value left in a tile whose machine check leaves its state undefined (R369, precision M), and any other value the spec does not state. -/
opaque freeValue : Nat → BitVec 64

/-- The key that the Indigo cores derive from one exchange for one direction, from the source or to it (R425). -/
opaque sessionKey : Nat → Bool → BitVec 256

/-- Byte `i` of a sealed payload and its tag: of a key, an IV, a header and a payload (AES-256-GCM, R424, R425). -/
opaque sealedByte : BitVec 256 → List (BitVec 8) → List (BitVec 8) → List (BitVec 8) → Nat → BitVec 8

/-- A sealed payload: as many bytes of ciphertext as it has, then the 16-byte tag (R424). -/
def sealed (key : BitVec 256) (iv header payload : List (BitVec 8)) : List (BitVec 8) :=
  (List.range (payload.length + 16)).map (sealedByte key iv header payload)

/-- How many page requests the host lets stand outstanding at once (R414: the outstanding-request allocation of its PRI capability, a value of the host's own). -/
opaque priAllocation : Nat

/-- Entry `i` of the decode map of a firmware or map image (R342): the spec does not say what an entry holds (log 26). -/
opaque mapEntry : Nat → Nat → BitVec 64

/-- How many 64-byte entries the ring of the persistent log holds (R437), less one: the spec gives no number. -/
opaque logRoom : Nat

/-- How many trace copies of one XT the path to the trace port can hold (R383). -/
opaque tracePath : Nat

/-- What a RISC-V word that is none of this spec leaves in one place of its core (R405, log 9): of a counter and the place's number. -/
opaque riscVValue : Nat → Nat → BitVec 64

/-- The bytes of a vector register of the application cores, which R405 does not give (log 9). -/
opaque vlenb : Nat

/-- The first 64-byte granule address of the reserved area (R202). -/
def reservedBase : Nat := 0xBFC0000000

/-- One past the last byte of device memory (R202). -/
def deviceTop : Nat := 0xC000000000

/-- Physical base of the device register space (R410). -/
def regBase : Nat := 0xC000000000

/-- Where this model puts the debug windows in the physical space of the RISC-V cores, 64 KiB each by PLACE: R108 and R410 give no address (log 58). -/
def windowBase : Nat := 0x100000000000

/-- Where this model puts the SRAMs of the 128 Slate cores in their physical space, 256 KiB each (R421): the spec gives no address (log 58). -/
def sramBase : Nat := 0x180000000000

/-- D of R395: the flits that the receiver's buffer of one channel holds. The spec gives D = 8 for its example channels (log 6). -/
def linkDepth : Nat := 8

/-- The bytes of the two scan blocks of a tile pair in a Sepia image: R384 gives about 224 KiB (log 6). -/
def scanSize : Nat := 229376

/-- The bytes of an ML-DSA-87 signature (FIPS 204, log 26). -/
def signatureSize : Nat := 4627

end Sys2Proof.Config
end

