-- ==== Sys2Proof/Machine/Map.lean ====
section
/-! DEFINITION. Operations of the sparse store `SMap`: read, canonical write, byte ranges (R1: little-endian at every level). -/
namespace Sys2Proof.Machine

/-- The value at key `k`; an unlisted key reads as `d`. -/
def mget {α : Type} (d : α) (m : SMap α) (k : Nat) : α :=
  match m with
  | [] => d
  | (j, a) :: r => if j = k then a else mget d r k

/-- Write `a` at key `k`, keeping keys strictly rising; writing the default removes the entry. -/
def mset {α : Type} [DecidableEq α] (d : α) (m : SMap α) (k : Nat) (a : α) : SMap α :=
  match m with
  | [] => if a = d then [] else [(k, a)]
  | (j, b) :: r =>
    if k < j then (if a = d then (j, b) :: r else (k, a) :: (j, b) :: r)
    else if k = j then (if a = d then r else (k, a) :: r)
    else (j, b) :: mset d r k a

/-- The canonical form of a sparse store: keys strictly rising, no entry holding the default. -/
def mwf {α : Type} [DecidableEq α] (d : α) : SMap α → Bool
  | [] => true
  | [(_, a)] => decide (a ≠ d)
  | (j, a) :: (k, b) :: r => decide (j < k) && decide (a ≠ d) && mwf d ((k, b) :: r)

/-- The canonical form of a byte store whose unlisted bytes read zero (log 1). -/
abbrev Memory.wf (m : SMap Byte) : Bool := mwf (0 : Byte) m

def byteAt (m : SMap Byte) (a : Nat) : Byte := mget 0 m a

def setByte (m : SMap Byte) (a : Nat) (b : Byte) : SMap Byte := mset 0 m a b

/-- `n` bytes from address `a`, lowest address first. -/
def bytesAt (m : SMap Byte) (a : Nat) : Nat → List Byte
  | 0 => []
  | n + 1 => byteAt m a :: bytesAt m (a + 1) n

/-- Write bytes from address `a` upward. -/
def setBytes (m : SMap Byte) (a : Nat) : List Byte → SMap Byte
  | [] => m
  | b :: bs => setBytes (setByte m a b) (a + 1) bs

/-- One byte written under a bit mask (R205, R478): bits outside the mask keep their value. -/
def maskByte (old new mask : Byte) : Byte := (old &&& ~~~mask) ||| (new &&& mask)

/-- Write masked bytes from address `a` upward. -/
def setMasked (m : SMap Byte) (a : Nat) : List (Byte × Byte) → SMap Byte
  | [] => m
  | (b, k) :: bs => setMasked (setByte m a (maskByte (byteAt m a) b k)) (a + 1) bs

/-- The number whose little-endian bytes these are (R1). -/
def leNat : List Byte → Nat
  | [] => 0
  | b :: bs => b.toNat + 256 * leNat bs

/-- The low `n` little-endian bytes of a number (R1). -/
def natLe (n : Nat) (x : Nat) : List Byte :=
  match n with
  | 0 => []
  | n + 1 => BitVec.ofNat 8 x :: natLe n (x / 256)

/-- A field of a number: bits `hi` down to `lo`. -/
def bitsOf (x hi lo : Nat) : Nat := x / 2 ^ lo % 2 ^ (hi + 1 - lo)

def bitOf (x i : Nat) : Bool := x / 2 ^ i % 2 == 1

/-- Replace bits `hi` down to `lo` of a number. -/
def setBits (x hi lo v : Nat) : Nat :=
  x - bitsOf x hi lo * 2 ^ lo + v % 2 ^ (hi + 1 - lo) * 2 ^ lo

/-- The two's-complement value of the low `w` bits of a number. -/
def sval (w x : Nat) : Int :=
  let y := x % 2 ^ w
  if y < 2 ^ (w - 1) then (y : Int) else (y : Int) - (2 : Int) ^ w

/-- The low `w` bits of an integer. -/
def wrap (w : Nat) (i : Int) : Nat := (i % ((2 : Int) ^ w)).toNat

/-- The 64-bit token that holds the `w`-bit pattern `x` sign-extended (R56). -/
def sext64 (w x : Nat) : Nat := wrap 64 (sval w x)

/-- The indices `0 … n-1`. -/
def upTo (n : Nat) : List Nat := List.range n

/-- Replace entry `i` of a list, if present. -/
def setAt {α : Type} (l : List α) (i : Nat) (a : α) : List α := l.set i a

end Sys2Proof.Machine
end

