-- ==== Sys2Proof/Machine/Num.lean ====
section
/-! DEFINITION. Number formats and arithmetic (spec/02): format tags, decoding of values, RoundTo, RoundToInt, Step and Draw, exact sums, S12 scales, codebook weights. Exact values are integers times powers of two, so every rounding is done on exact numbers. -/
namespace Sys2Proof.Machine

/-! Format tags (R41) -/

def tagNone : Nat := 0
def tagF32 : Nat := 1
def tagBF16 : Nat := 2
def tagF16 : Nat := 3
def tagE4M3 : Nat := 4
def tagE5M2 : Nat := 5
def tagE3M2 : Nat := 6
def tagE2M3 : Nat := 7
def tagE2M1 : Nat := 8
def tagCB2 : Nat := 9
def tagI32 : Nat := 10
def tagI16 : Nat := 11
def tagI8 : Nat := 12
def tagI4 : Nat := 13
def tagMask : Nat := 14
def tagF64 : Nat := 15

/-- Element width in bits of a format tag; NONE is one 32-bit element per lane (R41, R140). -/
def tagBits (t : Nat) : Nat :=
  [32, 32, 16, 16, 8, 8, 6, 6, 4, 16, 32, 16, 8, 4, 32, 64].getD t 32

/-- Elements per 32-bit lane (R41); F64 counts half, see `cap`. -/
def perLane (t : Nat) : Nat :=
  [1, 1, 2, 2, 4, 4, 4, 4, 8, 2, 1, 2, 4, 8, 1, 0].getD t 1

def isFloatTag (t : Nat) : Bool := [1, 2, 3, 4, 5, 6, 7, 8, 15].contains t
def isNarrow (t : Nat) : Bool := [4, 5, 6, 7, 8].contains t
def isIntTag (t : Nat) : Bool := [10, 11, 12, 13].contains t

/-- Exponent width, mantissa width and bias of a floating format (R41). -/
structure Fmt where
  e : Nat
  m : Nat
  bias : Nat
  deriving DecidableEq, Repr

def fmtOf (t : Nat) : Fmt :=
  match t with
  | 2 => ⟨8, 7, 127⟩
  | 3 => ⟨5, 10, 15⟩
  | 4 => ⟨4, 3, 7⟩
  | 5 => ⟨5, 2, 15⟩
  | 6 => ⟨3, 2, 3⟩
  | 7 => ⟨2, 3, 1⟩
  | 8 => ⟨2, 1, 1⟩
  | 15 => ⟨11, 52, 1023⟩
  | _ => ⟨8, 23, 127⟩

/-- The numeric state an operation sees: STATUS fields (R39, R40) and the inputs of Draw (R54). -/
structure NEnv where
  nmode : Bool
  ftz : Bool
  rm : Nat
  s0 : Nat
  k : Nat
  deriving DecidableEq, Repr

/-- An exact value: NaN, an infinity, or `(-1)^neg * man * 2^exp`; `rest` says that the magnitude lies strictly between this and the next multiple of `2^exp` (a quotient, root or function value cut far below every rounding point). -/
inductive Ex where
  | nan
  | inf (neg : Bool)
  | fin (neg : Bool) (man : Nat) (exp : Int) (rest : Bool)
  deriving DecidableEq, Repr

def Ex.isNaN : Ex → Bool
  | .nan => true
  | _ => false

def Ex.isInf : Ex → Bool
  | .inf _ => true
  | _ => false

def Ex.isZero : Ex → Bool
  | .fin _ 0 _ false => true
  | _ => false

def Ex.neg : Ex → Bool
  | .nan => false
  | .inf b => b
  | .fin b _ _ _ => b

def Ex.negate : Ex → Ex
  | .nan => .nan
  | .inf b => .inf (!b)
  | .fin b m e r => .fin (!b) m e r

def Ex.abs : Ex → Ex
  | .nan => .nan
  | .inf _ => .inf false
  | .fin _ m e r => .fin false m e r

def Ex.ofInt (i : Int) : Ex := .fin (decide (i < 0)) i.natAbs 0 false

/-- The largest finite magnitude, as the bits below the sign (R44). -/
def maxMag (t : Nat) (nmode : Bool) : Nat :=
  match t with
  | 4 => if nmode then 0x77 else 0x7E
  | 5 => if nmode then 0x7B else 0x7E
  | 6 => 0x1F
  | 7 => 0x1F
  | 8 => 0x7
  | _ => (2 ^ (fmtOf t).e - 1) * 2 ^ (fmtOf t).m - 1

def hasInf (t : Nat) (nmode : Bool) : Bool :=
  match t with
  | 4 | 5 => nmode
  | 6 | 7 | 8 => false
  | _ => true

def hasNaN (t : Nat) : Bool := !(t == 6 || t == 7 || t == 8)

/-- The infinity's bits below the sign (R43, R44). -/
def infMag (t : Nat) : Nat := (2 ^ (fmtOf t).e - 1) * 2 ^ (fmtOf t).m

/-- The canonical NaN (R46). -/
def canonNaN (t : Nat) : Nat :=
  match t with
  | 15 => 0x7FF8000000000000
  | 1 => 0x7FC00000
  | 2 => 0x7FC0
  | 3 => 0x7E00
  | 4 => 0x7F
  | 5 => 0x7F
  | _ => 0

def signBit (t : Nat) : Nat := 2 ^ ((fmtOf t).e + (fmtOf t).m)

/-- The exact value of an encoding (R43, R44), without flush. -/
def valueOf (t : Nat) (nmode : Bool) (bits : Nat) : Ex :=
  let f := fmtOf t
  let x := bits % (2 * signBit t)
  let neg := x / signBit t == 1
  let mag := x % signBit t
  if mag ≤ maxMag t nmode then
    let e := mag / 2 ^ f.m
    let m := mag % 2 ^ f.m
    if e = 0 then .fin neg m (1 - (f.bias : Int) - f.m) false
    else .fin neg (2 ^ f.m + m) ((e : Int) - f.bias - f.m) false
  else if hasInf t nmode && mag == infMag t then .inf neg
  else .nan

def flushTag (t : Nat) : Bool := t == 15 || t == 1 || t == 2 || t == 3

def isSubnormal (t bits : Nat) : Bool :=
  let mag := bits % signBit t
  decide (0 < mag) && decide (mag < 2 ^ (fmtOf t).m)

/-- A subnormal operand of F64, F32, BF16 or F16 reads as a zero of its sign when FTZ is 1 (R51): on encodings. -/
def flushBits (n : NEnv) (t bits : Nat) : Nat :=
  if n.ftz && flushTag t && isSubnormal t bits then bits / signBit t % 2 * signBit t else bits % (2 * signBit t)

/-- The operand value after the flush of R51. -/
def operand (n : NEnv) (t bits : Nat) : Ex := valueOf t n.nmode (flushBits n t bits)

/-! Stochastic rounding (R53-R55) -/

def sstep (x : Nat) : Nat :=
  let x := x ^^^ (x * 2 ^ 13 % 2 ^ 32)
  let x := x ^^^ (x / 2 ^ 17)
  x ^^^ (x * 2 ^ 5 % 2 ^ 32)

def drawOf (s0 k e : Nat) : Nat :=
  let x := (s0 ^^^ (k * 2 ^ 16) ^^^ e) % 2 ^ 32
  sstep (sstep (if x = 0 then 0x9E3779B9 else x))

/-- The effective rounding mode: DYN takes STATUS.RM, and a reserved RM rounds as RNE (R49). -/
def modeOf (n : NEnv) (m : Nat) : Nat :=
  if m = 6 then (if n.rm ≥ 6 then 0 else n.rm) else m

/-- Whether a magnitude `num / 2^d` (with `rest`) rounds away from zero (R50). -/
def roundUp (mode : Nat) (neg : Bool) (n num d : Nat) (rest : Bool) (draw : Nat) : Bool :=
  let pos := decide (0 < num) || rest
  let cmp2 := compare (2 * num) (2 ^ d)
  let half := cmp2 == .eq && !rest
  let above := cmp2 == .gt || (cmp2 == .eq && rest)
  match mode with
  | 0 => above || (half && n % 2 == 1)
  | 4 => above || half
  | 1 => false
  | 3 => pos && !neg
  | 2 => pos && neg
  | 5 => decide (num * 2 ^ 32 / 2 ^ d + draw ≥ 2 ^ 32)
  | _ => above || (half && n % 2 == 1)

/-- RoundTo (R50) into floating tag `t`; `e` is the element index of Draw (R54). The answer is an encoding. -/
def roundTo (n : NEnv) (t mode : Nat) (sat : Bool) (e : Nat) (x : Ex) : Nat :=
  let f := fmtOf t
  let mode := modeOf n mode
  let sg (neg : Bool) (mag : Nat) : Nat := if neg then signBit t + mag else mag
  match x with
  | .nan => if hasNaN t then canonNaN t else 0
  | .inf neg => if hasInf t n.nmode && !sat then sg neg (infMag t) else sg neg (maxMag t n.nmode)
  | .fin neg man ex rest =>
    if man = 0 && !rest then sg neg 0
    else
      let minE : Int := 1 - (f.bias : Int)
      let top : Int := max ((Nat.log2 man : Int) + ex) minE
      let d : Int := top - f.m - ex
      let dn := d.toNat
      let q := if d ≤ 0 then man * 2 ^ (-d).toNat else man / 2 ^ dn
      let num := if d ≤ 0 then 0 else man % 2 ^ dn
      let up := roundUp mode neg q num dn rest (drawOf n.s0 n.k e)
      let q' := if up then q + 1 else q
      let mag := if q < 2 ^ f.m then q' else (top - minE + 1).toNat * 2 ^ f.m + (q' - 2 ^ f.m)
      if mag > maxMag t n.nmode then
        if sat || !hasInf t n.nmode then sg neg (maxMag t n.nmode)
        else if mode == 0 || mode == 4 || mode == 5 || (mode == 3 && !neg) || (mode == 2 && neg) then sg neg (infMag t)
        else sg neg (maxMag t n.nmode)
      else if n.ftz && flushTag t && decide (mag < 2 ^ f.m) then sg neg 0
      else sg neg mag

/-- The range of an integer destination: width and signedness (R52). -/
def intRange (signed : Bool) (w : Nat) : Int × Int :=
  if signed then (-(2 : Int) ^ (w - 1), (2 : Int) ^ (w - 1) - 1) else (0, (2 : Int) ^ w - 1)

def clamp (lo hi x : Int) : Int := if x < lo then lo else if hi < x then hi else x

/-- RoundToInt (R52): the saturated integer. -/
def roundToInt (n : NEnv) (signed : Bool) (w mode : Nat) (e : Nat) (x : Ex) : Int :=
  let (lo, hi) := intRange signed w
  match x with
  | .nan => 0
  | .inf neg => if neg then lo else hi
  | .fin neg man ex rest =>
    let mode := modeOf n mode
    let dn := (-ex).toNat
    let q := if ex ≥ 0 then man * 2 ^ ex.toNat else man / 2 ^ dn
    let num := if ex ≥ 0 then 0 else man % 2 ^ dn
    let up := roundUp mode neg q num (if ex ≥ 0 then 0 else dn) rest (drawOf n.s0 n.k e)
    let q' := if up then q + 1 else q
    clamp lo hi (if neg then -(q' : Int) else q')

/-! Exact arithmetic. A signed dyadic is an integer times a power of two. -/

structure Dy where
  man : Int
  exp : Int
  deriving DecidableEq, Repr

def Dy.add (a b : Dy) : Dy :=
  let e := min a.exp b.exp
  ⟨a.man * 2 ^ (a.exp - e).toNat + b.man * 2 ^ (b.exp - e).toNat, e⟩

def Dy.mul (a b : Dy) : Dy := ⟨a.man * b.man, a.exp + b.exp⟩

def Dy.toEx (a : Dy) : Ex := .fin (decide (a.man < 0)) a.man.natAbs a.exp false

def Ex.toDy : Ex → Dy
  | .fin neg m e _ => ⟨if neg then -(m : Int) else m, e⟩
  | _ => ⟨0, 0⟩

/-- The sign of an exact zero sum of opposite-signed operands: minus only under RDN (R131). -/
def zeroSign (n : NEnv) (mode : Nat) : Bool := modeOf n mode == 2

/-- a + b exactly (R48, R131). -/
def exAdd (n : NEnv) (mode : Nat) (a b : Ex) : Ex :=
  match a, b with
  | .nan, _ => .nan
  | _, .nan => .nan
  | .inf s, .inf t => if s = t then .inf s else .nan
  | .inf s, _ => .inf s
  | _, .inf t => .inf t
  | .fin s m e r, .fin t k f q =>
    let d := Dy.add (Ex.toDy (.fin s m e r)) (Ex.toDy (.fin t k f q))
    if d.man = 0 then (if m = 0 && k = 0 && s = t then .fin s 0 0 false else .fin (zeroSign n mode) 0 0 false)
    else d.toEx

/-- a × b exactly (R48). -/
def exMul (a b : Ex) : Ex :=
  match a, b with
  | .nan, _ => .nan
  | _, .nan => .nan
  | .inf s, .inf t => .inf (s != t)
  | .inf s, .fin t k _ _ => if k = 0 then .nan else .inf (s != t)
  | .fin s m _ _, .inf t => if m = 0 then .nan else .inf (s != t)
  | .fin s m e _, .fin t k f _ => .fin (s != t) (m * k) (e + f) false

/-- a ÷ b, cut 200 bits below the leading bit with the rest kept (R48, R131). -/
def exDiv (a b : Ex) : Ex :=
  match a, b with
  | .nan, _ => .nan
  | _, .nan => .nan
  | .inf _, .inf _ => .nan
  | .inf s, .fin t _ _ _ => .inf (s != t)
  | .fin s _ _ _, .inf t => .fin (s != t) 0 0 false
  | .fin s m e _, .fin t k f _ =>
    if k = 0 then (if m = 0 then .nan else .inf (s != t))
    else if m = 0 then .fin (s != t) 0 0 false
    else
      let sh := 200 + Nat.log2 k
      let x := m * 2 ^ sh
      .fin (s != t) (x / k) (e - f - sh) (decide (x % k ≠ 0))

/-- The integer square root, bit by bit from bit `i`. -/
def isqrtAux (x : Nat) : Nat → Nat → Nat
  | 0, r => r
  | i + 1, r =>
    let c := r + 2 ^ i
    isqrtAux x i (if c * c ≤ x then c else r)

def isqrt (x : Nat) : Nat := isqrtAux x (Nat.log2 x / 2 + 1) 0

/-- √a, cut far below every rounding point with the rest kept (R131). -/
def exSqrt (a : Ex) : Ex :=
  match a with
  | .nan => .nan
  | .inf s => if s then .nan else .inf false
  | .fin s m e _ =>
    if m = 0 then .fin s 0 0 false
    else if s then .nan
    else
      let e' := if e % 2 = 0 then e else e - 1
      let m' := if e % 2 = 0 then m else 2 * m
      let x := m' * 2 ^ 400
      let r := isqrt x
      .fin false r (e' / 2 - 200) (decide (r * r ≠ x))

/-- a × b + c exactly (R48, R131). -/
def exFma (n : NEnv) (mode : Nat) (a b c : Ex) : Ex := exAdd n mode (exMul a b) c

/-- Order of two exact values that are not NaN; zeros are equal whatever their signs. -/
def exCmp (a b : Ex) : Ordering :=
  let key (x : Ex) : Int := match x with
    | .inf true => -2
    | .inf false => 2
    | _ => 0
  if a.isInf || b.isInf then compare (key a) (key b)
  else
    let e := min a.toDy.exp b.toDy.exp
    compare (a.toDy.man * 2 ^ (a.toDy.exp - e).toNat) (b.toDy.man * 2 ^ (b.toDy.exp - e).toNat)

/-- FMIN (`mx = false`) and FMAX of two flushed encodings (R132). -/
def fminmax (n : NEnv) (t : Nat) (mx : Bool) (a b : Nat) : Nat :=
  let x := valueOf t n.nmode a
  let y := valueOf t n.nmode b
  if x.isNaN || y.isNaN then canonNaN t
  else match exCmp x y with
    | .lt => if mx then b else a
    | .gt => if mx then a else b
    | .eq => if mx then (if x.neg then b else a) else (if x.neg then a else b)

def fminmaxNum (n : NEnv) (t : Nat) (mx : Bool) (a b : Nat) : Nat :=
  let x := valueOf t n.nmode a
  let y := valueOf t n.nmode b
  if x.isNaN && y.isNaN then canonNaN t
  else if x.isNaN then b
  else if y.isNaN then a
  else fminmax n t mx a b

/-- The exact sum of finite or special values under R152, with its special cases; `rdn` is the sign of an exact zero of mixed signs. -/
def exSum (n : NEnv) (mode : Nat) (xs : List Ex) : Ex :=
  if xs.any Ex.isNaN || (xs.any (· == .inf true) && xs.any (· == .inf false)) then .nan
  else if xs.any (· == .inf true) then .inf true
  else if xs.any (· == .inf false) then .inf false
  else
    let d := xs.foldl (fun a x => Dy.add a x.toDy) ⟨0, 0⟩
    if d.man = 0 then
      if xs.isEmpty then .fin false 0 0 false
      else if xs.all (fun x => x.isZero && x.neg) then .fin true 0 0 false
      else if xs.all (fun x => x.isZero && !x.neg) then .fin false 0 0 false
      else .fin (zeroSign n mode) 0 0 false
    else d.toEx

/-! Integers as elements (R52, R56, R57) -/

def intBits (t : Nat) : Nat := tagBits t

/-! S12 scales (R58) -/

inductive Scale where
  | zero
  | nan
  | val (d : Dy)
  deriving DecidableEq, Repr

def scaleOf (h : Nat) : Scale :=
  let s := h % 4096
  let e := s / 16
  let m := s % 16
  if e = 0 then .zero
  else if e = 255 then .nan
  else .val ⟨16 + m, (e : Int) - 127 - 4⟩

/-! Codebook weights (R59, R60). A weight is four times its value, an integer. -/

def cb2Weights4 (row idx : Nat) : List Int :=
  let bit (i : Nat) : Bool := bitOf idx i
  let neg := ((upTo 8).tail.filter bit).length
  let sgn (i : Nat) : Int := if (if i = 0 then neg % 2 == 1 else bit i) then -1 else 1
  (upTo 8).map fun i => sgn i * (2 * (row / 16 ^ i % 16 : Nat)) + (if bit 0 then 1 else 0)

/-- The exact value of a weight; a zero weight is +0 (R60). -/
def weightEx (w4 : Int) : Ex := .fin (decide (w4 < 0)) w4.natAbs (-2) false

/-! Sums in the matrix nodes (R61-R63) -/

/-- Group size from the wider decoded element (R61); CB2 counts as its weights. -/
def groupSize (ta tb : Nat) : Nat :=
  if ta == tagF32 || tb == tagF32 then 1
  else if ta == tagBF16 || ta == tagF16 || tb == tagBF16 || tb == tagF16 then 8
  else 32

/-- The contribution c of one group (R63, rows in order). -/
def groupC (prods : List (Ex × Ex)) (sa sb : Scale) : Ex :=
  match sa, sb with
  | .nan, _ => .nan
  | _, .nan => .nan
  | .zero, _ => .fin false 0 0 false
  | _, .zero => .fin false 0 0 false
  | .val da, .val db =>
    let ps := prods.map fun ab => exMul ab.1 ab.2
    if ps.any Ex.isNaN || (ps.any (· == .inf true) && ps.any (· == .inf false)) then .nan
    else if ps.any (· == .inf true) then .inf true
    else if ps.any (· == .inf false) then .inf false
    else
      let d := Dy.mul (ps.foldl (fun a x => Dy.add a x.toDy) ⟨0, 0⟩) (Dy.mul da db)
      if d.man = 0 then .fin false 0 0 false else d.toEx

/-- One group added to an F32 accumulator with one RNE rounding, flushed under R51 (R62). -/
def groupStep (n : NEnv) (acc : Nat) (c : Ex) : Nat :=
  roundTo n tagF32 0 false 0 (exAdd n 0 (operand n tagF32 acc) c)

end Sys2Proof.Machine
end

