-- ==== Sys2Proof/Machine/State.lean ====
section
/-! DEFINITION. The machine's state as plain data, and State.reset (R95). A store keyed by a number is an `SMap`; an unlisted key reads as the item's reset value. -/
namespace Sys2Proof.Machine

/-- A token (R23): 64 bits or a 128-bit PAIR, and a null bit; `mark` is the port, tag and NMODE bit of the port entry it was injected from (R45, R98). -/
structure Token where
  val : Quad
  pair : Bool
  null : Bool
  mark : Option (Nat × Nat × Bool)
  deriving DecidableEq, Repr

/-- A fault recorded against a block (R26, R373, R374): cause, offending word, access and detail doubles (bytes 48-55 and 56-63), and the sequence number, and the slot and address, of a block other than the one it is recorded against (R381). -/
structure FaultRec where
  cause : Nat
  word : Nat
  lsid : Option Nat
  zone : Nat
  va : Dbl
  late : Bool
  d0 : Dbl
  d1 : Dbl
  seq : Option Nat
  src : Option (Nat × Dbl) := none
  deriving DecidableEq, Repr

/-- The Ochre packet (R373), by field. -/
structure Packet where
  cause : Nat
  agent : Nat
  bound : Bool
  late : Bool
  held : Bool
  redeliv : Bool
  ctx : Nat
  task : Word
  place : Nat
  unit : Nat
  word : Nat
  lsid : Option Nat
  zone : Nat
  slot : Nat
  block : Dbl
  va : Dbl
  time : Dbl
  seq : Nat
  d0 : Dbl
  d1 : Dbl
  deriving DecidableEq, Repr

/-- The parts of a tensor instruction kept until it issues (R163): operation 0 MMA, 1 MMAS, 2 MMAV, 3 MMAV.SUB, 4 MLDV, 5 MRDV, 6 MSTO, 7 MADDM, 8 MTRN, 9 MCOPY, and its fields. -/
structure TIns where
  op : Nat
  d : Nat
  a : Nat
  b : Nat
  mode : Nat
  flag : Bool
  k : Dbl
  vsid : Nat
  deriving DecidableEq, Repr

/-- Where a byte lives: device memory, a fabric node's memory, a host process, a live tile's scratchpad, or the scratchpad of a tile that is held on the shadow side (2048 plus its PLACE) or in a Sepia image (numbered as the image's harts are). -/
inductive Loc where
  | dev (pa : Nat)
  | peer (key : Nat)
  | host (key : Nat)
  | scr (place off : Nat)
  | held (tile off : Nat)
  deriving DecidableEq, Repr

/-- What a pending request of a block waits for; `got` holds the bytes of the parts of an LDV that have been read (R224); one that has been read whole waits with its bytes for the turn of its VSID (R139). The binder wait of an ACQ, and the wait of a WAITC for its join word, bears a number once its home has found the condition false (R219, R362). -/
inductive ReqKind where
  | load (size : Nat) (signed : Bool)
  | vload (d form vsid : Nat) (stride : Dbl) (got : List Byte)
  | vdone (d form vsid : Nat) (bytes : List Byte)
  | atomic (op size sc : Nat) (v : Quad)
  | acq (sc : Nat) (wait : Option Nat)
  | waitc (kind arg : Nat) (wait : Option Nat)
  | mwait (mask : Nat)
  | domwait (rounds : Nat)
  | tensor (t : TIns)
  | cbld
  | refill
  deriving DecidableEq, Repr

/-- A pending request: the instruction, its LSID, ord classes, address and result target. -/
structure Req where
  idx : Nat
  lsid : Nat
  ord : Nat
  zone : Nat
  va : Dbl
  t0 : BitVec 9
  kind : ReqKind
  deriving DecidableEq, Repr

/-- A store held in its block until commit (R212), or a REL (R218): masked bytes, lowest address first. -/
structure St where
  idx : Nat
  lsid : Nat
  ord : Nat
  zone : Nat
  va : Dbl
  data : List (Byte × Byte)
  rel : Bool
  deriving DecidableEq, Repr

/-- An effect that takes place at the commit of its block (R25, R40). -/
inductive Eff where
  | wrsys (sel : Nat) (v : Dbl)
  | wrsysNull (sel : Nat)
  | fence (kind sc : Nat)
  | cache (inv : Bool) (zone : Nat) (a len : Dbl)
  | ibar
  | lncfg (port age zone : Nat) (rec : Dbl)
  | chcfg (port : Nat) (dx dy : Byte) (q : Nat) (key : Half)
  | chcfgAge (port age : Nat)
  | chclr (port : Nat) (unbind : Bool)
  | spawn (entry seg : Dbl)
  | width (hint : Nat)
  | launch (rec : Dbl)
  | jadd (sc : Nat) (seg : Dbl) (d : Word)
  | pcfg (n : Nat) (c : Dbl)
  | cbld (bytes : List Byte)
  | alinv (zone size : Nat) (a : Dbl)
  | mshape (rows cols : Nat)
  | mzero (mask : Nat)
  | mtscl (k : Nat) (ta tb : Word)
  deriving DecidableEq, Repr

/-- How a fired branch-class instruction leaves its block (R114, R285). -/
inductive Branch where
  | goto (next : Dbl)
  | call (next ra : Dbl)
  | ret (next : Dbl) (spilled : Bool)
  | scall (next num : Dbl)
  | taskend
  | yield (cont : Dbl)
  | join (cont : Dbl)
  deriving DecidableEq, Repr

/-- The vector context (R139): lanes, tags, VL, VTYPE. Lane l of vn has key n*512 + l. -/
structure Vec where
  v : SMap Word
  tag : SMap (BitVec 4)
  vl : BitVec 13
  vtype : BitVec 4
  deriving DecidableEq, Repr

/-- What an instruction leaves in the vector context while it is not known yet what the older blocks leave there (R139, R442): the length and format of a VSETL, or the register that an LDV of that form has read on a core of that width. -/
inductive VEarly where
  | len (vl : BitVec 13) (vtype : BitVec 4)
  | load (d form cw : Nat) (bytes : List Byte)
  deriving DecidableEq, Repr

/-- A load that a block has performed (R213), or the read of an atomic, with the bytes it read before the core's own stores (R214) and those of the aligned 16-byte granules it lies in as they stood then (R224). -/
structure Seen where
  lsid : Nat
  zone : Nat
  va : Dbl
  base : List Byte
  wide : List Byte
  deriving DecidableEq, Repr

/-- One block in flight (R21-R29). `toks` holds operand tokens and write-slot tokens by target value (R73); `book` the codebook that the block reads, from its first use on (R40, R341); `links` the tokens of memory replies that the link interfaces hold under THALT, each with the instruction that asked and its target (R377). `vec` is the vector context that its instructions have left, once what the older blocks leave is known; until then `early` holds what they have left of it, in VSID order (R139). -/
structure Block where
  tag : Nat
  addr : Dbl
  hdr : List Word
  code : List Word
  seq : Nat
  injected : List Nat
  pops : List Nat
  toks : List (Nat × Token)
  fired : List Nat
  lsids : List Nat
  vsids : List Nat
  branch : Option (Nat × Branch)
  faults : List FaultRec
  reqs : List Req
  stores : List St
  effs : List (Nat × Eff)
  vec : Option Vec
  seen : List Seen
  breaks : List Nat
  bound : Bool
  sr : Bool
  spilled : Bool
  nospec : Bool
  book : Option (List Nat)
  links : List (Nat × BitVec 9 × Token) := []
  early : List VEarly := []
  deriving DecidableEq, Repr

/-- What a committed block has released to be done later (R210, R216, R218, R274, R287, R295, R355, R364), a CACHE operation among them (R249; without a zone it covers every line of its class). A write-back carries the granules that it writes with an error code (R203). A barrier holds the younger loads or stores until the classes it waits for have drained; one that holds neither holds the fetch (R251). -/
inductive PWhat where
  | store (zone : Nat) (va : Dbl) (data : List (Byte × Byte))
  | rel (zone : Nat) (va val : Dbl)
  | wback (zone : Nat) (va : Dbl) (data : List (Byte × Byte)) (bad : BitVec 2)
  | jadd (seg : Dbl) (d : Word)
  | spawn (entry seg : Dbl) (args : List Dbl) (status : BitVec 5)
  | launch (rec : Dbl)
  | barrier (loads stores : Bool)
  | retire (seg : Dbl)
  | alinv (zone size : Nat) (va : Dbl)
  | cache (inv : Bool) (zone : Option Nat) (a len : Dbl)
  deriving DecidableEq, Repr

/-- A released item: class 0 A, 1 B, 2 C, 3 uncounted; 4 plus a class: data of that class that no count holds, a line's evicted bytes or a delayed store to the own scratchpad (R210, R355); the classes it waits for; status 0 on its way, 1 in a replay queue, 2 in a hold slot, 3 to be offered again, 4 a REL or a spawn half done, 5 stopped at a fault of the deque engine, 6 a REL in a replay queue whose regions have been written back (R282), 7 release work still to do (R216, R291). `src` is the slot and the address of the block that released it (R373); `quiet` marks a write-back made while a watchpoint was being armed, which is not reported (R380); `turn` numbers the agent's items in the order in which they were queued for replay (R281, R282). -/
structure Posted where
  cls : Nat
  ord : Nat
  what : PWhat
  status : Nat
  seq : Nat
  cause : Nat
  src : Nat × Dbl := (0, 0)
  quiet : Bool := false
  turn : Nat := 0
  deriving DecidableEq, Repr

/-- A replay notice a core holds for a page (R281): zone, page, class, original cause, line address and sequence number of the first queued entry. -/
structure Notice where
  zone : Nat
  page : Nat
  cls : Nat
  cause : Nat
  line : Nat
  seq : Nat
  deriving DecidableEq, Repr

/-- An L1D line (R193, R194): of a PRIV or RSH page its 64 bytes, a dirty bit per nibble, and the 32-byte granules that came with an uncorrectable error (R203). A line that the directory of its home tracks, of a COH or WT page, holds at every moment what the home holds: it stands by the place in memory that it was filled from, `home` (log 54). `excl` marks a COH line that the core holds exclusive (R193) and the granules that it has written while it did. -/
structure Line where
  ctx : Nat
  zone : Nat
  line : Nat
  data : List Byte
  dirty : BitVec 128
  bad : BitVec 2
  home : Option Loc := none
  excl : Option (BitVec 2) := none
  deriving DecidableEq, Repr

/-- Attributes of a page (R196, R329): permission bits, class 0 PRIV, 1 RSH, 2 COH, 3 WT, size code. -/
structure Attr where
  r : Bool
  w : Bool
  x : Bool
  e : Bool
  cls : Nat
  size : Nat
  deriving DecidableEq, Repr

/-- A translation held at a home (R187) with the address of its leaf and whether D was set under it (R333), or, without its frame, in a lookaside (R196), where `dset` says that W is not known yet: the page's home had not armed it (R339). -/
structure Tlb where
  ctx : Nat
  zone : Nat
  page : Nat
  frame : Nat
  attr : Attr
  leaf : Nat
  dset : Bool
  deriving DecidableEq, Repr

/-- An issued tensor operation of one matrix node (R161): MMA or MMAS with the elements and scales it has consumed, the STATUS and the codebook its block reads (R40), its block address and index; `stop` from an entry that has failed its check until a resume (R176). -/
structure TOp where
  op : Nat
  md : Nat
  pa : Nat
  pb : Nat
  k : Nat
  rows : Nat
  cols : Nat
  acc : Bool
  ta : Nat
  tb : Nat
  ea : List Nat
  eb : List Nat
  sa : List Half
  sb : List Half
  block : Dbl
  slot : Nat
  seq : Nat
  idx : Nat
  status : BitVec 5
  book : List Nat
  stop : Bool := false
  deriving DecidableEq, Repr

/-- A port entry (R98); `scl` holds the scales delivered with it (R257), `epoch` the key of the neighbour binding under which it entered an outbound port (R299), if there was one. -/
structure Entry where
  val : Dbl
  null : Bool
  nmode : Bool
  tag : BitVec 4
  scl : List Half
  epoch : Option Half
  deriving DecidableEq, Repr

/-- An MSTO snapshot on its way to a port (R181, R182); `behind` counts the waiting changes of its port that its block follows (R174). -/
structure MOut where
  node : Nat
  acc : Nat
  port : Nat
  ents : List Entry
  live : Bool
  behind : Nat
  deriving DecidableEq, Repr

/-- A logical core's or an engine hart's run state (R376): idle, running, frozen, ending. -/
inductive Run where
  | idle
  | running
  | frozen
  | ending
  deriving DecidableEq, Repr

/-- A trace selector (R382). -/
structure Trc where
  en : Bool
  addr : Dbl
  prod : Nat
  rs : Bool
  t1 : Bool
  deriving DecidableEq, Repr

/-- A trace record (R383): type, selector, place, slot, null, SEQ, value. -/
structure TraceRec where
  typ : Nat
  sel : Nat
  place : Nat
  slot : Nat
  null : Bool
  seq : Nat
  val : Dbl
  deriving DecidableEq, Repr

/-- A frame (R263). -/
structure Frame where
  entry : Dbl
  args : List Dbl
  parent : Dbl
  status : BitVec 5
  resume : Bool
  deriving DecidableEq, Repr

/-- A logical core (numbered by the PLACE of its anchor) or an engine hart (1024 + PLACE of its MT): R94, R161, R303, R352, R376. `rhid` holds what a Slate core wrote at return-stack positions beyond RES; `kicked` marks an engine hart that stands frozen at its binder wait (R305), `emulHeld` a core frozen with a load that EMUL has held for emulation (R376, R379); `came` is the slot, the address and the sequence number of the block that has committed last (R373). -/
structure Hart where
  g : SMap Dbl
  z : SMap Byte
  vec : Vec
  m : SMap Word
  mtag : SMap (BitVec 4)
  mscale : SMap Word
  rstk : List Dbl
  rhid : SMap Dbl
  spilled : Word
  status : BitVec 5
  stklim : Dbl
  taskid : Word
  ctxid : BitVec 12
  place : BitVec 10
  cwidth : BitVec 4
  srstate : Word
  mrows : BitVec 6
  mcols : BitVec 9
  narrow : Bool
  slow : BitVec 4
  busy : Byte
  next : Dbl
  seg : Dbl
  parent : Dbl
  graph : Nat
  whint : Nat
  seq : Nat
  run : Run
  thalt : Bool
  emul : Bool
  emulHeld : Bool
  marked : Bool
  last : Nat
  cause : Nat
  toksel : Nat
  inj0 : Dbl
  inj1 : Dbl
  stepping : Bool
  halting : Bool
  pending : List FaultRec
  packet : Option Packet
  blocks : List Block
  posted : List Posted
  notices : List Notice
  l1d : List Line
  look : List Tlb
  bcache : List (Nat × Nat × List Word)
  nodes : List TOp
  mout : List MOut
  zeroes : Byte
  ckpt : Option (SMap Word × SMap (BitVec 4) × Byte)
  pcnt : SMap Dbl
  pcfg : SMap (BitVec 9)
  trc : SMap (Option Trc)
  victim : Nat
  lap : Nat
  lapWait : Bool
  theftFirst : Bool
  start : Option Frame
  kicked : Bool
  susp : Option (Dbl × Bool)
  leaving : Bool
  reserve : Option Nat
  violated : List (Dbl × Nat × Nat)
  trace : List TraceRec
  traceLost : Nat
  came : Nat × Dbl × Nat := (0, 0, 0)
  deriving DecidableEq, Repr

/-- A port queue of an MT (R98, R277, R279, R299): entries from the head, the control word's fields, whether both ends of a neighbour binding agree, the committed pops whose credit has not returned yet, what a Slate core has written at positions beyond COUNT (R479), the entries on the link towards an inbound port (R277, R278), and the credits of that link's channel that are owed for entries that have left its buffer (R395). -/
structure Port where
  q : List Entry
  bind : BitVec 2
  age : BitVec 3
  dx : Byte
  dy : Byte
  pport : BitVec 4
  credit : BitVec 5
  key : Half
  agreed : Bool
  owed : Nat
  ghost : SMap (Option Entry)
  link : List Entry
  linkOwed : Nat
  deriving DecidableEq, Repr

/-- An element that a writer AGE has posted (R257): zone, address and masked bytes, where the AGE stood before it (R258), and how many of its recent entries the AGE had popped by then. -/
structure AgeStore where
  zone : Nat
  va : Dbl
  data : List (Byte × Byte)
  idx : List Nat
  pass : Word
  run : Word
  done : Word
  part : List Nat
  nth : Nat := 0
  deriving DecidableEq, Repr

/-- An AGE (R280, R356): the record as fetched, indices i0-i4, pass and run counts, scale position, port, state (0 idle, 1 active, 2 faulted, 3 stopped), the partial entry, DONE; `fetch` is the record address while it is still to be fetched (R255); `out` lists the elements that a writer has posted and that are still to be performed, and `recent` the entries that it has popped since there was none last; `backlog` holds the elements of entries popped after one at which the AGE has stopped, to be written again when it resumes (R257, R258, log 34). -/
structure Age where
  record : List Byte
  idx : List Nat
  pass : Word
  run : Word
  spos : Word
  port : BitVec 4
  state : Nat
  part : List Nat
  done : Word
  scl : List Half
  fetch : Option (Nat × Dbl)
  nmode : Bool
  ctx : Nat
  out : List AgeStore := []
  recent : List (List Nat) := []
  backlog : List (List Nat) := []
  deriving DecidableEq, Repr

/-- The deque control block and ring (R262, R263). `dry`: the faulted spill waits for a segment of the pool (R370). `spare` keys SPARE0-3 by number. `stolen`: the index of the frame that the thief copies (R268). `stopped`: the engine has met a fault and waits for a Slate core; `back`: the segments whose return to the pool that fault holds (R264); `decs`: the decrements of parents that its retirements have still to make (R274), by segment, context and whether the engine hart's; `redo`: retirements, or (true) pushes of resume frames, to be tried again. -/
structure Deque where
  tidx : Word
  bidx : Word
  transit : Bool
  ovfhead : Dbl
  ovftail : Dbl
  ovfcnt : Word
  idle : Bool
  black : Bool
  token : Bool
  tblack : Bool
  spillf : Bool
  dry : Bool
  spare : SMap Dbl
  stopped : Bool
  back : List Dbl
  ring : SMap (List Dbl)
  stolen : Word
  thief : Option Nat
  copy : Option (List Dbl)
  reply : Option Bool
  decs : List (Dbl × Nat × Bool) := []
  redo : List (Bool × Dbl × Nat × Bool) := []
  deriving DecidableEq, Repr

/-- A memory tile (R187, R260, R303); `areas` holds what the save area of a running AGE shows: the state it last saved there (R280); `waiting` holds the port changes of committed blocks that a tensor operation delays, each with its hart and the NMODE its block read, in commit order (R174, R304); `errs` lists the 32-byte granules of the scratchpad that have an uncorrectable error (R203). -/
structure Mt where
  scratch : SMap Byte
  errs : List Nat
  nonres : SMap Bool
  deque : Deque
  ports : SMap (Option Port)
  ages : SMap (Option Age)
  areas : SMap (Option Age)
  ekick : Dbl
  eentry : Dbl
  ectx : BitVec 12
  syswin : BitVec 3
  waiting : List (Nat × Eff × Bool)
  kick : Option Nat := none
  deriving DecidableEq, Repr

/-- A launch held by the placement unit (R309, R315); `via` is the context whose tables resolve its record; source 0 command port, 1 launch page, 2 LAUNCH, 3 launch table, with its number. -/
structure Held where
  record : Dbl
  ctx : Nat
  entry : Dbl
  arg : Dbl
  binder : Dbl
  prio : Nat
  cap : Nat
  whint : Nat
  domsz : Nat
  noage : Bool
  stamp : Dbl
  level : Nat
  since : Dbl
  order : Nat
  via : Nat
  src : Nat
  srcN : Nat
  deriving DecidableEq, Repr

/-- A placed graph (R15, R276, R318): its number, the number that the segments of its tasks hold (R265), which is that of the graph it was copied or migrated from; its launch, rectangle, cut into cores (anchor offset rows, columns, width), absorbed cores, running priority, state 0 resident, 1 pre-empted and queued for restore, 2 taken by a command, 5 draining; the address of its image once it has been saved (0 before); rounds of R276; whether its root task has been retired and whether MINRES has passed (R320); the references into code objects that its saved state held and those that no longer resolve, by address and object (R403); the segments of its Suspended tasks (R265, R349). -/
structure Graph where
  id : Nat
  num : Nat
  launch : Held
  clu : Nat
  row : Nat
  col : Nat
  rows : Nat
  cols : Nat
  cut : List (Nat × Nat × Nat)
  absorbed : List (Nat × Nat)
  prio : Nat
  placed : Dbl
  state : Nat
  image : Dbl
  round : Nat
  active : Bool
  retired : Bool
  eligible : Bool
  refs : List (Dbl × Dbl)
  gone : List (Dbl × Dbl)
  waits : List Dbl
  deriving DecidableEq, Repr

/-- One tile pair of a saved context (R384): its core where the tile is an anchor, its engine hart, its memory tile, its graph. -/
structure Saved where
  hart : Option Hart
  eng : Option Hart
  mt : Mt
  graph : Nat
  deriving DecidableEq, Repr

/-- A message for a context that is not live (R388): kind 0 a resume frame, with the suspended task's segment; 1 the acknowledgement of a posted item, 2 a replay notice, 3 the reply to a load or an atomic, with the address; the effect of these on the saved core stands at once (log 6). `banked`: it stands in the logs of the image, and the shadow bank that holds a copy has it already. -/
structure Msg where
  seg : Dbl
  kind : Nat := 0
  banked : Bool := false
  deriving DecidableEq, Repr

/-- A Sepia image, or an Ivory record once drained (R393, R399), by field (log 6); `taken`: a copy loaded from it stands, or has stood, and what its harts had posted stands with that copy (R236). -/
structure Image where
  addr : Dbl
  ivory : Bool
  taken : Bool
  ctx : Nat
  tilerev : Half
  dmapver : Word
  scanver : Half
  rows : Nat
  cols : Nat
  cut : List (Nat × Nat × Nat)
  absorbed : List (Nat × Nat)
  graph : Graph
  tiles : List Saved
  book : List Byte
  refs : List (Dbl × Dbl)
  log : List Msg
  deriving DecidableEq, Repr

/-- A drain in progress (R396, R397): the image it started from, its destination, its limit, its graph and the state that the graph had before: 1 or 2 (R321, R404), or none where it stands for this drain alone. -/
structure Drain where
  image : Dbl
  dest : Dbl
  limit : Nat
  graph : Nat
  was : Option Nat
  deriving DecidableEq, Repr

/-- A wl instruction that an application core waits in (R406-R408): funct3, rd, rs1, rs2, the records it names, its deadline, and whether its command stands in the port. -/
structure WlWait where
  kind : Nat
  rd : BitVec 5
  rs1 : BitVec 5
  rs2 : BitVec 5
  recs : List Dbl
  deadline : Dbl
  queued : Bool
  deriving DecidableEq, Repr

/-- A command in an application core's port (R284, R407, R408): 0 launch, 4 cancel, 6 priority; rd, record, priority. -/
structure Cmd where
  op : Nat
  rd : BitVec 5
  record : Dbl
  prio : Nat
  deriving DecidableEq, Repr

/-- What the words of the RISC-V architecture itself act on in an application core (R405, log 9): whether it runs in U-mode, x1-x31, the pc, f0-f31, the bytes of the vector registers from v0's first, the CSRs by number but for wlctx. -/
structure RiscV where
  user : Bool
  x : SMap Dbl
  pc : Dbl
  f : SMap Dbl
  v : SMap Byte
  csr : SMap Dbl
  deriving DecidableEq, Repr

/-- A Slate core (R421, log 9): x1-x31, the pc and the CSRs by number of an RV64IMAC core that runs in M-mode alone. -/
structure Slate where
  x : SMap Dbl
  pc : Dbl
  csr : SMap Dbl
  deriving DecidableEq, Repr

/-- An application core (R405-R408): registers x1-x31, whether it runs in U-mode, pc, f0-f31, vector registers and CSRs as in `RiscV`, wlctx, command port, outstanding launches, the latest refusal, the latest exception (cause, mtval). -/
structure App where
  x : SMap Dbl
  user : Bool
  pc : Dbl
  f : SMap Dbl
  v : SMap Byte
  csr : SMap Dbl
  wlctx : BitVec 14
  queue : List Cmd
  out : List Dbl
  unread : List Dbl
  lasterr : Dbl
  wait : Option WlWait
  exc : Option (Nat × Dbl)
  deriving DecidableEq, Repr

/-- A post or command at the placement unit's intake (R311, R408): operation 0 launch, 4 cancel, 6 priority; record, source, source number, bound context (none: any), the context whose tables resolve the record, the new priority. -/
structure Post where
  op : Nat
  record : Dbl
  src : Nat
  srcN : Nat
  ctx : Option Nat
  via : Nat
  prio : Nat
  deriving DecidableEq, Repr

/-- A launch page (R412). -/
structure Page where
  ctx : BitVec 12
  en : Bool
  irq : Bool
  lasterr : Dbl
  cmdaddr : Dbl
  result : BitVec 3
  deriving DecidableEq, Repr

/-- A launch-table entry (R344) with the next slot number to handle (R312). -/
structure LTab where
  start : Dbl
  period : Dbl
  record : Dbl
  en : Bool
  rfail : Bool
  ctx : BitVec 12
  missed : Word
  slot : Nat
  held : Bool
  deriving DecidableEq, Repr

/-- A watchpoint descriptor (R380). -/
structure Watch where
  base : Dbl
  len : Word
  zone : Byte
  en : Bool
  vmatch : Bool
  armed : Bool
  once : Bool
  value : Dbl
  vmask : Dbl
  deriving DecidableEq, Repr

/-- A loaded code object as the loader knows it (R346-R350): context, id, text base, length, text frames, pages, symbols (name, binding, address), state, registry entry. -/
structure Obj where
  ctx : Nat
  id : Dbl
  base : Dbl
  len : Nat
  frames : List Nat
  pages : List Nat
  syms : List (List Byte × Nat × Dbl)
  state : Nat
  slot : Nat
  deriving DecidableEq, Repr

/-- A network work ring (R420): active configuration, HEAD, whether HEAD is still to be read from the header, stopped at a fault, the entry being performed and the bytes of its RMA read that have arrived (R419). -/
structure Ring where
  rhdr : Dbl
  rcfg : Dbl
  addr : Dbl
  ctx : Nat
  log2n : Nat
  en : Bool
  head : Dbl
  headless : Bool
  stopped : Bool
  entry : Option (List Byte)
  got : Nat
  deriving DecidableEq, Repr

/-- What a network port has sent for a work entry (R419): operation, service, port, ring, peer, remote address or tag, remote key, length and data (none for an RMA read). -/
structure NetMsg where
  op : Nat
  service : Nat
  port : Nat
  ring : Nat
  peer : Nat
  remote : Nat
  key : Nat
  len : Nat
  data : List Byte
  deriving DecidableEq, Repr

/-- An entry of FINAL (R430): record address, source kind, priority, index. -/
structure FinalEntry where
  record : Dbl
  kind : Nat
  prio : Nat
  index : Nat
  deriving DecidableEq, Repr

/-- A FINAL received: its sequence number, its count of records, its entries (R430). -/
structure FinalMsg where
  seq : Nat
  records : Nat
  entries : List FinalEntry
  deriving DecidableEq, Repr

/-- A record that a target receives (R430): its index, the address of its first frame in the save pool, the offset and length of each part that has come. -/
structure MgRec where
  index : Nat
  addr : Nat
  got : List (Nat × Nat)
  deriving DecidableEq, Repr

/-- A migration session (R422-R431): role, descriptor address, its fields, STATE, ROUND, SEQ; the bitmap double that the round has come to and the pages it has sent; the graph being drained and the launch pages closed for the final stop; sequence numbers accepted; per page the round applied plus 1, per round the pages received, the ROUNDENDs, the records, FINAL with its sequence number; whether GO has been sent or taken; a page whose write faulted (page, round, data); whether its link has failed. The counters of the descriptor stand in its own bytes. -/
structure Mig where
  used : Bool
  source : Bool
  desc : Nat
  ctx : Nat
  dsess : Nat
  maxrounds : Nat
  stoppages : Nat
  deadline : Dbl
  drainlim : Nat
  key : Nat
  sid : Nat
  peer : Nat
  port : Nat
  state : Nat
  round : Nat
  seq : Nat
  pos : Nat
  count : Nat
  draining : Option Nat
  pagesOff : List Nat
  seen : List Nat
  vers : SMap Nat
  got : SMap Nat
  counts : List (Nat × Nat)
  recs : List MgRec
  final : Option FinalMsg
  gone : Bool
  stopped : Option (Nat × Nat × List Byte)
  failed : Bool
  deriving DecidableEq, Repr

/-- A translation of zone 0xF0 held from the host's ATS: its frame in host memory and its size code (R337, R414). -/
structure Ats where
  ctx : Nat
  page : Nat
  frame : Nat
  rd : Bool
  wr : Bool
  size : Nat
  deriving DecidableEq, Repr

/-- A placement move under way (R204, R332): context, page, target stack, the address of its first leaf, the leaves' values as step 1 read them, the physical address of the new frame. -/
structure Move where
  ctx : Nat
  page : Nat
  stack : Nat
  first : Nat
  vals : List Nat
  dst : Nat
  deriving DecidableEq, Repr

/-- A Page Request to the host (R414): context, page and the permission that the access asks, in age order; or one that the host has refused. -/
structure Pri where
  ctx : Nat
  page : Nat
  rd : Bool
  wr : Bool
  deriving DecidableEq, Repr

/-- An invalidation under way (R336, R411): who asked (a hart number, or 2048 for the table-invalidation register), context, zone, size code, address. -/
structure Inval where
  req : Nat
  ctx : Nat
  zone : Nat
  size : Nat
  va : Dbl
  deriving DecidableEq, Repr

/-- A voltage and frequency island (R433). -/
structure Island where
  point : BitVec 2
  capped : Bool
  actual : BitVec 2
  deriving DecidableEq, Repr

/-- The instruction that is firing: the hart, the block's slot tag, the index (R21, R67). -/
structure Focus where
  hart : Nat
  tag : Nat
  idx : Nat
  deriving DecidableEq, Repr

/-- What moves next: an instruction of a block fires; an application core executes a word it has fetched; a step or input of the device; RISC-V instructions, interrupts and trap entries of an application core, whose meaning is in the RISC-V manuals, leave it with these registers (R405, log 9), and so does the firmware of the Slate core of a row (R421); the host or a peer stores into its own memory (log 32); a home lowers its count of accesses to a frame (R187, log 60). -/
inductive Choice where
  | fire (hart tag idx : Nat)
  | app (core : Nat) (word : Word)
  | event (i : Instr)
  | riscV (core : Nat) (r : RiscV)
  | slate (row : Nat) (r : Slate)
  | hostStore (pa : Nat) (bytes : List Byte)
  | peerStore (node pa : Nat) (bytes : List Byte)
  | decay (bank frame n : Nat)
  deriving DecidableEq, Repr

/-- A 64-byte entry of the persistent log (R437): TIMEBASE, the type, 48 bytes of detail. -/
structure LogEntry where
  time : Dbl
  typ : Nat
  detail : List Byte
  deriving DecidableEq, Repr

/-- A wait that a home keeps (R219): its number, the word's place, and the 64 bytes there as they stood when a write to the word made the condition true. `cond` is the condition: 0 the binder's own (R217), 1 a kick word that is not zero (R305), 2 a join word with JCOUNT 0 (R362). The tile of an idle engine hart names its kick wait (`Mt.kick`). -/
structure BinderWait where
  num : Nat
  loc : Loc
  got : Option (List Byte)
  cond : Nat := 0
  deriving DecidableEq, Repr

/-- Everything of the device but the bytes of its memories. `rplrun` lists, for each bank, the selections whose replays run (R282, R383). `focus`, `turn` (the group of own steps to be offered first) and `fresh` (free values used so far) are the model's own. -/
structure Dev where
  harts : SMap (Option Hart)
  mts : SMap (Option Mt)
  focus : Focus
  turn : Nat
  fresh : Nat
  cycle : Dbl
  -- time (R360, R366)
  timebase : Dbl
  sync : BitVec 2
  steps : Half
  stepAt : Dbl
  -- identity (R104, R343)
  dmapver : Word
  dmap : List Dbl
  tilerev : Half
  scanver : Half
  -- homes (R187, R281, R327, R333, R339, R414) and the codebooks that the XTs hold (R59, R341)
  tlb : List Tlb
  ctxc : List (Nat × List Byte)
  ats : List Ats
  atsAsked : List (Nat × Nat)
  atsSent : Nat
  priSent : Nat
  invalSent : Nat
  atsInval : List (Nat × Dbl × Nat)
  pri : List Pri
  priFail : List Pri
  armed : List (Nat × Nat)
  books : List (Nat × List Nat)
  hwm : SMap Nat
  rplsel : SMap Dbl
  rplrun : SMap (List Dbl)
  acnt : SMap Nat
  uncorr : List Nat
  corrected : Nat
  xmap : List (Nat × Nat)
  inval : List Inval
  moving : Option Move
  cxlCache : Bool
  bisnp : List Nat
  binders : List BinderWait
  node : Nat
  resumes : List (Dbl × Nat)
  -- Slate cores (R283)
  slateq : SMap (List Packet)
  slates : SMap (Option Slate)
  sram : SMap Byte
  senders : List (Nat × Packet)
  -- placement unit (R310-R325)
  intake : List Post
  held : List Held
  nextOrder : Nat
  graphs : List Graph
  nextGraph : Nat
  reserved : List (Nat × Nat)
  plctl : Dbl
  ltab : SMap (Option LTab)
  pages : SMap (Option Page)
  msix : List Nat
  watch : SMap (Option Watch)
  regs : SMap Dbl
  -- pre-emption (R384-R404)
  shadow : SMap (Option Saved)
  shadowOut : List (Nat × Nat × Dbl)
  swaps : List Nat
  images : List Image
  kept : List (Nat × Dbl × List (Dbl × Dbl))
  saves : List (Nat × List Nat)
  drain : Option Drain
  msgs : List (Nat × Msg)
  heldMsgs : List (Nat × Msg × Option Nat)
  pestat : BitVec 9
  pecmd : Dbl
  pearg : Dbl
  -- Indigo, loader (R342, R347)
  keys : List Nat
  objs : List Obj
  loadStatus : Nat
  -- what the read of an outside agent found last (R5, R202, R410)
  answer : List Byte
  -- application cores
  apps : SMap (Option App)
  -- network and migration
  rings : SMap (Option Ring)
  posts : List NetMsg
  wire : List NetMsg
  migs : SMap (Option Mig)
  keyHandles : List (Nat × Nat)
  rodNext : SMap Nat
  mgstat : BitVec 9
  mgarg : Dbl
  stopctx : List Nat
  -- platform (R433-R440)
  islands : SMap (Option Island)
  valarm : Dbl
  alarms : Nat
  lowSamples : Nat
  overSamples : Nat
  cappedRows : List Nat
  ready : BitVec 24
  log : List LogEntry
  firmware : Option Nat
  writing : Option Nat
  running : Nat
  staged : Bool
  dump : Bool
  halted : Bool
  trcPos : Nat
  deriving DecidableEq, Repr

/-- The machine: device memory (physical), host memory (by host physical address), peer memory (key node * 2^52 + physical address), the device, and the list of choices that move next. -/
structure State where
  mem : SMap Byte
  host : SMap Byte
  peer : SMap Byte
  dev : Dev
  agenda : List Choice
  deriving DecidableEq, Repr

/-- Reasons the machine stops: none. The spec gives every instruction and event an effect, and its faults (R369) are freezes of the agents that meet them. -/
inductive Fault where
  deriving DecidableEq, Repr

/-- Reasons a step has no meaning. -/
inductive Refusal where
  /-- Raised by an arm of exec that has no meaning yet. Safe: a stop. -/
  | notModelled (mnemonic : String)
  deriving DecidableEq, Repr

/-! Reset values -/

def Vec.reset : Vec := { v := [], tag := [], vl := 0, vtype := 0 }

/-- R95, R105, R161, R376; registers without a stated value: log 2. -/
def Hart.reset : Hart :=
  { g := [], z := [], vec := Vec.reset, m := [], mtag := [], mscale := [], rstk := [], rhid := [], spilled := 0,
    status := 0, stklim := 0, taskid := 0, ctxid := 0, place := 0, cwidth := 0, srstate := 0x9E3779B9,
    mrows := 0, mcols := 0, narrow := false, slow := 0, busy := 0, next := 0, seg := 0, parent := 0, graph := 0,
    whint := 0, seq := 0, run := .idle, thalt := false, emul := false, emulHeld := false, marked := false, last := 0,
    cause := 0, toksel := 0, inj0 := 0, inj1 := 0, stepping := false, halting := false, pending := [], packet := none,
    blocks := [], posted := [], notices := [], l1d := [], look := [], bcache := [],
    nodes := [], mout := [], zeroes := 0, ckpt := none, pcnt := [], pcfg := [], trc := [],
    victim := 0, lap := 0, lapWait := false, theftFirst := false, start := none, kicked := false, susp := none, leaving := false,
    reserve := none, violated := [], trace := [], traceLost := 0 }

/-- R279 (reset column). -/
def Port.reset : Port :=
  { q := [], bind := 0, age := 0, dx := 0, dy := 0, pport := 0, credit := 0, key := 0,
    agreed := false, owed := 0, ghost := [], link := [], linkOwed := 0 }

def Age.reset : Age :=
  { record := [], idx := [0, 0, 0, 0, 0], pass := 0, run := 0, spos := 0, port := 0, state := 0,
    part := [], done := 0, scl := [], fetch := none, nmode := false, ctx := 0 }

/-- R262 (reset column). -/
def Deque.reset : Deque :=
  { tidx := 0, bidx := 0, transit := false, ovfhead := 0, ovftail := 0, ovfcnt := 0, idle := true,
    black := false, token := false, tblack := false, spillf := false, dry := false, spare := [], stopped := false,
    back := [], ring := [], stolen := 0, thief := none, copy := none, reply := none }

def Mt.reset : Mt :=
  { scratch := [], errs := [], nonres := [], deque := Deque.reset, ports := [], ages := [], areas := [],
    ekick := 0, eentry := 0, ectx := 0, syswin := 0, waiting := [] }

def App.reset : App :=
  { x := [], user := false, pc := 0, f := [], v := [], csr := [], wlctx := 0, queue := [], out := [], unread := [], lasterr := 0, wait := none, exc := none }

def Slate.reset : Slate := { x := [], pc := 0, csr := [] }

def Page.reset : Page := { ctx := 0, en := false, irq := false, lasterr := 0, cmdaddr := 0, result := 0 }

def LTab.reset : LTab :=
  { start := 0, period := 0, record := 0, en := false, rfail := false, ctx := 0, missed := 0, slot := 0,
    held := false }

def Watch.reset : Watch :=
  { base := 0, len := 0, zone := 0, en := false, vmatch := false, armed := false, once := false,
    value := 0, vmask := 0 }

def Ring.reset : Ring :=
  { rhdr := 0, rcfg := 0, addr := 0, ctx := 0, log2n := 4, en := false, head := 0, headless := false, stopped := false,
    entry := none, got := 0 }

def Mig.reset : Mig :=
  { used := false, source := false, desc := 0, ctx := 0, dsess := 0, maxrounds := 0, stoppages := 0,
    deadline := 0, drainlim := 0, key := 0, sid := 0, peer := 0, port := 0, state := 0, round := 0, seq := 0, pos := 0, count := 0, draining := none, pagesOff := [],
    seen := [], vers := [], got := [], counts := [], recs := [], final := none, gone := false, stopped := none,
    failed := false }

/-- R433; every island stays at point 2 until SENSORS is set (R436), so that ACTUAL reads 2 from reset (log 36). -/
def Island.reset : Island := { point := 0, capped := false, actual := 2 }

/-- PLCTL at reset (R314): AGEP 2,000, BFWAIT 1,000, MINRES 100, PREEN 1. -/
def plctlReset : Dbl := BitVec.ofNat 64 (2000 + 1000 * 2 ^ 16 + 100 * 2 ^ 32 + 2 ^ 48)

/-- VALARM at reset (R434): SETW 2,150, CLRW 2,000. -/
def valarmReset : Dbl := BitVec.ofNat 64 (2150 + 2000 * 2 ^ 16)

def Dev.reset : Dev :=
  { harts := [], mts := [], focus := ⟨0, 0, 0⟩, turn := 0, fresh := 0, cycle := 0, timebase := 0, sync := 0, steps := 0,
    stepAt := 0, dmapver := 0, dmap := [], tilerev := 1, scanver := 1, tlb := [], ctxc := [], ats := [], pri := [],
    atsAsked := [], atsSent := 0, priSent := 0, invalSent := 0, atsInval := [], priFail := [], armed := [], books := [], hwm := [], rplsel := [], rplrun := [], acnt := [],
    uncorr := [], corrected := 0, xmap := [], inval := [], moving := none, cxlCache := false, bisnp := [], binders := [], node := 0,
    resumes := [], slateq := [], slates := [], sram := [], senders := [], intake := [], held := [], nextOrder := 0, graphs := [],
    nextGraph := 1, reserved := [], plctl := plctlReset, ltab := [], pages := [], msix := [],
    watch := [], regs := [], shadow := [], shadowOut := [], swaps := [], images := [], kept := [], saves := [], drain := none,
    msgs := [], heldMsgs := [], pestat := 0, pecmd := 0, pearg := 0, keys := [], objs := [],
    loadStatus := 0, answer := [], apps := [], rings := [], posts := [], wire := [], migs := [], keyHandles := [], rodNext := [], mgstat := 0, mgarg := 0, stopctx := [],
    islands := [], valarm := valarmReset, alarms := 0, lowSamples := 0, overSamples := 0,
    cappedRows := [], ready := 0, log := [], firmware := none, writing := none, running := 0, staged := false, dump := false, halted := false, trcPos := 0 }

/-- The machine right after device reset (R95): nothing listed in memory, no choice waiting. -/
def State.reset : State := { mem := [], host := [], peer := [], dev := Dev.reset, agenda := [] }

end Sys2Proof.Machine
end

