-- ==== Sys2Proof/Machine/Flags.lean ====
section
/-! DEFINITION. The STATUS fields and the conditions: rounding mode and NMODE as instructions read them (R40, R49, R105), integer and floating comparison (R130, R133), classification (R134), SRSTATE (R55). -/
namespace Sys2Proof.Machine

/-- STATUS.NMODE (R105). -/
def statusNmode (st : BitVec 5) : Bool := bitOf st.toNat 0

/-- STATUS.FTZ (R105). -/
def statusFtz (st : BitVec 5) : Bool := bitOf st.toNat 1

/-- STATUS.RM (R105). -/
def statusRm (st : BitVec 5) : Nat := bitsOf st.toNat 4 2

/-- The numeric environment of instruction `idx` on a core (R39, R40, R54). -/
def Hart.nenv (h : Hart) (idx : Nat) : NEnv :=
  { nmode := statusNmode h.status, ftz := statusFtz h.status, rm := statusRm h.status,
    s0 := h.srstate.toNat, k := idx }

/-- A rounding field that draws: stochastic, itself or through DYN (R49, R55). -/
def drawsSr (n : NEnv) (mode : Nat) : Bool := modeOf n mode == 5

/-- A value that SRSTATE may hold: zero is stored as 0x9E37_79B9 (R55, R105). -/
def srValue (x : Nat) : Word := if x % 2 ^ 32 = 0 then 0x9E3779B9 else BitVec.ofNat 32 x

/-- The ten conditions of TCMP and TCMPI on W-bit strings (R130). -/
def tcmpHolds (w c a b : Nat) : Bool :=
  let x := a % 2 ^ w
  let y := b % 2 ^ w
  match c with
  | 0 => x == y
  | 1 => x != y
  | 2 => decide (sval w x < sval w y)
  | 3 => decide (sval w x ≤ sval w y)
  | 4 => decide (sval w y < sval w x)
  | 5 => decide (sval w y ≤ sval w x)
  | 6 => decide (x < y)
  | 7 => decide (x ≤ y)
  | 8 => decide (y < x)
  | _ => decide (y ≤ x)

/-- The five conditions of FCMP on flushed operands (R133): EQ, LT, LE, UN, NE. -/
def fcmpHolds (c : Nat) (a b : Ex) : Bool :=
  let un := a.isNaN || b.isNaN
  match c with
  | 0 => !un && exCmp a b == .eq
  | 1 => !un && exCmp a b == .lt
  | 2 => !un && exCmp a b != .gt
  | 3 => un
  | _ => un || exCmp a b != .eq

/-- FCLASS (R134): exactly one bit of 8:0, from the encoding's own bits. -/
def fclassOf (t bits : Nat) : Nat :=
  let neg := decide (signBit t ≤ bits)
  match valueOf t false bits with
  | .nan => 2 ^ 8
  | .inf s => if s then 2 ^ 0 else 2 ^ 7
  | .fin _ man _ _ =>
    if man = 0 then (if neg then 2 ^ 3 else 2 ^ 4)
    else if isSubnormal t bits then (if neg then 2 ^ 2 else 2 ^ 5)
    else (if neg then 2 ^ 1 else 2 ^ 6)

/-- A 0 or 1 token (R75, R130). -/
def boolDbl (b : Bool) : Dbl := if b then 1 else 0

end Sys2Proof.Machine
end

