-- ==== Sys2Proof/Machine/Operands.lean ====
section
/-! DEFINITION. Operand forms: each instruction's operand set (R76, R79), targets (R73, R77), identifiers (R78), branch class (R79), the header's read and write slots (R68-R71), and the offsets of address operands (R232). -/
namespace Sys2Proof.Machine

/-- The operand set without the predicate (R76, the Operands column of R79): 0 none, 1 left, 2 left and right. -/
def operandCount (i : Instr) : Nat :=
  match i with
  | .call _ _ _ => 1
  | .bri _ => 1
  | .scall _ => 1
  | .trap _ => 1
  | .mov _ _ _ => 1
  | .null _ _ _ => 1
  | .plo _ _ _ => 1
  | .phi _ _ _ => 1
  | .app _ _ _ => 1
  | .wrsys _ _ _ => 1
  | .clz _ _ _ _ => 1
  | .ctz _ _ _ _ => 1
  | .popc _ _ _ _ => 1
  | .brev _ _ _ _ => 1
  | .bswp _ _ _ _ => 1
  | .neg _ _ _ _ => 1
  | .abs _ _ _ _ => 1
  | .not _ _ _ _ => 1
  | .sextb _ _ _ _ => 1
  | .sexth _ _ _ _ => 1
  | .sextw _ _ _ => 1
  | .zextb _ _ _ _ => 1
  | .zexth _ _ _ _ => 1
  | .zextw _ _ _ => 1
  | .addi _ _ _ _ => 1
  | .muli _ _ _ _ => 1
  | .andi _ _ _ _ => 1
  | .ori _ _ _ _ => 1
  | .xori _ _ _ _ => 1
  | .shli _ _ _ _ => 1
  | .shri _ _ _ _ => 1
  | .shrai _ _ _ _ => 1
  | .roti _ _ _ _ => 1
  | .tcmpi _ _ _ _ _ => 1
  | .fsqrt _ _ _ _ _ => 1
  | .fcvt _ _ _ _ _ => 1
  | .fabs _ _ _ _ => 1
  | .fneg _ _ _ _ => 1
  | .fclass _ _ _ _ => 1
  | .ldb _ _ _ _ _ _ => 1
  | .ldbs _ _ _ _ _ _ => 1
  | .ldh _ _ _ _ _ _ => 1
  | .ldhs _ _ _ _ _ _ => 1
  | .ldw _ _ _ _ _ _ => 1
  | .ldws _ _ _ _ _ _ => 1
  | .ldd _ _ _ _ _ _ => 1
  | .ldq _ _ _ _ _ _ => 1
  | .ldv _ _ _ _ _ _ => 1
  | .ldvStr _ _ _ _ _ _ => 1
  | .ldvIdx _ _ _ _ _ _ => 1
  | .stv _ _ _ _ _ _ => 1
  | .stvStr _ _ _ _ _ _ => 1
  | .stvIdx _ _ _ _ _ _ => 1
  | .acq _ _ _ _ _ _ => 1
  | .vsetl _ _ _ _ => 1
  | .vbcast _ _ _ => 1
  | .vextr _ _ _ _ => 1
  | .settag _ _ _ => 1
  | .mshape _ _ => 1
  | .mtscl _ _ => 1
  | .mma _ _ _ _ _ _ => 1
  | .mmas _ _ _ _ _ _ => 1
  | .spawn _ => 1
  | .join _ => 1
  | .yield _ => 1
  | .width _ => 1
  | .launch _ => 1
  | .pcfg _ _ => 1
  | .cbld _ _ => 1
  | .alinv _ _ _ => 1
  | .attr _ _ _ => 1
  | .dmapq _ _ _ => 1
  | .calli _ => 2
  | .pair _ _ _ => 2
  | .add _ _ _ _ => 2
  | .sub _ _ _ _ => 2
  | .mul _ _ _ _ => 2
  | .mulh _ _ _ _ => 2
  | .mulhn _ _ _ _ => 2
  | .mulhsn _ _ _ _ => 2
  | .div _ _ _ _ => 2
  | .divn _ _ _ _ => 2
  | .rem _ _ _ _ => 2
  | .remn _ _ _ _ => 2
  | .min _ _ _ _ => 2
  | .max _ _ _ _ => 2
  | .minn _ _ _ _ => 2
  | .maxn _ _ _ _ => 2
  | .and _ _ _ _ => 2
  | .or _ _ _ _ => 2
  | .xor _ _ _ _ => 2
  | .andn _ _ _ _ => 2
  | .orn _ _ _ _ => 2
  | .xnor _ _ _ _ => 2
  | .shl _ _ _ _ => 2
  | .shr _ _ _ _ => 2
  | .shra _ _ _ _ => 2
  | .rol _ _ _ _ => 2
  | .ror _ _ _ _ => 2
  | .bfx _ _ _ _ => 2
  | .bfxs _ _ _ _ => 2
  | .bfi _ _ _ _ => 2
  | .lea _ _ _ _ _ => 2
  | .tcmp _ _ _ _ _ => 2
  | .fadd _ _ _ _ _ => 2
  | .fsub _ _ _ _ _ => 2
  | .fmul _ _ _ _ _ => 2
  | .fma _ _ _ _ _ => 2
  | .fdiv _ _ _ _ _ => 2
  | .fmin _ _ _ _ => 2
  | .fmax _ _ _ _ => 2
  | .fminnum _ _ _ _ => 2
  | .fmaxnum _ _ _ _ => 2
  | .fcmp _ _ _ _ _ => 2
  | .fcopysign _ _ _ _ => 2
  | .stb _ _ _ _ _ => 2
  | .sth _ _ _ _ _ => 2
  | .stw _ _ _ _ _ => 2
  | .std _ _ _ _ _ => 2
  | .stq _ _ _ _ _ => 2
  | .stn4 _ _ _ _ _ _ => 2
  | .aadd _ _ _ _ _ _ _ => 2
  | .aand _ _ _ _ _ _ _ => 2
  | .aor _ _ _ _ _ _ _ => 2
  | .axor _ _ _ _ _ _ _ => 2
  | .amin _ _ _ _ _ _ _ => 2
  | .amax _ _ _ _ _ _ _ => 2
  | .aminn _ _ _ _ _ _ _ => 2
  | .amaxn _ _ _ _ _ _ _ => 2
  | .aswp _ _ _ _ _ _ _ => 2
  | .acas _ _ _ _ _ _ _ => 2
  | .afadd _ _ _ _ _ _ _ => 2
  | .rel _ _ _ _ _ => 2
  | .wbr _ _ => 2
  | .invr _ _ => 2
  | .pref _ _ => 2
  | .lncfg _ => 2
  | .spawna _ => 2
  | .chcfg _ _ => 2
  | .chcfgAge _ _ => 2
  | .jadd _ _ => 2
  | _ => 0

/-- The predication field (R75); a step of the device has none. -/
def predField (i : Instr) : BitVec 2 :=
  match i with
  | .br _ _ pr => pr
  | .call _ _ pr => pr
  | .bri pr => pr
  | .calli pr => pr
  | .ret pr => pr
  | .scall pr => pr
  | .brk pr => pr
  | .trap pr => pr
  | .mov _ _ pr => pr
  | .null _ _ pr => pr
  | .pair _ _ pr => pr
  | .plo _ _ pr => pr
  | .phi _ _ pr => pr
  | .const _ _ pr => pr
  | .app _ _ pr => pr
  | .rdsys _ _ pr => pr
  | .wrsys _ _ pr => pr
  | .add _ _ _ pr => pr
  | .sub _ _ _ pr => pr
  | .mul _ _ _ pr => pr
  | .mulh _ _ _ pr => pr
  | .mulhn _ _ _ pr => pr
  | .mulhsn _ _ _ pr => pr
  | .div _ _ _ pr => pr
  | .divn _ _ _ pr => pr
  | .rem _ _ _ pr => pr
  | .remn _ _ _ pr => pr
  | .min _ _ _ pr => pr
  | .max _ _ _ pr => pr
  | .minn _ _ _ pr => pr
  | .maxn _ _ _ pr => pr
  | .and _ _ _ pr => pr
  | .or _ _ _ pr => pr
  | .xor _ _ _ pr => pr
  | .andn _ _ _ pr => pr
  | .orn _ _ _ pr => pr
  | .xnor _ _ _ pr => pr
  | .shl _ _ _ pr => pr
  | .shr _ _ _ pr => pr
  | .shra _ _ _ pr => pr
  | .rol _ _ _ pr => pr
  | .ror _ _ _ pr => pr
  | .clz _ _ _ pr => pr
  | .ctz _ _ _ pr => pr
  | .popc _ _ _ pr => pr
  | .brev _ _ _ pr => pr
  | .bswp _ _ _ pr => pr
  | .neg _ _ _ pr => pr
  | .abs _ _ _ pr => pr
  | .not _ _ _ pr => pr
  | .sextb _ _ _ pr => pr
  | .sexth _ _ _ pr => pr
  | .sextw _ _ pr => pr
  | .zextb _ _ _ pr => pr
  | .zexth _ _ _ pr => pr
  | .zextw _ _ pr => pr
  | .bfx _ _ _ pr => pr
  | .bfxs _ _ _ pr => pr
  | .bfi _ _ _ pr => pr
  | .lea _ _ _ _ pr => pr
  | .addi _ _ _ pr => pr
  | .muli _ _ _ pr => pr
  | .andi _ _ _ pr => pr
  | .ori _ _ _ pr => pr
  | .xori _ _ _ pr => pr
  | .shli _ _ _ pr => pr
  | .shri _ _ _ pr => pr
  | .shrai _ _ _ pr => pr
  | .roti _ _ _ pr => pr
  | .tcmp _ _ _ _ pr => pr
  | .tcmpi _ _ _ _ pr => pr
  | .fadd _ _ _ _ pr => pr
  | .fsub _ _ _ _ pr => pr
  | .fmul _ _ _ _ pr => pr
  | .fma _ _ _ _ pr => pr
  | .fdiv _ _ _ _ pr => pr
  | .fsqrt _ _ _ _ pr => pr
  | .fmin _ _ _ pr => pr
  | .fmax _ _ _ pr => pr
  | .fminnum _ _ _ pr => pr
  | .fmaxnum _ _ _ pr => pr
  | .fcmp _ _ _ _ pr => pr
  | .fcvt _ _ _ _ pr => pr
  | .fabs _ _ _ pr => pr
  | .fneg _ _ _ pr => pr
  | .fclass _ _ _ pr => pr
  | .fcopysign _ _ _ pr => pr
  | .ldb _ _ _ _ _ pr => pr
  | .ldbs _ _ _ _ _ pr => pr
  | .ldh _ _ _ _ _ pr => pr
  | .ldhs _ _ _ _ _ pr => pr
  | .ldw _ _ _ _ _ pr => pr
  | .ldws _ _ _ _ _ pr => pr
  | .ldd _ _ _ _ _ pr => pr
  | .ldq _ _ _ _ _ pr => pr
  | .stb _ _ _ _ pr => pr
  | .sth _ _ _ _ pr => pr
  | .stw _ _ _ _ pr => pr
  | .std _ _ _ _ pr => pr
  | .stq _ _ _ _ pr => pr
  | .stn4 _ _ _ _ _ pr => pr
  | .ldv _ _ _ _ _ pr => pr
  | .ldvStr _ _ _ _ _ pr => pr
  | .ldvIdx _ _ _ _ _ pr => pr
  | .stv _ _ _ _ _ pr => pr
  | .stvStr _ _ _ _ _ pr => pr
  | .stvIdx _ _ _ _ _ pr => pr
  | .aadd _ _ _ _ _ _ pr => pr
  | .aand _ _ _ _ _ _ pr => pr
  | .aor _ _ _ _ _ _ pr => pr
  | .axor _ _ _ _ _ _ pr => pr
  | .amin _ _ _ _ _ _ pr => pr
  | .amax _ _ _ _ _ _ pr => pr
  | .aminn _ _ _ _ _ _ pr => pr
  | .amaxn _ _ _ _ _ _ pr => pr
  | .aswp _ _ _ _ _ _ pr => pr
  | .acas _ _ _ _ _ _ pr => pr
  | .afadd _ _ _ _ _ _ pr => pr
  | .fenceFull _ pr => pr
  | .fenceAcq _ pr => pr
  | .fenceRel _ pr => pr
  | .fenceSs _ pr => pr
  | .acq _ _ _ _ _ pr => pr
  | .rel _ _ _ _ pr => pr
  | .wbr _ pr => pr
  | .invr _ pr => pr
  | .pref _ pr => pr
  | .ibar pr => pr
  | .lncfg pr => pr
  | .vsetl _ _ _ pr => pr
  | .vgetl _ _ _ pr => pr
  | .vbcast _ _ pr => pr
  | .vidx _ _ pr => pr
  | .vextr _ _ _ pr => pr
  | .vadd _ _ _ _ pr => pr
  | .vsub _ _ _ _ pr => pr
  | .vrsub _ _ _ _ pr => pr
  | .vmul _ _ _ _ pr => pr
  | .vdiv _ _ _ _ pr => pr
  | .vmin _ _ _ _ pr => pr
  | .vmax _ _ _ _ pr => pr
  | .vabsd _ _ _ _ pr => pr
  | .vfma _ _ _ _ pr => pr
  | .vfms _ _ _ _ pr => pr
  | .vfnma _ _ _ _ pr => pr
  | .vfnms _ _ _ _ pr => pr
  | .vdoti8 _ _ _ _ pr => pr
  | .vdoti4 _ _ _ _ pr => pr
  | .vand _ _ _ _ pr => pr
  | .vor _ _ _ _ pr => pr
  | .vxor _ _ _ _ pr => pr
  | .vandn _ _ _ _ pr => pr
  | .vshl _ _ _ _ pr => pr
  | .vshr _ _ _ _ pr => pr
  | .vshra _ _ _ _ pr => pr
  | .vnot _ _ _ pr => pr
  | .vcmp _ _ _ _ _ pr => pr
  | .vmov _ _ _ pr => pr
  | .vsel _ _ _ _ pr => pr
  | .vcmpct _ _ _ _ pr => pr
  | .vpermx _ _ _ _ pr => pr
  | .vslideup _ _ _ _ pr => pr
  | .vslidedn _ _ _ _ pr => pr
  | .vzip _ _ _ _ pr => pr
  | .vunzip _ _ _ _ pr => pr
  | .rsum _ _ _ pr => pr
  | .rmax _ _ _ pr => pr
  | .rmin _ _ _ pr => pr
  | .rsumw _ _ _ pr => pr
  | .rcount _ _ _ pr => pr
  | .rfirst _ _ _ pr => pr
  | .vscanSum _ _ _ pr => pr
  | .vscanMax _ _ _ pr => pr
  | .vscanMin _ _ _ pr => pr
  | .vscanSegsum _ _ _ _ pr => pr
  | .exp2 _ _ _ pr => pr
  | .log2 _ _ _ pr => pr
  | .rcp _ _ _ pr => pr
  | .rsq _ _ _ pr => pr
  | .sqrt _ _ _ pr => pr
  | .tanh _ _ _ pr => pr
  | .sigm _ _ _ pr => pr
  | .erf _ _ _ pr => pr
  | .vcvt _ _ _ _ _ pr => pr
  | .vdeq _ _ _ _ pr => pr
  | .vscl _ _ _ _ pr => pr
  | .vqnt _ _ _ _ pr => pr
  | .vamax _ _ _ pr => pr
  | .pack _ _ _ _ pr => pr
  | .unpklo _ _ _ pr => pr
  | .unpkhi _ _ _ pr => pr
  | .gettag _ _ _ pr => pr
  | .settag _ _ pr => pr
  | .clrtag _ _ pr => pr
  | .mshape _ pr => pr
  | .mzero _ pr => pr
  | .mwait _ _ pr => pr
  | .mstat _ pr => pr
  | .mtscl _ pr => pr
  | .mma _ _ _ _ _ pr => pr
  | .mmas _ _ _ _ _ pr => pr
  | .mmav _ _ _ _ pr => pr
  | .mmavSub _ _ _ _ pr => pr
  | .mldv _ _ _ _ pr => pr
  | .mrdv _ _ _ _ pr => pr
  | .msto _ _ _ _ _ _ pr => pr
  | .maddm _ _ _ _ pr => pr
  | .mtrn _ _ _ pr => pr
  | .mcopy _ _ _ pr => pr
  | .spawn pr => pr
  | .spawna pr => pr
  | .join pr => pr
  | .taskend pr => pr
  | .yield pr => pr
  | .taskid _ _ pr => pr
  | .width pr => pr
  | .launch pr => pr
  | .domwait _ pr => pr
  | .chcfg _ pr => pr
  | .chcfgAge _ pr => pr
  | .chlen _ _ pr => pr
  | .chclr _ _ pr => pr
  | .waitc _ _ pr => pr
  | .waitcAge _ _ pr => pr
  | .waitcJoin _ pr => pr
  | .rdc _ _ pr => pr
  | .jadd _ pr => pr
  | .pcfg _ pr => pr
  | .time _ _ pr => pr
  | .cbld _ pr => pr
  | .alinv _ _ pr => pr
  | .attr _ _ pr => pr
  | .dmapq _ _ pr => pr
  | _ => 0

/-- The targets a result is sent to (R73, R77, R112). -/
def targetsOf (i : Instr) : List (BitVec 9) :=
  match i with
  | .mov t0 t1 _ => [t0, t1]
  | .null t0 t1 _ => [t0, t1]
  | .pair t0 t1 _ => [t0, t1]
  | .plo t0 t1 _ => [t0, t1]
  | .phi t0 t1 _ => [t0, t1]
  | .const _ t0 _ => [t0]
  | .app _ t0 _ => [t0]
  | .rdsys t0 _ _ => [t0]
  | .wrsys t0 _ _ => [t0]
  | .add _ t0 t1 _ => [t0, t1]
  | .sub _ t0 t1 _ => [t0, t1]
  | .mul _ t0 t1 _ => [t0, t1]
  | .mulh _ t0 t1 _ => [t0, t1]
  | .mulhn _ t0 t1 _ => [t0, t1]
  | .mulhsn _ t0 t1 _ => [t0, t1]
  | .div _ t0 t1 _ => [t0, t1]
  | .divn _ t0 t1 _ => [t0, t1]
  | .rem _ t0 t1 _ => [t0, t1]
  | .remn _ t0 t1 _ => [t0, t1]
  | .min _ t0 t1 _ => [t0, t1]
  | .max _ t0 t1 _ => [t0, t1]
  | .minn _ t0 t1 _ => [t0, t1]
  | .maxn _ t0 t1 _ => [t0, t1]
  | .and _ t0 t1 _ => [t0, t1]
  | .or _ t0 t1 _ => [t0, t1]
  | .xor _ t0 t1 _ => [t0, t1]
  | .andn _ t0 t1 _ => [t0, t1]
  | .orn _ t0 t1 _ => [t0, t1]
  | .xnor _ t0 t1 _ => [t0, t1]
  | .shl _ t0 t1 _ => [t0, t1]
  | .shr _ t0 t1 _ => [t0, t1]
  | .shra _ t0 t1 _ => [t0, t1]
  | .rol _ t0 t1 _ => [t0, t1]
  | .ror _ t0 t1 _ => [t0, t1]
  | .clz _ t0 t1 _ => [t0, t1]
  | .ctz _ t0 t1 _ => [t0, t1]
  | .popc _ t0 t1 _ => [t0, t1]
  | .brev _ t0 t1 _ => [t0, t1]
  | .bswp _ t0 t1 _ => [t0, t1]
  | .neg _ t0 t1 _ => [t0, t1]
  | .abs _ t0 t1 _ => [t0, t1]
  | .not _ t0 t1 _ => [t0, t1]
  | .sextb _ t0 t1 _ => [t0, t1]
  | .sexth _ t0 t1 _ => [t0, t1]
  | .sextw t0 t1 _ => [t0, t1]
  | .zextb _ t0 t1 _ => [t0, t1]
  | .zexth _ t0 t1 _ => [t0, t1]
  | .zextw t0 t1 _ => [t0, t1]
  | .bfx _ t0 t1 _ => [t0, t1]
  | .bfxs _ t0 t1 _ => [t0, t1]
  | .bfi _ t0 t1 _ => [t0, t1]
  | .lea _ _ t0 t1 _ => [t0, t1]
  | .addi _ t0 _ _ => [t0]
  | .muli _ t0 _ _ => [t0]
  | .andi _ t0 _ _ => [t0]
  | .ori _ t0 _ _ => [t0]
  | .xori _ t0 _ _ => [t0]
  | .shli _ t0 _ _ => [t0]
  | .shri _ t0 _ _ => [t0]
  | .shrai _ t0 _ _ => [t0]
  | .roti _ t0 _ _ => [t0]
  | .tcmp _ _ t0 t1 _ => [t0, t1]
  | .tcmpi _ _ t0 _ _ => [t0]
  | .fadd _ _ t0 t1 _ => [t0, t1]
  | .fsub _ _ t0 t1 _ => [t0, t1]
  | .fmul _ _ t0 t1 _ => [t0, t1]
  | .fma _ _ t0 t1 _ => [t0, t1]
  | .fdiv _ _ t0 t1 _ => [t0, t1]
  | .fsqrt _ _ t0 t1 _ => [t0, t1]
  | .fmin _ t0 t1 _ => [t0, t1]
  | .fmax _ t0 t1 _ => [t0, t1]
  | .fminnum _ t0 t1 _ => [t0, t1]
  | .fmaxnum _ t0 t1 _ => [t0, t1]
  | .fcmp _ _ t0 t1 _ => [t0, t1]
  | .fcvt _ t0 _ _ _ => [t0]
  | .fabs _ t0 t1 _ => [t0, t1]
  | .fneg _ t0 t1 _ => [t0, t1]
  | .fclass _ t0 t1 _ => [t0, t1]
  | .fcopysign _ t0 t1 _ => [t0, t1]
  | .ldb _ t0 _ _ _ _ => [t0]
  | .ldbs _ t0 _ _ _ _ => [t0]
  | .ldh _ t0 _ _ _ _ => [t0]
  | .ldhs _ t0 _ _ _ _ => [t0]
  | .ldw _ t0 _ _ _ _ => [t0]
  | .ldws _ t0 _ _ _ _ => [t0]
  | .ldd _ t0 _ _ _ _ => [t0]
  | .ldq _ t0 _ _ _ _ => [t0]
  | .aadd _ t0 _ _ _ _ _ => [t0]
  | .aand _ t0 _ _ _ _ _ => [t0]
  | .aor _ t0 _ _ _ _ _ => [t0]
  | .axor _ t0 _ _ _ _ _ => [t0]
  | .amin _ t0 _ _ _ _ _ => [t0]
  | .amax _ t0 _ _ _ _ _ => [t0]
  | .aminn _ t0 _ _ _ _ _ => [t0]
  | .amaxn _ t0 _ _ _ _ _ => [t0]
  | .aswp _ t0 _ _ _ _ _ => [t0]
  | .acas _ t0 _ _ _ _ _ => [t0]
  | .afadd _ t0 _ _ _ _ _ => [t0]
  | .acq _ t0 _ _ _ _ => [t0]
  | .vsetl _ t0 _ _ => [t0]
  | .vgetl _ t0 _ _ => [t0]
  | .vextr _ t0 _ _ => [t0]
  | .rsum _ t0 _ _ => [t0]
  | .rmax _ t0 _ _ => [t0]
  | .rmin _ t0 _ _ => [t0]
  | .rsumw _ t0 _ _ => [t0]
  | .rcount _ t0 _ _ => [t0]
  | .rfirst _ t0 _ _ => [t0]
  | .gettag _ t0 _ _ => [t0]
  | .mshape t0 _ => [t0]
  | .mwait t0 _ _ => [t0]
  | .mstat t0 _ => [t0]
  | .taskid t0 _ _ => [t0]
  | .domwait t0 _ => [t0]
  | .chlen t0 _ _ => [t0]
  | .waitc t0 _ _ => [t0]
  | .waitcAge t0 _ _ => [t0]
  | .waitcJoin t0 _ => [t0]
  | .rdc t0 _ _ => [t0]
  | .time t0 _ _ => [t0]
  | .attr t0 _ _ => [t0]
  | .dmapq t0 _ _ => [t0]
  | _ => []

/-- The LSID an instruction holds (R78). -/
def lsidOf (i : Instr) : Option Nat :=
  match i with
  | .ldb l _ _ _ _ _ => some l.toNat
  | .ldbs l _ _ _ _ _ => some l.toNat
  | .ldh l _ _ _ _ _ => some l.toNat
  | .ldhs l _ _ _ _ _ => some l.toNat
  | .ldw l _ _ _ _ _ => some l.toNat
  | .ldws l _ _ _ _ _ => some l.toNat
  | .ldd l _ _ _ _ _ => some l.toNat
  | .ldq l _ _ _ _ _ => some l.toNat
  | .stb l _ _ _ _ => some l.toNat
  | .sth l _ _ _ _ => some l.toNat
  | .stw l _ _ _ _ => some l.toNat
  | .std l _ _ _ _ => some l.toNat
  | .stq l _ _ _ _ => some l.toNat
  | .stn4 l _ _ _ _ _ => some l.toNat
  | .ldv l _ _ _ _ _ => some l.toNat
  | .ldvStr l _ _ _ _ _ => some l.toNat
  | .ldvIdx l _ _ _ _ _ => some l.toNat
  | .stv l _ _ _ _ _ => some l.toNat
  | .stvStr l _ _ _ _ _ => some l.toNat
  | .stvIdx l _ _ _ _ _ => some l.toNat
  | .aadd l _ _ _ _ _ _ => some l.toNat
  | .aand l _ _ _ _ _ _ => some l.toNat
  | .aor l _ _ _ _ _ _ => some l.toNat
  | .axor l _ _ _ _ _ _ => some l.toNat
  | .amin l _ _ _ _ _ _ => some l.toNat
  | .amax l _ _ _ _ _ _ => some l.toNat
  | .aminn l _ _ _ _ _ _ => some l.toNat
  | .amaxn l _ _ _ _ _ _ => some l.toNat
  | .aswp l _ _ _ _ _ _ => some l.toNat
  | .acas l _ _ _ _ _ _ => some l.toNat
  | .afadd l _ _ _ _ _ _ => some l.toNat
  | .acq l _ _ _ _ _ => some l.toNat
  | .rel l _ _ _ _ => some l.toNat
  | _ => none

/-- How much of its vector context an instruction reads (R139): VSETL nothing, a unit-stride or strided LDV its VL and VTYPE alone, every other one what it may name. -/
inductive VNeed where
  | nothing
  | length
  | whole
  deriving DecidableEq, Repr

/-- What the instruction reads of its vector context (R139, R143, R240). -/
def vecNeed (i : Instr) : VNeed :=
  match i with
  | .vsetl _ _ _ _ => .nothing
  | .ldv _ _ _ _ _ _ => .length
  | .ldvStr _ _ _ _ _ _ => .length
  | _ => .whole

/-- The VSID an instruction holds (R78). -/
def vsidOf (i : Instr) : Option Nat :=
  match i with
  | .ldv _ v _ _ _ _ => some v.toNat
  | .ldvStr _ v _ _ _ _ => some v.toNat
  | .ldvIdx _ v _ _ _ _ => some v.toNat
  | .stv _ v _ _ _ _ => some v.toNat
  | .stvStr _ v _ _ _ _ => some v.toNat
  | .stvIdx _ v _ _ _ _ => some v.toNat
  | .vsetl v _ _ _ => some v.toNat
  | .vgetl v _ _ _ => some v.toNat
  | .vbcast v _ _ => some v.toNat
  | .vidx v _ _ => some v.toNat
  | .vextr v _ _ _ => some v.toNat
  | .vadd v _ _ _ _ => some v.toNat
  | .vsub v _ _ _ _ => some v.toNat
  | .vrsub v _ _ _ _ => some v.toNat
  | .vmul v _ _ _ _ => some v.toNat
  | .vdiv v _ _ _ _ => some v.toNat
  | .vmin v _ _ _ _ => some v.toNat
  | .vmax v _ _ _ _ => some v.toNat
  | .vabsd v _ _ _ _ => some v.toNat
  | .vfma v _ _ _ _ => some v.toNat
  | .vfms v _ _ _ _ => some v.toNat
  | .vfnma v _ _ _ _ => some v.toNat
  | .vfnms v _ _ _ _ => some v.toNat
  | .vdoti8 v _ _ _ _ => some v.toNat
  | .vdoti4 v _ _ _ _ => some v.toNat
  | .vand v _ _ _ _ => some v.toNat
  | .vor v _ _ _ _ => some v.toNat
  | .vxor v _ _ _ _ => some v.toNat
  | .vandn v _ _ _ _ => some v.toNat
  | .vshl v _ _ _ _ => some v.toNat
  | .vshr v _ _ _ _ => some v.toNat
  | .vshra v _ _ _ _ => some v.toNat
  | .vnot v _ _ _ => some v.toNat
  | .vcmp v _ _ _ _ _ => some v.toNat
  | .vmov v _ _ _ => some v.toNat
  | .vsel v _ _ _ _ => some v.toNat
  | .vcmpct v _ _ _ _ => some v.toNat
  | .vpermx v _ _ _ _ => some v.toNat
  | .vslideup v _ _ _ _ => some v.toNat
  | .vslidedn v _ _ _ _ => some v.toNat
  | .vzip v _ _ _ _ => some v.toNat
  | .vunzip v _ _ _ _ => some v.toNat
  | .rsum v _ _ _ => some v.toNat
  | .rmax v _ _ _ => some v.toNat
  | .rmin v _ _ _ => some v.toNat
  | .rsumw v _ _ _ => some v.toNat
  | .rcount v _ _ _ => some v.toNat
  | .rfirst v _ _ _ => some v.toNat
  | .vscanSum v _ _ _ => some v.toNat
  | .vscanMax v _ _ _ => some v.toNat
  | .vscanMin v _ _ _ => some v.toNat
  | .vscanSegsum v _ _ _ _ => some v.toNat
  | .exp2 v _ _ _ => some v.toNat
  | .log2 v _ _ _ => some v.toNat
  | .rcp v _ _ _ => some v.toNat
  | .rsq v _ _ _ => some v.toNat
  | .sqrt v _ _ _ => some v.toNat
  | .tanh v _ _ _ => some v.toNat
  | .sigm v _ _ _ => some v.toNat
  | .erf v _ _ _ => some v.toNat
  | .vcvt v _ _ _ _ _ => some v.toNat
  | .vdeq v _ _ _ _ => some v.toNat
  | .vscl v _ _ _ _ => some v.toNat
  | .vqnt v _ _ _ _ => some v.toNat
  | .vamax v _ _ _ => some v.toNat
  | .pack v _ _ _ _ => some v.toNat
  | .unpklo v _ _ _ => some v.toNat
  | .unpkhi v _ _ _ => some v.toNat
  | .gettag v _ _ _ => some v.toNat
  | .settag v _ _ => some v.toNat
  | .clrtag v _ _ => some v.toNat
  | .mma v _ _ _ _ _ => some v.toNat
  | .mmas v _ _ _ _ _ => some v.toNat
  | .mmav v _ _ _ _ => some v.toNat
  | .mmavSub v _ _ _ _ => some v.toNat
  | .mldv v _ _ _ _ => some v.toNat
  | .mrdv v _ _ _ _ => some v.toNat
  | .msto v _ _ _ _ _ _ => some v.toNat
  | .maddm v _ _ _ _ => some v.toNat
  | .mtrn v _ _ _ => some v.toNat
  | .mcopy v _ _ _ => some v.toNat
  | _ => none

/-- The branch-class instructions (R79). -/
def isBranch (i : Instr) : Bool :=
  match i with
  | .br _ _ _ => true
  | .call _ _ _ => true
  | .bri _ => true
  | .calli _ => true
  | .ret _ => true
  | .scall _ => true
  | .join _ => true
  | .taskend _ => true
  | .yield _ => true
  | _ => false

/-- An LSID holder that orders the loads behind it within its block (R213, R219, R242): every holder but a plain load. -/
def ordersLoads (i : Instr) : Bool :=
  match i with
  | .stb _ _ _ _ _ => true
  | .sth _ _ _ _ _ => true
  | .stw _ _ _ _ _ => true
  | .std _ _ _ _ _ => true
  | .stq _ _ _ _ _ => true
  | .stn4 _ _ _ _ _ _ => true
  | .stv _ _ _ _ _ _ => true
  | .stvStr _ _ _ _ _ _ => true
  | .stvIdx _ _ _ _ _ _ => true
  | .aadd _ _ _ _ _ _ _ => true
  | .aand _ _ _ _ _ _ _ => true
  | .aor _ _ _ _ _ _ _ => true
  | .axor _ _ _ _ _ _ _ => true
  | .amin _ _ _ _ _ _ _ => true
  | .amax _ _ _ _ _ _ _ => true
  | .aminn _ _ _ _ _ _ _ => true
  | .amaxn _ _ _ _ _ _ _ => true
  | .aswp _ _ _ _ _ _ _ => true
  | .acas _ _ _ _ _ _ _ => true
  | .afadd _ _ _ _ _ _ _ => true
  | .acq _ _ _ _ _ _ => true
  | .rel _ _ _ _ _ => true
  | _ => false

/-- The matrix-node instructions whose VSID resolves at issue (R163); MWAIT waits for them (R169). -/
def isTensor (i : Instr) : Bool :=
  match i with
  | .mma _ _ _ _ _ _ => true
  | .mmas _ _ _ _ _ _ => true
  | .mmav _ _ _ _ _ => true
  | .mmavSub _ _ _ _ _ => true
  | .mldv _ _ _ _ _ => true
  | .mrdv _ _ _ _ _ => true
  | .msto _ _ _ _ _ _ _ => true
  | .maddm _ _ _ _ _ => true
  | .mtrn _ _ _ _ => true
  | .mcopy _ _ _ _ => true
  | _ => false

/-- Major opcodes that are not instructions in an engine-only block (R82): 0x4E, 0x4F, 0x60 to 0x76, 0x78 but for TASKEND. -/
def engineForbids (i : Instr) : Bool :=
  match i with
  | .ldv _ _ _ _ _ _ => true
  | .ldvStr _ _ _ _ _ _ => true
  | .ldvIdx _ _ _ _ _ _ => true
  | .stv _ _ _ _ _ _ => true
  | .stvStr _ _ _ _ _ _ => true
  | .stvIdx _ _ _ _ _ _ => true
  | .vsetl _ _ _ _ => true
  | .vgetl _ _ _ _ => true
  | .vbcast _ _ _ => true
  | .vidx _ _ _ => true
  | .vextr _ _ _ _ => true
  | .vadd _ _ _ _ _ => true
  | .vsub _ _ _ _ _ => true
  | .vrsub _ _ _ _ _ => true
  | .vmul _ _ _ _ _ => true
  | .vdiv _ _ _ _ _ => true
  | .vmin _ _ _ _ _ => true
  | .vmax _ _ _ _ _ => true
  | .vabsd _ _ _ _ _ => true
  | .vfma _ _ _ _ _ => true
  | .vfms _ _ _ _ _ => true
  | .vfnma _ _ _ _ _ => true
  | .vfnms _ _ _ _ _ => true
  | .vdoti8 _ _ _ _ _ => true
  | .vdoti4 _ _ _ _ _ => true
  | .vand _ _ _ _ _ => true
  | .vor _ _ _ _ _ => true
  | .vxor _ _ _ _ _ => true
  | .vandn _ _ _ _ _ => true
  | .vshl _ _ _ _ _ => true
  | .vshr _ _ _ _ _ => true
  | .vshra _ _ _ _ _ => true
  | .vnot _ _ _ _ => true
  | .vcmp _ _ _ _ _ _ => true
  | .vmov _ _ _ _ => true
  | .vsel _ _ _ _ _ => true
  | .vcmpct _ _ _ _ _ => true
  | .vpermx _ _ _ _ _ => true
  | .vslideup _ _ _ _ _ => true
  | .vslidedn _ _ _ _ _ => true
  | .vzip _ _ _ _ _ => true
  | .vunzip _ _ _ _ _ => true
  | .rsum _ _ _ _ => true
  | .rmax _ _ _ _ => true
  | .rmin _ _ _ _ => true
  | .rsumw _ _ _ _ => true
  | .rcount _ _ _ _ => true
  | .rfirst _ _ _ _ => true
  | .vscanSum _ _ _ _ => true
  | .vscanMax _ _ _ _ => true
  | .vscanMin _ _ _ _ => true
  | .vscanSegsum _ _ _ _ _ => true
  | .exp2 _ _ _ _ => true
  | .log2 _ _ _ _ => true
  | .rcp _ _ _ _ => true
  | .rsq _ _ _ _ => true
  | .sqrt _ _ _ _ => true
  | .tanh _ _ _ _ => true
  | .sigm _ _ _ _ => true
  | .erf _ _ _ _ => true
  | .vcvt _ _ _ _ _ _ => true
  | .vdeq _ _ _ _ _ => true
  | .vscl _ _ _ _ _ => true
  | .vqnt _ _ _ _ _ => true
  | .vamax _ _ _ _ => true
  | .pack _ _ _ _ _ => true
  | .unpklo _ _ _ _ => true
  | .unpkhi _ _ _ _ => true
  | .gettag _ _ _ _ => true
  | .settag _ _ _ => true
  | .clrtag _ _ _ => true
  | .mshape _ _ => true
  | .mzero _ _ => true
  | .mwait _ _ _ => true
  | .mstat _ _ => true
  | .mtscl _ _ => true
  | .mma _ _ _ _ _ _ => true
  | .mmas _ _ _ _ _ _ => true
  | .mmav _ _ _ _ _ => true
  | .mmavSub _ _ _ _ _ => true
  | .mldv _ _ _ _ _ => true
  | .mrdv _ _ _ _ _ => true
  | .msto _ _ _ _ _ _ _ => true
  | .maddm _ _ _ _ _ => true
  | .mtrn _ _ _ _ => true
  | .mcopy _ _ _ _ => true
  | .spawn _ => true
  | .spawna _ => true
  | .join _ => true
  | .yield _ => true
  | .taskid _ _ _ => true
  | .width _ => true
  | .launch _ => true
  | .domwait _ _ => true
  | _ => false

/-- Word `n` of a list of words; absent words read zero. -/
def wordAt (ws : List Word) (n : Nat) : Nat := (ws.getD n 0).toNat

/-- Header fields (R68). -/
def hdrFmt (hdr : List Word) : Nat := bitsOf (wordAt hdr 0) 31 24
def hdrRows (hdr : List Word) : Nat := bitsOf (wordAt hdr 0) 23 21 + 1
def hdrEng (hdr : List Word) : Bool := bitOf (wordAt hdr 0) 20
def hdrNspec (hdr : List Word) : Bool := bitOf (wordAt hdr 0) 19
def hdrStoreMask (hdr : List Word) : Nat := wordAt hdr 1
def hdrVecMask (hdr : List Word) : Nat := wordAt hdr 2

/-- The 16-bit half of write slot `k` (R70). -/
def writeHalf (hdr : List Word) (k : Nat) : Nat := wordAt hdr (3 + k / 2) / 2 ^ (16 * (k % 2)) % 2 ^ 16

/-- The valid write slots and their registers (R70). -/
def writeSlots (hdr : List Word) : List (Nat × Nat) :=
  (upTo 16).filterMap fun k =>
    if bitOf (writeHalf hdr k) 15 then some (k, writeHalf hdr k % 256) else none

/-- A valid read slot (R71): its number, targets and register. -/
structure ReadSlot where
  k : Nat
  t0 : BitVec 9
  t1 : BitVec 9
  reg : Nat
  deriving DecidableEq, Repr

/-- The valid read slots (R71). -/
def readSlots (hdr : List Word) : List ReadSlot :=
  (upTo 16).filterMap fun k =>
    let w := wordAt hdr (11 + k)
    if bitOf w 31 then
      some { k := k, t0 := BitVec.ofNat 9 (bitsOf w 30 22), t1 := BitVec.ofNat 9 (bitsOf w 21 13),
             reg := bitsOf w 12 5 }
    else none

/-- The instruction words a header counts (R68, R83). -/
def codeWords (hdr code : List Word) : List Word := code.take (16 * hdrRows hdr)

/-- The instructions of a block with their indices; a filler or a word that is no instruction is left out (R74). -/
def decoded (code : List Word) : List (Nat × Instr) :=
  (List.zip (upTo code.length) code).filterMap fun p =>
    match decodeWord p.2 with
    | some i => some (p.1, i)
    | none => none

/-- Sign-extended 64-bit immediates. -/
def simm {n : Nat} (i : BitVec n) : Dbl := i.signExtend 64

/-- The L-format offset: imm5 times the access size (R232). -/
def offL (i : BitVec 5) (size : Nat) : Dbl := simm i * BitVec.ofNat 64 size

/-- The S-format offset, in bytes (R232). -/
def offS (i : BitVec 14) : Dbl := simm i

end Sys2Proof.Machine
end

