-- ==== Sys2Proof/Machine/Ops.lean ====
section
/-! DEFINITION. The named operations every meaning is built from: reading and writing cores, tiles and blocks; sending a token (R22, R23); firing an instruction (R23, R24, R45, R75); discarding blocks (R27, R164); taking a fault and ending the freeze (R369-R376, R480). -/
namespace Sys2Proof.Machine

/-- What a step answers. -/
abbrev Out := Host.Outcome State Fault Refusal

/-! Where things are -/

/-- The hart numbered `n` on the live side: an unlisted one is at its reset value. -/
def Dev.liveHart (d : Dev) (n : Nat) : Hart :=
  match mget none d.harts n with
  | some h => h
  | none => Hart.reset

/-- The tile record of hart `n` of a Sepia image (R236): 4096, plus 2048 for each image before it in the list, plus its tile's number, plus 1024 for an engine hart. -/
def Dev.imageTile (d : Dev) (n : Nat) : Option (Image × Saved) :=
  match d.images[(n - 4096) / 2048]? with
  | some i =>
    match i.tiles[n % 1024]? with
    | some v => some (i, v)
    | none => none
  | none => none

/-- The hart of a tile record, which does not run where it is held: the tokens of what reaches it stand at its link interfaces, as under THALT, until the restore (R388, R395). -/
def Saved.heldHart (v : Saved) (eng : Bool) : Hart := { (if eng then v.eng else v.hart).getD Hart.reset with run := .ending, thalt := true }

/-- The tile record with a changed hart; its own run state and THALT stay saved. -/
def Saved.setHeld (v : Saved) (eng : Bool) (h : Hart) : Saved :=
  let keep (o : Option Hart) : Option Hart := some { h with run := (o.getD Hart.reset).run, thalt := (o.getD Hart.reset).thalt }
  if eng then { v with eng := keep v.eng } else { v with hart := keep v.hart }

/-- Harts 2048 and up are those of the shadow side (R384): 2048 plus the number that the hart had when its tile was swapped; 4096 and up those of Sepia images. None of them runs. -/
def Dev.heldHart (d : Dev) (n : Nat) : Hart :=
  let eng : Bool := n / 1024 % 2 == 1
  if n < 4096 then
    match mget none d.shadow (n % 1024) with
    | some v => v.heldHart eng
    | none => { Hart.reset with run := .ending }
  else
    match d.imageTile n with
    | some (_, v) => v.heldHart eng
    | none => { Hart.reset with run := .ending }

/-- The hart numbered `n`. -/
def Dev.hart (d : Dev) (n : Nat) : Hart := if n < 2048 then d.liveHart n else d.heldHart n

def Dev.setHart (d : Dev) (n : Nat) (h : Hart) : Dev :=
  let eng : Bool := n / 1024 % 2 == 1
  if n < 2048 then { d with harts := mset none d.harts n (some h) }
  else if n < 4096 then
    match mget none d.shadow (n % 1024) with
    | some v => { d with shadow := mset none d.shadow (n % 1024) (some (v.setHeld eng h)) }
    | none => d
  else
    match d.imageTile n with
    | some (i, v) =>
      { d with images := setAt d.images ((n - 4096) / 2048) { i with tiles := setAt i.tiles (n % 1024) (v.setHeld eng h) } }
    | none => d

/-- The memory tile at PLACE `p`. -/
def Dev.mt (d : Dev) (p : Nat) : Mt :=
  match mget none d.mts p with
  | some m => m
  | none => Mt.reset

def Dev.setMt (d : Dev) (p : Nat) (m : Mt) : Dev := { d with mts := mset none d.mts p (some m) }

def Mt.port (m : Mt) (n : Nat) : Port :=
  match mget none m.ports n with
  | some p => p
  | none => Port.reset

def Mt.setPort (m : Mt) (n : Nat) (p : Port) : Mt := { m with ports := mset none m.ports n (some p) }

def Mt.age (m : Mt) (n : Nat) : Age :=
  match mget none m.ages n with
  | some a => a
  | none => Age.reset

def Mt.setAge (m : Mt) (n : Nat) (a : Age) : Mt := { m with ages := mset none m.ages n (some a) }

def Dev.app (d : Dev) (n : Nat) : App :=
  match mget none d.apps n with
  | some a => a
  | none => App.reset

def Dev.setApp (d : Dev) (n : Nat) (a : App) : Dev := { d with apps := mset none d.apps n (some a) }

def State.hart (s : State) (n : Nat) : Hart := s.dev.hart n
def State.setHart (s : State) (n : Nat) (h : Hart) : State := { s with dev := s.dev.setHart n h }
def State.mt (s : State) (p : Nat) : Mt := s.dev.mt p
def State.setMt (s : State) (p : Nat) (m : Mt) : State := { s with dev := s.dev.setMt p m }
def State.port (s : State) (p n : Nat) : Port := (s.mt p).port n
def State.setPort (s : State) (p n : Nat) (q : Port) : State := s.setMt p ((s.mt p).setPort n q)
def State.age (s : State) (p n : Nat) : Age := (s.mt p).age n
def State.setAge (s : State) (p n : Nat) (a : Age) : State := s.setMt p ((s.mt p).setAge n a)

/-- PLACE numbers (R105): COL 2:0, ROW 6:3, CLU 9:7. -/
def placeOf (clu row col : Nat) : Nat := clu * 128 + row * 8 + col
def placeClu (p : Nat) : Nat := p / 128 % 8
def placeRow (p : Nat) : Nat := p / 8 % 16
def placeCol (p : Nat) : Nat := p % 8

/-- Harts 1024 to 2047, and 3072 to 4095 on the shadow side, are engine harts, by the PLACE of their tile. -/
def isEngine (n : Nat) : Bool := n / 1024 % 2 == 1
def placeOfHart (n : Nat) : Nat := n % 1024

/-- The device row of a PLACE, which numbers its Slate core (R372). -/
def deviceRow (p : Nat) : Nat := placeClu p * 16 + placeRow p

/-! Blocks in flight -/

def Hart.block (h : Hart) (tag : Nat) : Option Block := h.blocks.find? (fun b => b.tag == tag)

/-- Replace the block that bears the same tag. -/
def Hart.putBlock (h : Hart) (b : Block) : Hart :=
  { h with blocks := h.blocks.map (fun c => if c.tag = b.tag then b else c) }

def Hart.isOldest (h : Hart) (tag : Nat) : Bool :=
  match h.blocks with
  | [] => false
  | b :: _ => b.tag == tag

/-- The blocks older than the one with this tag, oldest first. -/
def Hart.olderBlocks (h : Hart) (tag : Nat) : List Block := h.blocks.takeWhile (fun b => b.tag != tag)

/-- The blocks younger than the one with this tag. -/
def Hart.youngerBlocks (h : Hart) (tag : Nat) : List Block :=
  (h.blocks.dropWhile (fun b => b.tag != tag)).drop 1

/-- A free slot number, the lowest: R21 lets a fetched block take any (DESIGN CHOICE, log 63). -/
def Hart.freeTag (h : Hart) : Option Nat :=
  (upTo 8).find? (fun t => !(h.blocks.any (fun b => b.tag == t)))

def Block.tok (b : Block) (target : Nat) : Option Token :=
  match b.toks.find? (fun p => p.1 == target) with
  | some p => some p.2
  | none => none

/-- The word number that names a target's owner (R84, R480): the header word of a write slot, or the instruction. -/
def targetWord (t : Nat) : Nat := if t % 4 = 3 then 3 + t / 4 / 2 else 32 + t / 4

def plainFault (cause word : Nat) : FaultRec :=
  { cause := cause, word := word, lsid := none, zone := 0, va := 0, late := false, d0 := 0, d1 := 0, seq := none }

def Block.addFault (b : Block) (f : FaultRec) : Block := { b with faults := b.faults ++ [f] }

/-- Record a fault of instruction `idx` (R26). -/
def Block.fault (b : Block) (cause idx : Nat) (d0 d1 : Dbl) : Block :=
  b.addFault { plainFault cause (32 + idx) with d0 := d0, d1 := d1 }

/-- Where a token that found its target full stands, for the trace alone (R382): no target has such a number. -/
def spentTarget (t : Nat) : Nat := 512 + t

/-- A token reaches a target (R23, R73): the empty target takes nothing; a second token is a token conflict (R26). -/
def Block.deliver (b : Block) (target : BitVec 9) (k : Token) : Block :=
  if target = noTarget then b
  else
    match b.tok target.toNat with
    | some _ => { b with toks := b.toks ++ [(spentTarget target.toNat, k)] }.addFault (plainFault 0x03 (targetWord target.toNat))
    | none => { b with toks := b.toks ++ [(target.toNat, k)] }

/-- The token of a memory reply reaches its target, or while token flow is halted stays at the link interface (R377). -/
def Block.arrive (b : Block) (halted : Bool) (idx : Nat) (target : BitVec 9) (k : Token) : Block :=
  if halted then (if target = noTarget then b else { b with links := b.links ++ [(idx, target, k)] }) else b.deliver target k

def Block.deliverAll (b : Block) (ts : List (BitVec 9)) (k : Token) : Block :=
  ts.foldl (fun b t => b.deliver t k) b

/-- An LSID resolves; a second resolution is a token conflict (R26). -/
def Block.resolveL (b : Block) (idx : Nat) (n : Option Nat) : Block :=
  match n with
  | none => b
  | some n => if b.lsids.contains n then b.fault 0x03 idx 0 0 else { b with lsids := b.lsids ++ [n] }

/-- A VSID resolves (R26, R139). -/
def Block.resolveV (b : Block) (idx : Nat) (n : Option Nat) : Block :=
  match n with
  | none => b
  | some n => if b.vsids.contains n then b.fault 0x03 idx 0 0 else { b with vsids := b.vsids ++ [n] }

/-- The predicate's verdict: wait, nullified, or go (R24, R75). -/
inductive Verdict where
  | wait
  | nullified
  | go
  deriving DecidableEq, Repr

def predVerdict (pr : BitVec 2) (b : Block) (idx : Nat) : Verdict :=
  if pr = 0 then .go
  else
    match b.tok (4 * idx + 2) with
    | none => .wait
    | some k =>
      if k.null then .nullified
      else if k.val.getLsbD 0 == decide (pr = 1) then .go
      else .nullified

/-- A branch-class instruction of the block other than `idx` has fired, whether it has left its branch yet, waits for its refill or met a fault (R25, R118). -/
def Block.exited (b : Block) (idx : Nat) : Bool :=
  b.branch.isSome || b.fired.any (fun j => j != idx &&
    (match decodeWord (b.code.getD j 0) with
     | some i => isBranch i && predVerdict (predField i) b j == .go
     | none => false))

/-- A branch-class instruction fires; a second one is a token conflict (R25, R26). -/
def Block.takeExit (b : Block) (idx : Nat) : Block := if b.exited idx then b.fault 0x03 idx 0 0 else b

/-- The branch of the one branch-class instruction that has fired. -/
def Block.setBranch (b : Block) (idx : Nat) (br : Branch) : Block :=
  if b.exited idx then b else { b with branch := some (idx, br) }

def Block.addEff (b : Block) (idx : Nat) (e : Eff) : Block := { b with effs := b.effs ++ [(idx, e)] }

def Block.addReq (b : Block) (r : Req) : Block := { b with reqs := b.reqs ++ [r] }

def Block.dropReq (b : Block) (idx : Nat) : Block := { b with reqs := b.reqs.filter (fun r => r.idx != idx) }

/-- Every held VSID below `n` has resolved: vector and tensor instructions take effect in VSID order (R139, R163). -/
def Block.vsidTurn (b : Block) (n : Nat) : Bool :=
  (upTo n).all (fun k => !(bitOf (hdrVecMask b.hdr) k) || b.vsids.contains k)

/-- The request is that of an LDV which holds VSID `k`. -/
def ReqKind.loadsVsid (k : Nat) : ReqKind → Bool
  | .vload _ _ v _ _ => v == k
  | .vdone _ _ v _ => v == k
  | _ => false

/-- The turn of an instruction that holds VSID `n` (R139): every lower VSID that the block holds has resolved. One that reads VL and VTYPE alone needs not wait for the LDVs below it, which leave neither. -/
def Block.turnFor (b : Block) (need : VNeed) (n : Nat) : Bool :=
  if need = .length then (upTo n).all (fun k => !(bitOf (hdrVecMask b.hdr) k) || b.vsids.contains k || b.reqs.any (fun r => r.kind.loadsVsid k))
  else b.vsidTurn n

/-- Every LSID below `n` that a store, atomic, ACQ or REL of the block holds has resolved (R213, R219). -/
def Block.lsidTurn (b : Block) (n : Nat) : Bool :=
  (decoded b.code).all (fun p =>
    match lsidOf p.2 with
    | some k => !(decide (k < n)) || !(ordersLoads p.2) || b.lsids.contains k
    | none => true)

/-- Nothing of the block can still change the vector context that a younger block reads (R139): every VSID has resolved, and no WRSYS of VTYPE stands in it. -/
def Block.vecDone (b : Block) : Bool :=
  (upTo 32).all (fun k => !bitOf (hdrVecMask b.hdr) k || b.vsids.contains k) &&
  (decoded b.code).all (fun p =>
    match p.2 with
    | .wrsys _ sel _ => sel != 2
    | _ => true)

/-- VL and VTYPE of the block's own instructions are known, whatever the older blocks leave. -/
def Block.lenSet (b : Block) : Bool :=
  b.vec.isSome || b.early.any (fun x =>
    match x with
    | .len _ _ => true
    | _ => false)

/-- The vector context that a block starts from stands as it will once every older block has committed (R22, R139). -/
def Hart.vecDecided (h : Hart) (b : Block) : Bool := (h.olderBlocks b.tag).all Block.vecDone


/-- What the instruction reads of that context is known (R139). -/
def Hart.vecKnown (h : Hart) (b : Block) (need : VNeed) : Bool :=
  match need with
  | .nothing => true
  | .length => b.lenSet || h.vecDecided b
  | .whole => h.vecDecided b

/-- A block that failed its fetch checks or its fetch: nothing of it fires (R83, R67). -/
def Block.dead (b : Block) : Bool := b.faults.any (fun f => f.cause == 1 || f.cause == 2)

/-! Tokens -/

/-- A 64-bit token. -/
def tokOf (v : Dbl) : Token := { val := v.setWidth 128, pair := false, null := false, mark := none }

/-- A 128-bit PAIR token. -/
def tokPair (v : Quad) : Token := { val := v, pair := true, null := false, mark := none }

def tokNull : Token := { val := 0, pair := false, null := true, mark := none }

/-- The 64 bits an operand reads (R110). -/
def Token.lo (k : Token) : Dbl := k.val.setWidth 64

/-- Bits 127:64 (R110, R123): zero for a 64-bit token, whose high half is zero. -/
def Token.hi (k : Token) : Dbl := (k.val >>> 64).setWidth 64

/-- A token passed on carries no port mark (R45). -/
def Token.plain (k : Token) : Token := { k with mark := none }

/-! Performance counters (R359) -/

/-- `n` events of select `ev` occur on the core: every enabled counter of that select adds them. -/
def Hart.count (h : Hart) (ev n : Nat) : Hart :=
  if h.pcfg.isEmpty then h
  else
    { h with pcnt := (upTo 8).foldl (fun m k =>
        if bitsOf (mget (0 : BitVec 9) h.pcfg k).toNat 8 0 = 256 + ev then mset 0 m k (mget 0 m k + BitVec.ofNat 64 n) else m) h.pcnt }

/-- Counter `k` is enabled and counts select `ev`. -/
def Hart.counts (h : Hart) (k ev : Nat) : Bool := (mget (0 : BitVec 9) h.pcfg k).toNat == 256 + ev

/-- The next free value is another. -/
def State.freshened (s : State) : State := { s with dev := { s.dev with fresh := s.dev.fresh + 1 } }

/-- Events of select `ev` may have occurred on hart `n`, up to 2^`w` - 1 of them: how many is free (R359, log 59). -/
def State.countSome (s : State) (n ev w : Nat) : State :=
  if !isEngine n && (upTo 8).any (fun k => (s.hart n).counts k ev) then
    (s.setHart n ((s.hart n).count ev ((Config.freeValue s.dev.fresh).toNat % 2 ^ w))).freshened
  else s

/-- Time has passed since TIMEBASE was read last: at least a nanosecond, and how much more is free (R360). -/
def State.ticked (s : State) : State :=
  { s with dev := { s.dev with timebase := s.dev.timebase + 1 + ((Config.freeValue s.dev.fresh).setWidth 32).setWidth 64, fresh := s.dev.fresh + 1 } }

/-- The bytes that software's read returns. -/
def State.answer (s : State) (bs : List Byte) : State := { s with dev := { s.dev with answer := bs } }

/-! Register forwarding (R22, R24) -/

/-- The committed value of a g- or z-register by its slot name (R72, R97). -/
def Hart.reg (h : Hart) (r : Nat) : Dbl :=
  if r < 64 then mget 0 h.g r else (mget (0 : Byte) h.z (r - 0x50)).setWidth 64

/-- Write a g- or z-register (R97). -/
def Hart.setReg (h : Hart) (r : Nat) (v : Dbl) : Hart :=
  if r < 64 then { h with g := mset 0 h.g r v }
  else { h with z := mset 0 h.z (r - 0x50) (v.setWidth 8) }

/-- What register `r` will hold once the given older blocks (youngest first) have committed; `none` while the deciding write slot is unresolved (R22). -/
def forwardedReg (h : Hart) (r : Nat) : List Block → Option Dbl
  | [] => some (h.reg r)
  | b :: bs =>
    match (writeSlots b.hdr).find? (fun p => p.2 == r) with
    | none => forwardedReg h r bs
    | some p =>
      match b.tok (4 * p.1 + 3) with
      | none => none
      | some k =>
        if k.null then forwardedReg h r bs
        else some (if r < 64 then k.lo else (k.lo.setWidth 8).setWidth 64)

def isPlainReg (r : Nat) : Bool := decide (r < 64) || (decide (0x50 ≤ r) && decide (r < 0x54))

/-- Inject the g and z read slots of one block whose values are decided (R22). -/
def injectBlock (h : Hart) (older : List Block) (b : Block) : Block :=
  (readSlots b.hdr).foldl (fun b r =>
    if isPlainReg r.reg && !(b.injected.contains r.k) then
      match forwardedReg h r.reg older with
      | none => b
      | some v => { ((b.deliver r.t0 (tokOf v)).deliver r.t1 (tokOf v)) with injected := b.injected ++ [r.k] }
    else b) b

/-- Carry resolved register values forward through the blocks in flight, oldest first (R22). -/
def forwardFrom (h : Hart) (older : List Block) : List Block → List Block
  | [] => []
  | b :: bs =>
    let b' := if b.dead then b else injectBlock h older b
    b' :: forwardFrom h (b' :: older) bs

/-- Where the branch that a block has fired leads, if it names a next block (R114, R285). -/
def Block.leadsTo (b : Block) : Option Dbl :=
  match b.branch with
  | some (_, .goto a) => some a
  | some (_, .call a _) => some a
  | some (_, .ret a _) => some a
  | some (_, .scall a _) => some a
  | some (_, .join a) => some a
  | _ => none

/-- The blocks in flight that stand on the path their elders' resolved branches take, oldest first (R27). -/
def onPath : List Block → List Block
  | [] => []
  | b :: bs =>
    match b.leadsTo, bs with
    | some a, c :: _ => if c.addr = a then b :: onPath bs else [b]
    | _, _ => b :: onPath bs

/-- The core keeps its first `kept` blocks and counts the others as discarded; a discard for a reason other than a violation ends the row of each discarded instance (R28, R357). -/
def Hart.keepBlocks (h : Hart) (kept : Nat) : Hart :=
  { h.count 3 (h.blocks.length - kept) with
      blocks := h.blocks.take kept
      violated := h.violated.filter (fun x => decide (x.2.1 < h.seq + kept) || decide (h.seq + h.blocks.length ≤ x.2.1)) }

/-- A block that an older block's branch has left aside goes, with every younger block (R27). A younger block holds no tensor work and is not bound (R29, R163). -/
def Hart.dropWrongPath (h : Hart) : Hart := h.keepBlocks (onPath h.blocks).length

/-- What has resolved takes effect: register values go forward (R22), and a wrong path goes (R27). While token flow is halted nothing moves (R377). -/
def Hart.forward (h : Hart) : Hart := if h.thalt then h else ({ h with blocks := forwardFrom h [] h.blocks } : Hart).dropWrongPath

/-! Trace (R382, R383) -/

/-- One token's records: a PAIR takes two (R383). -/
def traceRecs (h : Hart) (b : Block) (sel : Nat) (k : Token) : List TraceRec :=
  let r : TraceRec := { typ := 1, sel := sel, place := h.place.toNat, slot := b.tag, null := k.null, seq := b.seq, val := k.lo }
  if k.pair then [r, { r with typ := 2, val := k.hi }] else [r]

/-- The tokens that read slots have sent to block `b'` since `b`: the slot, whether on its second target, and the token; they stand last among its tokens, in the order in which the slots were injected, whether their target was empty or not (R382). -/
def slotTokens (b b' : Block) : List (Nat × Bool × Token) :=
  let sent := (b'.injected.drop b.injected.length).flatMap (fun k =>
    match (readSlots b'.hdr).find? (fun r => r.k == k) with
    | some r => (if r.t0 = noTarget then [] else [(k, false)]) ++ (if r.t1 = noTarget then [] else [(k, true)])
    | none => [])
  List.zipWith (fun x p => (x.1, x.2, p.2)) sent (b'.toks.drop (b'.toks.length - sent.length))

/-- What selector `e` copies of the tokens that reached block `b'` since `b`: those its read slot, or the instruction `idx` that sent them, delivered to the chosen target (R382). -/
def traceOne (h : Hart) (b b' : Block) (idx : Option Nat) (e : Nat) : List TraceRec :=
  match mget none h.trc e with
  | none => []
  | some t =>
    if !t.en || t.addr != b'.addr then []
    else if t.rs then
      match (slotTokens b b').find? (fun p => p.1 == t.prod && p.2.1 == t.t1) with
      | some p => traceRecs h b' e p.2.2
      | none => []
    else if idx = some t.prod ∧ b.toks.length < b'.toks.length then
      match decodeWord (b'.code.getD t.prod 0) with
      | some i =>
        match (targetsOf i)[if t.t1 then 1 else 0]? with
        | some g =>
          match (b'.toks.drop b.toks.length).find? (fun p => p.1 == g.toNat || p.1 == spentTarget g.toNat) with
          | some p => traceRecs h b' e p.2
          | none => []
        | none => []
      | none => []
    else []

/-- The trace copies of a change of the blocks in flight, each with its records; `prod` is the block and instruction that sent (R382). -/
def traceCopies (old new : Hart) (prod : Option (Nat × Nat)) : List (List TraceRec) :=
  new.blocks.flatMap (fun b' =>
    match old.block b'.tag with
    | none => []
    | some b =>
      let idx := match prod with
        | some p => if p.1 = b'.tag then some p.2 else none
        | none => none
      ((upTo 16).map (traceOne new b b' idx)).filter (fun c => !c.isEmpty))

/-- A copy joins the records when the path can take it whole; else it is lost and counted, and so is what follows it until the gap has been reported (R383). -/
def Hart.takeCopy (h : Hart) (c : List TraceRec) : Hart :=
  if h.traceLost = 0 ∧ h.trace.length + c.length ≤ Config.tracePath then { h with trace := h.trace ++ c } else { h with traceLost := h.traceLost + 1 }

/-- The copies of a change are made (R382, R383). Trace changes nothing else. -/
def Hart.traced (old new : Hart) (prod : Option (Nat × Nat)) : Hart :=
  if new.trc.isEmpty then new
  else
    let h := (traceCopies old new prod).foldl Hart.takeCopy new
    { new with trace := h.trace, traceLost := h.traceLost }

/-! Firing (R23, R24, R75) -/

/-- What an instruction's form asks before it fires. -/
structure Form where
  pr : BitVec 2
  operands : Nat
  oldest : Bool
  lsid : Option Nat
  vsid : Option Nat
  need : VNeed := .whole
  deriving DecidableEq, Repr

/-- The NMODE check of a token that came straight from a port (R45): the packet detail of cause 0x41 when it fails (R374). -/
def nmodeClash (st : BitVec 5) (k : Option Token) : Option Dbl :=
  match k with
  | none => none
  | some k =>
    match k.mark with
    | none => none
    | some (port, tag, nm) =>
      if isNarrow tag && nm != statusNmode st then
        some (BitVec.ofNat 64 (0xFF + 256 * tag + 2 ^ 16 * port + 2 ^ 24 * (nm.toNat + 2 * (statusNmode st).toNat)))
      else none

/-- The operands of an instruction that can fire now: predicate verdict and the two tokens. -/
structure Ready where
  verdict : Verdict
  l : Token
  r : Token
  deriving DecidableEq, Repr

/-- The nodes of the core fire: it runs, or is frozen, which stops fetch and commit alone (R369), and its token flow is not halted (R377). -/
def Hart.flows (h : Hart) : Bool := (h.run == .running || h.run == .frozen) && !h.thalt

/-- The block is oldest with a fault recorded against it: while the core runs the fault is taken before anything else of the block happens (R480). -/
def Hart.faulty (h : Hart) (b : Block) : Bool := h.run == .running && h.isOldest b.tag && !b.faults.isEmpty

/-- Whether an instruction of a block can fire, and with what (R23, R24, R28, R75): the core's nodes fire, the block is mapped and alive, no fault of it waits to be taken (R480), the instruction has not fired, its turn has come, what it reads of the vector context is known (R139), and its tokens are there. -/
def Hart.ready (h : Hart) (b : Block) (idx : Nat) (f : Form) : Option Ready :=
  if !h.flows || b.dead || h.faulty b || b.fired.contains idx || (b.nospec && !(h.isOldest b.tag)) then none
  else
    let held := h.isOldest b.tag || !f.oldest
    let turn := f.vsid.all (b.turnFor f.need)
    match predVerdict f.pr b idx with
    | .wait => none
    | .nullified => if turn then some { verdict := .nullified, l := tokNull, r := tokNull } else none
    | .go =>
      if !held || !turn || (f.vsid.isSome && !h.vecKnown b f.need) then none
      else
        match f.operands with
        | 0 => some { verdict := .go, l := tokNull, r := tokNull }
        | 1 =>
          match b.tok (4 * idx) with
          | some l => some { verdict := .go, l := l, r := tokNull }
          | none => none
        | _ =>
          match b.tok (4 * idx), b.tok (4 * idx + 1) with
          | some l, some r => some { verdict := .go, l := l, r := r }
          | _, _ => none

/-- A token marked by its port waits for the committed STATUS (R40, R45). -/
def fromPort (b : Block) (idx : Nat) (f : Form) : Bool :=
  [0, 1, 2].any (fun k =>
    (k == 2 && f.pr != 0 || k < 2 && k < f.operands) &&
    match b.tok (4 * idx + k) with
    | some t => t.mark.isSome
    | none => false)

/-- The first NMODE clash among an instruction's operands. -/
def nmodeFault (h : Hart) (b : Block) (idx : Nat) (f : Form) : Option Dbl :=
  let p := if f.pr = 0 then none else nmodeClash h.status (b.tok (4 * idx + 2))
  let l := if f.operands = 0 then none else nmodeClash h.status (b.tok (4 * idx))
  let r := if f.operands < 2 then none else nmodeClash h.status (b.tok (4 * idx + 1))
  match p, l, r with
  | some d, _, _ => some d
  | none, some d, _ => some d
  | none, none, some d => some d
  | none, none, none => none

/-- What the NMODE check looks at (R24, R45): every operand of an instruction that goes; of a nullified one, which takes no other operand, its predicate alone (log 49). -/
def Form.checked (f : Form) (v : Verdict) : Form :=
  match v with
  | .go => f
  | _ => { f with operands := 0 }

/-- Fire the instruction in `focus` on its core (R23, R24): mark it fired, then its own effect `g` on the core, or its nullified form, which resolves the identifiers it holds; then forward what resolved. Nothing happens while it cannot fire. -/
def Hart.fire (h : Hart) (c : Focus) (f : Form) (g : Hart → Block → Token → Token → Hart) : Hart :=
  match h.block c.tag with
  | none => h
  | some b =>
    match h.ready b c.idx f with
    | none => h
    | some r =>
      let q := f.checked r.verdict
      if fromPort b c.idx q && !(h.isOldest c.tag) then h
      else
        let b1 := { b with fired := b.fired ++ [c.idx] }
        let h1 := (if r.verdict = .go then h.count 5 1 else h).putBlock b1
        match nmodeFault h b c.idx q with
        | some d => (h1.putBlock (b1.fault 0x41 c.idx d 0)).forward
        | none =>
          match r.verdict with
          | .go => (g h1 b1 r.l r.r).forward
          | _ => (h1.putBlock ((b1.resolveL c.idx f.lsid).resolveV c.idx f.vsid)).forward

/-- Fire on the machine: only the firing core changes. -/
def State.fire (s : State) (f : Form) (g : Hart → Block → Token → Token → Hart) : State :=
  let c := s.dev.focus
  let h := s.hart c.hart
  s.setHart c.hart (h.traced (h.fire c f g) (some (c.tag, c.idx)))

/-- An effect on the firing block alone. -/
def onBlock (g : Hart → Block → Token → Token → Block) : Hart → Block → Token → Token → Hart :=
  fun h b l r => h.putBlock (g h b l r)

/-- The plain scalar form (R111, R112): a null operand sends nulls, else the result token goes to every target. -/
def sendResult (operands : Nat) (ts : List (BitVec 9)) (k : Hart → Block → Token → Token → Token) :
    Hart → Block → Token → Token → Block :=
  fun h b l r =>
    let nul := (decide (1 ≤ operands) && l.null) || (decide (2 ≤ operands) && r.null)
    b.deliverAll ts (if nul then tokNull else k h b l r)

/-- The instruction in focus fires now, and not as a nullified one (R23, R24). -/
def State.goes (s : State) (f : Form) : Bool :=
  let c := s.dev.focus
  let h := s.hart c.hart
  match h.block c.tag with
  | some b => (match h.ready b c.idx f with
    | some r => r.verdict == .go
    | none => false)
  | none => false

/-- The form of a scalar instruction. -/
def scalarForm (pr : BitVec 2) (operands : Nat) (oldest : Bool) : Form := { pr := pr, operands := operands, oldest := oldest, lsid := none, vsid := none }

/-- A scalar instruction fires and sends one token (R23, R111, R112). -/
def State.fireScalar (s : State) (pr : BitVec 2) (operands : Nat) (oldest : Bool) (t0 t1 : BitVec 9)
    (k : Hart → Block → Token → Token → Token) : State :=
  s.fire { pr := pr, operands := operands, oldest := oldest, lsid := none, vsid := none }
    (onBlock (sendResult operands [t0, t1] k))

/-! Discard (R27, R28, R164) -/

/-- The key of element [i][j] of m-register `k` (R103). -/
def mKey (k i j : Nat) : Nat := k * 8192 + i * 256 + j

/-- The registers of a mask from `old`, the others from `new`. -/
def pickRegs (mask : Nat) (old new : SMap Word) : SMap Word :=
  (upTo 8).flatMap (fun k => (if bitOf mask k then old else new).filter (fun p => p.1 / 8192 == k))

def pickTags (mask : Nat) (old new : SMap (BitVec 4)) : SMap (BitVec 4) :=
  (upTo 8).flatMap (fun k => (if bitOf mask k then old else new).filter (fun p => p.1 == k))

/-- Before the oldest block writes the m-registers of a mask: keep their contents for a discard (R164). -/
def Hart.checkpoint (h : Hart) (mask : Nat) : Hart :=
  match h.ckpt with
  | none => { h with ckpt := some (pickRegs mask h.m [], pickTags mask h.mtag [], BitVec.ofNat 8 mask) }
  | some (m, t, old) =>
    let add := mask - (mask &&& old.toNat)
    { h with ckpt := some (pickRegs add h.m m, pickTags add h.mtag t, BitVec.ofNat 8 (old.toNat + add)) }

/-- Undo the tensor work of the oldest block (R164): its m-registers return, its MSTO snapshots go and their BUSY bits clear. -/
def Hart.undoTensor (h : Hart) : Hart :=
  let drop := (h.mout.filter (fun o => !o.live)).foldl (fun x o => x ||| 2 ^ o.acc) 0
  let h1 := { h with mout := h.mout.filter (fun o => o.live), busy := h.busy &&& ~~~BitVec.ofNat 8 drop }
  match h.ckpt with
  | none => h1
  | some (m, t, mask) => { h1 with m := pickRegs mask.toNat m h.m, mtag := pickTags mask.toNat t h.mtag, ckpt := none }

/-- Discard the block with this tag and every younger one: their tokens, stores, requests, recorded faults and tentative pops go with them; the oldest block's accumulator writes are undone. Such a discard ends a row of violation discards (R28). -/
def Hart.discardFrom (h : Hart) (tag : Nat) : Hart :=
  let kept := h.olderBlocks tag
  (if kept.isEmpty then h.undoTensor else h).keepBlocks kept.length

/-- A store-to-load violation discards a block that is not the oldest, and every younger one, and is counted for its instance (R27, R28, R213): tensor work belongs to the oldest block, so none is undone. Whether a younger block that goes with it counts as discarded for a violation R28 does not say: the named block alone does (DESIGN CHOICE, log 63). -/
def Hart.dropViolated (h : Hart) (b : Block) : Hart :=
  let kept := (h.olderBlocks b.tag).length
  let times := h.violated.findSome? (fun x => if x.1 = b.addr ∧ x.2.1 = b.seq then some x.2.2 else none)
  { (h.count 3 (h.blocks.length - kept)).count 4 1 with
      blocks := h.blocks.take kept
      violated := h.violated.filter (fun x => x.2.1 != b.seq) ++ [(b.addr, b.seq, times.getD 0 + 1)] }

/-- Discard every block in flight. -/
def Hart.discardAll (h : Hart) : Hart :=
  match h.blocks with
  | [] => h
  | b :: _ => h.discardFrom b.tag

/-- Discard every block younger than the one with this tag. -/
def Hart.discardYounger (h : Hart) (tag : Nat) : Hart :=
  match h.youngerBlocks tag with
  | [] => h
  | b :: _ => h.discardFrom b.tag

/-- Keep only bound blocks (R29). -/
def Hart.discardUnbound (h : Hart) : Hart :=
  match h.blocks.find? (fun b => !b.bound) with
  | none => h
  | some b => h.discardFrom b.tag

def Hart.hasBound (h : Hart) : Bool := h.blocks.any (fun b => b.bound)

/-! Return stack (R116) -/

/-- The depth word: RES 3:0, SPILLED 39:8. -/
def depthWord (res : Nat) (spilled : Word) : Dbl := BitVec.ofNat 64 (res + 2 ^ 8 * spilled.toNat)

/-- SpillSlot(n) (R116). -/
def spillSlot (h : Hart) (n : Nat) : Dbl :=
  (h.stklim &&& ~~~(0xF : Dbl)) - 8 * BitVec.ofNat 64 (n + 1)

/-! Packets (R283, R372-R374) -/

/-- The 64 bytes of a packet (R373). -/
def Packet.bytes (p : Packet) : List Byte :=
  natLe 1 (p.cause % 128) ++ natLe 1 (p.agent % 16 + 16 * p.bound.toNat + 32 * p.late.toNat + 64 * p.held.toNat + 128 * p.redeliv.toNat) ++
  natLe 2 p.ctx ++ natLe 4 p.task.toNat ++ natLe 2 (p.place % 1024 + 1024 * p.unit) ++ natLe 2 p.word ++
  natLe 1 (match p.lsid with | some n => n % 32 + 32 | none => 0) ++ natLe 1 p.zone ++ natLe 2 p.slot ++ natLe 8 p.block.toNat ++
  natLe 8 p.va.toNat ++ natLe 8 p.time.toNat ++ natLe 8 p.seq ++ natLe 8 p.d0.toNat ++ natLe 8 p.d1.toNat

/-- A fault of what the last committed block has begun names that block (R373). -/
def Hart.asCame (h : Hart) (f : FaultRec) : FaultRec := { f with src := some (h.came.1, h.came.2.1), seq := some h.came.2.2 }

/-- The slot and the address of the block of a hart that bears a sequence number: one in flight, one of which something released still stands, or the one that has committed last (R357, R373). -/
def Hart.sourceOf (h : Hart) (seq : Nat) : Option (Nat × Dbl) :=
  match h.blocks.find? (fun b => b.seq == seq), h.posted.find? (fun p => p.seq == seq && p.src != (0, 0)) with
  | some b, _ => some (b.tag, b.addr)
  | none, some p => some p.src
  | none, none => if h.came.2.2 = seq then some (h.came.1, h.came.2.1) else none

/-- The packet of a hart's fault. -/
def packetOf (d : Dev) (n : Nat) (h : Hart) (b : Option Block) (f : FaultRec) (bound held : Bool) : Packet :=
  { cause := f.cause, agent := if isEngine n then 1 else 0, bound := bound, late := f.late, held := held,
    redeliv := false, ctx := h.ctxid.toNat, task := h.taskid, place := placeOfHart n, unit := 0,
    word := f.word, lsid := f.lsid, zone := f.zone,
    slot := (match f.src, b with | some x, _ => x.1 | none, some b => b.tag | none, none => 0),
    block := (match f.src, b with | some x, _ => x.2 | none, some b => b.addr | none, none => h.next),
    va := f.va, time := d.timebase,
    seq := f.seq.getD (match b with | some b => b.seq | none => h.seq),
    d0 := f.d0, d1 := f.d1 }

/-- The causes that an agent other than a hart meets at a home (R370, R373): permission, page-table, uncorrectable-data, host-translation, completion-timeout and counter. -/
def homeCause (cause : Nat) : Bool := [0x13, 0x15, 0x17, 0x1B, 0x1C, 0x60].contains cause

/-- The packet of an agent that is no hart (R373): AGENT code, context, place, unit, cause, address. -/
def agentPacket (d : Dev) (agent ctx place unit cause : Nat) (zone : Nat) (va d0 d1 : Dbl) : Packet :=
  { cause := cause, agent := agent, bound := false, late := homeCause cause, held := false, redeliv := false,
    ctx := ctx, task := 0, place := place, unit := unit, word := 0xFFFF, lsid := none, zone := zone,
    slot := 0, block := 0, va := va, time := d.timebase, seq := 0, d0 := d0, d1 := d1 }

/-- An entry goes into the ring of the persistent log: when it is full, over the oldest (R437). -/
def Dev.logEvent (d : Dev) (typ detail : Nat) : Dev :=
  let e : LogEntry := { time := d.timebase, typ := typ, detail := natLe 48 detail }
  { d with log := (d.log ++ [e]).drop (d.log.length - Config.logRoom) }

/-- Send a packet to a Slate core: a full queue of 64 leaves the sender waiting with it (R283). -/
def Dev.sendPacket (d : Dev) (row : Nat) (p : Packet) : Dev :=
  let q := mget [] d.slateq row
  if q.length < 64 && !(d.senders.any (fun x => x.1 == row)) then
    { d with slateq := mset [] d.slateq row (q ++ [p]) }
  else { d with senders := d.senders ++ [(row, p)] }

/-- A packet of the agent still waits for room in its Slate queue, so that the agent stays stopped (R283). -/
def Dev.sending (d : Dev) (agent place unit : Nat) : Bool :=
  d.senders.any (fun x => x.2.agent == agent && x.2.place == place && x.2.unit == unit)

/-- The same for a hart. -/
def Dev.hartSending (d : Dev) (n : Nat) : Bool := d.sending (if isEngine n then 1 else 0) (placeOfHart n) 0

/-! Taking a fault, and ending the freeze (R26, R27, R369, R375, R376, R480) -/

/-- Which of two recorded faults is taken (R480): lowest word number, a fault that names no word last, then the lower cause. -/
def faultBefore (a b : FaultRec) : Bool :=
  decide (a.word < b.word) || (a.word == b.word && decide (a.cause ≤ b.cause))

/-- The fault that a block takes (R480). -/
def pickFault : List FaultRec → Option FaultRec
  | [] => none
  | f :: fs =>
    match pickFault fs with
    | none => some f
    | some g => if faultBefore f g then some f else some g

/-- Position `p` lies in the aligned shape of width `w` that contains `n` (R18). -/
def inShape (w n p : Nat) : Bool :=
  let rows := if 4 ≤ w then 2 else 1
  let cols := w / rows
  placeClu p == placeClu n && placeRow p / rows == placeRow n / rows && placeCol p / cols == placeCol n / cols

/-- A widening is abandoned: its reservations lapse and the reserved cores stand in their ring again (R32). -/
def Dev.lapse (d : Dev) (n : Nat) : Dev :=
  let h := d.hart n
  match h.reserve with
  | none => d
  | some w =>
    { d.setHart n { h with reserve := none } with graphs := d.graphs.map (fun (g : Graph) =>
        if g.id = h.graph then
          { g with absorbed := g.absorbed.filter (fun c =>
              let p := placeOf g.clu (g.row + c.1) (g.col + c.2)
              !(inShape w n p && !(inShape h.cwidth.toNat n p))) }
        else g) }

/-- A fault is taken (R26, R27, R369): the core keeps only the blocks it may hold, freezes with the cause, and sends its packet. `hold` keeps every block in flight (precision I of R176, and a load fault under EMUL). The pc, the registers and the return stack stay as the last committed block left them. -/
def Dev.takeFault (d0 : Dev) (n : Nat) (b : Option Block) (f : FaultRec) (hold : Bool) : Dev :=
  let d := d0.lapse n
  let h := d.hart n
  let bound := h.hasBound
  let kept := if hold then h else h.discardUnbound
  let p := packetOf d n h b f bound (!kept.blocks.isEmpty)
  let frozen := { kept with run := .frozen, cause := f.cause, packet := some p, stepping := false, halting := false, emulHeld := false }
  (d.setHart n frozen).sendPacket (deviceRow (placeOfHart n)) p

/-- A block with nothing in it. -/
def emptyBlock : Block :=
  { tag := 0, addr := 0, hdr := [], code := [], seq := 0, injected := [], pops := [], toks := [], fired := [], lsids := [], vsids := [],
    branch := none, faults := [], reqs := [], stores := [], effs := [], vec := none, seen := [], breaks := [], bound := false, sr := false,
    spilled := false, nospec := false, book := none }

/-- The same for a fault that an item of a committed block meets: the packet names that block by slot and address (R373). -/
def Dev.takeSourced (d : Dev) (n : Nat) (src : Nat × Dbl) (f : FaultRec) : Dev :=
  d.takeFault n (some { emptyBlock with tag := src.1, addr := src.2 }) f false

/-- The recorded fault that a packet reports ends with the freeze; the other faults of the held blocks are still to be taken (R480). -/
def Block.dropTaken (b : Block) (p : Packet) : Block :=
  if b.tag = p.slot ∧ b.seq = p.seq then
    { b with faults := b.faults.filter (fun f => !(f.cause == p.cause && f.word == p.word && f.lsid == p.lsid)) }
  else b

/-- The return from a freeze (R376): an engine hart frozen at its binder wait waits again (R305), a core frozen as it took up a resume frame stands idle with it (R281), any other core runs on at its committed next-block address with the blocks it holds, without the fault taken, and its streams go on (R176); a marked core first discards what it may (R109). -/
def Dev.resumeCore (d : Dev) (n : Nat) : Dev :=
  let h := d.hart n
  let h1 : Hart := if h.marked then h.discardUnbound else h
  let held : Hart := match h1.packet with
    | some p => { h1 with blocks := h1.blocks.map (fun b => b.dropTaken p) }
    | none => h1
  d.setHart n { held with nodes := held.nodes.map (fun o => { o with stop := false }), run := if h.kicked || h.start.isSome then .idle else .running, kicked := false, thalt := false, marked := false, cause := 0, packet := none, last := 0 }

end Sys2Proof.Machine
end

