-- ==== Sys2Proof/Machine/Mem.lean ====
section
/-! DEFINITION. Memory as an agent reaches it: zones (R188), place-relative scratchpads (R189), the context tables and walks (R327-R333), execute map (R331), dirty sessions (R339), uncorrectable data (R203), masked writes (R205, R478), watchpoints (R381), the core's own lines of PRIV and RSH pages (R193, R194), and the bytes a core's load returns (R209). -/
namespace Sys2Proof.Machine

/-! Physical memory -/

/-- The numbers of the harts in Sepia images of which no copy has been loaded (R236). -/
def Dev.imageHarts (d : Dev) : List Nat :=
  (List.zip (upTo d.images.length) d.images).flatMap (fun i =>
    if i.2.ivory || i.2.taken then []
    else (upTo i.2.tiles.length).flatMap (fun t =>
      match i.2.tiles[t]? with
      | some v => (if v.hart.isSome then [4096 + 2048 * i.1 + t] else []) ++ (if v.eng.isSome then [5120 + 2048 * i.1 + t] else [])
      | none => []))

/-- Every hart by number: live, on the shadow side, in a Sepia image. What it has posted stands outside its tile wherever it is held (R236, R260). -/
def Dev.allHarts (d : Dev) : List (Nat × Hart) :=
  d.harts.filterMap (fun p => match p.2 with | some h => some (p.1, h) | none => none) ++
  d.shadow.flatMap (fun p =>
    match p.2 with
    | some v => [(2048 + p.1, d.hart (2048 + p.1))] ++ (if v.eng.isSome then [(3072 + p.1, d.hart (3072 + p.1))] else [])
    | none => []) ++
  d.imageHarts.map (fun n => (n, d.hart n))

/-- The tile record numbered as its harts are (R236, R384). -/
def Dev.heldTile (d : Dev) (n : Nat) : Option Saved :=
  if n < 4096 then mget none d.shadow (n % 1024) else (d.imageTile n).map Prod.snd

/-- The memory tile of such a record. -/
def Dev.heldMt (d : Dev) (n : Nat) : Mt :=
  match d.heldTile n with
  | some v => v.mt
  | none => Mt.reset

def Dev.setHeldMt (d : Dev) (n : Nat) (m : Mt) : Dev :=
  if n < 4096 then
    match mget none d.shadow (n % 1024) with
    | some v => { d with shadow := mset none d.shadow (n % 1024) (some { v with mt := m }) }
    | none => d
  else
    match d.imageTile n with
    | some (i, v) => { d with images := setAt d.images ((n - 4096) / 2048) { i with tiles := setAt i.tiles (n % 1024) { v with mt := m } } }
    | none => d

def peerKey (node pa : Nat) : Nat := node * 2 ^ 52 + pa

/-- `n` bytes at a location, lowest address first (R1). -/
def State.readLoc (s : State) (l : Loc) (n : Nat) : List Byte :=
  match l with
  | .dev pa => bytesAt s.mem pa n
  | .peer k => bytesAt s.peer k n
  | .host k => bytesAt s.host k n
  | .scr p off => bytesAt (s.mt p).scratch off n
  | .held t off => bytesAt (s.dev.heldMt t).scratch off n

/-- The write covers granule `g`: whole bytes, all 32 of them (R203). -/
def coversGranule (pa : Nat) (data : List (Byte × Byte)) (g : Nat) : Bool :=
  decide (pa ≤ 32 * g) && decide (32 * g + 32 ≤ pa + data.length) &&
  ((data.drop (32 * g - pa)).take 32).all (fun p => p.2 == 0xFF)

/-- The granules of a list that still have their error after a write: one that covers a whole granule ends its error (R203). -/
def healed (errs : List Nat) (pa : Nat) (data : List (Byte × Byte)) : List Nat := errs.filter (fun g => !coversGranule pa data g)

def Dev.healUncorr (d : Dev) (pa : Nat) (data : List (Byte × Byte)) : Dev := { d with uncorr := healed d.uncorr pa data }

/-- Masked bytes take their place in a scratchpad. -/
def Mt.put (m : Mt) (off : Nat) (data : List (Byte × Byte)) : Mt :=
  { m with scratch := setMasked m.scratch off data, errs := healed m.errs off data }

/-- The binder condition of an ACQ (R217): NREG and COND in the control double, TGT in its high half. -/
def binderReady (word ctl : Nat) : Bool :=
  match bitsOf ctl 3 2 with
  | 0 => true
  | 1 => word != 0
  | 2 => decide (ctl / 2 ^ 32 ≤ word)
  | _ => word == ctl / 2 ^ 32

/-- The 64 bytes of a binder meet its condition (R217). -/
def bytesReady (bs : List Byte) : Bool := binderReady (leNat (bs.take 8)) (leNat ((bs.drop 8).take 8))

/-- A write of `n` bytes at the first location touches the WORD of the binder at the second. -/
def Loc.meets (l : Loc) (n : Nat) (w : Loc) : Bool :=
  let near (a b : Nat) : Bool := decide (a < b + 8) && decide (b < a + n)
  match l, w with
  | .dev a, .dev b => near a b
  | .peer a, .peer b => near a b
  | .host a, .host b => near a b
  | .scr p a, .scr q b => p == q && near a b
  | .held p a, .held q b => p == q && near a b
  | _, _ => false

/-- The bytes at the word of a wait meet its condition (R217, R305, R362). -/
def condMet (cond : Nat) (bs : List Byte) : Bool :=
  match cond with
  | 0 => bytesReady bs
  | 1 => leNat (bs.take 8) != 0
  | _ => leNat ((bs.drop 4).take 4) == 0

/-- The home evaluates the conditions of the waits at every write to their word (R219): a wait whose condition has come true keeps the binder as it stood. -/
def State.wake (s : State) (l : Loc) (n : Nat) : State :=
  if s.dev.binders.isEmpty then s
  else
    { s with dev := { s.dev with binders := s.dev.binders.map (fun w =>
        if w.got.isNone && l.meets n w.loc && condMet w.cond (s.readLoc w.loc 64) then { w with got := some (s.readLoc w.loc 64) } else w) } }

/-- Masked bytes take their place at a location; granules that the write covers lose their error (R203). -/
def State.storeLoc (s : State) (l : Loc) (data : List (Byte × Byte)) : State :=
  match l with
  | .dev pa => { s with mem := setMasked s.mem pa data, dev := s.dev.healUncorr pa data }
  | .peer k => { s with peer := setMasked s.peer k data }
  | .host k => { s with host := setMasked s.host k data }
  | .scr p off => { s with dev := s.dev.setMt p ((s.dev.mt p).put off data) }
  | .held t off => { s with dev := s.dev.setHeldMt t ((s.dev.heldMt t).put off data) }

/-- Write masked bytes at a location (R198). -/
def State.writeLoc (s : State) (l : Loc) (data : List (Byte × Byte)) : State := (s.storeLoc l data).wake l data.length

/-- A granule of device memory now reads as uncorrectable (R203). -/
def Dev.spoil (d : Dev) (g : Nat) : Dev := { d with uncorr := if d.uncorr.contains g then d.uncorr else d.uncorr ++ [g] }

/-- Both granules of a line of device memory that `bad` names now read as uncorrectable (R203). -/
def Dev.spoilLine (d : Dev) (l : Loc) (bad : BitVec 2) : Dev :=
  match l with
  | .dev pa =>
    let d1 := if bad.getLsbD 0 then d.spoil (pa / 32) else d
    if bad.getLsbD 1 then d1.spoil (pa / 32 + 1) else d1
  | _ => d

/-- Whole bytes. -/
def full (bs : List Byte) : List (Byte × Byte) := bs.map (fun b => (b, 0xFF))

/-- An 8-byte word of device memory (R331). -/
def State.phys64 (s : State) (pa : Nat) : Nat := leNat (bytesAt s.mem pa 8)

/-- A write of one of the device's own units to device memory by physical address. Of a line that the host or a peer keeps, the snoop, its response and the write are one step (R417, log 32). Such a write of a whole granule leaves the granule's error, for R203 names a store and a write-back alone (DESIGN CHOICE, log 64). -/
def State.putDev (s : State) (pa : Nat) (bs : List Byte) : State :=
  ({ s with mem := setBytes s.mem pa bs
            dev := { s.dev with bisnp := s.dev.bisnp.filter (fun k => !(decide (pa / 64 ≤ k) && decide (k ≤ (pa + bs.length - 1) / 64))) } } : State).wake (.dev pa) bs.length

def State.setPhys64 (s : State) (pa v : Nat) : State := s.putDev pa (natLe 8 v)

/-- Some 32-byte granule of the range stands in a list of those with an uncorrectable error (R203). -/
def errsIn (errs : List Nat) (pa n : Nat) : Bool :=
  errs.any (fun g => decide (pa / 32 ≤ g) && decide (g ≤ (pa + n - 1) / 32) && decide (0 < n))

def Dev.uncorrAt (d : Dev) (pa n : Nat) : Bool := errsIn d.uncorr pa n

/-! Zones (R188) -/

inductive Zone where
  | own
  | fabric
  | host
  | place
  | invalid
  deriving DecidableEq, Repr

def zoneOf (z : Nat) : Zone :=
  if z = 0 then .own
  else if z ≤ 0x7F then .fabric
  else if z = 0xF0 then .host
  else if z = 0xFE then .place
  else .invalid

/-- The posted class of a zone (R210): 0 A, 1 B, 2 C. -/
def classOfZone (z : Nat) : Nat := if z = 0xFE then 0 else if z = 0 then 1 else 2

/-! Scratchpads (R189) -/

/-- The graph that holds a hart's task. -/
def Dev.graph (d : Dev) (id : Nat) : Option Graph := d.graphs.find? (fun g => g.id == id)

/-- Whether a position of a cluster lies in a graph's rectangle. -/
def Graph.contains (g : Graph) (clu row col : Int) : Bool :=
  decide (clu = g.clu) && decide ((g.row : Int) ≤ row) && decide (row < g.row + g.rows) &&
  decide ((g.col : Int) ≤ col) && decide (col < g.col + g.cols)

/-- A position relative to a hart's tile, inside its rectangle (R189, R299); an engine hart reaches only its own tile (R304), and so does a core with no placed graph. -/
def Dev.relPlace (d : Dev) (n : Nat) (dy dx : Int) : Option Nat :=
  let p := placeOfHart n
  let row := (placeRow p : Int) + dy
  let col := (placeCol p : Int) + dx
  if dy = 0 ∧ dx = 0 then some p
  else if isEngine n then none
  else
    match d.graph (d.hart n).graph with
    | some g =>
      if g.contains (placeClu p) row col then some (placeOf (placeClu p) row.toNat col.toNat) else none
    | none => none

/-- The tile and offset that a zone 0xFE address names, or a scratchpad-range fault (R189). -/
def Dev.scratchLoc (d : Dev) (n : Nat) (va : Dbl) (size : Nat) : Option (Nat × Nat) :=
  let x := va.toNat
  let off := bitsOf x 31 0
  if bitsOf x 63 48 ≠ 0 ∨ 0x7E000 < off + size then none
  else
    match d.relPlace n (sval 8 (bitsOf x 47 40)) (sval 8 (bitsOf x 39 32)) with
    | some p => some (p, off)
    | none => none

/-- Every 4 KiB page of the range is resident after a shadow swap (R192). -/
def Mt.resident (m : Mt) (off n : Nat) : Bool :=
  m.nonres.all (fun p => !(decide (off / 4096 ≤ p.1) && decide (p.1 ≤ (off + n - 1) / 4096)))

/-- The page may be accessed by hart `hn` in the tile at `p`: it is resident, and the tile holds the hart's side (R192, R388). -/
def State.pageReady (s : State) (hn p off n : Nat) : Bool :=
  (s.mt p).resident off n &&
  (match mget none s.dev.shadow p with
   | some v => decide (hn < 2048) && (v.graph == 0 || v.graph != (s.hart hn).graph)
   | none => true)

/-- The tile of the same image that lies (dy, dx) from tile `n` of it (R189, R393). -/
def Dev.imageRel (d : Dev) (n : Nat) (dy dx : Int) : Option Nat :=
  match d.images[(n - 4096) / 2048]? with
  | some i =>
    let r := (n % 1024 / i.cols : Nat) + dy
    let c := (n % 1024 % i.cols : Nat) + dx
    if 0 ≤ r ∧ r < i.rows ∧ 0 ≤ c ∧ c < i.cols then some (n / 2048 * 2048 + r.toNat * i.cols + c.toNat) else none
  | none => none

/-- Where hart `hn` finds the scratchpad bytes of a zone 0xFE address (R189): in a tile that holds its graph's side live, in one that holds it on the shadow side, as an engine hart held there always finds its own (R304), or for a hart of a Sepia image in the image, where its posted stores keep draining (R236); `some none` while a page is still to be exchanged (R192). -/
def State.scratchAt (s : State) (hn : Nat) (va : Dbl) (n : Nat) : Option (Option Loc) :=
  if hn < 4096 then
    match s.dev.scratchLoc hn va n with
    | none => none
    | some (p, off) =>
      match mget none s.dev.shadow p with
      | some v =>
        if (2048 ≤ hn ∧ isEngine hn = true) ∨ (v.graph ≠ 0 ∧ v.graph = (s.hart hn).graph) then some (some (.held (2048 + p) off))
        else some (if (s.mt p).resident off n then some (.scr p off) else none)
      | none => some (if (s.mt p).resident off n then some (.scr p off) else none)
  else
    let x := va.toNat
    let off := bitsOf x 31 0
    if bitsOf x 63 48 ≠ 0 ∨ 0x7E000 < off + n then none
    else
      match s.dev.imageRel hn (sval 8 (bitsOf x 47 40)) (sval 8 (bitsOf x 39 32)) with
      | some t => some (some (.held t off))
      | none => none

/-! Context tables and walks (R327-R333) -/

/-- CTXBASE's offset in the device registers (R410). -/
def keyCtxbase : Nat := 8

def Dev.ctxbase (d : Dev) : Nat := (mget 0 d.regs keyCtxbase).toNat

/-- The 64 bytes of a context descriptor: the homes cache descriptors (R327). -/
def State.descriptor (s : State) (ctx : Nat) : List Byte :=
  match s.dev.ctxc.find? (fun p => p.1 == ctx) with
  | some p => p.2
  | none => bytesAt s.mem (s.dev.ctxbase + 64 * ctx) 64

def descDbl (bs : List Byte) (off : Nat) : Nat := leNat ((bs.drop off).take 8)

def State.ctxLive (s : State) (ctx : Nat) : Bool := bitsOf (descDbl (s.descriptor ctx) 16) 33 32 == 1

def State.ctxPool (s : State) (ctx : Nat) : Dbl := BitVec.ofNat 64 (descDbl (s.descriptor ctx) 8)

def State.ctxPasid (s : State) (ctx : Nat) : Option Nat :=
  let x := descDbl (s.descriptor ctx) 16
  if bitOf x 31 then some (bitsOf x 19 0) else none

def pteV (e : Nat) : Bool := bitOf e 0
def pteL (e : Nat) : Bool := bitOf e 1
def pteC (e : Nat) : Bool := bitOf e 10
def pteFrame (e : Nat) : Nat := bitsOf e 51 12

/-- A malformed entry (R330): `idx` is the index that selected it, `own` says zone 0x00. -/
def pteMalformed (own : Bool) (e lev idx : Nat) : Bool :=
  let pa := pteFrame e * 4096
  let bad := own && decide (Config.reservedBase ≤ pa)
  if pteL e then
    match lev with
    | 0 => bad || (pteC e && pteFrame e % 16 != idx % 16)
    | 1 => bad || pa % 2 ^ 25 != 0 || (pteC e && pa / 2 ^ 25 % 16 != idx % 16)
    | 2 => bad || pteC e || pa % 2 ^ 38 != 0
    | _ => true
  else lev == 0 || pa % 2 ^ 16 != 0 || bad

/-- What a walk found (R331, R337): a leaf with its address and entry, or why not: 1 no table, 2 no valid leaf, 3 malformed, 5 uncorrectable. -/
inductive Walk where
  | leaf (pa leaf entry lev : Nat)
  | none (why : Nat)
  deriving DecidableEq, Repr

/-- The HBM stack of a frame is one of the twelve and trained (R202, R436). -/
def Dev.frameReady (d : Dev) (pa : Nat) : Bool := decide (pa < Config.deviceTop) && d.ready.getLsbD (pa / 0x1000000000)

/-- A zone that reaches the device's own memory: 0x00, or the zone of its own node (R418). -/
def Dev.ownZone (d : Dev) (zone : Nat) : Bool := zone == 0 || zone == d.node

/-- The levels of a walk from `lev` downward (R331): `own` says zone 0x00, `here` that the frames are those of the device itself, where an entry that names a frame of a stack that is not ready is no legal entry (R436), nor a large leaf that reaches such a frame. -/
def State.walkFrom (s : State) (own here : Bool) (va node : Nat) : Nat → Walk
  | 0 =>
    let a := node + 8 * bitsOf va 24 12
    let e := s.phys64 a
    if s.dev.uncorrAt a 8 then .none 5
    else if !pteV e then .none 2
    else if pteMalformed own e 0 (bitsOf va 24 12) || (here && !s.dev.frameReady (pteFrame e * 4096)) then .none 3
    else .leaf (pteFrame e * 4096 + va % 2 ^ 12) a e 0
  | lev + 1 =>
    let idx := bitsOf va (13 * (lev + 1) + 24) (13 * (lev + 1) + 12)
    let a := node + 8 * idx
    let e := s.phys64 a
    if s.dev.uncorrAt a 8 then .none 5
    else if !pteV e then .none 2
    else if pteMalformed own e (lev + 1) idx || (here && !s.dev.frameReady (pteFrame e * 4096)) then .none 3
    else if pteL e then
      let pa := pteFrame e * 4096 + va % 2 ^ (13 * (lev + 1) + 12)
      if here && !s.dev.frameReady pa then .none 3 else .leaf pa a e (lev + 1)
    else s.walkFrom own here va (pteFrame e * 4096) lev

/-- Walk(ctx, zone, va) (R331): an uncorrectable descriptor, directory entry or table entry ends it (R203); a level-3 node of zone 0x00 in the reserved frames or outside device memory is malformed (R330). -/
def State.walk (s : State) (ctx zone va : Nat) : Walk :=
  let d := s.descriptor ctx
  let zdir := descDbl d 0
  if s.dev.ctxc.all (fun p => p.1 != ctx) && s.dev.uncorrAt (s.dev.ctxbase + 64 * ctx) 64 then .none 5
  else if zdir = 0 ∨ s.ctxLive ctx = false then .none 1
  else
    let root := s.phys64 (zdir + 8 * zone)
    let node := bitsOf root 51 16 * 2 ^ 16
    if s.dev.uncorrAt (zdir + 8 * zone) 8 then .none 5
    else if node = 0 then .none 1
    else if zone = 0 ∧ Config.reservedBase ≤ node then .none 3
    else s.walkFrom (zone == 0) (s.dev.ownZone zone) va node 3

/-- ExecOk: the execute map of the Indigo core (R331, R347). -/
def Dev.execOk (d : Dev) (ctx pa : Nat) : Bool := d.xmap.any (fun p => p.1 == ctx && p.2 == pa / 4096)

/-- A frame marked executable for some context reads W as 0 (R331). -/
def Dev.frameExec (d : Dev) (pa : Nat) : Bool := d.xmap.any (fun p => p.2 == pa / 4096)

/-- The size code of a leaf (R331, R336). -/
def leafSize (lev : Nat) (c : Bool) : Nat :=
  match lev with
  | 0 => if c then 1 else 0
  | 1 => if c then 3 else 2
  | _ => 4

/-- W as it stands: a zone of the device's own memory grants none on a frame that is marked executable, whichever translation leads there (R331). -/
def Dev.execMasked (d : Dev) (zone pa : Nat) (a : Attr) : Attr :=
  if (zone = 0 ∨ zone = d.node) ∧ d.frameExec pa = true then { a with w := false } else a

/-- The attributes a leaf grants (R329, R331); the execute map is over frames of the device's own memory. -/
def attrOf (d : Dev) (ctx : Nat) (own : Bool) (pa e lev : Nat) : Attr :=
  { r := bitOf e 4, w := bitOf e 5, x := bitOf e 6 && own && d.execOk ctx pa,
    e := bitOf e 7, cls := bitsOf e 3 2, size := leafSize lev (pteC e) }

/-- An armed watchpoint covers the page (R380). -/
def Dev.watched (d : Dev) (ctx zone page : Nat) : Bool :=
  (upTo 8).any (fun n =>
    match mget none d.watch (8 * ctx + n) with
    | some w => w.en && w.zone.toNat == zone && decide (0 < w.len.toNat) &&
        decide (w.base.toNat / 4096 ≤ page) && decide (page ≤ (w.base.toNat + w.len.toNat - 1) / 4096)
    | none => false)

/-- Where a translation failed: an uncorrectable error that a walk meets is one of the walk (R374), marked by an address that no memory has; any other failure of a translation has no physical address. -/
def walkAddr (cause : Nat) : Nat := if cause = 0x17 then 2 ^ 64 else 0

/-- A translation (R199, R414): a location and attributes, a fault cause, or still waiting for the host's answer. -/
inductive Xlate where
  | ok (l : Loc) (a : Attr)
  | fault (cause : Nat)
  | wait
  deriving DecidableEq, Repr

/-- The home bank of a page (R197). -/
def bankOf (ctx zone page : Nat) : Nat := Config.homeHash ctx zone page % 512

/-- A home holds 2,048 translations, and its oldest is evicted for one more (R187); nothing says which (log 54). -/
def Dev.addTlb (d : Dev) (t : Tlb) : List Tlb :=
  if d.tlb.length < 2048 then d.tlb ++ [t]
  else
    let mine (u : Tlb) : Bool := bankOf u.ctx u.zone u.page == bankOf t.ctx t.zone t.page
    (match d.tlb.find? mine with
     | some u => if 2048 ≤ (d.tlb.filter mine).length then d.tlb.erase u else d.tlb
     | none => d.tlb) ++ [t]

/-- Keep the translation in the home's cache and set A in the leaf at its first use (R187, R333). D is set anew by the first write under this translation, whatever the leaf held (R333). -/
def State.fillTlb (s : State) (ctx zone page pa : Nat) (a : Attr) (leaf : Nat) : State :=
  let e := s.phys64 leaf
  let s1 := if bitOf e 8 then s else s.setPhys64 leaf (e + 2 ^ 8)
  let d := s1.dev
  let desc := if d.ctxc.any (fun p => p.1 == ctx) then d.ctxc else d.ctxc ++ [(ctx, s.descriptor ctx)]
  { s1 with dev := { d with
      tlb := d.addTlb { ctx := ctx, zone := zone, page := page, frame := pa / 4096, attr := a, leaf := leaf, dset := false },
      ctxc := desc } }

def Dev.tlbFind (d : Dev) (ctx zone page : Nat) : Option Tlb :=
  d.tlb.find? (fun t => t.ctx == ctx && t.zone == zone && t.page == page)

/-- The location of a translated frame: device memory, also through the zone of the device's own node, or the memory of fabric node `zone` (R188, R330, R418). -/
def frameLoc (node zone pa : Nat) : Loc := if zone = 0 ∨ zone = node then .dev pa else .peer (peerKey zone pa)

/-- An access of the zone leaves the device: to the host, or to another fabric node (R416). -/
def Dev.overLink (d : Dev) (zone : Nat) : Bool := zoneOf zone == .host || (zoneOf zone == .fabric && zone != d.node)

/-- A peer answers an access to its reserved frames with an error, reported as a completion timeout (R418), and so does the device itself where the zone names its own node (DESIGN CHOICE, log 64); so is an access over fabric ports that are not trained (R436). -/
def Dev.peerRefuses (d : Dev) (zone pa : Nat) : Bool :=
  zone != 0 && (decide (Config.reservedBase ≤ pa) || (zone != d.node && !d.ready.getLsbD 17))

/-- The count that home bank `bank` keeps of accesses to a frame (R187). -/
def countKey (bank frame : Nat) : Nat := bank * 2 ^ 40 + frame

/-- Home bank `bank` counts an access to a frame of device memory, in 16 bits (R187, R198); the count stays at 65,535 once there, since nothing says what follows (DESIGN CHOICE, log 60). -/
def State.countAccess (s : State) (bank : Nat) (l : Loc) : State :=
  match l with
  | .dev pa =>
    let k := countKey bank (pa / 4096)
    { s with dev := { s.dev with acnt := mset 0 s.dev.acnt k (Nat.min 65535 (mget 0 s.dev.acnt k + 1)) } }
  | _ => s

/-- Placement decay lowers one home's count of a frame (R187): when and by how much is not stated (log 60). -/
def State.decayCount (s : State) (bank frame n : Nat) : State :=
  let k := countKey bank frame
  { s with dev := { s.dev with acnt := mset 0 s.dev.acnt k (mget 0 s.dev.acnt k - n) } }

/-- A watched page is WT (R380). -/
def watchedAttr (d : Dev) (ctx zone page : Nat) (a : Attr) : Attr :=
  if d.watched ctx zone page then { a with cls := 3 } else a

/-- The answer for a translated frame: its location, with the attributes as they stand, or the error of a peer. The home counts the access (R198, R331, R380, R418). -/
def State.reached (s : State) (ctx zone page pa : Nat) (a : Attr) : State × Xlate :=
  if s.dev.peerRefuses zone pa then (s, .fault 0x1C)
  else
    let l := frameLoc s.dev.node zone pa
    (s.countAccess (bankOf ctx zone page) l, .ok l (s.dev.execMasked zone pa (watchedAttr s.dev ctx zone page a)))

/-- A translation miss sends one ATS Translation Request for its page, which all accesses that wait on the page share (R199, R414). -/
def Dev.askAts (d : Dev) (ctx page : Nat) : Dev :=
  if d.atsAsked.contains (ctx, page) then d else { d with atsAsked := d.atsAsked ++ [(ctx, page)], atsSent := d.atsSent + 1 }

/-- A PRI Page Request for a page: it is sent while the host's allocation has room, and else waits in age order (R414). -/
def Dev.askPage (d : Dev) (q : Pri) : Dev :=
  if d.pri.contains q then d
  else { d with pri := d.pri ++ [q], priSent := d.priSent + (decide (d.pri.length < Config.priAllocation)).toNat }

/-- The home translates an address of zones 0x00 to 0x7F and 0xF0 (R199, R331, R414); `wr` and `rd` are the permissions asked of the host, and a Page Request and its refusal belong to the accesses of its page that ask the same. -/
def State.xlate (s : State) (ctx zone va : Nat) (rd wr : Bool) : State × Xlate :=
  let page := va / 4096
  match zoneOf zone with
  | .host =>
    match s.ctxPasid ctx with
    | none => (s, .fault 0x15)
    | some _ =>
      if !s.dev.ready.getLsbD 16 then (s, .fault 0x1C)
      else if s.dev.priFail.contains ⟨ctx, page, rd, wr⟩ then
        ({ s with dev := { s.dev with priFail := s.dev.priFail.erase ⟨ctx, page, rd, wr⟩ } }, .fault 0x1B)
      else
        match s.dev.ats.find? (fun t => t.ctx == ctx && t.page == page) with
        | some t =>
          if (!rd || t.rd) && (!wr || t.wr) then
            (s, .ok (.host (4096 * t.frame + va % 4096)) { r := t.rd, w := t.wr, x := false, e := false, cls := 2, size := t.size })
          else ({ s with dev := s.dev.askPage ⟨ctx, page, rd, wr⟩ }, .wait)
        | none => (if s.dev.pri.contains ⟨ctx, page, rd, wr⟩ then s else { s with dev := s.dev.askAts ctx page }, .wait)
  | .own | .fabric =>
    match s.dev.tlbFind ctx zone page with
    | some t => s.reached ctx zone page (t.frame * 4096 + va % 4096) t.attr
    | none =>
      match s.walk ctx zone va with
      | .none why => (s, .fault (if why = 5 then 0x17 else 0x15))
      | .leaf pa leaf e lev =>
        let a := attrOf s.dev ctx (s.dev.ownZone zone) pa e lev
        (s.fillTlb ctx zone page pa a leaf).reached ctx zone page pa a
  | _ => (s, .fault 0x10)

/-- Some line of a physical range waits for a snoop response (R417). -/
def Dev.snoopedRange (d : Dev) (pa n : Nat) : Bool :=
  d.bisnp.any (fun k => decide (pa / 64 ≤ k) && decide (k ≤ (pa + n - 1) / 64) && decide (0 < n))

/-- The host or a peer holds a line that a write of `n` bytes touches: it waits for the answers to its snoops (R417). -/
def Loc.snoopedBy (d : Dev) (l : Loc) (n : Nat) : Bool :=
  match l with
  | .dev pa => d.snoopedRange pa n
  | _ => false

/-- The host or a peer holds the line in its cache: a device write waits for the answer to its snoop (R417). -/
def Loc.snooped (d : Dev) (l : Loc) : Bool :=
  match l with
  | .dev pa => d.bisnp.contains (pa / 64)
  | _ => false

/-! Writes at the home -/

/-- The four sessions of a context (R338): bitmap, base, pages, and the address of the control byte. -/
def State.sessions (s : State) (ctx : Nat) : List (Nat × Nat × Nat × Nat) :=
  let sess := descDbl (s.descriptor ctx) 24
  if sess = 0 then []
  else (upTo 4).filterMap fun i =>
    let b := sess + 64 * i
    if bitOf (byteAt s.mem (b + 20)).toNat 0 then
      some (s.phys64 b, s.phys64 (b + 8), s.phys64 (b + 16) % 2 ^ 32, b + 20)
    else none

/-- Set a page's bit in every active session and arm the page (R339); the control byte is written with its reserved bits zero (R6, R338). -/
def State.armPage (s : State) (ctx page : Nat) : State :=
  if s.dev.armed.contains (ctx, page) then s
  else
    let s1 := (s.sessions ctx).foldl (fun s x =>
      let (bm, rb, pages, ctl) := x
      if rb / 4096 ≤ page ∧ page < rb / 4096 + pages then
        let p := page - rb / 4096
        let a := bm + p / 8
        s.putDev a [byteAt s.mem a ||| BitVec.ofNat 8 (2 ^ (p % 8))]
      else s.putDev ctl [(byteAt s.mem ctl ||| 2) &&& 3]) s
    { s1 with dev := { s1.dev with armed := s1.dev.armed ++ [(ctx, page)] } }

/-- Set D in the leaf at the first write under the translation, and arm the page for its sessions (R333, R339). -/
def State.markDirty (s : State) (ctx zone page : Nat) : State :=
  match s.dev.tlbFind ctx zone page with
  | none => s
  | some t =>
    let s1 :=
      if t.dset then s
      else
        let e := s.phys64 t.leaf
        let s1 := if bitOf e 9 then s else s.setPhys64 t.leaf (e + 2 ^ 9)
        { s1 with dev := { s1.dev with tlb := s1.dev.tlb.map (fun u => if u = t then { u with dset := true } else u) } }
    if zone = 0 then s1.armPage ctx page else s1

/-- Who writes (R372, R381): AGENT code, hart number, place, unit, block sequence number; `quiet`: a write-back of arming, which is not reported (R380). -/
structure Writer where
  agent : Nat
  hart : Nat
  place : Nat
  unit : Nat
  seq : Nat
  quiet : Bool := false
  deriving DecidableEq, Repr

/-- The places of a write's bytes that it changes in part at least. -/
def writtenBytes (data : List (Byte × Byte)) : List Nat :=
  (List.zip (upTo data.length) data).filterMap (fun p => if p.2.2 = 0 then none else some p.1)

/-- Whether a watchpoint is hit by a write (R381): it writes a byte of the range; the double is the aligned one that holds the first byte written, after the write. -/
def Watch.hit (w : Watch) (zone va : Nat) (data : List (Byte × Byte)) (dbl : Nat) : Bool :=
  w.en && w.armed && w.zone.toNat == zone && decide (zone ≤ 0x7F) &&
  (writtenBytes data).any (fun i => decide (w.base.toNat ≤ va + i) && decide (va + i < w.base.toNat + w.len.toNat)) &&
  (!w.vmatch || (BitVec.ofNat 64 dbl &&& w.vmask) == (w.value &&& w.vmask))

/-- The device row of a home: bank b of cluster c lies in row c * 16 + b div 4 (R372). -/
def homeRow (ctx zone page : Nat) : Nat := bankOf ctx zone page / 4

/-- Report a hit (R373, R381): the packet names the writer, and the writer stops: a core or engine at its next block boundary, once for each hit, an AGE, unless it has stopped already, after the element. The packet of a write by a Slate or an application core, for which R372 has no row, goes by the row of the home, as that of another outside agent (DESIGN CHOICE, log 61). -/
def Dev.watchHit (d : Dev) (ctx n zone : Nat) (va : Dbl) (size dbl : Nat) (w : Writer) : Dev :=
  let d0 := BitVec.ofNat 64 (n + 2 ^ 8 * w.agent + 2 ^ 16 * w.place + 2 ^ 32 * Nat.log2 size)
  if w.agent ≤ 1 then
    let h := d.hart w.hart
    let f : FaultRec := { cause := 0x73, word := 0xFFFF, lsid := none, zone := zone, va := va, late := true,
                          d0 := d0, d1 := BitVec.ofNat 64 dbl, seq := some w.seq, src := h.sourceOf w.seq }
    d.setHart w.hart { h with pending := h.pending ++ [f] }
  else
    let p := { agentPacket d w.agent ctx w.place w.unit 0x73 zone va d0 (BitVec.ofNat 64 dbl) with seq := w.seq, late := true }
    let row := if w.agent = 4 then 0 else if 5 ≤ w.agent then homeRow ctx zone (va.toNat / 4096) else deviceRow w.place
    let d1 := d.sendPacket row p
    if w.agent = 2 then
      let m := d1.mt w.place
      d1.setMt w.place (m.setAge w.unit { m.age w.unit with state := if (m.age w.unit).state = 1 then 3 else (m.age w.unit).state })
    else d1

/-- Report every watchpoint that a write hits; ONCE clears EN (R380, R381). -/
def State.watchWrite (s : State) (ctx zone : Nat) (va : Dbl) (data : List (Byte × Byte)) (dbl : Nat) (wr : Writer) : State :=
  if wr.quiet then s
  else (upTo 8).foldl (fun s n =>
    match mget none s.dev.watch (8 * ctx + n) with
    | some w =>
      if w.hit zone va.toNat data dbl then
        let d := s.dev.watchHit ctx n zone va data.length dbl wr
        { s with dev := if w.once then { d with watch := mset none d.watch (8 * ctx + n) (some { w with en := false, armed := false }) } else d }
      else s
    | none => s) s

/-- The location `b` bytes back and `n` bytes on. -/
def Loc.move (l : Loc) (b n : Nat) : Loc :=
  match l with
  | .dev pa => .dev (pa - b + n)
  | .peer k => .peer (k - b + n)
  | .host k => .host (k - b + n)
  | .scr p o => .scr p (o - b + n)
  | .held t o => .held t (o - b + n)

/-! Acting on every core -/

def Saved.mapHarts (v : Saved) (f : Hart → Hart) : Saved := { v with hart := v.hart.map f, eng := v.eng.map f }

/-- Change every hart but one, live, on the shadow side or in a Sepia image. -/
def Dev.mapOthers (d : Dev) (keep : Option Nat) (f : Hart → Hart) : Dev :=
  { d with
    harts := d.harts.map (fun p => if keep = some p.1 then p else (p.1, p.2.map f)),
    shadow := d.shadow.map (fun p => (p.1, p.2.map (fun v => v.mapHarts f))),
    images := d.images.map (fun (i : Image) => if i.ivory then i else { i with tiles := i.tiles.map (fun v => v.mapHarts f) }) }

def Dev.mapHarts (d : Dev) (f : Hart → Hart) : Dev := d.mapOthers none f

/-- A line copied from a place that a write of `n` bytes at `l` touches. -/
def Line.copies (k : Line) (l : Loc) (n : Nat) : Bool :=
  match k.home with
  | some w => (upTo 8).any (fun i => l.meets n (w.move 0 (8 * i)))
  | none => false

/-- The directory invalidates every other core's copy of what a write of `n` bytes changes (R193, R198). -/
def Dev.dropCopies (d : Dev) (keep : Option Nat) (l : Loc) (n : Nat) : Dev :=
  d.mapOthers keep (fun h => if h.l1d.any (fun k => k.copies l n) then { h with l1d := h.l1d.filter (fun k => !k.copies l n) } else h)

/-- Another agent takes a copy of a line: no core holds it exclusive any longer (R193). -/
def Dev.shareLine (d : Dev) (l : Loc) (n : Nat) : Dev :=
  d.mapHarts (fun h => if h.l1d.any (fun k => k.excl.isSome && k.copies l n) then
    { h with l1d := h.l1d.map (fun k => if k.copies l n then { k with excl := none } else k) } else h)

/-- A write performed at the home of a translated location (R198, R205): masked bytes, D and dirty bits, error granules, the directory, watchpoints. -/
def State.homeWrite (s : State) (ctx zone : Nat) (va : Dbl) (l : Loc) (data : List (Byte × Byte)) (w : Writer) : State :=
  let s0 := s.markDirty ctx zone (va.toNat / 4096)
  let s00 := s0.writeLoc l data
  let s1 : State := { s00 with dev := s00.dev.dropCopies (if w.agent ≤ 1 then some w.hart else none) l data.length }
  match l with
  | .dev pa =>
    let s2 : State := { s1 with dev := { s1.dev with bisnp := s1.dev.bisnp.filter (fun k => k != pa / 64) } }
    s2.watchWrite ctx zone va data (leNat (bytesAt s2.mem ((pa + (writtenBytes data).headD 0) / 8 * 8) 8)) w
  | .peer k => s1.watchWrite ctx zone va data (leNat (bytesAt s1.peer ((k + (writtenBytes data).headD 0) / 8 * 8) 8)) w
  | _ => s1

/-! The core's own lines of PRIV and RSH pages (R193, R194) -/

def lineOf (va : Nat) : Nat := va / 64

def Hart.findLine (h : Hart) (ctx zone line : Nat) : Option Line :=
  h.l1d.find? (fun l => l.ctx == ctx && l.zone == zone && l.line == line)

def Line.same (l : Line) (ctx zone line : Nat) : Bool := l.ctx == ctx && l.zone == zone && l.line == line

/-- The nibble mask of `n` written bytes at offset `off` of a line, from the byte masks (R194). -/
def nibbleMask (off : Nat) (data : List (Byte × Byte)) : BitVec 128 :=
  (List.zip (upTo data.length) data).foldl (fun m p =>
    let lo := if p.2.2 &&& 0x0F = 0 then 0 else 2 ^ (2 * (off + p.1))
    let hi := if p.2.2 &&& 0xF0 = 0 then 0 else 2 ^ (2 * (off + p.1) + 1)
    m ||| BitVec.ofNat 128 (lo + hi)) 0

/-- Write masked bytes into a list of bytes from offset `off`. -/
def overlay (bs : List Byte) (off : Nat) (data : List (Byte × Byte)) : List Byte :=
  (List.zip (upTo bs.length) bs).map (fun p =>
    if off ≤ p.1 then
      match data[p.1 - off]? with
      | some q => maskByte p.2 q.1 q.2
      | none => p.2
    else p.2)

/-- A 6-bit mask is never whole nibbles (R478): such bytes are written at the home and never become dirty. -/
def bitGrain (data : List (Byte × Byte)) : Bool :=
  data.any (fun p => p.2 != 0 && p.2 != 0x0F && p.2 != 0xF0 && p.2 != 0xFF)

/-- The bytes and masks that a dirty line writes back (R194). -/
def Line.writeback (l : Line) : List (Byte × Byte) :=
  (List.zip (upTo l.data.length) l.data).map (fun p =>
    (p.2, (if l.dirty.getLsbD (2 * p.1) then 0x0F else 0) ||| (if l.dirty.getLsbD (2 * p.1 + 1) then 0xF0 else 0)))

/-- The granules of a line that carry dirty nibbles (R194, R203). -/
def Line.dirtyGranules (l : Line) : BitVec 2 :=
  (if l.dirty.toNat % 2 ^ 64 = 0 then 0 else 1) ||| (if l.dirty.toNat / 2 ^ 64 = 0 then 0 else 2)

/-- The posted write-back of a dirty line, counted by its zone where WBR, INVR or release work makes it (R250, R355). -/
def wbackItem (counted : Bool) (seq : Nat) (l : Line) : Posted :=
  { cls := classOfZone l.zone + (if counted then 0 else 4), ord := 0, status := 0, seq := seq, cause := 0,
    what := .wback l.zone (BitVec.ofNat 64 (64 * l.line)) l.writeback (l.bad &&& l.dirtyGranules) }

/-- The write-back of an evicted line: no count holds it (R223, R355). -/
def evictItem (seq : Nat) (l : Line) : Posted := wbackItem false seq l

/-- A write-back of the line of a zone. -/
def Posted.isWback (p : Posted) (zone line : Nat) : Bool :=
  match p.what with
  | .wback z a _ _ => z == zone && lineOf a.toNat == line
  | _ => false

/-- A write-back goes before everything that is still to be performed, so that a release that waits for what stands before it waits for the core's written data (R216, R218), but behind an earlier write-back of its line. -/
def placeWback (l : List Posted) (p : Posted) : List Posted :=
  let same (q : Posted) : Bool :=
    match p.what with
    | .wback z a _ _ => q.isWback z (lineOf a.toNat)
    | _ => false
  let later := (l.reverse.takeWhile (fun q => !same q)).length
  if later = l.length then p :: l else l.take (l.length - later) ++ [p] ++ l.drop (l.length - later)

/-- Put a line into the core's L1D in place of the old copy. An XT holds 2,048 lines, and the oldest is evicted for one more (R187, R223): which one is not stated (log 52). -/
def Hart.putLine (h : Hart) (l : Line) : Hart :=
  let ls := (h.l1d.filter (fun k => !k.same l.ctx l.zone l.line)) ++ [l]
  let out := ls.length - 2048 * Nat.max h.cwidth.toNat 1
  { h with l1d := ls.drop out, posted := ((ls.take out).filter (fun k => k.dirty != 0)).foldl (fun ps k => placeWback ps (evictItem h.seq k)) h.posted }

/-- Write back the lines that `p` selects; the lines stay clean, or go when `drop` (R249, R250). The write-backs of WBR, INVR and release work are counted, those of a REL's or an ACQ's regions, of acquire work and of an atomic's line are not (R355). -/
def Hart.writeback (h : Hart) (counted drop : Bool) (p : Line → Bool) : Hart :=
  let dirty := h.l1d.filter (fun l => p l && l.dirty != 0)
  let rest := if drop then h.l1d.filter (fun l => !p l)
    else h.l1d.map (fun l => if p l then { l with dirty := 0 } else l)
  { h with posted := (dirty.map (wbackItem counted h.seq)).foldl placeWback h.posted, l1d := rest }

/-- The lines that overlap a range of a zone (R217, R249). -/
def inRange (ctx zone : Nat) (a len : Nat) (l : Line) : Bool :=
  l.ctx == ctx && l.zone == zone && decide (0 < len) && decide (a / 64 ≤ l.line) && decide (l.line ≤ (a + len - 1) / 64)

/-- The lines of a CACHE operation (R249): those that overlap its range, or without a zone every line of its class. -/
def cacheHits (ctx cls : Nat) (zone : Option Nat) (a len : Dbl) (l : Line) : Bool :=
  match zone with
  | some z => inRange ctx z a.toNat len.toNat l
  | none => l.ctx == ctx && classOfZone l.zone == cls

def Posted.isCache (p : Posted) : Bool :=
  match p.what with
  | .cache _ _ _ _ => true
  | _ => false

/-- The item is a CACHE operation that covers the line. -/
def Posted.coversLine (p : Posted) (ctx : Nat) (l : Line) : Bool :=
  match p.what with
  | .cache _ zone a len => cacheHits ctx p.cls zone a len l
  | _ => false

/-! What a load returns (R209) -/

/-- Overlay the part of a store at `sva` that covers bytes of a load at `va` (same zone). -/
def overlayStore (bs : List Byte) (va sva : Nat) (data : List (Byte × Byte)) : List Byte :=
  (List.zip (upTo bs.length) bs).map (fun p =>
    if sva ≤ va + p.1 then
      match data[va + p.1 - sva]? with
      | some q => maskByte p.2 q.1 q.2
      | none => p.2
    else p.2)

def relData (v : Dbl) : List (Byte × Byte) := full (natLe 8 v.toNat)

/-- The core's own posted items not yet performed, in order (R209, R210). A pending write-back adds nothing: its bytes stand in the core's line, or a fill of the line waits for it. -/
def overlayPosted (zone va : Nat) (bs : List Byte) (p : Posted) : List Byte :=
  match p.what with
  | .store z a d => if z = zone then overlayStore bs va a.toNat d else bs
  | .rel z a v => if z = zone then overlayStore bs va a.toNat (relData v) else bs
  | _ => bs

/-- A store held in a block in flight, a REL's WORD among them (R209). -/
def overlaySt (zone va : Nat) (bs : List Byte) (t : St) : List Byte :=
  if t.zone = zone then overlayStore bs va t.va.toNat t.data else bs

def insertStore (l : List St) (t : St) : List St :=
  match l with
  | [] => [t]
  | u :: us => if u.lsid ≤ t.lsid then u :: insertStore us t else t :: u :: us

/-- Stores of a block in LSID order (R209, R213). -/
def sortStores (l : List St) : List St := l.foldl insertStore []

/-- The value bytes of a core's own load: the home or own-line bytes, under the core's older stores in program order (R209). -/
def Hart.ownBytes (h : Hart) (tag lsid zone va : Nat) (base : List Byte) : List Byte :=
  let b1 := h.posted.foldl (overlayPosted zone va) base
  let b2 := (h.olderBlocks tag).foldl (fun bs b => (sortStores b.stores).foldl (overlaySt zone va) bs) b1
  match h.block tag with
  | some b => (sortStores (b.stores.filter (fun t => decide (t.lsid < lsid)))).foldl (overlaySt zone va) b2
  | none => b2

/-! Whole accesses of a core -/

/-- The result of an access at its target: bytes, a fault cause with a physical address, or still waiting. -/
inductive Access where
  | bytes (bs : List Byte)
  | fault (cause pa : Nat)
  | wait
  deriving DecidableEq, Repr

def Loc.addr (l : Loc) : Nat :=
  match l with
  | .dev pa => pa
  | .peer k => k
  | .host k => k
  | .scr _ off => off
  | .held _ off => off

def Loc.uncorr (d : Dev) (l : Loc) (n : Nat) : Bool :=
  match l with
  | .dev pa => d.uncorrAt pa n
  | .scr p off => errsIn (d.mt p).errs off n
  | .held t off => errsIn (d.heldMt t).errs off n
  | _ => false

/-- Remember a page's attributes in the core's lookaside of 512 entries per XT; the oldest entry is evicted for it (R187, R196, log 52). W of a page that its home has not armed stays out (R339). -/
def Hart.learn (h : Hart) (zone page : Nat) (a : Attr) (armed : Bool) : Hart :=
  let t : Tlb := { ctx := h.ctxid.toNat, zone := zone, page := page, frame := 0, attr := { a with w := a.w && armed }, leaf := 0, dset := a.w && !armed }
  if h.look.contains t then h
  else
    let l := (h.look.filter (fun u => !(u.ctx == t.ctx && u.zone == zone && u.page == page))) ++ [t]
    { h with look := l.drop (l.length - 512 * Nat.max h.cwidth.toNat 1) }

/-- The lookaside entry of a page (R196). -/
def Hart.lookEntry (h : Hart) (zone page : Nat) : Option Tlb :=
  h.look.find? (fun t => t.ctx == h.ctxid.toNat && t.zone == zone && t.page == page)

/-- A lookaside hit (R196). -/
def Hart.lookup (h : Hart) (zone page : Nat) : Option Attr :=
  match h.lookEntry zone page with
  | some t => some t.attr
  | none => none

/-- What a home returns of a page joins the lookaside of hart `hn` (R196, R339), but for a hart that is held, whose lookaside is the tile's or stands in its image (R390). -/
def State.learn (s : State) (hn zone page : Nat) (a : Attr) : State :=
  let h := s.hart hn
  if 2048 ≤ hn then s else s.setHart hn (h.learn zone page a (zone != 0 || s.dev.armed.contains (h.ctxid.toNat, page)))

/-- The attributes come back with the answer to an access that was performed, or whose permission the home refused (R196). -/
def State.learnAt (s : State) (hn zone : Nat) (va : Dbl) : State :=
  match zoneOf zone, (s.xlate (s.hart hn).ctxid.toNat zone va.toNat false false).2 with
  | .place, _ => s
  | _, .ok _ a => s.learn hn zone (va.toNat / 4096) a
  | _, _ => s

/-- A masked write consumes the old data when some byte is not whole, or it is narrower than a word (R203, R205, R235). -/
def maskedWrite (data : List (Byte × Byte)) : Bool := data.any (fun p => p.2 != 0xFF) || decide (data.length < 4)

/-! Accesses at the home or at a target tile -/

/-- What an access at the home finds: a location with its page's attributes, a fault with a physical address, or still waiting. -/
inductive Target where
  | at (l : Loc) (a : Attr)
  | fault (cause pa : Nat)
  | wait
  deriving DecidableEq, Repr

def scratchAttr : Attr := { r := true, w := true, x := false, e := false, cls := 2, size := 0 }

/-- The target of `n` bytes for context `ctx` (R189, R199): zone 0xFE addresses are relative to hart `hn`. Permissions are checked as asked, and uncorrectable data where the access consumes it. -/
def State.targetFor (s : State) (ctx hn zone : Nat) (va : Dbl) (n : Nat) (rd wr use : Bool) : State × Target :=
  match zoneOf zone with
  | .invalid => (s, .fault 0x10 0)
  | .place =>
    match s.scratchAt hn va n with
    | none => (s, .fault 0x11 0)
    | some none => (s, .wait)
    | some (some l) => (s, if use && l.uncorr s.dev n then .fault 0x17 l.addr else .at l scratchAttr)
  | _ =>
    match s.xlate ctx zone va.toNat rd wr with
    | (s1, .fault c) => (s1, .fault c (walkAddr c))
    | (s1, .wait) => (s1, .wait)
    | (s1, .ok l a) =>
      if (rd && !a.r) || (wr && !a.w) then (s1, .fault 0x13 l.addr)
      else if use && l.uncorr s1.dev n then (s1, .fault 0x17 l.addr)
      else (s1, .at l a)

/-- The target of an access that consumes what it reads. -/
def State.target (s : State) (ctx hn zone : Nat) (va : Dbl) (n : Nat) (rd wr : Bool) : State × Target :=
  s.targetFor ctx hn zone va n rd wr rd

/-- Read `n` bytes at the home. -/
def State.readHome (s : State) (ctx hn zone : Nat) (va : Dbl) (n : Nat) : State × Access :=
  match s.target ctx hn zone va n true false with
  | (s1, .at l _) => (s1, .bytes (s1.readLoc l n))
  | (s1, .fault c pa) => (s1, .fault c pa)
  | (s1, .wait) => (s1, .wait)

/-- Write masked bytes at the home: W alone is asked (R329), and a masked write consumes the old data (R203); a write waits while the host or a peer holds the line (R417). -/
def State.writeHome (s : State) (ctx hn zone : Nat) (va : Dbl) (data : List (Byte × Byte)) (w : Writer) : State × Access :=
  match s.targetFor ctx hn zone va data.length false true (maskedWrite data) with
  | (s1, .at l _) => if l.snoopedBy s1.dev data.length then (s1, .wait) else (s1.homeWrite ctx zone va l data w, .bytes [])
  | (s1, .fault c pa) => (s1, .fault c pa)
  | (s1, .wait) => (s1, .wait)

/-- A write of one of the device's own units at the home: of a line that the host or a peer keeps, the snoop and its response are one step with the write (R417, log 32). -/
def State.writeUnit (s : State) (ctx hn zone : Nat) (va : Dbl) (data : List (Byte × Byte)) (w : Writer) : State × Access :=
  match s.targetFor ctx hn zone va data.length false true (maskedWrite data) with
  | (s1, .at l _) => (s1.homeWrite ctx zone va l data w, .bytes [])
  | (s1, .fault c pa) => (s1, .fault c pa)
  | (s1, .wait) => (s1, .wait)

/-- A write-back performed at its home (R194): its masked bytes, and the granules that it writes with an error code (R203). -/
def State.writeBack (s : State) (ctx hn zone : Nat) (va : Dbl) (data : List (Byte × Byte)) (bad : BitVec 2) (seq : Nat) (quiet : Bool) : State × Access :=
  let w : Writer := { agent := if isEngine hn then 1 else 0, hart := hn, place := placeOfHart hn, unit := 0, seq := seq, quiet := quiet }
  match s.target ctx hn zone va data.length false true with
  | (s1, .at l _) =>
    if l.snoopedBy s1.dev data.length then (s1, .wait)
    else
      let s2 := s1.homeWrite ctx zone va l data w
      ({ s2 with dev := s2.dev.spoilLine l bad }, .bytes [])
  | (s1, .fault c pa) => (s1, .fault c pa)
  | (s1, .wait) => (s1, .wait)

/-- Write one element whose bits may lie in two pages: both are translated before either is written (R478). -/
def State.writeElem (s : State) (ctx hn zone : Nat) (va : Dbl) (data : List (Byte × Byte)) (w : Writer) : State × Access :=
  let k := 4096 - va.toNat % 4096
  if data.length ≤ k then s.writeHome ctx hn zone va data w
  else
    match s.targetFor ctx hn zone (va + BitVec.ofNat 64 k) (data.length - k) false true true with
    | (s1, .fault c pa) => (s1, .fault c pa)
    | (s1, .wait) => (s1, .wait)
    | (s1, .at l _) =>
      if l.snoopedBy s1.dev (data.length - k) then (s1, .wait)
      else
        match s1.writeHome ctx hn zone va (data.take k) w with
        | (s2, .bytes _) => (s2.homeWrite ctx zone (va + BitVec.ofNat 64 k) l (data.drop k) w, .bytes [])
        | r => r

/-! Names of locations -/

/-- The name under which a core's accesses to a location meet, whatever address they use (R201, R208): zone numbers from 256 up stand for device, peer and host memory. A scratchpad byte is named by its position. -/
def State.nameOf (s : State) (ctx zone : Nat) (va : Dbl) : Nat × Dbl :=
  match zoneOf zone with
  | .own | .fabric | .host =>
    match (s.xlate ctx zone va.toNat false false).2 with
    | .ok (.dev pa) _ => (256, BitVec.ofNat 64 pa)
    | .ok (.peer k) _ => (257, BitVec.ofNat 64 k)
    | .ok (.host k) _ => (258, BitVec.ofNat 64 k)
    | _ => (zone, va)
  | _ => (zone, va)

/-- A store, a REL or a JADD by the names of its bytes; the word of a JADD stands as bytes that a store leaves as they are. -/
def PWhat.renamed (f : Nat → Dbl → Nat × Dbl) (w : PWhat) : PWhat :=
  match w with
  | .store z a d => .store (f z a).1 (f z a).2 d
  | .rel z a v => .rel (f z a).1 (f z a).2 v
  | .jadd seg _ => .store (f 0 (seg + 56)).1 (f 0 (seg + 56)).2 (List.replicate 8 (0, 0))
  | w => w

def Posted.renamed (f : Nat → Dbl → Nat × Dbl) (p : Posted) : Posted := { p with what := p.what.renamed f }

def Seen.renamed (f : Nat → Dbl → Nat × Dbl) (x : Seen) : Seen := { x with zone := (f x.zone x.va).1, va := (f x.zone x.va).2 }

def Block.renamed (f : Nat → Dbl → Nat × Dbl) (b : Block) : Block :=
  { b with stores := b.stores.map (fun t => { t with zone := (f t.zone t.va).1, va := (f t.zone t.va).2 })
           seen := b.seen.map (Seen.renamed f) }

/-- The core's accesses by the names of their locations. -/
def Hart.renamed (f : Nat → Dbl → Nat × Dbl) (h : Hart) : Hart :=
  { h with posted := h.posted.map (Posted.renamed f), blocks := h.blocks.map (Block.renamed f) }

/-- The naming that the context of hart `hn` has. -/
def State.namesOf (s : State) (hn : Nat) : Nat → Dbl → Nat × Dbl := s.nameOf (s.hart hn).ctxid.toNat

/-! One core's lines of one location (R201, R209) -/

/-- The line stands for the same 64 bytes as the line of an address, by the names that the core's context gives. -/
def Line.names (f : Nat → Dbl → Nat × Dbl) (ctx zone va : Nat) (l : Line) : Bool :=
  l.ctx == ctx && (l.line == lineOf va && l.zone == zone || f l.zone (BitVec.ofNat 64 (64 * l.line)) == f zone (BitVec.ofNat 64 (64 * lineOf va)))

/-- Bytes `off` on of a line, under what the core's other lines of the same location hold dirty (R201, R209). -/
def State.underTwins (s : State) (hn zone va off : Nat) (bs : List Byte) : List Byte :=
  let h := s.hart hn
  (h.l1d.filter (fun l => l.dirty != 0 && l.names (s.namesOf hn) h.ctxid.toNat zone va)).foldl (fun bs l => overlayStore bs off 0 l.writeback) bs

/-- A write-back of one of the core's own lines of the location has not been performed yet: no line is filled from its home before that (R193, R209). -/
def State.wbackPending (s : State) (hn zone line : Nat) : Bool :=
  let f := s.namesOf hn
  let a := BitVec.ofNat 64 (64 * line)
  (s.hart hn).posted.any (fun p =>
    match p.what with
    | .wback z x _ _ => (z == zone && lineOf x.toNat == line) || f z x == f zone a
    | _ => false)

/-- The core's lines, and what loads of blocks in flight have read, take the bytes of one line that the core has written, under whatever address they stand; dirty masks stay (R201, R209, R214, R478). -/
def Hart.patchPart (f : Nat → Dbl → Nat × Dbl) (h : Hart) (zone va : Nat) (data : List (Byte × Byte)) : Hart :=
  let nm := f zone (BitVec.ofNat 64 va)
  { h with
    l1d := h.l1d.map (fun l => if l.names f h.ctxid.toNat zone va then { l with data := overlay l.data (va % 64) data } else l)
    blocks := h.blocks.map (fun b => { b with seen := b.seen.map (fun x =>
      let xn := f x.zone x.va
      if xn.1 = nm.1 then { x with base := overlayStore x.base xn.2.toNat nm.2.toNat data, wide := overlayStore x.wide (xn.2.toNat / 16 * 16) nm.2.toNat data }
      else x) }) }

/-- The same for a write of up to 64 bytes, which may reach into a second line. -/
def State.patchOwn (s : State) (hn zone va : Nat) (data : List (Byte × Byte)) : State :=
  let f := s.namesOf hn
  let k := 64 - va % 64
  let h1 := (s.hart hn).patchPart f zone va (data.take k)
  s.setHart hn (if data.length ≤ k then h1 else h1.patchPart f zone (va + k) (data.drop k))

/-! A core's accesses to one line -/

/-- The 32-byte granules of a line that `n` bytes from offset `off` touch (R203). -/
def granules (off n : Nat) : BitVec 2 :=
  (if off < 32 then 1 else 0) ||| (if 32 < off + n then 2 else 0)

/-- The 32-byte granules that `n` bytes from offset `off` cover whole. -/
def wholeGranules (off n : Nat) : BitVec 2 :=
  (if off = 0 ∧ 32 ≤ n then 1 else 0) ||| (if off ≤ 32 ∧ 64 ≤ off + n then 2 else 0)

/-- A line of hart `hn` filled from its home (R193), under what the core's other lines of the location hold (R209), with the error marks of its granules (R203). -/
def State.fillLine (s : State) (hn zone : Nat) (va : Dbl) (l : Loc) : Line :=
  let w := l.move (va.toNat % 64) 0
  { ctx := (s.hart hn).ctxid.toNat, zone := zone, line := lineOf va.toNat, data := s.underTwins hn zone va.toNat 0 (s.readLoc w 64), dirty := 0,
    bad := (if w.uncorr s.dev 32 then 1 else 0) ||| (if (w.move 0 32).uncorr s.dev 32 then 2 else 0) }

/-- A line that the directory tracks: filled from place `l`, with the error marks of its granules (R193, R203). -/
def State.copyLine (s : State) (hn zone : Nat) (va : Dbl) (l : Loc) : Line :=
  let w := l.move (va.toNat % 64) 0
  { ctx := (s.hart hn).ctxid.toNat, zone := zone, line := lineOf va.toNat, data := [], dirty := 0, home := some w
    bad := (if w.uncorr s.dev 32 then 1 else 0) ||| (if (w.move 0 32).uncorr s.dev 32 then 2 else 0) }

/-- The core takes a copy of a line that the directory tracks, exclusive or not: every core that held it exclusive gives that up (R193). -/
def State.copyInto (s : State) (hn : Nat) (k : Line) : State :=
  let s1 : State := match k.home with
    | some w => { s with dev := s.dev.shareLine w 64 }
    | none => s
  s1.setHart hn ((s1.hart hn).putLine k)

/-- The L1D holds lines of the zone (R188, R414): of zone 0xF0 when the host link runs CXL.cache. -/
def Dev.cachedZone (d : Dev) (zone : Nat) : Bool := zoneOf zone == .own || zoneOf zone == .fabric || d.cxlCache

/-- The bytes of the core's own line, as a load of hart `hn` sees them; a granule that came with an error faults (R203). -/
def State.lineBytes (s : State) (hn : Nat) (k : Line) (va n : Nat) : List Byte :=
  match k.home with
  | none => (k.data.drop (va % 64)).take n
  | some w => s.underTwins hn k.zone va (va % 64) (s.readLoc (w.move 0 (va % 64)) n)

/-- The pages whose lines a core keeps with bytes of its own: PRIV and RSH pages of zone 0x00. In zones 0x01 to 0x7F a store is performed at the home of the page, whatever its class (R208, R222, log 60). -/
def keptClass (zone : Nat) (a : Attr) : Bool := zone == 0 && decide (a.cls ≤ 1)

/-- An access of hart `hn` comes to the home of its page. A walk that starts there, for the home holds no translation, is counted, and the request may miss in L2, which the model does not keep (R359, log 59). -/
def State.countWalk (s : State) (hn zone : Nat) (va : Dbl) : State :=
  let h := s.hart hn
  match zoneOf zone with
  | .own | .fabric =>
    (if (s.dev.tlbFind h.ctxid.toNat zone (va.toNat / 4096)).isSome then s else s.setHart hn (h.count 8 1)).countSome hn 7 1
  | _ => s

/-- An access of a core to a line that its L1D is to fill: a miss (R359). -/
def State.countMiss (s : State) (hn : Nat) : State := s.setHart hn ((s.hart hn).count 6 1)

/-- Read `n` bytes of one line as hart `hn` sees them at the home, in its own line, or in a scratchpad, before its own pending stores. Lines are filled and kept (R193): those of PRIV and RSH pages of zone 0x00 with bytes of their own (log 60), the others under the directory of their home; a line whose own write-back is still to be performed is not filled before it (R209). The reply to a hart that is held fills none. -/
def State.readAs (s : State) (hn zone : Nat) (va : Dbl) (n : Nat) : State × Access :=
  let h := s.hart hn
  let ctx := h.ctxid.toNat
  let off := va.toNat % 64
  match zoneOf zone with
  | .own | .fabric | .host =>
    match h.findLine ctx zone (lineOf va.toNat) with
    | some l => (s, if l.bad &&& granules off n = 0 then .bytes (s.lineBytes hn l va.toNat n) else .fault 0x17 0)
    | none =>
      match (s.countWalk hn zone va).xlate ctx zone va.toNat true false with
      | (s1, .fault c) => (s1, .fault c (walkAddr c))
      | (s1, .wait) => (s1, .wait)
      | (s1, .ok l a) =>
        let s2 := s1.learn hn zone (va.toNat / 4096) a
        if !a.r then (s2, .fault 0x13 l.addr)
        else if l.uncorr s2.dev n then (s2, .fault 0x17 l.addr)
        else if s2.wbackPending hn zone (lineOf va.toNat) then (s2, .wait)
        else if 2048 ≤ hn then (s2, .bytes (s2.underTwins hn zone va.toNat off (s2.readLoc l n)))
        else if keptClass zone a then
          let line := s2.fillLine hn zone va l
          let s3 := s2.countMiss hn
          (s3.setHart hn ((s3.hart hn).putLine line), .bytes ((line.data.drop off).take n))
        else
          let s3 := if s2.dev.cachedZone zone then (s2.countMiss hn).copyInto hn (s2.copyLine hn zone va l) else s2
          (s3, .bytes (s2.underTwins hn zone va.toNat off (s2.readLoc l n)))
  | _ => s.readHome ctx hn zone va n

/-- A store is merged into the core's own line (R193, R194): whole granules lose their error (R203). -/
def Line.store (l : Line) (off : Nat) (data : List (Byte × Byte)) : Line :=
  { l with data := overlay l.data off data, dirty := l.dirty ||| nibbleMask off data,
           bad := if maskedWrite data then l.bad else l.bad &&& ~~~wholeGranules off data.length }

/-- The line of a store that has been performed at its home: of a COH page it is held after it, exclusive in zones 0x00 and 0xF0, of a WT page when it was held before (R193). In zones 0x01 to 0x7F every store is performed at the home (R208, log 60). A line that was not held is a miss (R359). -/
def State.allocate (s : State) (hn zone : Nat) (va : Dbl) (l : Loc) (cls : Nat) : State :=
  let held := ((s.hart hn).findLine (s.hart hn).ctxid.toNat zone (lineOf va.toNat)).isSome
  if s.dev.cachedZone zone && (cls != 3 || held) then
    let s1 := if held then s else s.countMiss hn
    s1.copyInto hn { s1.copyLine hn zone va l with excl := if cls = 2 ∧ zoneOf zone ≠ .fabric then some 0 else none }
  else s

/-- A store into a line that the core holds exclusive reaches no home (R193, R198): the line's bytes are the location's. A granule that it writes in part stays bad where it was, and reads so at the home (R203). -/
def State.storeExcl (s : State) (hn : Nat) (k : Line) (w : Loc) (g : BitVec 2) (off : Nat) (data : List (Byte × Byte)) : State :=
  let s1 := s.writeLoc (w.move 0 off) data
  let g1 := g ||| granules off data.length
  let bad := if maskedWrite data then k.bad else k.bad &&& ~~~wholeGranules off data.length
  let s2 : State := { s1 with dev := s1.dev.spoilLine w (bad &&& g1) }
  s2.setHart hn ((s2.hart hn).putLine { k with bad := bad, excl := some g1 })

/-- A store of hart `hn` at its home: the core's own line of a PRIV or RSH page, or the home's memory (R193, R208). -/
def State.storeHome (s : State) (hn zone : Nat) (va : Dbl) (data : List (Byte × Byte)) (w : Writer) : State × Access :=
  let ctx := (s.hart hn).ctxid.toNat
  match (s.countWalk hn zone va).xlate ctx zone va.toNat false true with
  | (s1, .fault c) => (s1, .fault c (walkAddr c))
  | (s1, .wait) => (s1, .wait)
  | (s1, .ok l a) =>
    let line := ((s1.hart hn).findLine ctx zone (lineOf va.toNat)).filter (fun k => k.home.isNone)
    if !a.w then (s1.learn hn zone (va.toNat / 4096) a, .fault 0x13 l.addr)
    else if l.snoopedBy s1.dev data.length then (s1, .wait)
    else if maskedWrite data && line.isNone && l.uncorr s1.dev data.length then (s1, .fault 0x17 l.addr)
    else if keptClass zone a then
      if line.isNone && s1.wbackPending hn zone (lineOf va.toNat) then (s1, .wait)
      else
        let k := line.getD (s1.fillLine hn zone va l)
        let s1' := if line.isNone then s1.countMiss hn else s1
        let s2 := s1'.setHart hn ((s1'.hart hn).putLine (k.store (va.toNat % 64) data))
        ((s2.markDirty ctx zone (va.toNat / 4096)).learn hn zone (va.toNat / 4096) a, .bytes [])
    else (((s1.homeWrite ctx zone va l data w).allocate hn zone va l a.cls).learn hn zone (va.toNat / 4096) a, .bytes [])

/-- A store at its target: a scratchpad, the core's own line or one that it holds exclusive when the line is held and the lookaside grants W, which reaches no home (R198), or else the home. An element of 6 bits is one bit-masked write at the home (R478). -/
def State.storeAt (s : State) (hn zone : Nat) (va : Dbl) (data : List (Byte × Byte)) (seq : Nat) : State × Access :=
  let h := s.hart hn
  let ctx := h.ctxid.toNat
  let w : Writer := { agent := if isEngine hn then 1 else 0, hart := hn, place := placeOfHart hn, unit := 0, seq := seq }
  match zoneOf zone with
  | .place =>
    match s.scratchAt hn va data.length with
    | some (some l) => (s.writeLoc l data, .bytes [])
    | some none => (s, .wait)
    | none => (s, .fault 0x11 0)
  | .invalid => (s, .fault 0x10 0)
  | _ =>
    if bitGrain data then
      match s.writeElem ctx hn zone va data w with
      | (s1, .wait) => (s1, .wait)
      | (s1, r) => ((s1.learnAt hn zone va).learnAt hn zone (va + BitVec.ofNat 64 (data.length - 1)), r)
    else
      match h.findLine ctx zone (lineOf va.toNat), h.lookup zone (va.toNat / 4096) with
      | some k, some a =>
        match k.home, k.excl with
        | none, _ => if a.w then (s.setHart hn (h.putLine (k.store (va.toNat % 64) data)), .bytes []) else s.storeHome hn zone va data w
        | some l, some g => if a.w then (s.storeExcl hn k l g (va.toNat % 64) data, .bytes []) else s.storeHome hn zone va data w
        | some _, none => s.storeHome hn zone va data w
      | _, _ => s.storeHome hn zone va data w

/-- Perform one store of hart `hn` (R208): all that the core holds of the location shows it (R209). An accepted misaligned one is performed whole too, though R224 makes it atomic per byte alone (DESIGN CHOICE, log 64). -/
def State.storeAs (s : State) (hn zone : Nat) (va : Dbl) (data : List (Byte × Byte)) (seq : Nat) : State × Access :=
  match s.storeAt hn zone va data seq with
  | (s1, .bytes bs) => (s1.patchOwn hn zone va.toNat data, .bytes bs)
  | r => r

/-- The bytes at an address as hart `hn` would read them now; nothing of it is an access. -/
def State.peekAs (s : State) (hn zone : Nat) (va : Dbl) (n : Nat) : List Byte :=
  let h := s.hart hn
  match zoneOf zone with
  | .place =>
    match s.scratchAt hn va n with
    | some (some l) => s.readLoc l n
    | _ => []
  | _ =>
    match h.findLine h.ctxid.toNat zone (lineOf va.toNat) with
    | some l => s.lineBytes hn l va.toNat n
    | none =>
      match (s.xlate h.ctxid.toNat zone va.toNat false false).2 with
      | .ok l _ => s.underTwins hn zone va.toNat (va.toNat % 64) (s.readLoc l n)
      | _ => []

end Sys2Proof.Machine
end

