-- ==== Sys2Proof/Machine/VFunc.lean ====
section
/-! DEFINITION. The functions of VFUNC (R154): the exact function value, as an integer times a power of two cut far below every rounding point. The transcendental ones are summed in fixed point with 320 fraction bits; 40 guard bits are dropped (log 5). -/
namespace Sys2Proof.Machine

/-- Fraction bits of the fixed-point work. -/
def fxP : Nat := 320

def fxOne : Nat := 2 ^ fxP

def fxMul (a b : Nat) : Nat := a * b / fxOne

/-- Σ z^(2k+1)/(2k+1) from term k on (atanh z), `p` = z^(2k+1), `z2` = z². -/
def atanhAux : Nat → Nat → Nat → Nat → Nat
  | 0, _, _, _ => 0
  | n + 1, p, z2, k => p / (2 * k + 1) + atanhAux n (fxMul p z2) z2 (k + 1)

def fxAtanh (z : Nat) : Nat := atanhAux 110 z (fxMul z z) 0

/-- ln 2 = 2 atanh(1/3). -/
def fxLn2 : Nat := 2 * fxAtanh (fxOne / 3)

/-- Σ y^k/k! from term k on, `p` = the term. -/
def expAux : Nat → Nat → Nat → Nat → Nat
  | 0, _, _, _ => 0
  | n + 1, p, y, k => p + expAux n (fxMul p y / (k + 1)) y (k + 1)

/-- e^y for a fixed-point y below ln 2. -/
def fxExpSmall (y : Nat) : Nat := expAux 80 fxOne y 0

/-- Magnitude of an exact value as a fixed-point number, rounded down. -/
def fxOfMag (m : Nat) (e : Int) : Nat :=
  let s := e + fxP
  if s ≥ 0 then m * 2 ^ s.toNat else m / 2 ^ (-s).toNat

/-- e^y for a nonnegative fixed-point y: a fixed-point mantissa and a power of two. -/
def fxExp (y : Nat) : Nat × Nat := (fxExpSmall (y % fxLn2), y / fxLn2)

/-- A fixed-point magnitude with its guard bits dropped. -/
def fxEx (neg : Bool) (x : Nat) (e : Int) : Ex := .fin neg (x / 2 ^ 40) (e - fxP + 40) true

/-- Σ of the alternating arctangent series for 1/q. -/
def atanInvAux : Nat → Nat → Nat → Nat → Int
  | 0, _, _, _ => 0
  | n + 1, p, q2, k => ((p / (2 * k + 1) : Nat) : Int) - atanInvAux n (p / q2) q2 (k + 1)

/-- π by Machin's formula. -/
def fxPi : Nat :=
  (16 * atanInvAux 75 (fxOne / 5) 25 0 - 4 * atanInvAux 30 (fxOne / 239) 57121 0).toNat

/-- Σ (−1)^k x^(2k+1)/(k!(2k+1)), `p` = x^(2k+1)/k!. -/
def erfAux : Nat → Nat → Nat → Nat → Int
  | 0, _, _, _ => 0
  | n + 1, p, x2, k => ((p / (2 * k + 1) : Nat) : Int) - erfAux n (fxMul p x2 / (k + 1)) x2 (k + 1)

/-- 2^x. -/
def fnExp2 (x : Ex) : Ex :=
  match x with
  | .nan => .nan
  | .inf s => if s then .fin false 0 0 false else .inf false
  | .fin s m e _ =>
    if m = 0 then .fin false 1 0 false
    else if (Nat.log2 m : Int) + e ≥ 11 then .fin false 1 (if s then -5000 else 5000) true
    else
      let fx := fxOfMag m e
      let ip := fx / fxOne
      let fp := fx % fxOne
      if e ≥ 0 || m % 2 ^ (-e).toNat = 0 then .fin false 1 (if s then -(ip : Int) else ip) false
      else if s then fxEx false (fxExpSmall (fxMul (fxOne - fp) fxLn2)) (-(ip : Int) - 1)
      else fxEx false (fxExpSmall (fxMul fp fxLn2)) ip

/-- log2 x. -/
def fnLog2 (x : Ex) : Ex :=
  match x with
  | .nan => .nan
  | .inf s => if s then .nan else .inf false
  | .fin s m e _ =>
    if m = 0 then .inf true
    else if s then .nan
    else
      let l := Nat.log2 m
      let k : Int := (l : Int) + e
      if m = 2 ^ l then .fin (decide (k < 0)) k.natAbs 0 false
      else
        let num := (m - 2 ^ l) * fxOne / (m + 2 ^ l)
        let fr := 2 * fxAtanh num * fxOne / fxLn2
        let v : Int := k * fxOne + fr
        fxEx (decide (v < 0)) v.natAbs 0

/-- 1/x. -/
def fnRcp (x : Ex) : Ex := exDiv (.fin false 1 0 false) x

/-- 1/√x. -/
def fnRsq (x : Ex) : Ex :=
  match x with
  | .nan => .nan
  | .inf s => if s then .nan else .fin false 0 0 false
  | .fin s m e _ =>
    if m = 0 then .inf s
    else if s then .nan
    else
      let e' := if e % 2 = 0 then e else e - 1
      let m' := if e % 2 = 0 then m else 2 * m
      let r := isqrt (2 ^ 500 / m')
      .fin false r (-250 - e' / 2) (decide (r * r * m' ≠ 2 ^ 500))

/-- tanh x = (e^2x − 1)/(e^2x + 1). -/
def fnTanh (x : Ex) : Ex :=
  match x with
  | .nan => .nan
  | .inf s => .fin s 1 0 false
  | .fin s m e _ =>
    if m = 0 then .fin s 0 0 false
    else if (Nat.log2 m : Int) + e ≥ 6 then fxEx s (fxOne - 1) 0
    else
      let (p, k) := fxExp (2 * fxOfMag m e)
      let ex := p * 2 ^ k
      fxEx s ((ex - fxOne) * fxOne / (ex + fxOne)) 0

/-- 1/(1 + e^−x). -/
def fnSigm (x : Ex) : Ex :=
  match x with
  | .nan => .nan
  | .inf s => if s then .fin false 0 0 false else .fin false 1 0 false
  | .fin s m e _ =>
    if m = 0 then .fin false 1 (-1) false
    else if (Nat.log2 m : Int) + e ≥ 9 then (if s then .fin false 1 (-700) true else fxEx false (fxOne - 1) 0)
    else
      let (p, k) := fxExp (fxOfMag m e)
      let ex := p * 2 ^ k
      if s then .fin false (fxOne * 2 ^ 1200 / (fxOne + ex)) (-1200) true
      else fxEx false (ex * fxOne / (fxOne + ex)) 0

/-- erf x. -/
def fnErf (x : Ex) : Ex :=
  match x with
  | .nan => .nan
  | .inf s => .fin s 1 0 false
  | .fin s m e _ =>
    if m = 0 then .fin s 0 0 false
    else
      let fx := fxOfMag m e
      if fx ≥ 6 * fxOne then fxEx s (fxOne - 1) 0
      else
        let sum := (erfAux 400 fx (fxMul fx fx) 0).toNat
        fxEx s (2 * sum * fxOne / isqrt (fxPi * fxOne)) 0

/-- The function that VFUNC's vf selects (R154). -/
def vfuncOf (vf : Nat) (x : Ex) : Ex :=
  match vf with
  | 0 => fnExp2 x
  | 1 => fnLog2 x
  | 2 => fnRcp x
  | 3 => fnRsq x
  | 4 => exSqrt x
  | 5 => fnTanh x
  | 6 => fnSigm x
  | _ => fnErf x

end Sys2Proof.Machine
end

