-- ==== Sys2Proof/Machine/Vector.lean ====
section
/-! DEFINITION. Vector instructions (op 0x60 to 0x6C; R139-R160). They act on the vector context of their block, in VSID order, and fire in the oldest block; the context becomes committed state at the commit of the block. -/
namespace Sys2Proof.Machine

/-! Elements (R41, R102, R140) -/

/-- The result of a vector operation: the context, the token if one is sent, and whether it rounded stochastically; or the detail of a format-mismatch fault (R374). -/
inductive VRes where
  | ok (c : Vec) (tok : Option Token) (sr : Bool)
  | clash (d0 : Dbl)
  deriving DecidableEq, Repr

/-- What a vector operation reads beside its context: the numeric state, CWIDTH, the codebook's words. -/
structure VEnv where
  n : NEnv
  cw : Nat
  book : List Nat
  deriving DecidableEq, Repr

def laneKey (r l : Nat) : Nat := r * 512 + l

def Vec.lane (c : Vec) (r l : Nat) : Nat := (mget 0 c.v (laneKey r l)).toNat

def Vec.setLane (c : Vec) (r l x : Nat) : Vec := { c with v := mset 0 c.v (laneKey r l) (BitVec.ofNat 32 x) }

def Vec.tagOf (c : Vec) (r : Nat) : Nat := (mget 0 c.tag r).toNat

def Vec.setTag (c : Vec) (r t : Nat) : Vec := { c with tag := mset 0 c.tag r (BitVec.ofNat 4 t) }

/-- Elements per lane; NONE is one 32-bit element per lane (R140), in every instruction: R140 says so of the permutes, and R41 gives NONE no count (log 50). -/
def lanesOf (t : Nat) : Nat := if t = tagNone then 1 else perLane t

/-- Cap(t) (R140). -/
def cap (cw t : Nat) : Nat := if t = tagF64 then 32 * cw else 64 * cw * lanesOf t

/-- N(t) and NM(t) (R140). -/
def lenN (c : Vec) (cw t : Nat) : Nat := Nat.min c.vl.toNat (cap cw t)
def lenM (c : Vec) (cw t : Nat) : Nat := Nat.min (lenN c cw t) (64 * cw)

/-- Element `i` of a register under tag `t` (R41). -/
def Vec.elem (c : Vec) (r t i : Nat) : Nat :=
  if t = tagF64 then c.lane r (2 * i) + 2 ^ 32 * c.lane r (2 * i + 1)
  else
    let p := lanesOf t
    c.lane r (i / p) / 2 ^ (i % p * tagBits t) % 2 ^ tagBits t

/-- Write element `i`; a 6-bit format writes bits 31:24 of its lane as zero (R41). -/
def Vec.setElem (c : Vec) (r t i x : Nat) : Vec :=
  if t = tagF64 then (c.setLane r (2 * i) (x % 2 ^ 32)).setLane r (2 * i + 1) (x / 2 ^ 32)
  else
    let p := lanesOf t
    let lo := i % p * tagBits t
    let y := setBits (c.lane r (i / p)) (lo + tagBits t - 1) lo x
    c.setLane r (i / p) (if tagBits t = 6 then y % 2 ^ 24 else y)

def Vec.elems (c : Vec) (r t n : Nat) : List Nat := (upTo n).map (c.elem r t)

/-- Write elements 0, 1, … and set the tag; the rest of the register keeps its bits (R102, R141). -/
def Vec.write (c : Vec) (r t : Nat) (xs : List Nat) : Vec :=
  ((List.zip (upTo xs.length) xs).foldl (fun c p => c.setElem r t p.1 p.2) c).setTag r t

/-- A mask lane is true when any bit is 1 (R42). -/
def Vec.maskAt (c : Vec) (r i : Nat) : Bool := c.lane r i != 0

/-- The bits of an element in a token (R144). -/
def elemTok (t x : Nat) : Token :=
  if isIntTag t then tokOf (BitVec.ofNat 64 (sext64 (tagBits t) x))
  else if t = tagMask then tokOf (boolDbl (x != 0))
  else tokOf (BitVec.ofNat 64 x)

/-- The element that VBCAST reads from a token (R144). -/
def tokElem (t : Nat) (x : Dbl) : Nat :=
  if t = tagMask then (if x.getLsbD 0 then 0xFFFFFFFF else 0) else x.toNat % 2 ^ tagBits t

/-! Tag checks (R42, R141, R374) -/

/-- The detail of a clash: expected tag or 0xFF, found tag, register, NMODE of the core in bit 1 of byte 51. -/
def clashWord (e : VEnv) (expected found reg : Nat) : Dbl :=
  BitVec.ofNat 64 (expected + 2 ^ 8 * found + 2 ^ 16 * reg + 2 ^ 25 * e.n.nmode.toNat)

/-- A register that must carry exactly tag `t`. -/
def needTag (e : VEnv) (c : Vec) (r t : Nat) : Option Dbl :=
  if c.tagOf r = t then none else some (clashWord e t (c.tagOf r) r)

/-- A register whose tag must be among several. -/
def needIn (e : VEnv) (c : Vec) (r : Nat) (ts : List Nat) : Option Dbl :=
  if ts.contains (c.tagOf r) then none else some (clashWord e 0xFF (c.tagOf r) r)

/-- The working format (R141): the register carries VTYPE, and VTYPE is accepted. -/
def needWork (e : VEnv) (c : Vec) (r : Nat) (ts : List Nat) : Option Dbl :=
  if ts.contains c.vtype.toNat then needTag e c r c.vtype.toNat
  else some (clashWord e 0xFF (c.tagOf r) r)

def firstClash : List (Option Dbl) → Option Dbl
  | [] => none
  | some d :: _ => some d
  | none :: r => firstClash r

/-- Run a body once every tag check holds. -/
def whenTags (cs : List (Option Dbl)) (body : VRes) : VRes :=
  match firstClash cs with
  | some d => .clash d
  | none => body

/-- F64, F32, BF16, F16, I32, I16, I8 (R145, R149, R151; for R153 log 64). -/
def arithTags : List Nat := [tagF64, tagF32, tagBF16, tagF16, tagI32, tagI16, tagI8]
def wideFloatTags : List Nat := [tagF64, tagF32, tagBF16, tagF16]
def funcTags : List Nat := [tagF32, tagBF16, tagF16]
def logicTags : List Nat := [tagI32, tagI16, tagI8, tagI4, tagMask]
def quantTags : List Nat := [tagE4M3, tagE5M2, tagE3M2, tagE2M3, tagE2M1, tagI8, tagI4]

/-! Firing -/

/-- The element count of a form: NM(t) for the indexed form, else N(t) (R240). -/
def memCount (c : Vec) (cw form : Nat) : Nat :=
  if form = 2 then lenM c cw c.vtype.toNat else lenN c cw c.vtype.toNat

/-- Element width in bits as vector memory reads VTYPE: NONE is one 32-bit element per lane (R240). -/
def memBits (t : Nat) : Nat := tagBits t

/-- The elements of a form in the bytes it read, in element order (R240). -/
def loadedElems (c : Vec) (cw form : Nat) (bs : List Byte) : List Nat :=
  let n := memCount c cw form
  let w := memBits c.vtype.toNat
  let x := leNat bs
  (upTo n).map (fun i => x / 2 ^ (i * w) % 2 ^ w)

/-- LDV writes its register and tag; VTYPE NONE leaves tag NONE (R240). -/
def loadedVec (c : Vec) (cw d form : Nat) (bs : List Byte) : Vec :=
  let t := c.vtype.toNat
  let u := if t = tagNone then tagI32 else t
  (c.write d u (loadedElems c cw form bs)).setTag d t

/-- What VSETL or an LDV leaves of a context (R143, R240). -/
def VEarly.over (x : VEarly) (c : Vec) : Vec :=
  match x with
  | .len vl t => { c with vl := vl, vtype := t }
  | .load d form cw bs => loadedVec c cw d form bs

/-- The context that the block leaves, over the one that it finds (R139). -/
def Block.vecOver (b : Block) (c : Vec) : Vec := b.vec.getD (b.early.foldl (fun c x => x.over c) c)

/-- The context that a block finds: what the older blocks in flight leave of committed state (R139). -/
def Hart.vecBefore (h : Hart) (b : Block) : Vec := (h.olderBlocks b.tag).foldl (fun c o => o.vecOver c) h.vec

/-- The context an instruction reads: what lower VSIDs of the block left of what the older blocks leave (R139). -/
def Block.ctxOf (b : Block) (h : Hart) : Vec := b.vecOver (h.vecBefore b)

/-- VSETL or an LDV changes the context that the younger VSIDs of its block read (R139). -/
def Block.leave (b : Block) (x : VEarly) : Block :=
  match b.vec with
  | some c => { b with vec := some (x.over c) }
  | none => { b with early := b.early ++ [x] }

/-- The 256 codebook words of a context (R59) as its XTs hold them; a codebook never loaded reads zero. -/
def State.codebook (s : State) (ctx : Nat) : List Nat :=
  match s.dev.books.find? (fun b => b.1 == ctx) with
  | some b => b.2
  | none => []

/-- The codebook that a block reads: the one it has met first, whole, whatever another core's CBLD does meanwhile (R40, R341). -/
def State.bookOf (s : State) (hn : Nat) (b : Block) : List Nat :=
  match b.book with
  | some k => k
  | none => s.codebook (s.hart hn).ctxid.toNat

/-- Fire a vector instruction: its VSID's turn, its tag checks, its effect on the context, its token (R139, R141). A null left token resolves the VSID, changes no register and sends a null token. -/
def State.fireVec (s : State) (v : BitVec 5) (pr : BitVec 2) (operands : Nat) (t0 : BitVec 9)
    (g : VEnv → Vec → Token → VRes) : State :=
  let c := s.dev.focus
  s.fire { pr := pr, operands := operands, oldest := true, lsid := none, vsid := some v.toNat }
    (onBlock fun h b l _ =>
      if operands = 1 ∧ l.null = true then (b.resolveV c.idx (some v.toNat)).deliver t0 tokNull
      else
        let e : VEnv := { n := h.nenv c.idx, cw := h.cwidth.toNat, book := s.bookOf c.hart b }
        match g e (b.ctxOf h) l with
        | .clash d => b.fault 0x40 c.idx d 0
        | .ok vec tok sr =>
          let b1 := ({ b with vec := some vec, sr := b.sr || sr, book := some e.book }).resolveV c.idx (some v.toNat)
          match tok with
          | some k => b1.deliver t0 k
          | none => b1)

/-- A vector instruction without tokens. -/
def vecOp (s : State) (v : BitVec 5) (pr : BitVec 2) (g : VEnv → Vec → VRes) : Out :=
  .next (s.fireVec v pr 0 noTarget (fun e c _ => g e c))

/-- Whether an operation on `count` elements of VTYPE `t` under STATUS.RM counts as rounding with SR for the SRSTATE step (R55): every one that may round does, also where no element's result comes to RoundTo (R152 and R157 leave it open, DESIGN CHOICE, log 60). -/
def srUsed (e : VEnv) (t count : Nat) : Bool := !isIntTag t && decide (0 < count) && drawsSr e.n 6

/-! Element functions -/

/-- A floating element result: one rounding with STATUS.RM, element index `i` (R142). -/
def fround (e : VEnv) (t i : Nat) (x : Ex) : Nat := roundTo e.n t 6 false i x

def fval (e : VEnv) (t x : Nat) : Ex := operand e.n t x

/-- An integer result of S bits (R142). -/
def iwrap (t : Nat) (x : Int) : Nat := wrap (tagBits t) x
def ival (t x : Nat) : Int := sval (tagBits t) x

/-- Integer division with the corners of R56. -/
def idiv (a b : Int) : Int := if b = 0 then -1 else Int.tdiv a b

/-- VARITH (R145): element by element under VTYPE. -/
def varith (s : State) (v d a b : BitVec 5) (pr : BitVec 2) (ff : VEnv → Nat → Nat → Nat → Nat → Nat)
    (fi : Int → Int → Int) (rounds : Bool) : Out :=
  vecOp s v pr fun e c =>
    let t := c.vtype.toNat
    whenTags [needWork e c a.toNat arithTags, needTag e c b.toNat t]
      (let n := lenN c e.cw t
       let xs := (upTo n).map (fun i =>
         let x := c.elem a.toNat t i
         let y := c.elem b.toNat t i
         if isIntTag t then iwrap t (fi (ival t x) (ival t y)) else ff e t i x y)
       .ok (c.write d.toNat t xs) none (rounds && srUsed e t n))

/-- A floating VARITH element from an exact operation. -/
def vf2 (op : NEnv → Nat → Ex → Ex → Ex) (e : VEnv) (t i x y : Nat) : Nat :=
  fround e t i (op e.n 6 (fval e t x) (fval e t y))

/-- Minimum and maximum of encodings (R132). -/
def vfPick (mx : Bool) (e : VEnv) (t _i x y : Nat) : Nat :=
  fminmax e.n t mx (flushBits e.n t x) (flushBits e.n t y)

/-- The fused forms (R146): `sp` negates the product, `sc` the addend. -/
def vfused (s : State) (v d a b : BitVec 5) (pr : BitVec 2) (sp sc : Bool) : Out :=
  vecOp s v pr fun e c =>
    let t := c.vtype.toNat
    whenTags [needWork e c a.toNat wideFloatTags, needTag e c b.toNat t, needTag e c d.toNat t]
      (let n := lenN c e.cw t
       let xs := (upTo n).map (fun i =>
         let p := exMul (fval e t (c.elem a.toNat t i)) (fval e t (c.elem b.toNat t i))
         let z := fval e t (c.elem d.toNat t i)
         fround e t i (exAdd e.n 6 (if sp then p.negate else p) (if sc then z.negate else z)))
       .ok (c.write d.toNat t xs) none (srUsed e t n))

/-- The lane dot products (R147). -/
def vdot (s : State) (v d a b : BitVec 5) (pr : BitVec 2) (t : Nat) : Out :=
  vecOp s v pr fun e c =>
    whenTags [if c.vtype.toNat = t then none else some (clashWord e t c.vtype.toNat a.toNat),
              needTag e c a.toNat t, needTag e c b.toNat t, needTag e c d.toNat tagI32]
      (let k := lanesOf t
       let n := lenN c e.cw t
       let xs := (upTo ((n + k - 1) / k)).map (fun j =>
         let sum := (upTo k).foldl (fun (acc : Int) q =>
           if j * k + q < n then acc + ival t (c.elem a.toNat t (j * k + q)) * ival t (c.elem b.toNat t (j * k + q)) else acc) 0
         wrap 32 (sval 32 (c.lane d.toNat j) + sum))
       .ok (c.write d.toNat tagI32 xs) none false)

/-- The bitwise forms on integers or masks (R148). -/
def vlogic (s : State) (v d a b : BitVec 5) (pr : BitVec 2) (f : Nat → Nat → Nat → Nat) : Out :=
  vecOp s v pr fun e c =>
    let t := c.tagOf a.toNat
    whenTags [needIn e c a.toNat logicTags, needTag e c b.toNat t,
              if t = tagMask then none else needTag e c a.toNat c.vtype.toNat]
      (let n := if t = tagMask then lenM c e.cw c.vtype.toNat else lenN c e.cw t
       .ok (c.write d.toNat t ((upTo n).map (fun i => f (tagBits t) (c.elem a.toNat t i) (c.elem b.toNat t i)))) none false)

/-- The shifts (R148): by the low log2(S) bits of b[i]. -/
def vshift (s : State) (v d a b : BitVec 5) (pr : BitVec 2) (f : Nat → Nat → Nat → Nat) : Out :=
  vecOp s v pr fun e c =>
    let t := c.vtype.toNat
    whenTags [needWork e c a.toNat [tagI32, tagI16, tagI8], needTag e c b.toNat t]
      (.ok (c.write d.toNat t ((upTo (lenN c e.cw t)).map (fun i =>
        f (tagBits t) (c.elem a.toNat t i) (c.elem b.toNat t i % tagBits t)))) none false)

/-- The compare conditions (R149) on floating elements. -/
def vcmpFloat (k : Nat) (a b : Ex) : Bool :=
  let un := a.isNaN || b.isNaN
  let o := exCmp a b
  match k with
  | 0 => !un && o == .eq
  | 1 => un || o != .eq
  | 2 => !un && o == .lt
  | 3 => !un && o != .gt
  | 4 => !un && o == .gt
  | 5 => !un && o != .lt
  | 6 => un
  | _ => un || o == .lt

/-- The compare conditions (R149) on integer elements of `w` bits. -/
def vcmpInt (k w a b : Nat) : Bool :=
  match k with
  | 0 => a == b
  | 1 => a != b
  | 2 => decide (sval w a < sval w b)
  | 3 => decide (sval w a ≤ sval w b)
  | 4 => decide (sval w b < sval w a)
  | 5 => decide (sval w b ≤ sval w a)
  | 6 => false
  | _ => decide (a < b)

def maskLane (b : Bool) : Nat := if b then 0xFFFFFFFF else 0

/-- A permute under the tag of va (R150): tag checks and the list of result elements. -/
def vperm (s : State) (v d a : BitVec 5) (pr : BitVec 2) (checks : VEnv → Vec → Nat → List (Option Dbl))
    (f : VEnv → Vec → Nat → List Nat) : Out :=
  vecOp s v pr fun e c =>
    let t := c.tagOf a.toNat
    whenTags (checks e c t) (.ok (c.write d.toNat t (f e c t)) none false)

/-- A reduction over VTYPE (R151): sends one token. -/
def vred (s : State) (v a : BitVec 5) (t0 : BitVec 9) (pr : BitVec 2) (rounds : Bool)
    (f : VEnv → Nat → List Nat → Token) : Out :=
  .next (s.fireVec v pr 0 t0 fun e c _ =>
    let t := c.vtype.toNat
    whenTags [needWork e c a.toNat arithTags]
      (let xs := c.elems a.toNat t (lenN c e.cw t)
       .ok c (some (f e t xs)) (rounds && srUsed e t xs.length)))

/-- A mask reduction (R151). -/
def vredMask (s : State) (v a : BitVec 5) (t0 : BitVec 9) (pr : BitVec 2) (f : List Bool → Dbl) : Out :=
  .next (s.fireVec v pr 0 t0 fun e c _ =>
    whenTags [needTag e c a.toNat tagMask]
      (.ok c (some (tokOf (f ((upTo (lenM c e.cw c.vtype.toNat)).map (c.maskAt a.toNat))))) false))

/-- The sum of a list of elements in format `t`, rounded once into `u` with Draw index `i` (R151, R152). -/
def sumInto (e : VEnv) (t u i : Nat) (xs : List Nat) : Nat :=
  roundTo e.n u 6 false i (exSum e.n 6 (xs.map (fval e t)))

def isum (t : Nat) (xs : List Nat) : Int := xs.foldl (fun acc x => acc + ival t x) 0

/-- RMAX and RMIN of a list (R151): an empty list gives the least or greatest value. -/
def pickAll (e : VEnv) (t : Nat) (mx : Bool) (xs : List Nat) : Nat :=
  match xs with
  | [] =>
    if isIntTag t then (if mx then 2 ^ (tagBits t - 1) else 2 ^ (tagBits t - 1) - 1)
    else if mx then signBit t + infMag t else infMag t
  | x :: r =>
    if isIntTag t then
      r.foldl (fun acc y => if (if mx then ival t acc < ival t y else ival t y < ival t acc) then y else acc) x
    else r.foldl (fun acc y => fminmax e.n t mx acc (flushBits e.n t y)) (fminmax e.n t mx (flushBits e.n t x) (flushBits e.n t x))

/-- The format of RSUMW's floating result (R151). -/
def wideSum (t : Nat) : Nat := if t = tagBF16 ∨ t = tagF16 then tagF32 else tagF64

/-- A prefix value of RSUM in one format, by R152 with its Draw index 0 (R152, R153). -/
def scanSum (e : VEnv) (t : Nat) (xs : List Nat) : Nat :=
  if isIntTag t then iwrap t (isum t xs) else sumInto e t t 0 xs

/-- A full scan (R153). R153 lists no tags: va takes those of R151's list, of whose reductions each prefix is one, here and in VSCAN.SEGSUM (DESIGN CHOICE, log 64). -/
def vscan (s : State) (v d a : BitVec 5) (pr : BitVec 2) (rounds : Bool) (f : VEnv → Nat → Nat → List Nat → Nat) : Out :=
  vecOp s v pr fun e c =>
    let t := c.vtype.toNat
    whenTags [needWork e c a.toNat arithTags]
      (let n := lenN c e.cw t
       let xs := c.elems a.toNat t n
       .ok (c.write d.toNat t ((upTo n).map (fun i => f e t i (xs.take (i + 1))))) none (rounds && srUsed e t n))

/-- A VFUNC form (R154): always RNE. -/
def vfunc (s : State) (v d a : BitVec 5) (pr : BitVec 2) (k : Nat) : Out :=
  vecOp s v pr fun e c =>
    let t := c.vtype.toNat
    whenTags [needWork e c a.toNat funcTags]
      (.ok (c.write d.toNat t ((c.elems a.toNat t (lenN c e.cw t)).map (fun x =>
        roundTo e.n t 0 false 0 (vfuncOf k (fval e t x))))) none false)

/-- One VCVT element (R155). -/
def cvtElem (e : VEnv) (src dst mode i x : Nat) : Nat :=
  let v := if isIntTag src then Ex.ofInt (ival src x) else fval e src x
  if isIntTag dst then
    wrap (tagBits dst) (if isIntTag src then
      clamp (intRange true (tagBits dst)).1 (intRange true (tagBits dst)).2 (ival src x)
      else roundToInt e.n true (tagBits dst) mode i v)
  else roundTo e.n dst mode (isNarrow dst) i v

/-- The widened partner of a format (R156). -/
def widerOf (t : Nat) : Option Nat :=
  if t = tagI4 then some tagI8
  else if t = tagI8 then some tagI16
  else if t = tagI16 then some tagI32
  else if t = tagE2M1 then some tagE4M3
  else if t = tagE4M3 ∨ t = tagE5M2 ∨ t = tagE3M2 ∨ t = tagE2M3 then some tagBF16
  else if t = tagBF16 ∨ t = tagF16 then some tagF32
  else if t = tagF32 then some tagF64
  else none

/-- Widen (R156): exact, with canonical NaNs; a subnormal operand is flushed with FTZ (R51). -/
def widenElem (e : VEnv) (t u x : Nat) : Nat :=
  if isIntTag t then iwrap u (ival t x) else roundTo e.n u 0 false 0 (fval e t x)

/-- Narrow (R156): STATUS.RM, saturating into narrow floats and integers. -/
def narrowElem (e : VEnv) (u t i x : Nat) : Nat :=
  if isIntTag t then wrap (tagBits t) (clamp (intRange true (tagBits t)).1 (intRange true (tagBits t)).2 (ival u x))
  else roundTo e.n t 6 (isNarrow t) i (fval e u x)

/-- UNPKLO and UNPKHI (R156). -/
def vunpack (s : State) (v d a : BitVec 5) (pr : BitVec 2) (hi : Bool) : Out :=
  vecOp s v pr fun e c =>
    let t := c.tagOf a.toNat
    match widerOf t with
    | none => .clash (clashWord e 0xFF t a.toNat)
    | some u =>
      let half := cap e.cw t / 2
      .ok (c.write d.toNat u ((upTo half).map (fun i =>
        widenElem e t u (c.elem a.toNat t (if hi then half + i else i))))) none false

/-- The scale half `j` of a register tagged I16 (R157). -/
def Vec.scaleHalf (c : Vec) (r j : Nat) : Nat := c.elem r tagI16 j

/-- VSCL and VQNT element: a zero or NaN scale decides before the element's own value (R157). -/
def scaled (e : VEnv) (t u mode i x sc : Nat) (divide : Bool) (sat : Bool) : Nat :=
  match scaleOf sc with
  | .zero => 0
  | .nan => if isIntTag u then 0 else if hasNaN u then canonNaN u else 0
  | .val dy =>
    let v := fval e t x
    let y := if divide then exDiv v dy.toEx else exMul v dy.toEx
    if isIntTag u then wrap (tagBits u) (roundToInt e.n true (tagBits u) mode i y) else roundTo e.n u mode sat i y

/-- The largest magnitude VQNT may produce (R158): as an exact value. -/
def quantMax (e : VEnv) (t : Nat) : Ex :=
  if t = tagI8 then Ex.ofInt 127 else if t = tagI4 then Ex.ofInt 7 else valueOf t e.n.nmode (maxMag t e.n.nmode)

/-- Binary descent over the ordered S12 values 0x010 to 0xFEF: the least that satisfies the bound (R158). -/
def leastScaleBin (m mx : Ex) : Nat → Nat → Nat → Nat
  | 0, lo, _ => lo
  | k + 1, lo, hi =>
    if hi ≤ lo then lo
    else
      let mid := (lo + hi) / 2
      let okMid : Bool := match scaleOf mid with
        | .val dy => exCmp m (exMul mx dy.toEx) != .gt
        | _ => true
      if okMid then leastScaleBin m mx k lo mid else leastScaleBin m mx k (mid + 1) hi

/-- The scale of one VAMAX group (R158). -/
def groupScale (e : VEnv) (t u : Nat) (xs : List Nat) : Nat :=
  let vs := xs.map (fun x => (fval e t x).abs)
  if vs.any (fun v => v.isNaN || v.isInf) then 0xFF0
  else
    let m := vs.foldl (fun acc v => if exCmp acc v == .lt then v else acc) (.fin false 0 0 false)
    if m.isZero then 0x000
    else leastScaleBin m (quantMax e u) 13 0x010 0xFEF

/-- VSETL: Grant a vector length for a format and set VL and VTYPE (R143). It reads nothing of its context, and so waits for no older block (R139, R442). -/
def execVsetl (v : BitVec 5) (t0 : BitVec 9) (a : BitVec 4) (pr : BitVec 2) (s : State) : Out :=
  let idx := s.dev.focus.idx
  .next (s.fire { pr := pr, operands := 1, oldest := false, lsid := none, vsid := some v.toNat, need := .nothing }
    (onBlock fun h b l _ =>
      if l.null then (b.resolveV idx (some v.toNat)).deliver t0 tokNull
      else
        let grant := Nat.min l.lo.toNat (cap h.cwidth.toNat a.toNat)
        ((b.leave (.len (BitVec.ofNat 13 grant) a)).resolveV idx (some v.toNat)).deliver t0 (tokOf (BitVec.ofNat 64 grant))))

/-- VGETL: Return the largest grant for a format at the current width (R143). -/
def execVgetl (v : BitVec 5) (t0 : BitVec 9) (a : BitVec 4) (pr : BitVec 2) (s : State) : Out :=
  .next (s.fireVec v pr 0 t0 fun e c _ =>
    let t := if a = 0 then c.vtype.toNat else a.toNat
    .ok c (some (tokOf (BitVec.ofNat 64 (cap e.cw t)))) false)

/-- VBCAST: Broadcast a token element into a v-register (R143). -/
def execVbcast (v : BitVec 5) (a : BitVec 5) (pr : BitVec 2) (s : State) : Out :=
  .next (s.fireVec v pr 1 noTarget fun e c l =>
    let t := c.vtype.toNat
    if t = tagNone then .clash (clashWord e 0xFF t a.toNat)
    else .ok (c.write a.toNat t (List.replicate (lenN c e.cw t) (tokElem t l.lo))) none false)

/-- VIDX: Write each element's index (R143). -/
def execVidx (v : BitVec 5) (a : BitVec 5) (pr : BitVec 2) (s : State) : Out :=
  vecOp s v pr fun e c =>
    let t := c.vtype.toNat
    if t = tagNone ∨ t = tagCB2 ∨ t = tagMask then .clash (clashWord e 0xFF t a.toNat)
    else .ok (c.write a.toNat t ((upTo (lenN c e.cw t)).map (fun i =>
      if isIntTag t then i % 2 ^ tagBits t else roundTo e.n t 0 true i (Ex.ofInt i)))) none false

/-- VEXTR: Extract one element as a token (R144). -/
def execVextr (v : BitVec 5) (t0 : BitVec 9) (a : BitVec 5) (pr : BitVec 2) (s : State) : Out :=
  .next (s.fireVec v pr 1 t0 fun e c l =>
    let t := c.tagOf a.toNat
    .ok c (some (if l.lo.toNat < cap e.cw t then elemTok t (c.elem a.toNat t l.lo.toNat) else tokOf 0)) false)

/-- VADD: Element-wise addition (R145). -/
def execVadd (v : BitVec 5) (d : BitVec 5) (a : BitVec 5) (b : BitVec 5) (pr : BitVec 2) (s : State) : Out :=
  varith s v d a b pr (vf2 exAdd) (fun x y => x + y) true

/-- VSUB: Element-wise subtraction (R145). -/
def execVsub (v : BitVec 5) (d : BitVec 5) (a : BitVec 5) (b : BitVec 5) (pr : BitVec 2) (s : State) : Out :=
  varith s v d a b pr (vf2 (fun n m x y => exAdd n m x y.negate)) (fun x y => x - y) true

/-- VRSUB: Element-wise reverse subtraction (R145). -/
def execVrsub (v : BitVec 5) (d : BitVec 5) (a : BitVec 5) (b : BitVec 5) (pr : BitVec 2) (s : State) : Out :=
  varith s v d a b pr (vf2 (fun n m x y => exAdd n m y x.negate)) (fun x y => y - x) true

/-- VMUL: Element-wise multiplication (R145). -/
def execVmul (v : BitVec 5) (d : BitVec 5) (a : BitVec 5) (b : BitVec 5) (pr : BitVec 2) (s : State) : Out :=
  varith s v d a b pr (vf2 (fun _ _ x y => exMul x y)) (fun x y => x * y) true

/-- VDIV: Element-wise division (R145). -/
def execVdiv (v : BitVec 5) (d : BitVec 5) (a : BitVec 5) (b : BitVec 5) (pr : BitVec 2) (s : State) : Out :=
  varith s v d a b pr (vf2 (fun _ _ x y => exDiv x y)) (idiv) true

/-- VMIN: Element-wise minimum (R145). -/
def execVmin (v : BitVec 5) (d : BitVec 5) (a : BitVec 5) (b : BitVec 5) (pr : BitVec 2) (s : State) : Out :=
  varith s v d a b pr (vfPick false) (fun x y => if x ≤ y then x else y) false

/-- VMAX: Element-wise maximum (R145). -/
def execVmax (v : BitVec 5) (d : BitVec 5) (a : BitVec 5) (b : BitVec 5) (pr : BitVec 2) (s : State) : Out :=
  varith s v d a b pr (vfPick true) (fun x y => if x ≤ y then y else x) false

/-- VABSD: Element-wise absolute difference (R145). -/
def execVabsd (v : BitVec 5) (d : BitVec 5) (a : BitVec 5) (b : BitVec 5) (pr : BitVec 2) (s : State) : Out :=
  varith s v d a b pr (vf2 (fun n m x y => (exAdd n m x y.negate).abs)) (fun x y => (x - y).natAbs) true

/-- VFMA: Element-wise fused multiply-add into vd (R146). -/
def execVfma (v : BitVec 5) (d : BitVec 5) (a : BitVec 5) (b : BitVec 5) (pr : BitVec 2) (s : State) : Out :=
  vfused s v d a b pr false false

/-- VFMS: Element-wise fused multiply-subtract (R146). -/
def execVfms (v : BitVec 5) (d : BitVec 5) (a : BitVec 5) (b : BitVec 5) (pr : BitVec 2) (s : State) : Out :=
  vfused s v d a b pr false true

/-- VFNMA: Negated fused multiply-add (R146). -/
def execVfnma (v : BitVec 5) (d : BitVec 5) (a : BitVec 5) (b : BitVec 5) (pr : BitVec 2) (s : State) : Out :=
  vfused s v d a b pr true false

/-- VFNMS: Negated fused multiply-subtract (R146). -/
def execVfnms (v : BitVec 5) (d : BitVec 5) (a : BitVec 5) (b : BitVec 5) (pr : BitVec 2) (s : State) : Out :=
  vfused s v d a b pr true true

/-- VDOTI8: I8 lane dot products accumulated into I32 lanes (R147). -/
def execVdoti8 (v : BitVec 5) (d : BitVec 5) (a : BitVec 5) (b : BitVec 5) (pr : BitVec 2) (s : State) : Out :=
  vdot s v d a b pr tagI8

/-- VDOTI4: I4 lane dot products accumulated into I32 lanes (R147). -/
def execVdoti4 (v : BitVec 5) (d : BitVec 5) (a : BitVec 5) (b : BitVec 5) (pr : BitVec 2) (s : State) : Out :=
  vdot s v d a b pr tagI4

/-- VAND: Element-wise bitwise and (R148). -/
def execVand (v : BitVec 5) (d : BitVec 5) (a : BitVec 5) (b : BitVec 5) (pr : BitVec 2) (s : State) : Out :=
  vlogic s v d a b pr (fun _ x y => x &&& y)

/-- VOR: Element-wise bitwise or (R148). -/
def execVor (v : BitVec 5) (d : BitVec 5) (a : BitVec 5) (b : BitVec 5) (pr : BitVec 2) (s : State) : Out :=
  vlogic s v d a b pr (fun _ x y => x ||| y)

/-- VXOR: Element-wise exclusive or (R148). -/
def execVxor (v : BitVec 5) (d : BitVec 5) (a : BitVec 5) (b : BitVec 5) (pr : BitVec 2) (s : State) : Out :=
  vlogic s v d a b pr (fun _ x y => x ^^^ y)

/-- VANDN: Element-wise a and not b (R148). -/
def execVandn (v : BitVec 5) (d : BitVec 5) (a : BitVec 5) (b : BitVec 5) (pr : BitVec 2) (s : State) : Out :=
  vlogic s v d a b pr (fun w x y => x &&& (2 ^ w - 1 - y))

/-- VSHL: Element-wise shift left (R148). -/
def execVshl (v : BitVec 5) (d : BitVec 5) (a : BitVec 5) (b : BitVec 5) (pr : BitVec 2) (s : State) : Out :=
  vshift s v d a b pr (fun w x n => x * 2 ^ n % 2 ^ w)

/-- VSHR: Element-wise logical shift right (R148). -/
def execVshr (v : BitVec 5) (d : BitVec 5) (a : BitVec 5) (b : BitVec 5) (pr : BitVec 2) (s : State) : Out :=
  vshift s v d a b pr (fun _ x n => x / 2 ^ n)

/-- VSHRA: Element-wise arithmetic shift right (R148). -/
def execVshra (v : BitVec 5) (d : BitVec 5) (a : BitVec 5) (b : BitVec 5) (pr : BitVec 2) (s : State) : Out :=
  vshift s v d a b pr (fun w x n => wrap w (sval w x / (2 : Int) ^ n))

/-- VNOT: Element-wise bitwise not (R148). -/
def execVnot (v : BitVec 5) (d : BitVec 5) (a : BitVec 5) (pr : BitVec 2) (s : State) : Out :=
  vlogic s v d a a pr (fun w x _ => 2 ^ w - 1 - x)

/-- VCMP: Element-wise compare writing a MASK register (R149). -/
def execVcmp (v : BitVec 5) (d : BitVec 5) (a : BitVec 5) (b : BitVec 5) (c : BitVec 3) (pr : BitVec 2) (s : State) : Out :=
  vecOp s v pr fun e q =>
    let t := q.vtype.toNat
    whenTags [needWork e q a.toNat arithTags, needTag e q b.toNat t]
      (.ok (q.write d.toNat tagMask ((upTo (lenM q e.cw t)).map (fun i =>
        let x := q.elem a.toNat t i
        let y := q.elem b.toNat t i
        maskLane (if isIntTag t then vcmpInt c.toNat (tagBits t) x y else vcmpFloat c.toNat (fval e t x) (fval e t y))))) none false)

/-- VMOV: Copy all lanes and the tag of va (R150). -/
def execVmov (v : BitVec 5) (d : BitVec 5) (a : BitVec 5) (pr : BitVec 2) (s : State) : Out :=
  vecOp s v pr fun e c =>
    .ok (((upTo (64 * e.cw)).foldl (fun q i => q.setLane d.toNat i (c.lane a.toNat i)) c).setTag d.toNat (c.tagOf a.toNat)) none false

/-- VSEL: Select elements of va or vb under the mask in vd (R150). -/
def execVsel (v : BitVec 5) (d : BitVec 5) (a : BitVec 5) (b : BitVec 5) (pr : BitVec 2) (s : State) : Out :=
  vperm s v d a pr (fun e c t => [needTag e c d.toNat tagMask, needTag e c b.toNat t]) fun e c t =>
    (upTo (lenM c e.cw t)).map (fun i => if c.maskAt d.toNat i then c.elem a.toNat t i else c.elem b.toNat t i)

/-- VCMPCT: Compact the masked-true elements of va (R150). -/
def execVcmpct (v : BitVec 5) (d : BitVec 5) (a : BitVec 5) (b : BitVec 5) (pr : BitVec 2) (s : State) : Out :=
  vperm s v d a pr (fun e c _ => [needTag e c b.toNat tagMask]) fun e c t =>
    let m := lenM c e.cw t
    let kept := ((upTo m).filter (c.maskAt b.toNat)).map (c.elem a.toNat t)
    kept ++ List.replicate (m - kept.length) 0

/-- VPERMX: Permute va by I32 indices in vb (R150). -/
def execVpermx (v : BitVec 5) (d : BitVec 5) (a : BitVec 5) (b : BitVec 5) (pr : BitVec 2) (s : State) : Out :=
  vperm s v d a pr (fun e c _ => [needTag e c b.toNat tagI32]) fun e c t =>
    (upTo (lenM c e.cw t)).map (fun i =>
      let p := sval 32 (c.lane b.toNat i)
      if 0 ≤ p ∧ p < cap e.cw t then c.elem a.toNat t p.toNat else 0)

/-- VSLIDEUP: Slide elements up by s (R150). -/
def execVslideup (v : BitVec 5) (d : BitVec 5) (a : BitVec 5) (s : BitVec 5) (pr : BitVec 2) (st : State) : Out :=
  vperm st v d a pr (fun _ _ _ => []) fun e c t =>
    (upTo (lenN c e.cw t)).map (fun i => if s.toNat ≤ i then c.elem a.toNat t (i - s.toNat) else 0)

/-- VSLIDEDN: Slide elements down by s (R150). -/
def execVslidedn (v : BitVec 5) (d : BitVec 5) (a : BitVec 5) (s : BitVec 5) (pr : BitVec 2) (st : State) : Out :=
  vperm st v d a pr (fun _ _ _ => []) fun e c t =>
    let n := lenN c e.cw t
    (upTo n).map (fun i => if i + s.toNat < n then c.elem a.toNat t (i + s.toNat) else 0)

/-- VZIP: Interleave va and vb (R150). -/
def execVzip (v : BitVec 5) (d : BitVec 5) (a : BitVec 5) (b : BitVec 5) (pr : BitVec 2) (s : State) : Out :=
  vperm s v d a pr (fun e c t => [needTag e c b.toNat t]) fun e c t =>
    (upTo (lenN c e.cw t)).map (fun j => if j % 2 = 0 then c.elem a.toNat t (j / 2) else c.elem b.toNat t ((j - 1) / 2))

/-- VUNZIP: Take the even elements of va followed by vb (R150). -/
def execVunzip (v : BitVec 5) (d : BitVec 5) (a : BitVec 5) (b : BitVec 5) (pr : BitVec 2) (s : State) : Out :=
  vperm s v d a pr (fun e c t => [needTag e c b.toNat t]) fun e c t =>
    let n := lenN c e.cw t
    (upTo n).map (fun i => if 2 * i < n then c.elem a.toNat t (2 * i) else c.elem b.toNat t (2 * i - n))

/-- RSUM: Reduce elements to their sum, rounded once (R152). -/
def execRsum (v : BitVec 5) (t0 : BitVec 9) (a : BitVec 5) (pr : BitVec 2) (s : State) : Out :=
  vred s v a t0 pr true fun e t xs => elemTok t (scanSum e t xs)

/-- RMAX: Reduce to the maximum element (R151). -/
def execRmax (v : BitVec 5) (t0 : BitVec 9) (a : BitVec 5) (pr : BitVec 2) (s : State) : Out :=
  vred s v a t0 pr false fun e t xs => elemTok t (pickAll e t true xs)

/-- RMIN: Reduce to the minimum element (R151). -/
def execRmin (v : BitVec 5) (t0 : BitVec 9) (a : BitVec 5) (pr : BitVec 2) (s : State) : Out :=
  vred s v a t0 pr false fun e t xs => elemTok t (pickAll e t false xs)

/-- RSUMW: Reduce to a widened sum (R151). -/
def execRsumw (v : BitVec 5) (t0 : BitVec 9) (a : BitVec 5) (pr : BitVec 2) (s : State) : Out :=
  vred s v a t0 pr true fun e t xs =>
    if isIntTag t then tokOf (BitVec.ofNat 64 (wrap 64 (isum t xs))) else tokOf (BitVec.ofNat 64 (sumInto e t (wideSum t) 0 xs))

/-- RCOUNT: Count the true lanes of a mask (R151). -/
def execRcount (v : BitVec 5) (t0 : BitVec 9) (a : BitVec 5) (pr : BitVec 2) (s : State) : Out :=
  vredMask s v a t0 pr fun ms => BitVec.ofNat 64 (ms.filter id).length

/-- RFIRST: Index of the lowest true lane of a mask (R151). -/
def execRfirst (v : BitVec 5) (t0 : BitVec 9) (a : BitVec 5) (pr : BitVec 2) (s : State) : Out :=
  vredMask s v a t0 pr fun ms =>
    match (upTo ms.length).find? (fun i => ms.getD i false) with
    | some i => BitVec.ofNat 64 i
    | none => 0xFFFFFFFFFFFFFFFF

/-- VSCAN_SUM: Inclusive prefix sums, each rounded once (R153). -/
def execVscanSum (v : BitVec 5) (d : BitVec 5) (a : BitVec 5) (pr : BitVec 2) (s : State) : Out :=
  vscan s v d a pr true fun e t _ xs => scanSum e t xs

/-- VSCAN_MAX: Inclusive prefix maxima (R153). -/
def execVscanMax (v : BitVec 5) (d : BitVec 5) (a : BitVec 5) (pr : BitVec 2) (s : State) : Out :=
  vscan s v d a pr false fun e t _ xs => pickAll e t true xs

/-- VSCAN_MIN: Inclusive prefix minima (R153). -/
def execVscanMin (v : BitVec 5) (d : BitVec 5) (a : BitVec 5) (pr : BitVec 2) (s : State) : Out :=
  vscan s v d a pr false fun e t _ xs => pickAll e t false xs

/-- VSCAN_SEGSUM: Segmented prefix sums under a mask (R153). -/
def execVscanSegsum (v : BitVec 5) (d : BitVec 5) (a : BitVec 5) (b : BitVec 5) (pr : BitVec 2) (s : State) : Out :=
  vecOp s v pr fun e c =>
    let t := c.vtype.toNat
    whenTags [needWork e c a.toNat arithTags, needTag e c b.toNat tagMask]
      (let n := lenM c e.cw t
       let xs := c.elems a.toNat t n
       .ok (c.write d.toNat t ((upTo n).map (fun i =>
         let h := (upTo (i + 1)).foldl (fun acc j => if c.maskAt b.toNat j then j else acc) 0
         scanSum e t ((xs.take (i + 1)).drop h)))) none (srUsed e t n))

/-- EXP2: Element-wise 2^x rounded once with RNE (R154). -/
def execExp2 (v : BitVec 5) (d : BitVec 5) (a : BitVec 5) (pr : BitVec 2) (s : State) : Out :=
  vfunc s v d a pr 0

/-- LOG2: Element-wise log2 (R154). -/
def execLog2 (v : BitVec 5) (d : BitVec 5) (a : BitVec 5) (pr : BitVec 2) (s : State) : Out :=
  vfunc s v d a pr 1

/-- RCP: Element-wise reciprocal (R154). -/
def execRcp (v : BitVec 5) (d : BitVec 5) (a : BitVec 5) (pr : BitVec 2) (s : State) : Out :=
  vfunc s v d a pr 2

/-- RSQ: Element-wise reciprocal square root (R154). -/
def execRsq (v : BitVec 5) (d : BitVec 5) (a : BitVec 5) (pr : BitVec 2) (s : State) : Out :=
  vfunc s v d a pr 3

/-- SQRT: Element-wise square root (R154). -/
def execSqrt (v : BitVec 5) (d : BitVec 5) (a : BitVec 5) (pr : BitVec 2) (s : State) : Out :=
  vfunc s v d a pr 4

/-- TANH: Element-wise hyperbolic tangent (R154). -/
def execTanh (v : BitVec 5) (d : BitVec 5) (a : BitVec 5) (pr : BitVec 2) (s : State) : Out :=
  vfunc s v d a pr 5

/-- SIGM: Element-wise logistic sigmoid (R154). -/
def execSigm (v : BitVec 5) (d : BitVec 5) (a : BitVec 5) (pr : BitVec 2) (s : State) : Out :=
  vfunc s v d a pr 6

/-- ERF: Element-wise error function (R154). -/
def execErf (v : BitVec 5) (d : BitVec 5) (a : BitVec 5) (pr : BitVec 2) (s : State) : Out :=
  vfunc s v d a pr 7

/-- VCVT: Convert elements of va into the format named in vb (R155). -/
def execVcvt (v : BitVec 5) (d : BitVec 5) (a : BitVec 5) (b : BitVec 4) (r : BitVec 3) (pr : BitVec 2) (s : State) : Out :=
  vecOp s v pr fun e c =>
    let src := c.tagOf a.toNat
    let dst := b.toNat
    if src = tagNone ∨ src = tagCB2 ∨ src = tagMask then .clash (clashWord e 0xFF src a.toNat)
    else
      let n := Nat.min c.vl.toNat (Nat.min (cap e.cw src) (cap e.cw dst))
      .ok (c.write d.toNat dst ((upTo n).map (fun i => cvtElem e src dst r.toNat i (c.elem a.toNat src i)))) none
        (decide (0 < n) && !(isIntTag src && isIntTag dst) && drawsSr e.n r.toNat)

/-- VDEQ: Decode CB2 indices into BF16 weights (R157). -/
def execVdeq (v : BitVec 5) (d : BitVec 5) (a : BitVec 5) (b : BitVec 3) (pr : BitVec 2) (s : State) : Out :=
  vecOp s v pr fun e c =>
    whenTags [needTag e c a.toNat tagCB2,
              if c.vtype.toNat = tagBF16 then none else some (clashWord e tagBF16 c.vtype.toNat d.toNat)]
      (.ok (c.write d.toNat tagBF16 ((upTo (lenN c e.cw tagBF16)).map (fun i =>
        let idx := c.elem a.toNat tagCB2 (16 * e.cw * b.toNat + i / 8)
        let w := (cb2Weights4 (e.book.getD (idx / 256) 0) idx).getD (i % 8) 0
        roundTo { e.n with ftz := false } tagBF16 0 false i (weightEx w)))) none false)

/-- VSCL: Scale elements by S12 block scales (R157). -/
def execVscl (v : BitVec 5) (d : BitVec 5) (a : BitVec 5) (b : BitVec 5) (pr : BitVec 2) (s : State) : Out :=
  vecOp s v pr fun e c =>
    let t := c.vtype.toNat
    whenTags [needWork e c a.toNat funcTags, needTag e c b.toNat tagI16]
      (let n := lenN c e.cw t
       .ok (c.write d.toNat t ((upTo n).map (fun i =>
         scaled e t t 6 i (c.elem a.toNat t i) (c.scaleHalf b.toNat (i / 32)) false false))) none (srUsed e t n))

/-- VQNT: Quantise elements by S12 block scales into a narrow format (R157). -/
def execVqnt (v : BitVec 5) (d : BitVec 5) (a : BitVec 5) (b : BitVec 5) (pr : BitVec 2) (s : State) : Out :=
  vecOp s v pr fun e c =>
    let t := c.tagOf a.toNat
    let u := c.vtype.toNat
    whenTags [needIn e c a.toNat funcTags, needTag e c b.toNat tagI16,
              if quantTags.contains u then none else some (clashWord e 0xFF u d.toNat)]
      (let n := Nat.min (lenN c e.cw u) (cap e.cw t)
       .ok (c.write d.toNat u ((upTo n).map (fun i =>
         scaled e t u 6 i (c.elem a.toNat t i) (c.scaleHalf b.toNat (i / 32)) true true))) none
         (decide (0 < n) && drawsSr e.n 6))

/-- VAMAX: Compute one S12 scale per group of 32 elements (R158). -/
def execVamax (v : BitVec 5) (d : BitVec 5) (a : BitVec 5) (pr : BitVec 2) (s : State) : Out :=
  vecOp s v pr fun e c =>
    let t := c.tagOf a.toNat
    let u := c.vtype.toNat
    whenTags [needIn e c a.toNat funcTags, if quantTags.contains u then none else some (clashWord e 0xFF u d.toNat)]
      (let n := Nat.min c.vl.toNat (cap e.cw t)
       let xs := c.elems a.toNat t n
       .ok (c.write d.toNat tagI16 ((upTo ((n + 31) / 32)).map (fun g =>
         groupScale e t u ((xs.drop (32 * g)).take 32)))) none false)

/-- PACK: Narrow two widened registers into one (R156). -/
def execPack (v : BitVec 5) (d : BitVec 5) (a : BitVec 5) (b : BitVec 5) (pr : BitVec 2) (s : State) : Out :=
  vecOp s v pr fun e c =>
    let t := c.vtype.toNat
    match widerOf t with
    | none => .clash (clashWord e 0xFF (c.tagOf a.toNat) a.toNat)
    | some u =>
      whenTags [needTag e c a.toNat u, needTag e c b.toNat u]
        (let half := cap e.cw t / 2
         .ok (c.write d.toNat t ((upTo (2 * half)).map (fun i =>
           narrowElem e u t i (if i < half then c.elem a.toNat u i else c.elem b.toNat u (i - half))))) none
           (!isIntTag t && drawsSr e.n 6))

/-- UNPKLO: Widen the low half of a narrow register (R156). -/
def execUnpklo (v : BitVec 5) (d : BitVec 5) (a : BitVec 5) (pr : BitVec 2) (s : State) : Out :=
  vunpack s v d a pr false

/-- UNPKHI: Widen the high half of a narrow register (R156). -/
def execUnpkhi (v : BitVec 5) (d : BitVec 5) (a : BitVec 5) (pr : BitVec 2) (s : State) : Out :=
  vunpack s v d a pr true

/-- GETTAG: Send the format tag of a v-register (R159). -/
def execGettag (v : BitVec 5) (t0 : BitVec 9) (a : BitVec 5) (pr : BitVec 2) (s : State) : Out :=
  .next (s.fireVec v pr 0 t0 fun _ c _ => .ok c (some (tokOf (BitVec.ofNat 64 (c.tagOf a.toNat)))) false)

/-- SETTAG: Set the format tag of a v-register (R159). -/
def execSettag (v : BitVec 5) (a : BitVec 5) (pr : BitVec 2) (s : State) : Out :=
  .next (s.fireVec v pr 1 noTarget fun _ c l => .ok (c.setTag a.toNat (l.lo.toNat % 16)) none false)

/-- CLRTAG: Set a v-register's tag to NONE (R159). -/
def execClrtag (v : BitVec 5) (a : BitVec 5) (pr : BitVec 2) (s : State) : Out :=
  vecOp s v pr fun _ c => .ok (c.setTag a.toNat tagNone) none false

end Sys2Proof.Machine
end

