-- ==== Sys2Proof/Machine/Access.lean ====
section
/-! DEFINITION. What the memory instructions share (R232-R236): the zone a block reads, the checks at fire, requests, store entries, store-to-load violations (R213), the waits of a load (R211, R216), and reading a list of pieces. -/
namespace Sys2Proof.Machine

/-- An older block in flight holds a WRSYS to STKLIM, so that the stack limit the block reads is not decided (R105, R137). -/
def Hart.limitOpen (h : Hart) (tag : Nat) : Bool :=
  (h.olderBlocks tag).any (fun b => (decoded b.code).any (fun p => match p.2 with
    | .wrsys _ sel _ => sel == 3
    | _ => false))

/-- The zone in z-register `zs` as the block reads it (R97, R232), once that and its stack limit are decided (R137). -/
def Hart.zoneFor (h : Hart) (tag zs : Nat) : Option Nat :=
  match forwardedReg h (0x50 + zs) (h.olderBlocks tag).reverse with
  | some v => if h.limitOpen tag then none else some v.toNat
  | none => none

/-- All bytes lie in one 64-byte line (R234). -/
def inLine (va : Dbl) (size : Nat) : Bool := decide (va.toNat % 64 + size ≤ 64)

def aligned (va : Dbl) (size : Nat) : Bool := va.toNat % size == 0

/-- An access touches the stack window: the 64 KiB below STKLIM.LIM * 16 (R105, R334). -/
def Hart.inStack (h : Hart) (zone : Nat) (va : Dbl) (size : Nat) : Bool :=
  let lim := (h.stklim &&& ~~~(0xF : Dbl)).toNat
  zone == 0 && decide (lim ≠ 0) && decide (va.toNat < lim) && decide (lim < va.toNat + size + 65536)

/-- What an access asks at fire: address, size, alignment found good, permissions, and whether the stack window is checked. -/
structure Probe where
  zone : Nat
  va : Dbl
  size : Nat
  good : Bool
  rd : Bool
  wr : Bool
  stack : Bool
  deriving DecidableEq, Repr

/-- The page is in the lookaside and refuses the access (R196, R235); of a page that its home has not armed the lookaside knows no W (R339). -/
def Hart.refuses (h : Hart) (p : Probe) : Bool :=
  match zoneOf p.zone with
  | .own | .fabric | .host =>
    match h.lookEntry p.zone (p.va.toNat / 4096) with
    | some t => (p.rd && !t.attr.r) || (p.wr && !t.attr.w && !t.dset)
    | none => false
  | _ => false

/-- The fault an access raises at fire, the lowest code first (R235, R480). -/
def fireCause (d : Dev) (hn : Nat) (h : Hart) (p : Probe) : Option Nat :=
  if zoneOf p.zone == .invalid then some 0x10
  else if zoneOf p.zone == .place && (d.scratchLoc hn p.va p.size).isNone then some 0x11
  else if !p.good then some 0x12
  else if h.refuses p then some 0x13
  else if p.stack && h.inStack p.zone p.va p.size then some 0x14
  else none

/-- The first fault of several pieces, the lowest code first. -/
def fireCauses (d : Dev) (hn : Nat) (h : Hart) (ps : List Probe) : Option (Nat × Probe) :=
  ps.foldl (fun acc p =>
    match acc, fireCause d hn h p with
    | none, some c => some (c, p)
    | some (k, q), some c => if c < k then some (c, p) else some (k, q)
    | a, none => a) none

/-- Bytes 56 and 57 of the detail of a failed access (R374): its kind and size, or those of the walk's read of an entry. -/
def accessDetail (kind size pa : Nat) : Dbl := BitVec.ofNat 64 (if pa = 2 ^ 64 then 4 + 256 * 3 else kind + 256 * Nat.log2 size)

/-- The fault record of an access (R373, R374): kind 0 load, 1 store, 2 atomic, 7 spill, 8 refill; an uncorrectable error that a walk meets has kind 4 (`walkAddr`). -/
def accessFault (idx : Nat) (lsid : Option Nat) (cause zone kind size pa : Nat) (va : Dbl) (late : Bool) : FaultRec :=
  { cause := cause, word := 32 + idx, lsid := lsid, zone := zone, va := va, late := late,
    d0 := BitVec.ofNat 64 pa, d1 := accessDetail kind size pa, seq := none }

/-- A memory instruction fires once its zone is decided; a null operand resolves its identifiers and sends a null token (R233). -/
def State.fireMem (s : State) (f : Form) (zs : BitVec 2) (t0 : BitVec 9)
    (g : Nat → Hart → Block → Token → Token → Hart) : State :=
  let c := s.dev.focus
  match (s.hart c.hart).zoneFor c.tag zs.toNat with
  | none => s
  | some z =>
    s.fire f fun h b l r =>
      if (decide (1 ≤ f.operands) && l.null) || (decide (2 ≤ f.operands) && r.null) then
        h.putBlock (((b.resolveL c.idx f.lsid).resolveV c.idx f.vsid).deliver t0 tokNull)
      else g z h b l r

/-- A request leaves, or the fault found at fire is recorded (R235). -/
def issue (d : Dev) (hn : Nat) (h : Hart) (b : Block) (kind : Nat) (ps : List Probe) (r : Req) : Hart :=
  match fireCauses d hn h ps with
  | some (c, p) => h.putBlock (b.addFault (accessFault r.idx (some r.lsid) c p.zone kind p.size 0 p.va false))
  | none => h.putBlock (b.addReq r)

/-- Two byte ranges of one zone overlap. -/
def overlaps (va n wa m : Nat) : Bool := decide (va < wa + m) && decide (wa < va + n)

/-- A store resolves its address: the oldest younger block with a performed load of any of its bytes is discarded with every block behind it (R213); `f` names the bytes (R208). -/
def Hart.violate (f : Nat → Dbl → Nat × Dbl) (h : Hart) (tag zone : Nat) (va : Dbl) (n : Nat) : Hart :=
  match (h.youngerBlocks tag).find? (fun b => b.seen.any (fun x =>
      (f x.zone x.va).1 == (f zone va).1 && overlaps (f zone va).2.toNat n (f x.zone x.va).2.toNat x.base.length)) with
  | none => h
  | some b => h.dropViolated b

/-- The bytes that a held store or REL writes. -/
def St.size (t : St) : Nat := if t.rel then 8 else t.data.length

/-- Hold stores in the block until its commit, and resolve the LSID (R212, R238). -/
def holdStores (s : State) (hn : Nat) (h : Hart) (b : Block) (idx lsid : Nat) (ps : List Probe) (ts : List St) : Hart :=
  match fireCauses s.dev hn h ps with
  | some (c, p) => h.putBlock (b.addFault (accessFault idx (some lsid) c p.zone 1 p.size 0 p.va false))
  | none =>
    let b1 := ({ b with stores := b.stores ++ ts }).resolveL idx (some lsid)
    ts.foldl (fun h t => h.violate (s.namesOf hn) b.tag t.zone t.va t.size) (h.putBlock b1)

/-! Waits of an access (R211, R216) -/

/-- A posted item counted in one of the classes of a mask. -/
def Posted.inMask (p : Posted) (mask : Nat) : Bool := decide (p.cls < 3) && bitOf mask p.cls

/-- The write-back of a line. -/
def PWhat.isWback (w : PWhat) : Bool :=
  match w with
  | .wback _ _ _ _ => true
  | _ => false

/-- An address of the own scratchpad (R189, R208). -/
def ownScratch (zone : Nat) (va : Dbl) : Bool := zone == 0xFE && bitsOf va.toNat 63 32 == 0

/-- A store to the own scratchpad that its commit could not perform yet (R211, log 55). -/
def Posted.delayed (p : Posted) : Bool :=
  match p.what with
  | .store _ _ _ => p.cls == 4
  | _ => false

/-- A write to the own scratchpad that is still to be made: a delayed store, or the WORD of a REL (R216, R218). -/
def Posted.toScratch (p : Posted) : Bool :=
  p.delayed ||
  (match p.what with
   | .rel z a _ => ownScratch z a
   | _ => false)

/-- The waits of a mask beyond the three classes: the writes to the own scratchpad (R216), and every write-back under way (R216, R219). -/
def scratchWork : Nat := 8
def wbackWork : Nat := 16

/-- An item that release work waits for (R216, R218): a counted one, or data that no count holds (R355). -/
def Posted.inWork (p : Posted) (mask : Nat) : Bool :=
  (p.cls != 3 && bitOf mask (p.cls % 4)) || (bitOf mask 3 && p.toScratch) || (bitOf mask 4 && p.what.isWback)

/-- No posted item of the named classes remains (R211). -/
def Hart.drained (h : Hart) (mask : Nat) : Bool := h.posted.all (fun p => !p.inMask mask)

/-- The release work of a scope is done: its classes are drained, evicted lines among them (R215, R216). -/
def Hart.workDone (h : Hart) (mask : Nat) : Bool := h.posted.all (fun p => !p.inWork mask)

/-- A posted item touches a byte range; a CACHE operation touches the lines it covers (R249). -/
def Posted.touches (p : Posted) (zone va n : Nat) : Bool :=
  match p.what with
  | .store z a d => z == zone && overlaps va n a.toNat d.length
  | .rel z a _ => z == zone && overlaps va n a.toNat 8
  | .wback z a d _ => z == zone && overlaps va n a.toNat d.length
  | .jadd seg _ => zone == 0 && overlaps va n (seg + 56).toNat 8
  | .cache _ (some z) a len => z == zone && decide (0 < n) && decide (0 < len.toNat) &&
      decide (a.toNat / 64 ≤ (va + n - 1) / 64) && decide (va / 64 ≤ (a.toNat + len.toNat - 1) / 64)
  | .cache _ none _ _ => classOfZone zone == p.cls && zone != 0xFE
  | _ => false

/-- A push of the core's own earlier SPAWN is still to be made (R266, R287). -/
def Hart.spawnsPending (h : Hart) : Bool := h.posted.any (fun p => match p.what with | .spawn _ _ _ _ => true | _ => false)

/-- Some posted item of the core touches the range, under whatever address (R208, R210). -/
def State.postedTouches (s : State) (hn zone : Nat) (va : Dbl) (n : Nat) : Bool :=
  let f := s.namesOf hn
  (s.hart hn).posted.any (fun p => p.touches zone va.toNat n || (p.renamed f).touches (f zone va).1 (f zone va).2.toNat n)

/-- An INVR that covers some of the bytes stands (R250). -/
def Hart.invalidating (h : Hart) (zone va n : Nat) : Bool :=
  h.posted.any (fun p => (match p.what with
    | .cache inv _ _ _ => inv
    | _ => false) && p.touches zone va n)

/-- A fence holds younger stores, pushes, spawns and the accesses of an AGE started behind it (R216, R227, R228). -/
def Hart.storesHeld (h : Hart) : Bool :=
  h.posted.any (fun p =>
    match p.what with
    | .barrier _ stores => stores
    | _ => false)

/-- A barrier that holds younger loads stands (R216). -/
def Hart.loadsHeld (h : Hart) : Bool :=
  h.posted.any (fun p =>
    match p.what with
    | .barrier loads _ => loads
    | _ => false)

/-- A replay notice of the page stands (R281). -/
def Hart.noticeFor (h : Hart) (zone page : Nat) : Option Notice :=
  h.notices.find? (fun n => n.zone == zone && n.page == page)

/-- A replay notice of one of the classes stands (R281). -/
def Hart.noticeIn (h : Hart) (mask : Nat) : Option Notice := h.notices.find? (fun n => bitOf mask n.cls)

/-- The deferred-store fault of a notice (R281, R374). -/
def deferredFault (n : Notice) (word : Nat) : FaultRec :=
  { cause := 0x18, word := word, lsid := none, zone := n.zone, va := BitVec.ofNat 64 (4096 * n.page), late := true,
    d0 := BitVec.ofNat 64 (64 * n.line), d1 := BitVec.ofNat 64 (n.cls + 2 ^ 8 * n.cause + 2 ^ 32 * n.seq), seq := none }

/-! Reading pieces -/

/-- Cut a byte range into its parts of single 64-byte lines; `fuel` bounds their number. -/
def linePieces : Nat → Nat → Nat → List (Nat × Nat)
  | 0, _, _ => []
  | fuel + 1, va, n =>
    if n = 0 then []
    else
      let k := Nat.min n (64 - va % 64)
      (va % 2 ^ 64, k) :: linePieces fuel (va + k) (n - k)

def piecesOf (va n : Nat) : List (Nat × Nat) := linePieces (n / 64 + 2) va n

/-- Read pieces as a hart sees them before its own pending stores; the first failure decides. -/
def State.readPieces (s : State) (hn zone : Nat) : List (Nat × Nat) → State × Access
  | [] => (s, .bytes [])
  | (va, n) :: ps =>
    match s.readAs hn zone (BitVec.ofNat 64 va) n with
    | (s1, .bytes bs) =>
      match s1.readPieces hn zone ps with
      | (s2, .bytes cs) => (s2, .bytes (bs ++ cs))
      | r => r
    | r => r

/-- The page of an address is WT as far as the home knows (R29, R222). -/
def State.isWT (s : State) (hn zone : Nat) (va : Dbl) : Bool :=
  match zoneOf zone with
  | .own | .fabric =>
    match s.xlate (s.hart hn).ctxid.toNat zone va.toNat true false with
    | (_, .ok _ a) => a.cls == 3
    | _ => false
  | _ => false

end Sys2Proof.Machine
end

