-- ==== Sys2Proof/Machine/Count.lean ====
section
/-! DEFINITION. Count and table instructions (op 0x7A, 0x7B; R336, R337, R341, R343, R361-R366): what they do at fire. -/
namespace Sys2Proof.Machine

/-- A write-back that a committed WBR, INVR or release work has still to make of a line (R355). -/
def Hart.owesLine (h : Hart) (cls : Nat) (l : Line) : Bool :=
  l.dirty != 0 && l.ctx == h.ctxid.toNat && classOfZone l.zone == cls &&
  h.posted.any (fun p => p.status == 7 || p.coversLine h.ctxid.toNat l)

/-- The counted items of a class (R355): an entry waiting in a replay queue stays counted; a CACHE operation and release work count as the write-backs that they make. -/
def Hart.posts (h : Hart) (cls : Nat) : Nat :=
  (h.posted.filter (fun p => p.cls == cls && !p.isCache)).length + (h.l1d.filter (h.owesLine cls)).length

/-- The 8-byte STATE and JCOUNT word of a segment at its home, with a fault cause when it cannot be read (R264, R363). -/
def State.peekWord (s : State) (ctx : Nat) (seg : Dbl) : Nat × Option (Nat × Nat) :=
  match (s.xlate ctx 0 (seg + 56).toNat true false).2 with
  | .ok l a =>
    if !a.r then (0, some (0x13, l.addr))
    else if l.uncorr s.dev 8 then (0, some (0x17, l.addr))
    else (leNat (s.readLoc l 8), none)
  | .fault c => (0, some (c, walkAddr c))
  | .wait => (0, some (0x15, 0))

/-- The wait of a WAITC (R362). -/
def waitcFire (s : State) (t0 : BitVec 9) (pr : BitVec 2) (kind arg : Nat) : Out :=
  .next (s.fire { pr := pr, operands := 0, oldest := false, lsid := none, vsid := none }
    (onBlock fun _ b _ _ =>
      b.addReq { idx := s.dev.focus.idx, lsid := 0, ord := 0, zone := 0, va := 0, t0 := t0, kind := .waitc kind arg none }))

/-- A counter's value for RDC (R363). -/
def rdcValue (s : State) (hn : Nat) (h : Hart) (b : Block) (n : Nat) : Dbl :=
  let p := placeOfHart hn
  if n < 3 then BitVec.ofNat 64 (h.posts n)
  else if n = 4 then (if isEngine hn then 0 else BitVec.ofNat 64 b.seq)
  else if n = 5 then BitVec.ofNat 64 h.notices.length
  else if 8 ≤ n ∧ n < 16 then mget 0 (if isEngine hn then (s.hart p).pcnt else h.pcnt) (n - 8)
  else
    let a := (s.mt p).age (n - 16)
    BitVec.ofNat 64 (a.done.toNat + 2 ^ 32 * a.pass.toNat)

/-- The sub-values of each major opcode that the opcode map names, and those that are instructions in engine-only blocks, as bit masks (R79, R82, R86). -/
def opSubs (op : Nat) : Nat × Nat :=
  match op with
  | 1 => (0x1, 0x1)
  | 2 => (0x1, 0x1)
  | 3 => (0x3F, 0x3F)
  | 4 => (0x1F, 0x1F)
  | 5 => (0x1, 0x1)
  | 6 => (0x1, 0x1)
  | 7 => (0x3, 0x3)
  | 16 => (0x10001, 0x10001)
  | 17 => (0x10001, 0x10001)
  | 18 => (0x10001, 0x10001)
  | 19 => (0x70007, 0x70007)
  | 20 => (0x30003, 0x30003)
  | 21 => (0x30003, 0x30003)
  | 22 => (0xF000F, 0xF000F)
  | 23 => (0x10001, 0x10001)
  | 24 => (0x10001, 0x10001)
  | 25 => (0x10001, 0x10001)
  | 26 => (0x70007, 0x70007)
  | 27 => (0x10001, 0x10001)
  | 28 => (0x30003, 0x30003)
  | 29 => (0x30003, 0x30003)
  | 30 => (0x3FFF1BFF, 0x3FFF1BFF)
  | 31 => (0x70007, 0x70007)
  | 32 => (0xF000F, 0xF000F)
  | 33 => (0x10001, 0x10001)
  | 34 => (0x10001, 0x10001)
  | 35 => (0x10001, 0x10001)
  | 36 => (0x10001, 0x10001)
  | 37 => (0x10001, 0x10001)
  | 38 => (0x10001, 0x10001)
  | 39 => (0x30003, 0x30003)
  | 40 => (0x10001, 0x10001)
  | 48 => (0x3FF03FF, 0x3FF03FF)
  | 49 => (0x3FF03FF, 0x3FF03FF)
  | 50 => (0x7F7F7F7F, 0x7F7F7F7F)
  | 51 => (0x7F7F7F7F, 0x7F7F7F7F)
  | 52 => (0x7F7F7F7F, 0x7F7F7F7F)
  | 53 => (0x7F7F7F7F, 0x7F7F7F7F)
  | 54 => (0x7F7F7F7F, 0x7F7F7F7F)
  | 55 => (0x7F7F7F7F, 0x7F7F7F7F)
  | 56 => (0xF0F0F0F, 0xF0F0F0F)
  | 57 => (0x1F1F1F1F, 0x1F1F1F1F)
  | 58 => (0xFFFFFFF, 0xFFFFFFF)
  | 59 => (0xF0F0F0F, 0xF0F0F0F)
  | 64 => (0x1, 0x1)
  | 65 => (0x1, 0x1)
  | 66 => (0x1, 0x1)
  | 67 => (0x1, 0x1)
  | 68 => (0x1, 0x1)
  | 69 => (0x1, 0x1)
  | 70 => (0x1, 0x1)
  | 71 => (0x1, 0x1)
  | 72 => (0x1, 0x1)
  | 73 => (0x1, 0x1)
  | 74 => (0x1, 0x1)
  | 75 => (0x1, 0x1)
  | 76 => (0x1, 0x1)
  | 77 => (0x1, 0x1)
  | 78 => (0x7, 0x0)
  | 79 => (0x7, 0x0)
  | 80 => (0x1, 0x1)
  | 81 => (0x1, 0x1)
  | 82 => (0x1, 0x1)
  | 83 => (0x1, 0x1)
  | 84 => (0x1, 0x1)
  | 85 => (0x1, 0x1)
  | 86 => (0x1, 0x1)
  | 87 => (0x1, 0x1)
  | 88 => (0x1, 0x1)
  | 89 => (0x1, 0x1)
  | 90 => (0x1, 0x1)
  | 91 => (0xF, 0xF)
  | 92 => (0x1, 0x1)
  | 93 => (0x1, 0x1)
  | 94 => (0x707070F, 0x707070F)
  | 95 => (0x1, 0x1)
  | 96 => (0x1F, 0x0)
  | 97 => (0xFF, 0x0)
  | 98 => (0x3F, 0x0)
  | 99 => (0xFF, 0x0)
  | 100 => (0xFF, 0x0)
  | 101 => (0xFF, 0x0)
  | 102 => (0x3F, 0x0)
  | 103 => (0xF, 0x0)
  | 104 => (0xFF, 0x0)
  | 105 => (0x7F, 0x0)
  | 106 => (0xF, 0x0)
  | 107 => (0x7, 0x0)
  | 108 => (0x7, 0x0)
  | 112 => (0x1F, 0x0)
  | 113 => (0x1, 0x0)
  | 114 => (0x1, 0x0)
  | 115 => (0x3, 0x0)
  | 116 => (0x3, 0x0)
  | 117 => (0x1, 0x0)
  | 118 => (0x7, 0x0)
  | 120 => (0x1FF, 0x8)
  | 121 => (0x7, 0x7)
  | 122 => (0x1F, 0x1F)
  | 123 => (0xF, 0xF)
  | _ => (0, 0)

/-- DMAPQ q = 1 (R343). -/
def mapBits (idx : Nat) : Nat :=
  let m := opSubs (idx / 32)
  (bitOf m.1 (idx % 32)).toNat + 2 * (bitOf m.2 (idx % 32)).toNat

/-- The scan-map version that binds Sepia images: SCANVER (R343, R393). -/
def dmapqValue (d : Dev) (q : Nat) (x : Dbl) : Dbl :=
  if q = 0 then d.dmapver.setWidth 64
  else if q = 1 then BitVec.ofNat 64 (mapBits (x.toNat % 4096))
  else d.scanver.setWidth 64

/-- The leaf an address has now: the translation its home holds, or else a walk (R337). -/
def State.leafNow (s : State) (ctx zone va : Nat) : Nat × Attr × Nat × Bool :=
  match s.dev.tlbFind ctx zone (va / 4096) with
  | some t => (s.phys64 t.leaf, s.dev.execMasked zone (t.frame * 4096) t.attr, 0, true)
  | none =>
    match s.walk ctx zone va with
    | .leaf pa _ e lev => (e, s.dev.execMasked zone pa (attrOf s.dev ctx (s.dev.ownZone zone) pa e lev), 0, true)
    | .none why => (0, ⟨false, false, false, false, 0, 0⟩, why, false)

/-- The fields of an ATTR token (R337). -/
def attrWord (valid : Bool) (a : Attr) (acc dirty pin : Bool) (why : Nat) : Nat :=
  if valid then
    1 + 2 * a.r.toNat + 4 * a.w.toNat + 8 * a.x.toNat + 16 * a.e.toNat + 32 * a.cls + 128 * acc.toNat +
      256 * dirty.toNat + 512 * pin.toNat + 1024 * a.size
  else 2 ^ 13 * why

/-- What ATTR answers (R337); zone 0xF0 without a translation answers 1 or 2 as its context has a PASID or not (log 14). -/
def attrValue (s : State) (ctx zone va : Nat) : Nat :=
  let none : Attr := ⟨false, false, false, false, 0, 0⟩
  match zoneOf zone with
  | .place => attrWord false none false false false 4
  | .host =>
    match s.dev.ats.find? (fun t => t.ctx == ctx && t.page == va / 4096) with
    | some t => attrWord true ⟨t.rd, t.wr, false, false, 2, t.size⟩ false false false 0
    | .none => attrWord false none false false false (if (s.ctxPasid ctx).isSome then 2 else 1)
  | _ =>
    let r := s.leafNow ctx zone va
    attrWord r.2.2.2 r.2.1 (bitOf r.1 8) (bitOf r.1 9) (bitOf r.1 11) r.2.2.1

/-- WAITC: Wait for posted stores of the named classes to be performed (R362). -/
def execWaitc (t0 : BitVec 9) (m : BitVec 3) (pr : BitVec 2) (s : State) : Out :=
  waitcFire s t0 pr 0 m.toNat

/-- WAITC_AGE: Wait until an AGE is idle, faulted or stopped (R362). -/
def execWaitcAge (t0 : BitVec 9) (n : BitVec 3) (pr : BitVec 2) (s : State) : Out :=
  waitcFire s t0 pr 1 n.toNat

/-- WAITC_JOIN: Wait without suspending until the own join counter reads zero (R362). -/
def execWaitcJoin (t0 : BitVec 9) (pr : BitVec 2) (s : State) : Out :=
  waitcFire s t0 pr 2 0

/-- The home of the join counter of the task on hart `hn` translates its address, so that it keeps the translation and sets A (R333). -/
def State.wordReached (s : State) (hn : Nat) : State :=
  let h := s.hart hn
  ((s.countWalk hn 0 (h.seg + 56)).xlate h.ctxid.toNat 0 (h.seg + 56).toNat true false).1.learnAt hn 0 (h.seg + 56)

/-- The replay notice of the page of that join counter, if one stands: an access to the page then freezes its core (R281). -/
def State.wordNotice (s : State) (hn : Nat) : Option Notice := (s.hart hn).noticeFor 0 (((s.hart hn).seg + 56).toNat / 4096)

/-! Waits at a port, and cycles (R359) -/

/-- The entries a block pushes at commit (R98, R100): outbound port and value. -/
def Block.pushes (b : Block) : List (Nat × Dbl) :=
  (writeSlots b.hdr).filterMap (fun p =>
    if 0x48 ≤ p.2 ∧ p.2 < 0x50 then
      match b.tok (4 * p.1 + 3) with
      | some k => if k.null then none else some (p.2 - 0x40, k.lo)
      | none => none
    else none)

def ReqKind.holdsCommit : ReqKind → Bool
  | .cbld => true
  | .refill => true
  | .domwait _ => true
  | _ => false

/-- The block's own conditions (R25), CBLD's reads and DOMWAIT's token among them (R296, R341). -/
def Block.complete (b : Block) : Bool :=
  (writeSlots b.hdr).all (fun p => (b.tok (4 * p.1 + 3)).isSome) &&
  (upTo 32).all (fun n => !bitOf (hdrStoreMask b.hdr) n || b.lsids.contains n) &&
  (upTo 32).all (fun n => !bitOf (hdrVecMask b.hdr) n || b.vsids.contains n) &&
  b.branch.isSome && b.faults.isEmpty && !(b.reqs.any (fun r => r.kind.holdsCommit))

/-- The oldest block of a core waits at a port: a read slot for an entry, or its commit for room (R99, R100). -/
def State.portWaits (s : State) (n : Nat) : Bool :=
  match (s.hart n).blocks.head? with
  | some b =>
    !b.dead && ((readSlots b.hdr).any (fun r => decide (0x40 ≤ r.reg) && decide (r.reg < 0x48) && !b.injected.contains r.k) ||
      (b.complete && b.pushes.any (fun x => decide (16 ≤ ((s.mt (placeOfHart n)).port x.1).q.length))))
  | none => false

/-- How far counter `k` of a core has risen by now is free: it counts cycles, or cycles of a state that lasts, a wait of the oldest block at a port or a BUSY bit (R359, log 59). -/
def State.timed (s : State) (n k : Nat) : Bool :=
  let h := s.hart n
  h.counts k 1 || (h.counts k 9 && s.portWaits n) || (h.counts k 10 && h.busy != 0)

/-- Such a counter catches up with the time that has passed. -/
def State.holdCounter (s : State) (n k : Nat) : State :=
  let h := s.hart n
  if isEngine n || !s.timed n k then s
  else (s.setHart n { h with pcnt := mset 0 h.pcnt k (mget 0 h.pcnt k + ((Config.freeValue s.dev.fresh).setWidth 32).setWidth 64) }).freshened

/-- The state after a step in which the wait of a core's oldest block at a port may have ended, with its cycles counted. -/
def State.waitOver (s t : State) (n : Nat) : State := if s.portWaits n && !t.portWaits n then t.countSome n 9 32 else t

/-- An RDC of a performance counter that counts timed events (R359): how far the counter has risen is free (log 59). -/
def State.readsTimed (s : State) (c : Nat) : Bool :=
  decide (8 ≤ c) && decide (c < 16) && s.timed (placeOfHart s.dev.focus.hart) (c - 8)

/-- RDC: Send a selected counter value (R363); counter 3 is read at its home when RDC fires (log 25). -/
def execRdc (t0 : BitVec 9) (c : BitVec 5) (pr : BitVec 2) (s : State) : Out :=
  let f := s.dev.focus
  let form : Form := { pr := pr, operands := 0, oldest := false, lsid := none, vsid := none }
  let s0 := if c = 3 ∧ isEngine f.hart = false ∧ s.wordNotice f.hart = none ∧ s.goes form = true then s.wordReached f.hart
    else if s.readsTimed c.toNat && s.goes form then s.holdCounter (placeOfHart f.hart) (c.toNat - 8)
    else s
  .next (s0.fire form
    (onBlock fun h b _ _ =>
      if c = 3 then
        if isEngine f.hart then b.deliver t0 (tokOf 0)
        else
          match s.wordNotice f.hart, s.peekWord h.ctxid.toNat h.seg with
          | some n, _ => b.addFault (deferredFault n (32 + f.idx))
          | none, (w, none) => b.deliver t0 (tokOf (BitVec.ofNat 64 (w / 2 ^ 32)))
          | none, (_, some x) => b.addFault (accessFault f.idx none x.1 0 0 8 x.2 (h.seg + 56) true)
      else b.deliver t0 (tokOf (rdcValue s0 f.hart h b c.toNat))))

/-- JADD: Add a signed amount to a join counter after a release at its scope (R364). -/
def execJadd (sc : BitVec 3) (pr : BitVec 2) (s : State) : Out :=
  let c := s.dev.focus
  .next (s.fire { pr := pr, operands := 2, oldest := false, lsid := none, vsid := none }
    (onBlock fun _ b l r =>
      if l.null || r.null then b
      else if l.lo.toNat % 4096 ≠ 0 then b.addFault { plainFault 0x12 (32 + c.idx) with va := l.lo, d1 := 2 + 256 * 3 }
      else b.addEff c.idx (.jadd sc.toNat l.lo (r.lo.setWidth 32))))

/-- PCFG: Configure a performance counter at commit (R365). -/
def execPcfg (n : BitVec 3) (pr : BitVec 2) (s : State) : Out :=
  let c := s.dev.focus
  .next (s.fire { pr := pr, operands := 1, oldest := false, lsid := none, vsid := none }
    (onBlock fun _ b l _ =>
      if l.null then b
      else if b.effs.any (fun e => match e.2 with | .pcfg m _ => m == n.toNat | _ => false) then b.fault 0x03 c.idx 0 0
      else b.addEff c.idx (.pcfg n.toNat l.lo)))

/-- TIME: Send TIMEBASE, its status or the time of the last step (R366). -/
def execTime (t0 : BitVec 9) (q : BitVec 2) (pr : BitVec 2) (s : State) : Out :=
  let s0 := if q = 0 ∧ s.goes (scalarForm pr 0 false) = true then s.ticked else s
  let d := s0.dev
  .next (s0.fireScalar pr 0 false t0 noTarget fun _ _ _ _ =>
    tokOf (if q = 0 then d.timebase
      else if q = 1 then BitVec.ofNat 64 (d.sync.toNat + 2 ^ 16 * d.steps.toNat)
      else d.stepAt))

/-- CBLD: Load the context's codebook from memory at commit (R341): at fire it raises zone-invalid and misaligned-access alone, every other fault of its reads at block grain (R351). -/
def execCbld (z : BitVec 2) (pr : BitVec 2) (s : State) : Out :=
  let c := s.dev.focus
  .next (s.fireMem { pr := pr, operands := 1, oldest := true, lsid := none, vsid := none } z noTarget
    fun zone h b l _ =>
      if zoneOf zone = .invalid then h.putBlock (b.addFault (accessFault c.idx none 0x10 zone 0 64 0 l.lo false))
      else if !aligned l.lo 4 then h.putBlock (b.addFault (accessFault c.idx none 0x12 zone 0 64 0 l.lo false))
      else h.putBlock (b.addReq { idx := c.idx, lsid := 0, ord := 0, zone := zone, va := l.lo, t0 := noTarget, kind := .cbld }))

/-- ALINV: Invalidate translations and lookaside entries for a page, zone or context (R336). -/
def execAlinv (sc : BitVec 3) (z : BitVec 2) (pr : BitVec 2) (s : State) : Out :=
  let c := s.dev.focus
  .next (s.fireMem { pr := pr, operands := 1, oldest := false, lsid := none, vsid := none } z noTarget
    fun zone h b l _ =>
      if zoneOf zone = .invalid then h.putBlock (b.addFault { plainFault 0x10 (32 + c.idx) with zone := zone, va := l.lo })
      else h.putBlock (b.addEff c.idx (.alinv zone sc.toNat l.lo)))

/-- An ATTR of a host page that the home holds no translation of: it waits for the ATS completion, which stands for the walk (R337, R414). -/
def State.attrWaits (s : State) (z : Nat) : Bool :=
  let c := s.dev.focus
  let h := s.hart c.hart
  match h.zoneFor c.tag z, h.block c.tag with
  | some zone, some b =>
    match b.tok (4 * c.idx) with
    | some l => zoneOf zone == .host && !l.null && (s.ctxPasid h.ctxid.toNat).isSome && s.dev.ready.getLsbD 16 &&
        !(s.dev.ats.any (fun t => t.ctx == h.ctxid.toNat && t.page == l.lo.toNat / 4096))
    | none => false
  | _, _ => false

/-- The Translation Request that it waits for. -/
def State.attrAsks (s : State) (z : Nat) : State :=
  let c := s.dev.focus
  let h := s.hart c.hart
  match h.zoneFor c.tag z, (h.block c.tag).bind (fun b => b.tok (4 * c.idx)) with
  | some zone, some l => (s.xlate h.ctxid.toNat zone l.lo.toNat false false).1
  | _, _ => s

/-- ATTR: Query the home's translation attributes for an address (R337). -/
def execAttr (t0 : BitVec 9) (z : BitVec 2) (pr : BitVec 2) (s : State) : Out :=
  let c := s.dev.focus
  let form : Form := { pr := pr, operands := 1, oldest := false, lsid := none, vsid := none }
  .next (if s.attrWaits z.toNat && s.goes form then s.attrAsks z.toNat else s.fireMem form z t0
    fun zone h b l _ =>
      if zoneOf zone = .invalid then h.putBlock (b.addFault { plainFault 0x10 (32 + c.idx) with zone := zone, va := l.lo })
      else h.putBlock (b.deliver t0 (tokOf (BitVec.ofNat 64 (attrValue s h.ctxid.toNat zone l.lo.toNat)))))

/-- DMAPQ: Query the decode map version, opcode validity or scan-map version (R343). -/
def execDmapq (t0 : BitVec 9) (q : BitVec 2) (pr : BitVec 2) (s : State) : Out :=
  .next (s.fireScalar pr 1 false t0 noTarget fun _ _ l _ => tokOf (dmapqValue s.dev q.toNat l.lo))

end Sys2Proof.Machine
end

