-- ==== Sys2Proof/Machine/Control.lean ====
section
/-! DEFINITION. Control transfer, supervisor calls, breaks and traps (op 0x01 to 0x03; R114-R122). They send no token; what they do to the next-block address and the return stack takes place at the commit of the block (R115). -/
namespace Sys2Proof.Machine

/-- A block address operand is usable: not null, bits 6:0 zero (R114). -/
def goodTarget (k : Token) : Bool := !k.null && (k.lo &&& 0x7F) == 0

/-- The offending address token of a branch-target fault (R374); a null token is reported as 0 (log 50). -/
def badTargetDetail (k : Token) : Dbl := if k.null then 0 else k.lo

/-- The address of the block that follows in memory: blk + 128 + 128 * Ceil((NROW + 1) / 2) (R114). -/
def nextSeq (b : Block) : Dbl := b.addr + 128 + 128 * BitVec.ofNat 64 ((hdrRows b.hdr + 1) / 2)

/-- A relative branch target (R77, R114). -/
def relTarget (b : Block) (f : BitVec 21) : Dbl := b.addr + simm f * 128

/-- The branch form: no LSID or VSID, and whether it must be the oldest block's. -/
def branchForm (pr : BitVec 2) (operands : Nat) (oldest : Bool) : Form :=
  { pr := pr, operands := operands, oldest := oldest, lsid := none, vsid := none }

/-- The fault a push raises at fire (R119): a spill needed with LIM 0, or SPILLED at its limit. -/
def pushFault (h : Hart) : Bool :=
  h.spilled == 0xFFFFFFFF || (decide (8 ≤ h.rstk.length) && (h.stklim &&& ~~~(0xF : Dbl)) == 0)

/-- What a branch-class instruction does to its block as it fires: it is counted, then its own work follows (R25, R26). -/
def exits (idx : Nat) (g : Hart → Block → Token → Token → Block) : Hart → Block → Token → Token → Hart :=
  onBlock fun h b l r => g h (b.takeExit idx) l r

/-- Fire a call: the return address and target are checked, then the return stack (R114, R119); with both bad the target is reported (log 50). -/
def callBlock (h : Hart) (b : Block) (idx : Nat) (target ra : Token) : Block :=
  if !goodTarget target then b.fault 0x05 idx (badTargetDetail target) 0
  else if !goodTarget ra then b.fault 0x05 idx (badTargetDetail ra) 0
  else if pushFault h then b.fault 0x06 idx (depthWord h.rstk.length h.spilled) 0
  else b.setBranch idx (.call target.lo ra.lo)

/-- Fire a RET (R118, R119): the top resident entry, else a refill load of the newest spilled entry. A refill holds no LSID: it follows no store of its own block, and its packet names no LSID (log 50). -/
def retBlock (h : Hart) (b : Block) (idx : Nat) : Block :=
  match h.rstk.getLast? with
  | some a =>
    if (a &&& 0x7F) == 0 then b.setBranch idx (.ret a false) else b.fault 0x05 idx a 0
  | none =>
    if h.spilled = 0 then b.fault 0x06 idx (depthWord 0 0) 0
    else b.addReq { idx := idx, lsid := 0, ord := 0, zone := 0, va := spillSlot h (h.spilled.toNat - 1),
                    t0 := noTarget, kind := .refill }

/-- BR: Unconditional branch to the block at a signed 128-byte offset (R114). -/
def execBr (f : BitVec 21) (_h : BitVec 2) (pr : BitVec 2) (s : State) : Out :=
  .next (s.fire (branchForm pr 0 false) (exits s.dev.focus.idx fun _ b _ _ => b.setBranch s.dev.focus.idx (.goto (relTarget b f))))

/-- CALL: Branch to a relative block and push the left token as return address (R114). -/
def execCall (f : BitVec 21) (_h : BitVec 2) (pr : BitVec 2) (s : State) : Out :=
  .next (s.fire (branchForm pr 1 true) (exits s.dev.focus.idx fun g b l _ => callBlock g b s.dev.focus.idx (tokOf (relTarget b f)) l))

/-- BRI: Branch to the block address held in the left token (R114). -/
def execBri (pr : BitVec 2) (s : State) : Out :=
  .next (s.fire (branchForm pr 1 false) (exits s.dev.focus.idx fun _ b l _ =>
    if goodTarget l then b.setBranch s.dev.focus.idx (.goto l.lo)
    else b.fault 0x05 s.dev.focus.idx (badTargetDetail l) 0))

/-- CALLI: Indirect branch to the left token and push the right token as return address (R114). -/
def execCalli (pr : BitVec 2) (s : State) : Out :=
  .next (s.fire (branchForm pr 2 true) (exits s.dev.focus.idx fun h b l r => callBlock h b s.dev.focus.idx l r))

/-- RET: Branch to the address popped from the return stack, refilling from the spill area when no entry is resident (R118). -/
def execRet (pr : BitVec 2) (s : State) : Out :=
  .next (s.fire (branchForm pr 0 true) (exits s.dev.focus.idx fun h b _ _ => retBlock h b s.dev.focus.idx))

/-- SCALL: Commit, then freeze the core with the supervisor-call cause and the service number (R120). -/
def execScall (pr : BitVec 2) (s : State) : Out :=
  .next (s.fire (branchForm pr 1 false) (exits s.dev.focus.idx fun _ b l _ =>
    if l.null then b.fault 0x05 s.dev.focus.idx 0 0
    else b.setBranch s.dev.focus.idx (.scall (nextSeq b) l.lo)))

/-- BREAK: After its block commits, freeze the core with the break cause (R121). -/
def execBrk (pr : BitVec 2) (s : State) : Out :=
  .next (s.fire (branchForm pr 0 false) (onBlock fun _ b _ _ => { b with breaks := b.breaks ++ [s.dev.focus.idx] }))

/-- TRAP: Record a trap with a 64-bit code against the block, which cannot then commit (R122). -/
def execTrap (pr : BitVec 2) (s : State) : Out :=
  .next (s.fire (branchForm pr 1 false) (onBlock fun _ b l _ => if l.null then b else b.fault 0x72 s.dev.focus.idx l.lo 0))

end Sys2Proof.Machine
end

