-- ==== Sys2Proof/Machine/Order.lean ====
section
/-! DEFINITION. Atomics, ACQ, fences, cache controls, IBAR and LNCFG (op 0x50 to 0x5C, 0x5E, 0x5F; R242-R253): what they do at fire. -/
namespace Sys2Proof.Machine

/-- The width in bytes of an atomic (R242). -/
def atomicSize (w : BitVec 2) : Nat := 2 ^ (w.toNat + 2)

/-- An atomic at fire: its request, or its fault (R234, R242); a lookaside hit refuses an ACAS without W in zone 0xF0 alone (R242, R414). `op` is the low digit of its opcode. -/
def atomic (s : State) (l : BitVec 5) (t0 : BitVec 9) (z o : BitVec 2) (sc : BitVec 3) (w pr : BitVec 2) (op : Nat) : Out :=
  let c := s.dev.focus
  let n := atomicSize w
  .next (s.fireMem { pr := pr, operands := 2, oldest := false, lsid := some l.toNat, vsid := none } z t0
    fun zone h b a r =>
      issue s.dev c.hart h b 2
        [{ zone := zone, va := a.lo, size := n, good := aligned a.lo n, rd := true, wr := op != 9 || zoneOf zone == .host, stack := true }]
        { idx := c.idx, lsid := l.toNat, ord := 2 ^ o.toNat - 1, zone := zone, va := a.lo, t0 := t0,
          kind := .atomic op n sc.toNat r.val })

/-- A fence: its work starts at the commit of its block (R216, R248). -/
def fence (s : State) (sc : BitVec 3) (pr : BitVec 2) (kind : Nat) : Out :=
  let c := s.dev.focus
  .next (s.fire { pr := pr, operands := 0, oldest := false, lsid := none, vsid := none }
    (onBlock fun _ b _ _ => b.addEff c.idx (.fence kind sc.toNat)))

/-- WBR and INVR: their work starts at the commit of their block (R249, R250). -/
def cacheRange (s : State) (z pr : BitVec 2) (inv : Bool) : Out :=
  let c := s.dev.focus
  .next (s.fireMem { pr := pr, operands := 2, oldest := false, lsid := none, vsid := none } z noTarget
    fun zone h b a r =>
      if zoneOf zone = .invalid then h.putBlock (b.addFault { plainFault 0x10 (32 + c.idx) with zone := zone, va := a.lo })
      else h.putBlock (b.addEff c.idx (.cache inv zone a.lo r.lo)))

/-! Port and AGE changes of one block (R26, R252, R308) -/

/-- The port an effect changes. -/
def Eff.portOf (e : Eff) : Option Nat :=
  match e with
  | .lncfg p _ _ _ => some p
  | .chcfg p _ _ _ _ => some p
  | .chcfgAge p _ => some p
  | .chclr p _ => some p
  | _ => none

/-- The AGE an LNCFG names; with `all`, also the AGE an AGE CHCFG names. -/
def Eff.ageOf (e : Eff) (all : Bool) : Option Nat :=
  match e with
  | .lncfg _ g _ _ => some g
  | .chcfgAge _ g => if all then some g else none
  | _ => none

/-- Another member of the block already changes the port, or names the AGE beside an LNCFG (R252, R308). -/
def portClash (b : Block) (e : Eff) : Bool :=
  b.effs.any (fun p =>
    (p.2.portOf.isSome && p.2.portOf == e.portOf) ||
    (match e with
     | .lncfg _ g _ _ => p.2.ageOf true == some g
     | .chcfgAge _ g => p.2.ageOf false == some g
     | _ => false))

/-- Add a port effect, or the token conflict of a second one. -/
def Block.addPortEff (b : Block) (idx : Nat) (e : Eff) : Block :=
  if portClash b e then b.fault 0x03 idx 0 0 else b.addEff idx e

/-- The fault of an LNCFG record address at fire (R252). -/
def lncfgCause (zone : Nat) (rec : Dbl) : Option Nat :=
  if zoneOf zone = .invalid then some 0x10
  else if zone ≠ 0 ∧ ¬(zone = 0xFE ∧ rec.toNat < 2 ^ 32 ∧ rec.toNat + 128 ≤ 0x7E000) then some 0x11
  else if rec.toNat % 128 ≠ 0 then some 0x12
  else none

/-- The z-register an LNCFG names in bits 9:8 of its right token; z0 until the token is there. -/
def lncfgZs (s : State) : BitVec 2 :=
  let c := s.dev.focus
  match (s.hart c.hart).block c.tag with
  | some b =>
    match b.tok (4 * c.idx + 1) with
    | some k => BitVec.ofNat 2 (bitsOf k.lo.toNat 9 8)
    | none => 0
  | none => 0

/-- AADD: Atomic add at the home, returning the old value (R242). -/
def execAadd (l : BitVec 5) (t0 : BitVec 9) (z : BitVec 2) (o : BitVec 2) (sc : BitVec 3) (w : BitVec 2) (pr : BitVec 2) (s : State) : Out :=
  atomic s l t0 z o sc w pr 0

/-- AAND: Atomic and (R242). -/
def execAand (l : BitVec 5) (t0 : BitVec 9) (z : BitVec 2) (o : BitVec 2) (sc : BitVec 3) (w : BitVec 2) (pr : BitVec 2) (s : State) : Out :=
  atomic s l t0 z o sc w pr 1

/-- AOR: Atomic or (R242). -/
def execAor (l : BitVec 5) (t0 : BitVec 9) (z : BitVec 2) (o : BitVec 2) (sc : BitVec 3) (w : BitVec 2) (pr : BitVec 2) (s : State) : Out :=
  atomic s l t0 z o sc w pr 2

/-- AXOR: Atomic exclusive or (R242). -/
def execAxor (l : BitVec 5) (t0 : BitVec 9) (z : BitVec 2) (o : BitVec 2) (sc : BitVec 3) (w : BitVec 2) (pr : BitVec 2) (s : State) : Out :=
  atomic s l t0 z o sc w pr 3

/-- AMIN: Atomic signed minimum (R242). -/
def execAmin (l : BitVec 5) (t0 : BitVec 9) (z : BitVec 2) (o : BitVec 2) (sc : BitVec 3) (w : BitVec 2) (pr : BitVec 2) (s : State) : Out :=
  atomic s l t0 z o sc w pr 4

/-- AMAX: Atomic signed maximum (R242). -/
def execAmax (l : BitVec 5) (t0 : BitVec 9) (z : BitVec 2) (o : BitVec 2) (sc : BitVec 3) (w : BitVec 2) (pr : BitVec 2) (s : State) : Out :=
  atomic s l t0 z o sc w pr 5

/-- AMINN: Atomic unsigned minimum (R242). -/
def execAminn (l : BitVec 5) (t0 : BitVec 9) (z : BitVec 2) (o : BitVec 2) (sc : BitVec 3) (w : BitVec 2) (pr : BitVec 2) (s : State) : Out :=
  atomic s l t0 z o sc w pr 6

/-- AMAXN: Atomic unsigned maximum (R242). -/
def execAmaxn (l : BitVec 5) (t0 : BitVec 9) (z : BitVec 2) (o : BitVec 2) (sc : BitVec 3) (w : BitVec 2) (pr : BitVec 2) (s : State) : Out :=
  atomic s l t0 z o sc w pr 7

/-- ASWP: Atomic swap (R242). -/
def execAswp (l : BitVec 5) (t0 : BitVec 9) (z : BitVec 2) (o : BitVec 2) (sc : BitVec 3) (w : BitVec 2) (pr : BitVec 2) (s : State) : Out :=
  atomic s l t0 z o sc w pr 8

/-- ACAS: Atomic compare-and-swap of 4, 8 or 16 bytes (R242). -/
def execAcas (l : BitVec 5) (t0 : BitVec 9) (z : BitVec 2) (o : BitVec 2) (sc : BitVec 3) (w : BitVec 2) (pr : BitVec 2) (s : State) : Out :=
  atomic s l t0 z o sc w pr 9

/-- AFADD: Atomic floating add with RNE at the home (R243). -/
def execAfadd (l : BitVec 5) (t0 : BitVec 9) (z : BitVec 2) (o : BitVec 2) (sc : BitVec 3) (w : BitVec 2) (pr : BitVec 2) (s : State) : Out :=
  atomic s l t0 z o sc w pr 10

/-- FENCE_FULL: Full fence with release and acquire work at its scope (R216). -/
def execFenceFull (sc : BitVec 3) (pr : BitVec 2) (s : State) : Out :=
  fence s sc pr 0

/-- FENCE_ACQ: Acquire fence (R216). -/
def execFenceAcq (sc : BitVec 3) (pr : BitVec 2) (s : State) : Out :=
  fence s sc pr 1

/-- FENCE_REL: Release fence (R216). -/
def execFenceRel (sc : BitVec 3) (pr : BitVec 2) (s : State) : Out :=
  fence s sc pr 2

/-- FENCE_SS: Store-store fence draining its scope's classes (R216). -/
def execFenceSs (sc : BitVec 3) (pr : BitVec 2) (s : State) : Out :=
  fence s sc pr 3

/-- ACQ: Acquire on a binder, waiting on its condition, then invalidating its regions (R219). -/
def execAcq (l : BitVec 5) (t0 : BitVec 9) (z : BitVec 2) (o : BitVec 2) (sc : BitVec 3) (pr : BitVec 2) (s : State) : Out :=
  let c := s.dev.focus
  .next (s.fireMem { pr := pr, operands := 1, oldest := false, lsid := some l.toNat, vsid := none } z t0
    fun zone h b x _ =>
      issue s.dev c.hart h b 0
        [{ zone := zone, va := x.lo, size := 64, good := aligned x.lo 64, rd := true, wr := false, stack := true }]
        { idx := c.idx, lsid := l.toNat, ord := 2 ^ o.toNat - 1, zone := zone, va := x.lo, t0 := t0, kind := .acq sc.toNat none })

/-- WBR: Write back the dirty nibbles of covered L1D lines (R249). -/
def execWbr (z : BitVec 2) (pr : BitVec 2) (s : State) : Out :=
  cacheRange s z pr false

/-- INVR: Write back and invalidate covered L1D lines (R249). -/
def execInvr (z : BitVec 2) (pr : BitVec 2) (s : State) : Out :=
  cacheRange s z pr true

/-- PREF: Prefetch hint for covered lines (R249). -/
def execPref (_z : BitVec 2) (pr : BitVec 2) (s : State) : Out :=
  .next (s.fire { pr := pr, operands := 2, oldest := false, lsid := none, vsid := none } (onBlock fun _ b _ _ => b))

/-- IBAR: Fetch barrier: discard younger blocks, write back, invalidate block caches, refetch (R251). -/
def execIbar (pr : BitVec 2) (s : State) : Out :=
  let c := s.dev.focus
  .next (s.fire { pr := pr, operands := 0, oldest := false, lsid := none, vsid := none }
    (onBlock fun _ b _ _ => b.addEff c.idx .ibar))

/-- LNCFG: At commit, bind an AGE to a port and start it on a loop-nest record (R253). -/
def execLncfg (pr : BitVec 2) (s : State) : Out :=
  let c := s.dev.focus
  .next (s.fireMem { pr := pr, operands := 2, oldest := false, lsid := none, vsid := none } (lncfgZs s) noTarget
    fun zone h b a r =>
      let k := r.lo.toNat
      let e : Eff := .lncfg (bitsOf k 3 0) (bitsOf k 6 4) zone a.lo
      if portClash b e then h.putBlock (b.fault 0x03 c.idx 0 0)
      else
        match lncfgCause zone a.lo with
        | some x => h.putBlock (b.addFault { plainFault x (32 + c.idx) with zone := zone, va := a.lo, d1 := 5 + 256 * 7 })
        | none => h.putBlock (b.addEff c.idx e))

end Sys2Proof.Machine
end

