-- ==== Sys2Proof/Machine/Task.lean ====
section
/-! DEFINITION. Task and port instructions (op 0x78, 0x79; R285-R302): what they do at fire. Those that take effect at commit do nothing before it (R286). -/
namespace Sys2Proof.Machine

/-- A block effect of a member with a left operand; a null token does nothing (R286). So does a null block address of SPAWN or SPAWNA, which R308's table lists under the branch-target fault: R286's own words are followed (DESIGN CHOICE, log 60). -/
def taskEff (s : State) (pr : BitVec 2) (operands : Nat) (g : Hart → Block → Token → Token → Block) : Out :=
  .next (s.fire { pr := pr, operands := operands, oldest := false, lsid := none, vsid := none }
    (onBlock fun h b l r =>
      if l.null ∨ (operands = 2 ∧ r.null = true) then b else g h b l r))

/-- The masks that a live-engine-state fault reports (R374): BUSY, active or faulted AGEs, ports that hold entries, bound ports. -/
def ageMask (m : Mt) : Nat :=
  (upTo 8).foldl (fun x a => if (m.age a).state = 1 ∨ (m.age a).state = 2 then x + 2 ^ a else x) 0

def portMask (m : Mt) (p : Port → Bool) : Nat :=
  (upTo 16).foldl (fun x n => if p (m.port n) then x + 2 ^ n else x) 0

def liveWord (h : Hart) (m : Mt) : Dbl :=
  BitVec.ofNat 64 (h.busy.toNat + 2 ^ 8 * ageMask m + 2 ^ 16 * portMask m (fun p => !p.q.isEmpty) +
    2 ^ 32 * portMask m (fun p => p.bind != 0))

/-- JOIN and YIELD at fire: the continuation must be a block address and no tensor operation outstanding (R286, R290). -/
def leaveTask (s : State) (pr : BitVec 2) (br : Dbl → Branch) : Out :=
  let c := s.dev.focus
  .next (s.fire (branchForm pr 1 true) (exits c.idx fun h b l _ =>
    if !goodTarget l then b.fault 0x05 c.idx (badTargetDetail l) 0
    else if h.busy ≠ 0 then b.fault 0x30 c.idx (liveWord h (s.mt (placeOfHart c.hart))) 0
    else b.setBranch c.idx (br l.lo)))

/-- The width hint a WIDTH token names (R294). -/
def hintOf (x : Nat) : Nat :=
  let h := x % 16
  if 9 ≤ h then 8 else if 5 ≤ h ∧ h ≤ 7 then 4 else if h = 3 then 2 else h

/-- Entries of a port that read slots of these blocks have popped tentatively (R99). -/
def popsOf (bs : List Block) (n : Nat) : Nat := bs.foldl (fun x b => x + b.pops.count n) 0

/-- The BIND code that CHLEN sends (R301). -/
def bindCode (p : Port) : Nat :=
  if p.bind = 2 then 2 else if p.bind = 1 then (if p.agreed then 1 else 3) else 0

/-- The token of CHLEN (R301). -/
def chlenTok (h : Hart) (b : Block) (p : Port) (n : Nat) : Token :=
  let count := if n < 8 then p.q.length - popsOf (h.olderBlocks b.tag ++ [b]) n else p.q.length
  let credit := if 8 ≤ n ∧ p.bind = 1 then p.credit.toNat else 0
  tokOf (BitVec.ofNat 64 (count % 32 + 2 ^ 5 * credit + 2 ^ 10 * bindCode p))

/-- SPAWN: At commit push a child frame counted in the spawner's segment (R287). -/
def execSpawn (pr : BitVec 2) (s : State) : Out :=
  let c := s.dev.focus
  taskEff s pr 1 fun h b l _ =>
    if !goodTarget l then b.fault 0x05 c.idx l.lo 0 else b.addEff c.idx (.spawn l.lo h.seg)

/-- SPAWNA: At commit push a child frame counted in an ancestor's segment (R288). -/
def execSpawna (pr : BitVec 2) (s : State) : Out :=
  let c := s.dev.focus
  taskEff s pr 2 fun _ b l r =>
    if !goodTarget l then b.fault 0x05 c.idx l.lo 0
    else if r.lo.toNat % 4096 ≠ 0 then b.addFault { plainFault 0x12 (32 + c.idx) with va := r.lo }
    else b.addEff c.idx (.spawn l.lo r.lo)

/-- JOIN: Commit to the continuation and suspend unless the join counter is zero (R289). -/
def execJoin (pr : BitVec 2) (s : State) : Out :=
  leaveTask s pr .join

/-- TASKEND: End the task at commit, clearing ports and AGEs and applying retirement (R291). -/
def execTaskend (pr : BitVec 2) (s : State) : Out :=
  .next (s.fire (branchForm pr 0 false) (exits s.dev.focus.idx fun _ b _ _ => b.setBranch s.dev.focus.idx .taskend))

/-- YIELD: Write the suspension record, push a resume frame and fall idle (R292). -/
def execYield (pr : BitVec 2) (s : State) : Out :=
  leaveTask s pr .yield

/-- TASKID: Send the TASKID, own segment or parent segment (R293). -/
def execTaskid (t0 : BitVec 9) (n : BitVec 2) (pr : BitVec 2) (s : State) : Out :=
  .next (s.fireScalar pr 0 false t0 noTarget fun h _ _ _ =>
    tokOf (if n = 0 then h.taskid.setWidth 64 else if n = 1 then h.seg else h.parent))

/-- WIDTH: Set the width hint of the resident task at commit (R294). -/
def execWidth (pr : BitVec 2) (s : State) : Out :=
  taskEff s pr 1 fun _ b l _ => b.addEff s.dev.focus.idx (.width (hintOf l.lo.toNat))

/-- LAUNCH: At commit release and post a launch record to the placement unit (R295). -/
def execLaunch (pr : BitVec 2) (s : State) : Out :=
  let c := s.dev.focus
  taskEff s pr 1 fun _ b l _ =>
    if l.lo.toNat % 64 ≠ 0 then b.addFault { plainFault 0x12 (32 + c.idx) with va := l.lo } else b.addEff c.idx (.launch l.lo)

/-- The token round in progress in the domain of hart `n`, if one is: it counts for a DOMWAIT that fires now (R450). -/
def State.openRound (s : State) (n : Nat) : Nat :=
  match s.dev.graph (s.hart n).graph with
  | some g => g.active.toNat
  | none => 0

/-- DOMWAIT: Wait until the steal domain is quiescent and send the round count (R296, R450). It fires in any block; its core counts as idle once the block is the oldest, since a speculative block shows nothing outside its core (R27, log 53). -/
def execDomwait (t0 : BitVec 9) (pr : BitVec 2) (s : State) : Out :=
  .next (s.fire { pr := pr, operands := 0, oldest := false, lsid := none, vsid := none }
    (onBlock fun _ b _ _ => b.addReq { idx := s.dev.focus.idx, lsid := 0, ord := 0, zone := 0, va := 0, t0 := t0, kind := .domwait (s.openRound s.dev.focus.hart) }))

/-- CHCFG: Bind a port to a neighbour port with a key at commit (R299). Its 0x11, where no access is made, gives access kind and size 0 (R374; DESIGN CHOICE, log 64). -/
def execChcfg (n : BitVec 4) (pr : BitVec 2) (s : State) : Out :=
  let c := s.dev.focus
  taskEff s pr 2 fun _ b l r =>
    let x := l.lo.toNat
    let dx := BitVec.ofNat 8 x
    let dy := BitVec.ofNat 8 (x / 2 ^ 8)
    let q := bitsOf x 19 16
    let e : Eff := .chcfg n.toNat dx dy q (r.lo.setWidth 16)
    if portClash b e then b.fault 0x03 c.idx 0 0
    else if (s.dev.relPlace c.hart dy.toInt dx.toInt).isNone then b.fault 0x11 c.idx 0 0
    else if (decide (8 ≤ n.toNat)) = (decide (8 ≤ q)) then b.fault 0x31 c.idx (BitVec.ofNat 64 (n.toNat + 2 ^ 8 * q)) 0
    else b.addEff c.idx e

/-- CHCFG_AGE: Bind a port to an AGE at commit, continuing a stopped AGE (R300). -/
def execChcfgAge (n : BitVec 4) (pr : BitVec 2) (s : State) : Out :=
  taskEff s pr 2 fun _ b l _ => b.addPortEff s.dev.focus.idx (.chcfgAge n.toNat (bitsOf l.lo.toNat 2 0))

/-- CHLEN: Send a port's count, credit and binding state (R301). -/
def execChlen (t0 : BitVec 9) (n : BitVec 4) (pr : BitVec 2) (s : State) : Out :=
  let c := s.dev.focus
  .next (s.fireScalar pr 0 false t0 noTarget fun h b _ _ => chlenTok h b (s.port (placeOfHart c.hart) n.toNat) n.toNat)

/-- CHCLR: Empty a port at commit, optionally removing its binding (R302). -/
def execChclr (t1 : BitVec 1) (n : BitVec 4) (pr : BitVec 2) (s : State) : Out :=
  .next (s.fire { pr := pr, operands := 0, oldest := false, lsid := none, vsid := none }
    (onBlock fun _ b _ _ => b.addPortEff s.dev.focus.idx (.chclr n.toNat (t1 == 1))))

end Sys2Proof.Machine
end

