-- ==== Sys2Proof/Machine/Home.lean ====
section
/-! DEFINITION. Accesses performed at a home or at a target tile, never in an L1D (R198, R219, R225, R264): by a hart for its atomics, ACQ, REL and JADD, and by the device's own engines; the release and acquire work of R216. -/
namespace Sys2Proof.Machine

/-- Write whole bytes at the home as one access per 64-byte line; the first failure stops it (R200). -/
def State.writeHomeAll (s : State) (ctx hn zone : Nat) (va : Dbl) (w : Writer) : List Byte → State × Access
  | bs =>
    (piecesOf va.toNat bs.length).foldl (fun acc p =>
      match acc with
      | (s, .bytes done) =>
        match s.writeHome ctx hn zone (BitVec.ofNat 64 p.1) (full ((bs.drop done.length).take p.2)) w with
        | (s1, .bytes _) => (s1, .bytes (done ++ (bs.drop done.length).take p.2))
        | r => r
      | r => r) (s, .bytes [])

/-- Read a byte range at the home; the first failure stops it. -/
def State.readHomeAll (s : State) (ctx hn zone : Nat) (va : Dbl) (n : Nat) : State × Access :=
  (piecesOf va.toNat n).foldl (fun acc p =>
    match acc with
    | (s, .bytes done) =>
      match s.readHome ctx hn zone (BitVec.ofNat 64 p.1) p.2 with
      | (s1, .bytes bs) => (s1, .bytes (done ++ bs))
      | r => r
    | r => r) (s, .bytes [])

def hartWriter (hn seq : Nat) : Writer :=
  { agent := if isEngine hn then 1 else 0, hart := hn, place := placeOfHart hn, unit := 0, seq := seq }

/-! Release and acquire work (R215, R216) -/

/-- The classes that a scope drains (R215): A and B at cluster scope, all three beyond, none at core scope. -/
def scopeMask (sc : Nat) : Nat := if sc = 0 then 0 else if sc = 1 then 3 else 7

/-- Write back every dirty line of the context (R216). -/
def Hart.releaseLines (h : Hart) : Hart := h.writeback true false (fun l => l.ctx == h.ctxid.toNat)

def Hart.anyDirty (h : Hart) : Bool := h.l1d.any (fun l => l.ctx == h.ctxid.toNat && l.dirty != 0)

/-- Write back and invalidate every line of the context (R216). -/
def Hart.invalidateLines (h : Hart) : Hart := h.writeback false true (fun l => l.ctx == h.ctxid.toNat)

/-- The acquire work stands complete: no line is still to be written back, and no write-back is under way (R216, R362). -/
def Hart.acquireDone (h : Hart) : Bool := !h.anyDirty && !h.posted.any (fun p => p.what.isWback)

/-- Younger accesses wait for write-backs that acquire work has just posted (R216, R219). -/
def Hart.awaitWbacks (h old : Hart) : Hart :=
  if h.posted.length ≤ old.posted.length then h
  else { h with posted := h.posted ++ [{ cls := 3, ord := wbackWork, what := .barrier true true, status := 0, seq := h.seq, cause := 0 }] }

/-- The younger blocks' early loads that `p` selects are made again: the first block with one is discarded, and every block behind it (R214). -/
def Hart.redoLoads (h : Hart) (tag : Nat) (p : Seen → Bool) : Hart :=
  match (h.youngerBlocks tag).find? (fun b => b.seen.any p) with
  | some b => h.discardFrom b.tag
  | none => h

/-- The acquire work: the lines go, with their write-backs done before any younger access, and the younger blocks' early loads are discarded (R214, R216). -/
def Hart.acquireWork (h : Hart) (tag : Nat) : Hart := (h.invalidateLines.awaitWbacks h).redoLoads tag (fun _ => true)

/-- Some barrier of an older fence stands (R216). -/
def Hart.fenced (h : Hart) : Bool :=
  h.posted.any (fun p =>
    match p.what with
    | .barrier _ _ => true
    | _ => false)

end Sys2Proof.Machine
end

