-- ==== Sys2Proof/Machine/Deque.lean ====
section
/-! DEFINITION. Deques, overflow segments, task segments and the segment pool (R260-R276): pushes, spills, refills, owner pops, thefts, join counters, retirement, and the start of a frame. Deque engines, homes and the placement unit reach these structures at their homes (R264). -/
namespace Sys2Proof.Machine

/-! Accesses of a deque engine -/

/-- The writer that a deque engine is (R373). -/
def dequeWriter (p : Nat) : Writer := { agent := 3, hart := p, place := p, unit := 0, seq := 0 }

/-- Why an access of a deque engine failed: cause (0: it did not), address, physical address (R374; that of the pool record for cause 0x32). -/
structure Miss where
  cause : Nat
  va : Dbl
  pa : Nat
  deriving DecidableEq, Repr

/-- No failure. -/
def Miss.none : Miss := ⟨0, 0, 0⟩

/-- A deque engine's fault: a packet that names it and the access that failed (R258, R270, R374). -/
def State.dequeFault (s : State) (p ctx : Nat) (m : Miss) : State :=
  let d1 := if m.cause = 0x32 ∨ m.cause = 0x60 then 0 else accessDetail 9 8 m.pa
  { s with dev := s.dev.sendPacket (deviceRow p) (agentPacket s.dev 3 ctx p 0 m.cause 0 m.va (BitVec.ofNat 64 m.pa) d1) }

/-- Read a double of zone 0x00 at its home. -/
def State.readDbl (s : State) (ctx p : Nat) (va : Dbl) : State × Option Nat × Miss :=
  match s.readHome ctx p 0 va 8 with
  | (s1, .bytes bs) => (s1, some (leNat bs), Miss.none)
  | (s1, .fault c pa) => (s1, none, ⟨c, va, pa⟩)
  | (s1, .wait) => (s1, none, ⟨0x15, va, 0⟩)

/-- Write doubles of zone 0x00 at their homes, upward from an address. -/
def State.writeDbls (s : State) (ctx p : Nat) (va : Dbl) : List Nat → State × Miss
  | [] => (s, Miss.none)
  | x :: xs =>
    match s.writeUnit ctx p 0 va (full (natLe 8 x)) (dequeWriter p) with
    | (s1, .bytes _) => s1.writeDbls ctx p (va + 8) xs
    | (s1, .fault c pa) => (s1, ⟨c, va, pa⟩)
    | (s1, .wait) => (s1, ⟨0x15, va, 0⟩)

/-- Read `n` doubles of zone 0x00. -/
def State.readDbls (s : State) (ctx p : Nat) (va : Dbl) : Nat → State × Option (List Nat) × Miss
  | 0 => (s, some [], Miss.none)
  | n + 1 =>
    match s.readDbl ctx p va with
    | (s1, some x, _) =>
      match s1.readDbls ctx p (va + 8) n with
      | (s2, some xs, _) => (s2, some (x :: xs), Miss.none)
      | r => r
    | (s1, none, c) => (s1, none, c)

/-- The memory tile that a hart uses, live or held (R384). -/
def State.mtOf (s : State) (hn : Nat) : Mt := if hn < 2048 then s.mt (placeOfHart hn) else s.dev.heldMt hn

def State.setMtOf (s : State) (hn : Nat) (m : Mt) : State :=
  if hn < 2048 then s.setMt (placeOfHart hn) m else { s with dev := s.dev.setHeldMt hn m }

def Mt.setDeque (m : Mt) (q : Deque) : Mt := { m with deque := q }
def State.deque (s : State) (p : Nat) : Deque := (s.mt p).deque
def State.setDeque (s : State) (p : Nat) (q : Deque) : State := s.setMt p ((s.mt p).setDeque q)

/-! Frames (R263) -/

/-- The eight doubles of a queued frame. -/
def Frame.dbls (f : Frame) : List Dbl :=
  [f.entry] ++ (upTo 5).map (fun i => f.args.getD i 0) ++
  [f.parent, BitVec.ofNat 64 (f.status.toNat + 2 ^ 10 * f.resume.toNat)]

def frameOf (xs : List Dbl) : Frame :=
  let w := (xs.getD 7 0).toNat
  { entry := xs.getD 0 0, args := (upTo 5).map (fun i => xs.getD (i + 1) 0), parent := xs.getD 6 0,
    status := BitVec.ofNat 5 w, resume := bitOf w 10 }

def Deque.count (q : Deque) : Nat := (q.bidx - q.tidx).toNat

/-- The slot of an index is the one that a thief copies, which the owner never writes (R268). -/
def Deque.copied (q : Deque) (i : Word) : Bool := q.transit && i.toNat % 64 == q.stolen.toNat % 64

/-- The ring holds all it can, the slot in transit among it (R262): a spill makes room. -/
def Deque.ringFull (q : Deque) : Bool := q.count + q.transit.toNat == 64

/-- No frame can be pushed now: the ring is full (R262), or the slot of the next push is in transit (R268). -/
def Deque.isFull (q : Deque) : Bool := q.ringFull || q.copied q.bidx

def Deque.isEmpty (q : Deque) : Bool := q.count == 0 && q.ovfcnt == 0

def Deque.slot (q : Deque) (i : Word) : List Dbl := mget [] q.ring (i.toNat % 64)

def Deque.push (q : Deque) (xs : List Dbl) : Deque :=
  { q with ring := mset [] q.ring (q.bidx.toNat % 64) xs, bidx := q.bidx + 1 }

/-! The segment pool (R264, R293) -/

/-- A segment the pool may hand out (R293). -/
def segOk (a : Nat) : Bool := a % 4096 == 0 && decide (a < 2 ^ 44) && a != 0

/-- The pool-empty fault names the pool record (R264, R374). -/
def State.noSegment (s : State) (ctx : Nat) : Miss := ⟨0x32, s.ctxPool ctx, (s.ctxPool ctx).toNat⟩

/-- Take one segment off the list in one indivisible operation; `none` with cause 0x32 when it is empty or unusable. -/
def State.takeList (s : State) (ctx p : Nat) : State × Option Dbl × Miss :=
  let rec_ := s.ctxPool ctx
  match s.readDbls ctx p rec_ 2 with
  | (s1, some [head, free], _) =>
    if !segOk head then (s1, none, s1.noSegment ctx)
    else
      match s1.readDbl ctx p (BitVec.ofNat 64 head) with
      | (s2, some next, _) =>
        match s2.writeDbls ctx p rec_ [next, free - 1] with
        | (s3, ⟨0, _, _⟩) => (s3, some (BitVec.ofNat 64 head), Miss.none)
        | (s3, c) => (s3, none, c)
      | (s2, none, c) => (s2, none, c)
  | (s1, some _, _) => (s1, none, s1.noSegment ctx)
  | (s1, none, c) => (s1, none, c)

/-- Put one segment back onto the list. -/
def State.returnList (s : State) (ctx p : Nat) (seg : Dbl) : State × Miss :=
  let rec_ := s.ctxPool ctx
  match s.readDbls ctx p rec_ 2 with
  | (s1, some [head, free], _) =>
    match s1.writeDbls ctx p seg [head] with
    | (s2, ⟨0, _, _⟩) => s2.writeDbls ctx p rec_ [seg.toNat, free + 1]
    | r => r
  | (s1, some _, c) => (s1, c)
  | (s1, none, c) => (s1, c)

/-- SPAREn; 0 is empty (R262). -/
def Deque.spareAt (q : Deque) (n : Nat) : Dbl := mget 0 q.spare n

def Deque.setSpare (q : Deque) (n : Nat) (a : Dbl) : Deque := { q with spare := mset 0 q.spare n a }

/-- The first spare that holds a segment, and the first that holds none. -/
def Deque.heldSpare (q : Deque) : Option Nat := (upTo 4).find? (fun n => q.spareAt n != 0)
def Deque.freeSpare (q : Deque) : Option Nat := (upTo 4).find? (fun n => q.spareAt n == 0)

/-- The deque engine stops at a fault of one of its own accesses until a Slate core resumes it; its packet is sent. -/
def State.stopEngine (s : State) (p ctx : Nat) (m : Miss) : State :=
  (s.setDeque p { s.deque p with stopped := true }).dequeFault p ctx m

/-- Take a segment: a spare, else one from the list, or a batch of two that refills the spares (R264). When an engine refills them is not stated, and in R448 engines with empty spares take one segment each: a free value (DESIGN CHOICE, log 62). -/
def State.takeSeg (s : State) (ctx p : Nat) : State × Option Dbl × Miss :=
  let q := s.deque p
  match q.heldSpare with
  | some n => (s.setDeque p (q.setSpare n 0), some (q.spareAt n), Miss.none)
  | none =>
    let batch := (Config.freeValue s.dev.fresh).getLsbD 0
    match ({ s with dev := { s.dev with fresh := s.dev.fresh + 1 } } : State).takeList ctx p with
    | (s1, some a, _) =>
      if !batch then (s1, some a, Miss.none)
      else
      match s1.takeList ctx p with
      | (s2, some b, _) => (s2.setDeque p ((s2.deque p).setSpare 0 b), some a, Miss.none)
      | (s2, none, _) => (s2, some a, Miss.none)
    | r => r

/-- Put segments back onto the list, in order; a fault stops the engine with those that are left (R264). -/
def State.returnAll (s : State) (ctx p : Nat) : List Dbl → State
  | [] => s
  | x :: xs =>
    match s.returnList ctx p x with
    | (s1, ⟨0, _, _⟩) => s1.returnAll ctx p xs
    | (s1, c) => (s1.setDeque p { s1.deque p with back := (s1.deque p).back ++ x :: xs }).stopEngine p ctx c

/-- Return a segment: to a spare, or with a full set of spares a batch of two to the list (R264). -/
def State.returnSeg (s : State) (ctx p : Nat) (seg : Dbl) : State :=
  let q := s.deque p
  match q.freeSpare with
  | some n => s.setDeque p (q.setSpare n seg)
  | none => (s.setDeque p ((q.setSpare 0 seg).setSpare 1 0)).returnAll ctx p [q.spareAt 0, q.spareAt 1]

/-- Return every spare to the list before a rectangle is freed (R264). -/
def State.returnSpares (s : State) (ctx p : Nat) : State :=
  let q := s.deque p
  (s.setDeque p { q with spare := [] }).returnAll ctx p (((upTo 4).map q.spareAt).filter (fun a => a != 0))

/-- A resumed engine returns the segments that its fault held (R264). -/
def State.returnBack (s : State) (ctx p : Nat) : State :=
  let q := s.deque p
  (s.setDeque p { q with back := [], stopped := false }).returnAll ctx p q.back

/-! Overflow (R270, R271) -/

/-- The 32 oldest frames of the ring move into a new overflow segment, or the ring stays and SPILLF is set (R270). -/
def State.spill (s : State) (ctx p : Nat) : State :=
  let q := s.deque p
  let failed (s : State) (m : Miss) : State :=
    (s.setDeque p { s.deque p with spillf := true, dry := m.cause == 0x32 }).dequeFault p ctx m
  match s.takeSeg ctx p with
  | (s1, none, c) => failed s1 c
  | (s1, some seg, _) =>
    let frames := (upTo 32).flatMap (fun i => (frameOf (q.slot (q.tidx + BitVec.ofNat 32 i))).dbls.map BitVec.toNat)
    match s1.writeDbls ctx p seg ([0, 32, 0, 0, 0, 0, 0, 0] ++ frames) with
    | (s2, ⟨0, _, _⟩) =>
      let link := if q.ovftail = 0 then (s2, Miss.none) else s2.writeDbls ctx p q.ovftail [seg.toNat]
      match link with
      | (s3, ⟨0, _, _⟩) =>
        let q3 := s3.deque p
        (s3.setHart p ((s3.hart p).count 13 1)).setDeque p
          { q3 with ovfhead := if q3.ovfhead = 0 then seg else q3.ovfhead, ovftail := seg,
                    ovfcnt := q3.ovfcnt + 32, tidx := q3.tidx + 32, spillf := false }
      | (s3, c) => failed (s3.returnSeg ctx p seg) c
    | (s2, c) => failed (s2.returnSeg ctx p seg) c

/-- Push a frame onto a deque (R266 steps 2 and 3); a full ring spills first. False while it cannot be pushed: the spill has failed, or the next slot is in transit (R268). -/
def State.pushFrame (s : State) (ctx p : Nat) (xs : List Dbl) : State × Bool :=
  let q := s.deque p
  if !q.isFull then (s.setDeque p (q.push xs), true)
  else if q.spillf || !q.ringFull then (s, false)
  else
    let s1 := s.spill ctx p
    let q1 := s1.deque p
    if q1.isFull then (s1, false) else (s1.setDeque p (q1.push xs), true)

/-- The segment whose NEXT is `tail`, from `head` (0 when there is none), or the read that failed. -/
def State.overflowBefore (s : State) (ctx p : Nat) (tail : Dbl) : Nat → Dbl → Dbl ⊕ Miss
  | 0, _ => .inl 0
  | n + 1, a =>
    match s.readDbl ctx p a with
    | (_, some x, _) => if BitVec.ofNat 64 x = tail then .inl a else if x = 0 then .inl 0 else s.overflowBefore ctx p tail n (BitVec.ofNat 64 x)
    | (_, none, c) => .inr c

/-- Unlink the newest overflow segment: the address of the segment before it (0: none), or the access that failed (R271). -/
def State.unlinkTail (s : State) (ctx p : Nat) : State × (Dbl ⊕ Miss) :=
  let q := s.deque p
  if q.ovfhead = q.ovftail then (s, .inl 0)
  else
    match s.overflowBefore ctx p q.ovftail (q.ovfcnt.toNat + 1) q.ovfhead with
    | .inr c => (s, .inr c)
    | .inl prev =>
      if prev = 0 then (s, .inl 0)
      else
        match s.writeDbls ctx p prev [0] with
        | (s1, ⟨0, _, _⟩) => (s1, .inl prev)
        | (s1, c) => (s1, .inr c)

/-- The owner moves the newest overflow segment's frames back into its empty ring (R271), unless one of their slots is still in transit (R268). -/
def State.refill (s : State) (ctx p : Nat) : State :=
  let q := s.deque p
  match s.readDbls ctx p q.ovftail 2 with
  | (s1, some [_, ct], _) =>
    let n := ct % 2 ^ 32
    let take := ct / 2 ^ 32
    if (upTo n).any (fun i => q.copied (q.tidx + BitVec.ofNat 32 i)) then s1
    else
    match s1.readDbls ctx p (q.ovftail + BitVec.ofNat 64 (64 + 64 * take)) (8 * n) with
    | (s2, some xs, _) =>
      let ring := (upTo n).foldl (fun r i =>
        mset [] r ((q.tidx.toNat + i) % 64) (frameOf (((xs.drop (8 * i)).take 8).map (BitVec.ofNat 64))).dbls) q.ring
      match s2.unlinkTail ctx p with
      | (s3, .inr c) => s3.stopEngine p ctx c
      | (s3, .inl prev) =>
        let q3 := { s3.deque p with ring := ring, bidx := q.tidx + BitVec.ofNat 32 n,
                                    ovfcnt := q.ovfcnt - BitVec.ofNat 32 n, ovftail := prev,
                                    ovfhead := if prev = 0 then 0 else q.ovfhead }
        (s3.setDeque p q3).returnSeg ctx p q.ovftail
    | (s2, none, c) => s2.stopEngine p ctx c
  | (s1, some _, _) => s1
  | (s1, none, c) => s1.stopEngine p ctx c

/-- A thief takes the oldest overflow frame (R268, R270). -/
def State.overflowTake (s : State) (ctx p : Nat) : State × Option (List Dbl) :=
  let q := s.deque p
  match s.readDbls ctx p q.ovfhead 2 with
  | (s1, some [next, ct], _) =>
    let n := ct % 2 ^ 32
    let take := ct / 2 ^ 32
    match s1.readDbls ctx p (q.ovfhead + BitVec.ofNat 64 (64 + 64 * take)) 8 with
    | (s2, some xs, _) =>
      match s2.writeDbls ctx p (q.ovfhead + 8) [(n - 1) + 2 ^ 32 * (take + 1)] with
      | (s3, ⟨0, _, _⟩) =>
        let q3 := { s3.deque p with ovfcnt := q.ovfcnt - 1 }
        let s4 := if n ≤ 1 then
            (s3.setDeque p { q3 with ovfhead := BitVec.ofNat 64 next,
                                     ovftail := if next = 0 then 0 else q3.ovftail }).returnSeg ctx p q.ovfhead
          else s3.setDeque p q3
        (s4, some (xs.map (BitVec.ofNat 64)))
      | (s3, c) => (s3.stopEngine p ctx c, none)
    | (s2, none, c) => (s2.stopEngine p ctx c, none)
  | (s1, some _, _) => (s1, none)
  | (s1, none, c) => (s1.stopEngine p ctx c, none)

/-! The steal domain (R15, R35, R276) -/

/-- The places of a rectangle, row by row. -/
def rectPlaces (clu row col rows cols : Nat) : List Nat :=
  (upTo rows).flatMap (fun r => (upTo cols).map (fun c => placeOf clu (row + r) (col + c)))

def Graph.places (g : Graph) : List Nat := rectPlaces g.clu g.row g.col g.rows g.cols

/-- The cores of a graph that stand in the ring, by anchor position row by row (R276). Which XT of a core of several tiles is its anchor at a task's start R19 does not say: the north-west one of its shape (DESIGN CHOICE, log 63). -/
def Graph.ring (g : Graph) : List Nat :=
  (g.cut.filter (fun c => !g.absorbed.contains (c.1, c.2.1))).map (fun c => placeOf g.clu (g.row + c.1) (g.col + c.2.1))

/-- The next core of the ring after `n`. -/
def ringNext (r : List Nat) (n : Nat) : Nat :=
  match r.find? (fun x => decide (n < x)) with
  | some y => y
  | none => r.headD n

/-- The next victim after `v`, skipping the thief (R322). -/
def nextVictim (r : List Nat) (me v : Nat) : Nat :=
  let a := ringNext r v
  if a = me then ringNext r a else a

/-- The width that the cut gives a core (R318). -/
def Graph.cutWidth (g : Graph) (n : Nat) : Nat :=
  match g.cut.find? (fun c => placeOf g.clu (g.row + c.1) (g.col + c.2.1) == n) with
  | some c => c.2.2
  | none => 1

def Dev.setGraph (d : Dev) (g : Graph) : Dev := { d with graphs := d.graphs.map (fun x => if x.id = g.id then g else x) }

/-- The width of the shape that a core has: of an idle one, the cut's (R35). -/
def Graph.shapeWidth (g : Graph) (n : Nat) (h : Hart) : Nat := if h.run = .idle then g.cutWidth n else h.cwidth.toNat

/-- The domain's origin core: the one that holds the rectangle's north-west position (R16, R276). -/
def Dev.origin (d : Dev) (g : Graph) : Nat :=
  let nw := placeOf g.clu g.row g.col
  match g.ring.find? (fun n => inShape (g.shapeWidth n (d.hart n)) n nw) with
  | some n => n
  | none => g.ring.headD nw

/-! Join counters (R264, R274, R353) -/

def wordState (w : Nat) : Nat := bitsOf w 9 8
def wordJcount (w : Nat) : Nat := w / 2 ^ 32

/-- The word as hardware writes it: reserved bits 31:11 are zero (R6, R263). -/
def withJcount (w n : Nat) : Nat := w % 2 ^ 11 + 2 ^ 32 * (n % 2 ^ 32)
def withState (w st : Nat) : Nat := setBits (withJcount w (wordJcount w)) 9 8 st

/-- The block that asked for a change of a join counter: slot, address, sequence number (R373). -/
structure Asker where
  slot : Nat
  block : Dbl
  seq : Nat
  deriving DecidableEq, Repr

/-- A change that no block asks for: the decrement at a retirement (R274). -/
def Asker.none : Asker := ⟨0, 0, 0⟩

/-- The TASKID of the task that stands on a hart, or 0 (R373). -/
def Hart.resident (h : Hart) : Word := if h.run = .idle then 0 else h.taskid

/-- The join-counter fault (R353, R373, R374): the agent whose change was refused, its task and block, the segment and the signed amount. -/
def State.joinFault (s : State) (hn ctx : Nat) (seg : Dbl) (amount : Nat) (a : Asker) : State :=
  let p := agentPacket s.dev (if isEngine hn then 1 else 0) ctx (placeOfHart hn) 0 0x60 0 (seg + 56) seg (BitVec.ofNat 64 (amount % 2 ^ 32))
  { s with dev := s.dev.sendPacket (deviceRow (placeOfHart hn)) { p with task := (s.hart hn).resident, slot := a.slot, block := a.block, seq := a.seq } }

/-- A step of R274 or R275 that a fault or a full deque holds is repeated later by the deque engine of the hart's tile: a retirement, or (`push`) the push of a resume frame. Where the tile is held it goes on once it is live again (R297). -/
def State.holdStep (s : State) (push : Bool) (seg : Dbl) (ctx hn : Nat) : State :=
  let m := s.mtOf hn
  s.setMtOf hn (m.setDeque { m.deque with redo := m.deque.redo ++ [(push, seg, ctx, isEngine hn)] })

/-- The parent's decrement is to follow a retirement (R274). -/
def State.holdDec (s : State) (parent : Dbl) (ctx hn : Nat) : State :=
  let m := s.mtOf hn
  s.setMtOf hn (m.setDeque { m.deque with decs := m.deque.decs ++ [(parent, ctx, isEngine hn)] })

/-- The hart is a logical core of the graph's domain as it stands (R35, R276). -/
def Dev.serves (d : Dev) (hn g : Nat) : Bool :=
  !isEngine hn && decide (hn < 2048) &&
  (match d.graph g with
   | some x => (d.hart hn).graph == g && x.ring.contains hn
   | none => false)

/-- The graph of a context whose segments hold a graph number; 0, the number of none, where there is none (R265, R275). -/
def Dev.named (d : Dev) (ctx num : Nat) : Nat := ((d.graphs.find? (fun g => g.launch.ctx == ctx && g.num == num)).map Graph.id).getD 0

/-- Push a resume frame for a segment (R275): onto the deque of the core that brought the count to 0 when it serves the domain, where it waits for room; else through the placement unit. A fault of the graph number's read stops the deque engine with the push to be repeated. -/
def State.pushResume (s : State) (hn ctx : Nat) (seg : Dbl) : State :=
  let p := placeOfHart hn
  match s.readDbl ctx p (seg + 0x2B0) with
  | (s1, some num, _) =>
    let g := s1.dev.named ctx num
    let f : Frame := { entry := seg, args := [], parent := 0, status := 0, resume := true }
    if s1.dev.serves hn g then
      match s1.pushFrame ctx p f.dbls with
      | (s2, true) => s2
      | (s2, false) => s2.holdStep true seg ctx hn
    else { s1 with dev := { s1.dev with resumes := s1.dev.resumes ++ [(seg, g)] } }
  | (s1, none, c) => if hn < 2048 then (s1.holdStep true seg ctx hn).stopEngine p ctx c else s1.holdStep true seg ctx hn

/-- Retire a task: its segment returns, and its parent's decrement follows (R274); a root task ends its graph (R13). A fault stops the deque engine with the retirement to be repeated; a retirement that a JADD of a held hart brings about is the engine's once its tile is live again (R297). -/
def State.retire (s : State) (hn ctx : Nat) (seg : Dbl) : State :=
  let p := placeOfHart hn
  if 2048 ≤ hn then s.holdStep false seg ctx hn
  else
  match s.readDbl ctx p (seg + 48) with
  | (s1, none, c) => (s1.holdStep false seg ctx hn).stopEngine p ctx c
  | (s1, some parent, _) =>
    match s1.readDbl ctx p (seg + 0x2B0) with
    | (s2, none, c) => (s2.holdStep false seg ctx hn).stopEngine p ctx c
    | (s2, some num, _) =>
      let s3 := s2.returnSeg ctx p seg
      if parent = 0 then
        match s3.dev.graph (s3.dev.named ctx num) with
        | some x => { s3 with dev := s3.dev.setGraph { x with retired := true } }
        | none => s3
      else s3.holdDec (BitVec.ofNat 64 parent) ctx hn

/-- Change JCOUNT by a signed amount at the home, one indivisible change, and act on the old word (R274, R364). -/
def State.addJcount (s : State) (hn ctx : Nat) (seg : Dbl) (d : Int) (a : Asker) : State × Miss :=
  let p := placeOfHart hn
  match s.readDbl ctx p (seg + 56) with
  | (s1, none, c) => (s1, c)
  | (s1, some w, _) =>
    let n := (wordJcount w : Int) + d
    if n < 0 ∨ 2 ^ 32 ≤ n then (s1.joinFault hn ctx seg (wrap 32 d) a, ⟨0x60, seg + 56, 0⟩)
    else
      match s1.writeDbls ctx p (seg + 56) [withJcount w n.toNat] with
      | (s2, ⟨0, _, _⟩) =>
        if n = 0 ∧ wordJcount w ≠ 0 then
          match wordState w with
          | 1 => (s2.pushResume hn ctx seg, Miss.none)
          | 2 => (s2.retire hn ctx seg, Miss.none)
          | _ => (s2, Miss.none)
        else (s2, Miss.none)
      | (s2, c) => (s2, c)

/-- The task of a segment has committed its TASKEND (R274): it is retired, or stands ENDED until its count falls to 0. -/
def State.endTask (s : State) (hn ctx : Nat) (seg : Dbl) : State × Miss :=
  let p := placeOfHart hn
  match s.readDbl ctx p (seg + 56) with
  | (s1, none, c) => (s1, c)
  | (s1, some w, _) =>
    if wordJcount w = 0 then (s1.retire hn ctx seg, Miss.none)
    else s1.writeDbls ctx p (seg + 56) [withState w 2]

/-! Starting a frame (R96, R265, R275) -/

/-- The register state of a task start (R96). -/
def Hart.taskStart (h : Hart) (ctx : BitVec 12) (place w : Nat) (seg : Dbl) (f : Frame) (graph hint : Nat) : Hart :=
  let id : Word := BitVec.ofNat 32 (bitsOf seg.toNat 43 12)
  { h with
    g := (upTo 5).foldl (fun g i => mset 0 g (8 + i) (f.args.getD i 0)) [], z := [],
    vec := { v := [], tag := [], vl := BitVec.ofNat 13 (64 * w), vtype := 1 },
    m := [], mtag := [], mscale := [], rstk := [], spilled := 0, status := f.status, stklim := 0,
    taskid := id, ctxid := ctx, place := BitVec.ofNat 10 place, cwidth := BitVec.ofNat 4 w,
    srstate := srValue (0x9E3779B9 ^^^ id).toNat, mrows := 32, mcols := BitVec.ofNat 9 (32 * w), busy := 0,
    next := f.entry, seg := seg, parent := f.parent, graph := graph, whint := hint, seq := 0, run := .running,
    start := none, susp := none, leaving := false, came := (0, 0, 0), lap := 0, lapWait := false, theftFirst := false }

/-- The accumulator scales at task start are 1.0 and are kept as their difference from it (R161): see `scaleAt`. -/
def scaleOne : Word := 0x3F800000

/-- The tensor scale of mk: side 0 is tA, side 1 is tB (R161, R171). -/
def Hart.scaleAt (h : Hart) (k side : Nat) : Word := mget scaleOne h.mscale (2 * k + side)

/-- Registers of a suspension record (R265), over the task-start state (R273). -/
def Hart.resumed (h : Hart) (xs : List Nat) : Hart :=
  let at' (off : Nat) : Nat := xs.getD (off / 8) 0
  let depth := at' 0x2A0
  { h with
    g := (upTo 64).foldl (fun g i => mset 0 g i (BitVec.ofNat 64 (at' (0x40 + 8 * i)))) [],
    z := (upTo 4).foldl (fun z i => mset (0 : Byte) z i (BitVec.ofNat 8 (at' 0x240 / 2 ^ (8 * i)))) [],
    status := BitVec.ofNat 5 (at' 0x248), stklim := BitVec.ofNat 64 (at' 0x250) &&& ~~~(0xF : Dbl),
    srstate := srValue (at' 0x258),
    rstk := (upTo (Nat.min (depth % 16) 8)).map (fun i => BitVec.ofNat 64 (at' (0x260 + 8 * i))),
    spilled := BitVec.ofNat 32 (depth / 2 ^ 8), next := BitVec.ofNat 64 (at' 0x2A8) }

/-- The doubles of a suspension record from offset 0x40 (R265, R272). -/
def Hart.suspension (h : Hart) (next : Dbl) : List Nat :=
  (upTo 64).map (fun i => (mget 0 h.g i).toNat) ++
  [(upTo 4).foldl (fun x i => x + (mget (0 : Byte) h.z i).toNat * 2 ^ (8 * i)) 0,
   h.status.toNat, h.stklim.toNat, h.srstate.toNat] ++
  (upTo 8).map (fun i => (h.rstk.getD i 0).toNat) ++
  [(depthWord h.rstk.length h.spilled).toNat, next.toNat]

/-- References that no loaded object of their id covers at their address (R403). -/
def Dev.unresolved (d : Dev) (ctx : Nat) (refs : List (Dbl × Dbl)) : List (Dbl × Dbl) :=
  refs.filter (fun r => !(d.objs.any (fun o => o.ctx == ctx && o.id == r.2 && o.state == 1 && decide (o.base.toNat ≤ r.1.toNat) && decide (r.1.toNat < o.base.toNat + o.len))))

/-- The object of a reference that did not resolve as its graph was restored and does not now either: reloading the object is the recovery that R370 names (R350, R403). -/
def Dev.withdrawn (d : Dev) (g : Graph) (a : Dbl) : Option Dbl :=
  ((d.unresolved g.launch.ctx g.gone).find? (fun r => r.1 == a)).map Prod.snd

/-- A task of a graph is Suspended, or no longer so (R272, R275): its suspension record is one of those that a save counts (R349). -/
def Dev.awaits (d : Dev) (id : Nat) (seg : Dbl) (up : Bool) : Dev :=
  match d.graph id with
  | some g => d.setGraph { g with waits := if up then g.waits ++ [seg] else g.waits.erase seg }
  | none => d

/-- Freeze a core as it starts or resumes into withdrawn code (R350, R374). -/
def State.withdrawnFault (s : State) (n kind : Nat) (id : Dbl) : State :=
  { s with dev := s.dev.takeFault n none { plainFault 0x50 0xFFFF with d0 := id, d1 := BitVec.ofNat 64 kind } false }

/-- Start the frame a core has taken (R96, R265, R275): a segment, the frame copied into it, or the suspension record loaded, an access of the core to its page, so that a replay notice of it freezes the core (R264, R281). It waits with its frame while the pool is empty. -/
def State.startFrame (s : State) (n : Nat) : State :=
  let h := s.hart n
  match h.start, s.dev.graph h.graph with
  | some f, some g =>
    let ctx := g.launch.ctx
    let w := g.cutWidth n
    let ready (s : State) (h : Hart) : State :=
      let d := s.dev.setHart n { h with victim := ringNext g.ring n }
      { s with dev := d.setMt n ((d.mt n).setDeque { (d.mt n).deque with idle := false }) }
    if f.resume then
      match h.noticeFor 0 (f.entry.toNat / 4096) with
      | some x => { s with dev := s.dev.takeFault n none (deferredFault x 0xFFFF) false }
      | none =>
      match s.readDbls ctx n f.entry 86 with
      | (s1, some xs, _) =>
        match s1.writeDbls ctx n (f.entry + 56) [withState (xs.getD 7 0) 0] with
        | (s2, ⟨0, _, _⟩) =>
          let parent := BitVec.ofNat 64 (xs.getD 6 0)
          let h0 := (s2.hart n).taskStart (BitVec.ofNat 12 ctx) n w f.entry { f with parent := parent } g.id g.launch.whint
          let h1 := h0.resumed xs
          let s3 := ready { s2 with dev := s2.dev.awaits g.id f.entry false } h1
          match s3.dev.withdrawn g h1.next with
          | some id => s3.withdrawnFault n 3 id
          | none => s3
        | (s2, c) => s2.dequeFault n ctx c
      | (s1, none, c) => s1.dequeFault n ctx c
    else
      match s.takeSeg ctx n with
      | (s1, none, c) => s1.dequeFault n ctx c
      | (s1, some seg, _) =>
        let words := (f.dbls.take 7).map BitVec.toNat ++ [f.status.toNat]
        match s1.writeDbls ctx n seg words with
        | (s2, ⟨0, _, _⟩) =>
          match s2.writeDbls ctx n (seg + 0x2B0) [g.num] with
          | (s3, ⟨0, _, _⟩) =>
            let s4 := ready s3 ((s3.hart n).taskStart (BitVec.ofNat 12 ctx) n w seg f g.id g.launch.whint)
            match s4.dev.withdrawn g f.entry with
            | some id => s4.withdrawnFault n 2 id
            | none => s4
          | (s3, c) => (s3.returnSeg ctx n seg).dequeFault n ctx c
        | (s2, c) => (s2.returnSeg ctx n seg).dequeFault n ctx c
  | _, _ => s

/-! Leaving a task (R35, R272, R278) -/

/-- The core's task has left it: the core is idle, back at the width of its cut, and the cores it absorbed rejoin the ring as idle cores, black (R35). -/
def State.leaveTask (s0 : State) (n : Nat) : State :=
  let s : State := { s0 with dev := s0.dev.lapse n }
  let h := s.hart n
  let s1 := s.setHart n { h with run := .idle, blocks := [], susp := none, leaving := false, seg := 0, parent := 0, reserve := none }
  let s2 := s1.setDeque n { s1.deque n with idle := true }
  match s2.dev.graph h.graph with
  | none => s2
  | some g =>
    let w := g.cutWidth n
    let freed := g.absorbed.filter (fun c =>
      decide (w < h.cwidth.toNat) && inShape h.cwidth.toNat n (placeOf g.clu (g.row + c.1) (g.col + c.2)))
    let g1 := { g with absorbed := g.absorbed.filter (fun c => !freed.contains c) }
    let s3 := s2.setHart n { s2.hart n with cwidth := BitVec.ofNat 4 w }
    let s4 : State := { s3 with dev := s3.dev.setGraph g1 }
    freed.foldl (fun s c =>
      let p := placeOf g.clu (g.row + c.1) (g.col + c.2)
      (s.setDeque p { s.deque p with black := true }).setHart p
        { s.hart p with victim := ringNext g1.ring p, reserve := none }) s4

end Sys2Proof.Machine
end

