-- ==== Sys2Proof/Machine/Ports.lean ====
section
/-! DEFINITION. Port queues (R98-R100, R174, R253, R277-R280, R299-R302): tentative pops, bindings and their agreement, port changes that wait for a tensor operation, delivery and credits, and what the MT does at TASKEND (R278). -/
namespace Sys2Proof.Machine

/-! What an outstanding tensor operation still needs (R172, R174) -/

/-- The elements or CB2 indices of a stream of `lines` runs per group (R172). -/
def streamCount (t g k lines : Nat) : Nat :=
  if t = tagCB2 then lines * (k / g * ((g + 7) / 8) + (k % g + 7) / 8) else lines * k

def TOp.qa (o : TOp) : Nat := streamCount o.ta (groupSize o.ta o.tb) o.k o.rows
def TOp.qb (o : TOp) : Nat := streamCount o.tb (groupSize o.ta o.tb) o.k o.cols

/-- The operation has entries of port `n` still to consume. -/
def TOp.needs (o : TOp) (n : Nat) : Bool :=
  (o.pa == n && decide (o.ea.length < o.qa)) || (o.pb == n && decide (o.eb.length < o.qb))

/-- An outstanding tensor operation reads or pushes port `n` (R174); an MSTO whose block follows a change of the port that still waits is not one that the change waits for. -/
def Hart.portBusy (h : Hart) (n : Nat) : Bool :=
  h.nodes.any (fun o => o.needs n) || h.mout.any (fun o => o.live && o.port == n && o.behind == 0)

/-! Bindings -/

/-- The tile at an offset in the same cluster. -/
def neighbour (p : Nat) (dy dx : Byte) : Option Nat :=
  let row := (placeRow p : Int) + dy.toInt
  let col := (placeCol p : Int) + dx.toInt
  if 0 ≤ row ∧ row < 16 ∧ 0 ≤ col ∧ col < 8 then some (placeOf (placeClu p) row.toNat col.toNat) else none

/-- The end that a neighbour binding names (R299). -/
def State.peerOf (s : State) (p n : Nat) : Option (Nat × Nat) :=
  let q := s.port p n
  if q.bind = 1 then
    match neighbour p q.dy q.dx with
    | some r => some (r, q.pport.toNat)
    | none => none
  else none

/-- Some tiles of the rectangle round `p` have swapped, and not all: what would cross between its tiles is captured by their link interfaces until the last has (R389). -/
def Dev.torn (d : Dev) (p : Nat) : Bool :=
  d.shadowOut.any (fun x =>
    match d.graph x.2.1 with
    | some g => g.places.contains p && g.places.any (fun q => d.swaps.contains q) && !g.places.all (fun q => d.swaps.contains q)
    | none => false)

/-- Both ends name each other, one inbound and one outbound, under one key (R299), and stand side by side. -/
def State.agree (s : State) (p n : Nat) : Bool :=
  match s.peerOf p n with
  | some (r, m) =>
    !s.dev.torn p && s.peerOf r m == some (p, n) && (s.port p n).key == (s.port r m).key && (decide (n < 8) != decide (m < 8))
  | none => false

def State.setAgreed (s : State) (p n : Nat) (b : Bool) : State := s.setPort p n { s.port p n with agreed := b }

/-- PORT_CONNECTION_AGREE: both ends have come to agree; with `start` the credit count begins at 16 less the occupancy, the entries on the link among it (R277). -/
def State.joinLink (s : State) (p n : Nat) (start : Bool) : State :=
  match s.peerOf p n with
  | none => s
  | some (r, m) =>
    if !s.agree p n then s
    else
      let s1 := (s.setAgreed p n true).setAgreed r m true
      if start then
        let o := if n < 8 then (r, m) else (p, n)
        let i := if n < 8 then (p, n) else (r, m)
        let inq := s1.port i.1 i.2
        let s2 := s1.setPort i.1 i.2 { inq with owed := 0 }
        s2.setPort o.1 o.2 { s2.port o.1 o.2 with credit := BitVec.ofNat 5 (16 - (inq.q.length + inq.link.length)) }
      else s1

/-- One end leaves an agreed binding. -/
def State.partLink (s : State) (p n : Nat) : State :=
  match s.peerOf p n with
  | some (r, m) => if (s.port p n).agreed then (if s.dev.torn p then s else s.setAgreed r m false).setAgreed p n false else s
  | none => s

/-- A stopped AGE writes its save area; only an active one stops (R280). -/
def State.stopAge (s : State) (p a : Nat) : State :=
  let g := s.age p a
  if g.state = 1 then s.setAge p a { g with state := 3 } else s

/-- An AGE runs on with the given state; its save area keeps what it shows until the AGE stops (R280). -/
def State.runAge (s : State) (p a : Nat) (g : Age) : State :=
  let m := s.mt p
  let area := if (m.age a).state = 1 then mget none m.areas a else some (m.age a)
  s.setMt p ({ m with areas := mset none m.areas a area }.setAge a { g with state := 1 })

/-- Remove a port's binding; a bound AGE is stopped (R253, R299, R302). -/
def State.unbind (s : State) (p n : Nat) : State :=
  let s1 := s.partLink p n
  let q := s1.port p n
  let s2 := if q.bind = 2 then s1.stopAge p q.age.toNat else s1
  s2.setPort p n { Port.reset with q := q.q, ghost := q.ghost, link := q.link, linkOwed := q.linkOwed }

/-- Remove an AGE's binding (R253, R300). -/
def State.unbindAge (s : State) (p a : Nat) : State :=
  (upTo 16).foldl (fun s n =>
    let q := s.port p n
    if q.bind = 2 ∧ q.age.toNat = a then s.unbind p n else s) s

/-- An AGE stops before a faulting element and sends a packet that names it (R258). -/
def State.ageFault (s : State) (p a cause zone : Nat) (va d0 d1 : Dbl) : State :=
  let g := s.age p a
  let s1 := s.setAge p a { g with state := 2 }
  { s1 with dev := s1.dev.sendPacket (deviceRow p) (agentPacket s1.dev 2 g.ctx p a cause zone va d0 d1) }

/-! Tentative pops (R22, R99) -/

/-- The token of a port entry, marked with its port (R45, R98). -/
def entryTok (n : Nat) (e : Entry) : Token :=
  { val := e.val.setWidth 128, pair := false, null := e.null, mark := some (n, e.tag.toNat, e.nmode) }

/-- Pops of one block's read slots in slot order: `cnt` lists the pops of its port by older slots, `held` the ports behind which nothing pops. -/
def popSlots (ports : SMap (Option Port)) : List ReadSlot → Block → List Nat → List Nat → Block × List Nat × List Nat
  | [], b, cnt, held => (b, cnt, held)
  | r :: rs, b, cnt, held =>
    if 0x40 ≤ r.reg ∧ r.reg < 0x48 then
      let n := r.reg - 0x40
      if b.injected.contains r.k then popSlots ports rs b (n :: cnt) held
      else if held.contains n then popSlots ports rs b cnt held
      else
        let q := match mget none ports n with
          | some p => p.q
          | none => []
        match q[cnt.count n]? with
        | none => popSlots ports rs b cnt (n :: held)
        | some e =>
          let k := entryTok n e
          popSlots ports rs { ((b.deliver r.t0 k).deliver r.t1 k) with injected := b.injected ++ [r.k], pops := b.pops ++ [n] }
            (n :: cnt) held
    else popSlots ports rs b cnt held

/-- The ports that an MMA or MMAS of the block will read and has not begun to (R174). -/
def mmaPorts (b : Block) : List Nat :=
  (decoded b.code).flatMap (fun p =>
    match p.2 with
    | .mma v _ x y _ _ => if b.vsids.contains v.toNat then [] else [x.toNat, y.toNat]
    | .mmas v _ x y _ _ => if b.vsids.contains v.toNat then [] else [x.toNat, y.toNat]
    | _ => [])

def popBlocks (ports : SMap (Option Port)) : List Block → List Nat → List Nat → List Block
  | [], _, _ => []
  | b :: bs, cnt, held =>
    if b.dead then b :: popBlocks ports bs cnt held
    else
      let r := popSlots ports (readSlots b.hdr) b cnt held
      r.1 :: popBlocks ports bs r.2.1 (mmaPorts r.1 ++ r.2.2)

/-- The other hart that uses the ports of the same MT (R304). -/
def otherHart (hn : Nat) : Nat := if isEngine hn then placeOfHart hn else 1024 + hn

/-- A change of port `n` waits at the tile (R174). -/
def Mt.waits (m : Mt) (n : Nat) : Bool := m.waiting.any (fun e => e.2.1.portOf == some n)

/-- The ports a hart may not pop now: the other hart of the MT has popped them tentatively (log 13), a tensor operation reads them, or a port change waits. -/
def State.shutPorts (s : State) (hn : Nat) : List Nat :=
  let h := s.hart hn
  let o := s.hart (otherHart hn)
  (upTo 8).filter (fun n =>
    decide (0 < popsOf o.blocks n) || h.portBusy n || o.portBusy n || (s.mt (placeOfHart hn)).waits n)

/-- No port entry comes to the hart's blocks: token flow is halted (R377), or the oldest block of a running core has a fault to be taken first (R480). -/
def Hart.portsShut (h : Hart) : Bool := h.thalt || (h.run == .running && h.blocks.head?.any (fun b => !b.faults.isEmpty))

/-- Pop what can be popped for the blocks in flight, and forward what resolved (R22, R99). -/
def State.injectPorts (s : State) (hn : Nat) : State :=
  let h := s.hart hn
  if h.portsShut then s
  else
  let bs := popBlocks (s.mt (placeOfHart hn)).ports h.blocks [] (s.shutPorts hn)
  if bs = h.blocks then s
  else s.setHart hn (h.traced ({ h with blocks := bs }).forward none)

/-- Both harts of an MT look at its ports. -/
def State.lookPorts (s : State) (p : Nat) : State := (s.injectPorts p).injectPorts (1024 + p)

/-- Both harts of an MT look at its ports again after a change there, which may end the wait of the oldest block. -/
def State.portsChanged (s : State) (p : Nat) : State := s.waitOver (s.lookPorts p) p

/-- Popped entries leave their ports for good; each counts one credit for a bound sender (R99, R277). -/
def State.commitPops (s : State) (p : Nat) (pops : List Nat) : State :=
  (upTo 8).foldl (fun s n =>
    let c := pops.count n
    if c = 0 then s
    else
      let q := s.port p n
      s.setPort p n { q with q := q.q.drop c, owed := if q.agreed then q.owed + c else 0 }) s

/-- An entry joins the tail; its position no longer holds what a Slate core wrote there (R479). -/
def Port.enq (q : Port) (e : Entry) : Port := { q with q := q.q ++ [e], ghost := mset none q.ghost q.q.length none }

/-- The key under which entries now enter a port: that of its neighbour binding (R299). -/
def Port.epoch (q : Port) : Option Half := if q.bind = 1 then some q.key else none

/-- Push an entry at the tail of a port; in an outbound port it belongs to the epoch of the binding that stands (R299). -/
def State.pushEntry (s : State) (p n : Nat) (e : Entry) : State :=
  let q := s.port p n
  s.setPort p n (q.enq { e with epoch := if n < 8 then none else q.epoch })

/-! Port changes of committed blocks -/

def Hart.forgetPops (h : Hart) (n : Nat) : Hart :=
  { h with blocks := h.blocks.map (fun (b : Block) => { b with pops := b.pops.filter (fun k => k != n) }) }

/-- Neither hart of an MT holds a tentative pop of the port any longer. -/
def State.forgetPops (s : State) (p n : Nat) : State :=
  (s.setHart p ((s.hart p).forgetPops n)).setHart (1024 + p) ((s.hart (1024 + p)).forgetPops n)

/-- Empty a port (R302): inbound entries count as committed pops, unsent outbound entries are dropped; those already sent are on the link of their destination. -/
def State.clearPort (s : State) (p n : Nat) : State :=
  let s1 := s.forgetPops p n
  let q := s1.port p n
  s1.setPort p n { q with q := [], owed := if n < 8 ∧ q.agreed = true then q.owed + q.q.length else q.owed }

/-- The credits owed go back to the sender at once: the binding is about to end (R302). -/
def State.payCredits (s : State) (p n : Nat) : State :=
  let q := s.port p n
  match s.peerOf p n with
  | some (r, m) =>
    if q.agreed ∧ q.owed ≠ 0 then
      let s1 := s.setPort p n { q with owed := 0 }
      let oq := s1.port r m
      s1.setPort r m { oq with credit := BitVec.ofNat 5 (Nat.min 16 (oq.credit.toNat + q.owed)) }
    else s
  | none => s

/-- An AGE continues under a CHCFG (R300). -/
def State.continueAge (s : State) (p a n : Nat) : State :=
  let g := s.age p a
  if g.state = 3 then
    if decide (g.port.toNat < 8) = decide (n < 8) then s.runAge p a { g with port := BitVec.ofNat 4 n }
    else s.ageFault p a 0x31 0 0 (BitVec.ofNat 64 n) 0
  else s

def bindAgeTo (q : Port) (a : Nat) : Port := { q with bind := 2, age := BitVec.ofNat 3 a }

/-- One port change takes effect (R253, R299, R300, R302); `nm` is STATUS.NMODE as its block read it (R257). A CHCLR that has waited finds its own block gone: it discards every block in flight but a bound one, which nothing discards (R29, log 51). -/
def State.applyPort (s : State) (hn : Nat) (e : Eff) (nm : Bool) : State :=
  let p := placeOfHart hn
  match e with
  | .lncfg n a zone rec_ =>
    let s1 := ((s.stopAge p a).unbindAge p a).unbind p n
    let s2 := s1.setPort p n (bindAgeTo (s1.port p n) a)
    s2.runAge p a { Age.reset with port := BitVec.ofNat 4 n, fetch := some (zone, rec_), nmode := nm,
                                   ctx := (s.hart hn).ctxid.toNat }
  | .chcfg n dx dy q key =>
    let s1 := s.unbind p n
    let s2 := s1.setPort p n { s1.port p n with bind := 1, dx := dx, dy := dy, pport := BitVec.ofNat 4 q, key := key }
    s2.joinLink p n true
  | .chcfgAge n a =>
    let s1 := (s.unbindAge p a).unbind p n
    (s1.setPort p n (bindAgeTo (s1.port p n) a)).continueAge p a n
  | .chclr n un =>
    let s1 := (s.setHart hn (s.hart hn).discardUnbound).clearPort p n
    if un then (s1.payCredits p n).unbind p n else s1
  | _ => s

/-- A change of port `n` has taken effect: what follows it is one change nearer (R174, R182). -/
def Hart.nearer (h : Hart) (n : Nat) : Hart :=
  { h with mout := h.mout.map (fun (o : MOut) => if o.port = n then { o with behind := o.behind - 1 } else o) }

/-- One waiting change is applied (R174). -/
def State.applyWaiting (s : State) (p : Nat) (e : Nat × Eff × Bool) : State :=
  let s1 := s.applyPort e.1 e.2.1 e.2.2
  match e.2.1.portOf with
  | some n => (s1.setHart p ((s1.hart p).nearer n)).setHart (1024 + p) (((s1.setHart p ((s1.hart p).nearer n)).hart (1024 + p)).nearer n)
  | none => s1

/-- The port changes of a committed block join those that wait at its MT (R174, R304). -/
def State.addWaiting (s : State) (hn : Nat) (nm : Bool) (effs : List (Nat × Eff)) : State :=
  let p := placeOfHart hn
  match effs.filterMap (fun e => if e.2.portOf.isSome then some (hn, e.2, nm) else none) with
  | [] => s
  | es => s.setMt p { s.mt p with waiting := (s.mt p).waiting ++ es }

/-- A port change waits while a tensor operation of either hart of the MT uses its port, or an earlier change of its port or AGE waits (R174, R304), or an AGE that it names still waits for room for its packet, which keeps it stopped (R283), or has posted elements still to be performed (R257), or the rectangle is between its tiles' swaps (R389). -/
def State.changeBlocked (s : State) (p : Nat) (earlier : List (Nat × Eff × Bool)) (e : Eff) : Bool :=
  match e.portOf with
  | some n =>
    s.dev.torn p || (s.hart p).portBusy n || (s.hart (1024 + p)).portBusy n || (e.ageOf true).any (fun a => s.dev.sending 2 p a || !(s.age p a).out.isEmpty) ||
    earlier.any (fun k => k.2.1.portOf == some n || (k.2.1.ageOf true).isSome && k.2.1.ageOf true == e.ageOf true)
  | none => false

/-- Apply the waiting port changes of the MT at `p` that nothing blocks, in order (R174). -/
def State.runWaiting (s : State) (p : Nat) : State :=
  if (s.mt p).waiting.isEmpty then s
  else
    let r := (s.mt p).waiting.foldl (fun (acc : State × List (Nat × Eff × Bool)) e =>
      if acc.1.changeBlocked p acc.2 e.2.1 then (acc.1, acc.2 ++ [e]) else (acc.1.applyWaiting p e, acc.2)) (s, [])
    (r.1.setMt p { r.1.mt p with waiting := r.2 }).portsChanged p

/-! TASKEND at the MT (R278) -/

/-- A port emptied and unbound: what stands on its link is held there until a new binding is made (R278). -/
def Port.cleared (q : Port) : Port := { Port.reset with ghost := q.ghost, link := q.link, linkOwed := q.linkOwed }

/-- Every port of an MT is emptied and its binding removed, which stops a bound AGE; no hart keeps a tentative pop (R96, R278, R302). -/
def State.clearPorts (s : State) (p : Nat) : State :=
  let s1 := (upTo 16).foldl (fun s n => (s.unbind p n).forgetPops p n) s
  let m := s1.mt p
  let ports := (upTo 16).foldl (fun r n => mset none r n (if (m.port n).cleared = Port.reset then none else some (m.port n).cleared)) []
  s1.setMt p { m with ports := ports }

/-- Every AGE stops and its save area is cleared; entries go and every binding is removed (R278). -/
def State.clearTile (s : State) (p : Nat) : State :=
  let s1 := s.clearPorts p
  s1.setMt p { s1.mt p with ages := [], areas := [] }

/-- Nothing of the task's own that its retirement follows is left to do: its stores have drained and its spawns are pushed (R266, R287, R291). -/
def Hart.settled (h : Hart) : Bool :=
  h.posted.all (fun p => match p.what with
    | .retire _ => true
    | .launch _ => true
    | .alinv _ _ _ => true
    | _ => false)

/-- The task leaves once its release work is done, a watchpoint that its stores have hit is reported (R381), every bound outbound port has sent its entries, and what its AGEs have posted is performed (R278, R291); its retirement follows (R274), and the core returns to its cut (R35). -/
def State.tryLeave (s : State) (n : Nat) : State :=
  let h := s.hart n
  if !h.leaving || h.run != .running || !h.settled || !h.pending.isEmpty || s.dev.torn n then s
  else if (upTo 8).any (fun k => ((s.port n (8 + k)).bind != 0 && !(s.port n (8 + k)).q.isEmpty) || !(s.age n k).out.isEmpty) then s
  else
    let s1 := s.clearTile n
    let h1 := s1.hart n
    (s1.setHart n { h1 with posted := h1.posted ++ [{ cls := 3, ord := 7, what := .retire h.seg, status := 0, seq := h.seq, cause := 0 }] }).leaveTask n

/-- A core starts the frame it has taken, its ports empty and unbound (R96). -/
def State.beginTask (s : State) (n : Nat) : State :=
  let s1 := s.startFrame n
  if (s1.hart n).start.isNone then s1.clearPorts n else s1

/-- The core takes a frame and starts it; while its graph drains the frame stays taken and not started (R398). -/
def State.take (s : State) (n : Nat) (xs : List Dbl) : State :=
  let s1 := s.setHart n { s.hart n with start := some (frameOf xs) }
  match s.dev.graph (s.hart n).graph with
  | some g => if g.state = 0 then s1.beginTask n else s1
  | none => s1

/-! Links (R277) -/

/-- HELD of the link channel towards an inbound port (R395): the flits in its receiver's buffer, captured or not. -/
def Port.linkHeld (q : Port) : Nat := q.link.length

/-- CREDITS of that channel at its sender (R395): of the D flits of its buffer those neither held nor owed, so that CREDITS + HELD + OWED = D. -/
def Port.linkCredits (q : Port) : Nat := Config.linkDepth - q.linkHeld - q.linkOwed

/-- The three counts of the channel at rest (R395). -/
theorem Port.link_counts (q : Port) (h : q.linkHeld + q.linkOwed ≤ Config.linkDepth) :
    q.linkCredits + q.linkHeld + q.linkOwed = Config.linkDepth := by
  unfold Port.linkCredits; omega

/-- What a restore makes of the channel (R395): the sender's count is D - HELD, no credit is owed. -/
def Port.linkRestored (q : Port) : Port := { q with linkOwed := 0 }

/-- The head entry of an agreed outbound port goes onto the link towards its inbound port (R277); one of an older epoch goes only to a binding that names its key (R299), and what was pushed after it waits behind it (log 60). -/
def State.sendEntry (s : State) (p n : Nat) : State :=
  let q := s.port p n
  match q.q, s.peerOf p n with
  | e :: rest, some (r, m) =>
    if q.agreed = false ∨ q.credit = 0 ∨ s.agree p n = false ∨ (e.epoch.isSome = true ∧ e.epoch ≠ some q.key) ∨ (s.port r m).linkCredits = 0 then s
    else
      let s1 := s.setPort p n { q with q := rest, credit := q.credit - 1 }
      let iq := s1.port r m
      s.waitOver ((s1.setPort r m { iq with link := iq.link ++ [{ e with epoch := none }] }).tryLeave p) p
  | _, _ => s

/-- The head entry of an inbound port's link arrives, which owes its channel a credit (R395), once the port has room and is bound, be it anew (R277, R278): what has been sent is delivered to the end it was sent to (R299, log 60). -/
def State.landEntry (s : State) (p n : Nat) : State :=
  let q := s.port p n
  match q.link with
  | e :: rest =>
    if q.bind ≠ 0 ∧ q.q.length < 16 then
      (s.setPort p n ({ q with link := rest, linkOwed := q.linkOwed + 1 }.enq e)).portsChanged p
    else s
  | [] => s

/-- PORT_ENTRY_DELIVER: An agreed binding sends an entry over the link into the inbound port (R277): at an outbound port of the MT at `place` the entry goes onto the link, at an inbound port the entry at the link's head arrives. -/
def execPortEntryDeliver (place port : Nat) (s : State) : Out :=
  .next (if port < 8 then s.landEntry place port else s.sendEntry place port)

/-- PORT_CREDIT_RETURN: A credit returns to the sender, `port` being the inbound port of the MT at `place`: one that the link's channel owes (R395), else that of a committed pop (R277). -/
def execPortCreditReturn (place port : Nat) (s : State) : Out :=
  let q := s.port place port
  .next (if 8 ≤ port then s
    else if q.linkOwed ≠ 0 then s.setPort place port { q with linkOwed := q.linkOwed - 1 }
    else if q.owed = 0 ∨ q.agreed = false ∨ s.agree place port = false then s
    else
      match s.peerOf place port with
      | some (r, m) =>
        let s1 := s.setPort place port { q with owed := q.owed - 1 }
        let oq := s1.port r m
        s1.setPort r m { oq with credit := if oq.credit.toNat < 16 then oq.credit + 1 else oq.credit }
      | none => s)

end Sys2Proof.Machine
end

