-- ==== Sys2Proof/Machine/Move.lean ====
section
/-! DEFINITION. Token moves, constants and system registers (op 0x04 to 0x07; R104, R105, R123, R124, R136, R137, R304). -/
namespace Sys2Proof.Machine

/-- A null PAIR token (R111). -/
def tokNullPair : Token := { tokNull with pair := true }

/-- MSTAT (R105): COLS 8:0, ROWS 14:9, NARROW 15, BUSY 23:16. -/
def mstatWord (h : Hart) : Dbl :=
  BitVec.ofNat 64 (h.mcols.toNat + 2 ^ 9 * h.mrows.toNat + 2 ^ 15 * h.narrow.toNat + 2 ^ 16 * h.busy.toNat)

/-- The value of system register `sel` on hart `n` (R104, R105); an engine hart holds only STATUS, STKLIM, SRSTATE and its context (R304). -/
def Dev.sysreg (d : Dev) (n : Nat) (h : Hart) (sel : Nat) : Dbl :=
  match sel with
  | 0 => h.status.setWidth 64
  | 3 => h.stklim
  | 5 => h.ctxid.setWidth 64
  | 8 => h.srstate.setWidth 64
  | 10 => d.timebase
  | 11 => d.dmapver.setWidth 64
  | 12 => d.tilerev.setWidth 64
  | k =>
    if isEngine n then 0
    else match k with
      | 1 => h.vec.vl.setWidth 64
      | 2 => h.vec.vtype.setWidth 64
      | 4 => h.taskid.setWidth 64
      | 6 => h.place.setWidth 64
      | 7 => h.cwidth.setWidth 64
      | 9 => mstatWord h
      | _ => 0

/-- The value a register will hold after a WRSYS of `v` (R105, R137): the RW fields written, the rest as they stand. -/
def Dev.sysWritten (d : Dev) (n : Nat) (h : Hart) (sel : Nat) (v : Dbl) : Dbl :=
  match sel with
  | 0 => v &&& 0x1F
  | 2 => if isEngine n then 0 else v &&& 0xF
  | 3 => v &&& ~~~(0xF : Dbl)
  | 8 => (srValue v.toNat).setWidth 64
  | k => d.sysreg n h k

/-- A WRSYS of the same register has already fired in the block (R137). -/
def Block.wroteSys (b : Block) (sel : Nat) : Bool :=
  b.effs.any (fun p => match p.2 with
    | .wrsys k _ => k == sel
    | _ => false)

/-- A WRSYS of the register with a null operand has fired in the block: it writes nothing (R111), yet a second one conflicts (R137). -/
def Block.nullSys (b : Block) (sel : Nat) : Bool :=
  b.effs.any (fun p => match p.2 with
    | .wrsysNull k => k == sel
    | _ => false)

/-- MOV: Send the left token to both targets (R123). -/
def execMov (t0 : BitVec 9) (t1 : BitVec 9) (pr : BitVec 2) (s : State) : Out :=
  .next (s.fireScalar pr 1 false t0 t1 fun _ _ l _ => l.plain)

/-- NULL: Send a null token, with the left token only pacing the firing (R123). -/
def execNull (t0 : BitVec 9) (t1 : BitVec 9) (pr : BitVec 2) (s : State) : Out :=
  .next (s.fireScalar pr 1 false t0 t1 fun _ _ _ _ => tokNull)

/-- PAIR: Build a 128-bit PAIR token from the left and right tokens (R123). -/
def execPair (t0 : BitVec 9) (t1 : BitVec 9) (pr : BitVec 2) (s : State) : Out :=
  .next (s.fire (scalarForm pr 2 false) (onBlock fun _ b l r =>
    b.deliverAll [t0, t1] (if l.null || r.null then tokNullPair else tokPair (r.lo ++ l.lo))))

/-- PLO: Send bits 63:0 of the left token (R123). -/
def execPlo (t0 : BitVec 9) (t1 : BitVec 9) (pr : BitVec 2) (s : State) : Out :=
  .next (s.fireScalar pr 1 false t0 t1 fun _ _ l _ => tokOf l.lo)

/-- PHI: Send bits 127:64 of the left PAIR token (R123). -/
def execPhi (t0 : BitVec 9) (t1 : BitVec 9) (pr : BitVec 2) (s : State) : Out :=
  .next (s.fireScalar pr 1 false t0 t1 fun _ _ l _ => tokOf l.hi)

/-- CONST: Send a sign-extended 14-bit immediate (R124). -/
def execConst (i : BitVec 14) (t0 : BitVec 9) (pr : BitVec 2) (s : State) : Out :=
  .next (s.fireScalar pr 0 false t0 noTarget fun _ _ _ _ => tokOf (simm i))

/-- APP: Shift the left token left by 14 and append an unsigned 14-bit immediate (R124). -/
def execApp (i : BitVec 14) (t0 : BitVec 9) (pr : BitVec 2) (s : State) : Out :=
  .next (s.fireScalar pr 1 false t0 noTarget fun _ _ l _ => tokOf (l.lo <<< 14 ||| i.setWidth 64))

/-- RDSYS: Send the value of a system register (R136). -/
def execRdsys (t0 : BitVec 9) (sel : BitVec 4) (pr : BitVec 2) (s : State) : Out :=
  let s0 := if sel = 10 ∧ s.goes (scalarForm pr 0 true) = true then s.ticked else s
  .next (s0.fireScalar pr 0 true t0 noTarget fun h _ _ _ => tokOf (s0.dev.sysreg s0.dev.focus.hart h sel.toNat))

/-- WRSYS: Write the left token to a system register at commit and send its new value (R137). -/
def execWrsys (t0 : BitVec 9) (sel : BitVec 4) (pr : BitVec 2) (s : State) : Out :=
  .next (s.fire (scalarForm pr 1 true) (onBlock fun h b l _ =>
    if b.wroteSys sel.toNat || b.nullSys sel.toNat then b.fault 0x03 s.dev.focus.idx 0 0
    else if l.null then (b.addEff s.dev.focus.idx (.wrsysNull sel.toNat)).deliver t0 tokNull
    else
      let v := s.dev.sysWritten s.dev.focus.hart h sel.toNat l.lo
      (b.addEff s.dev.focus.idx (.wrsys sel.toNat v)).deliver t0 (tokOf v)))

end Sys2Proof.Machine
end

