-- ==== Sys2Proof/Machine/Load.lean ====
section
/-! DEFINITION. Scalar loads and LDV (op 0x40 to 0x47, 0x4E; R232-R237, R240, R241): what they do at fire. Their value comes with the reply of the home: see Reply. -/
namespace Sys2Proof.Machine

/-- A scalar load at fire (R232-R235, R237): the request, or its fault. -/
def scalarLoad (s : State) (l : BitVec 5) (t0 : BitVec 9) (z o : BitVec 2) (i : BitVec 5) (pr : BitVec 2)
    (size : Nat) (signed : Bool) : Out :=
  let c := s.dev.focus
  .next (s.fireMem { pr := pr, operands := 1, oldest := false, lsid := some l.toNat, vsid := none } z t0
    fun zone h b a _ =>
      let va := a.lo + offL i size
      issue s.dev c.hart h b 0
        [{ zone := zone, va := va, size := size, good := inLine va size, rd := true, wr := false, stack := true }]
        { idx := c.idx, lsid := l.toNat, ord := 2 ^ o.toNat - 1, zone := zone, va := va, t0 := t0, kind := .load size signed })

/-! Vector accesses (R240, R241) -/

/-- The byte address of element `i` in the strided and indexed forms (R240). -/
def elemAddr (c : Vec) (x form : Nat) (base stride : Dbl) (i : Nat) : Dbl :=
  if form = 1 then base + BitVec.ofNat 64 i * stride
  else base + BitVec.ofNat 64 (sext64 32 (c.lane x i)) * BitVec.ofNat 64 (memBits c.vtype.toNat / 8)

/-- The byte ranges of a vector access: one range in unit stride, else one per element (R240). -/
def vecPieces (c : Vec) (cw x form : Nat) (base stride : Dbl) : List (Nat × Nat) :=
  let n := memCount c cw form
  let w := memBits c.vtype.toNat
  if form = 0 then piecesOf base.toNat ((n * w + 7) / 8)
  else (upTo n).flatMap (fun i => piecesOf (elemAddr c x form base stride i).toNat (w / 8))

/-- The probes of a vector access: elements of 8 bits or more are aligned to their size (R234). -/
def vecProbes (c : Vec) (cw x form zone : Nat) (base stride : Dbl) (wr : Bool) : List Probe :=
  let w := memBits c.vtype.toNat
  let ok := w < 8 || (if form = 0 then aligned base (w / 8) else
    (upTo (memCount c cw form)).all (fun i => aligned (elemAddr c x form base stride i) (w / 8)))
  (vecPieces c cw x form base stride).map (fun p =>
    { zone := zone, va := BitVec.ofNat 64 p.1, size := p.2, good := ok, rd := !wr, wr := wr, stack := true })

/-- Format checks of a vector access (R240): strided and indexed forms need 8 bits or more; an index register carries I32; the data of STV carries VTYPE or NONE. -/
def vecChecks (e : VEnv) (c : Vec) (x form data : Nat) (store : Bool) : List (Option Dbl) :=
  [if 1 ≤ form ∧ memBits c.vtype.toNat < 8 then some (clashWord e 0xFF c.vtype.toNat x) else none,
   if form = 2 then needTag e c x tagI32 else none,
   if store then needIn e c data [c.vtype.toNat, tagNone] else none]

/-- LDV at fire: its VSID's turn, once what it reads of its context is known, be it in a younger block (R139, R442); the request, or its fault. The tags are checked before the addresses, since the indices are read under them, so that an LDV or STV that fails both checks records 0x40 alone (log 60). -/
def vecLoad (s : State) (l v d : BitVec 5) (z o pr : BitVec 2) (form : Nat) : Out :=
  let c := s.dev.focus
  .next (s.fireMem { pr := pr, operands := 1, oldest := false, lsid := some l.toNat, vsid := some v.toNat,
                        need := if form = 2 then .whole else .length } z noTarget
    fun zone h b a _ =>
      let e : VEnv := { n := h.nenv c.idx, cw := h.cwidth.toNat, book := [] }
      let x := b.ctxOf h
      match firstClash (vecChecks e x d.toNat form d.toNat false) with
      | some k => h.putBlock (b.fault 0x40 c.idx k 0)
      | none =>
        issue s.dev c.hart h b 0 (vecProbes x e.cw d.toNat form zone a.lo a.hi false)
          { idx := c.idx, lsid := l.toNat, ord := 2 ^ o.toNat - 1, zone := zone, va := a.lo, t0 := noTarget,
            kind := .vload d.toNat form v.toNat a.hi [] })

/-- LDB: Load a byte, zero-extended (R237). -/
def execLdb (l : BitVec 5) (t0 : BitVec 9) (z : BitVec 2) (o : BitVec 2) (i : BitVec 5) (pr : BitVec 2) (s : State) : Out :=
  scalarLoad s l t0 z o i pr 1 false

/-- LDBS: Load a byte, sign-extended (R237). -/
def execLdbs (l : BitVec 5) (t0 : BitVec 9) (z : BitVec 2) (o : BitVec 2) (i : BitVec 5) (pr : BitVec 2) (s : State) : Out :=
  scalarLoad s l t0 z o i pr 1 true

/-- LDH: Load a half, zero-extended (R237). -/
def execLdh (l : BitVec 5) (t0 : BitVec 9) (z : BitVec 2) (o : BitVec 2) (i : BitVec 5) (pr : BitVec 2) (s : State) : Out :=
  scalarLoad s l t0 z o i pr 2 false

/-- LDHS: Load a half, sign-extended (R237). -/
def execLdhs (l : BitVec 5) (t0 : BitVec 9) (z : BitVec 2) (o : BitVec 2) (i : BitVec 5) (pr : BitVec 2) (s : State) : Out :=
  scalarLoad s l t0 z o i pr 2 true

/-- LDW: Load a word, zero-extended (R237). -/
def execLdw (l : BitVec 5) (t0 : BitVec 9) (z : BitVec 2) (o : BitVec 2) (i : BitVec 5) (pr : BitVec 2) (s : State) : Out :=
  scalarLoad s l t0 z o i pr 4 false

/-- LDWS: Load a word, sign-extended (R237). -/
def execLdws (l : BitVec 5) (t0 : BitVec 9) (z : BitVec 2) (o : BitVec 2) (i : BitVec 5) (pr : BitVec 2) (s : State) : Out :=
  scalarLoad s l t0 z o i pr 4 true

/-- LDD: Load a double (R237). -/
def execLdd (l : BitVec 5) (t0 : BitVec 9) (z : BitVec 2) (o : BitVec 2) (i : BitVec 5) (pr : BitVec 2) (s : State) : Out :=
  scalarLoad s l t0 z o i pr 8 false

/-- LDQ: Load a quad as a PAIR token (R237). -/
def execLdq (l : BitVec 5) (t0 : BitVec 9) (z : BitVec 2) (o : BitVec 2) (i : BitVec 5) (pr : BitVec 2) (s : State) : Out :=
  scalarLoad s l t0 z o i pr 16 false

/-- LDV: Unit-stride vector load into a v-register (R240). -/
def execLdv (l : BitVec 5) (v : BitVec 5) (d : BitVec 5) (z : BitVec 2) (o : BitVec 2) (pr : BitVec 2) (s : State) : Out :=
  vecLoad s l v d z o pr 0

/-- LDV_STR: Strided vector load (R240). -/
def execLdvStr (l : BitVec 5) (v : BitVec 5) (d : BitVec 5) (z : BitVec 2) (o : BitVec 2) (pr : BitVec 2) (s : State) : Out :=
  vecLoad s l v d z o pr 1

/-- LDV_IDX: Indexed (gather) vector load (R240). -/
def execLdvIdx (l : BitVec 5) (v : BitVec 5) (d : BitVec 5) (z : BitVec 2) (o : BitVec 2) (pr : BitVec 2) (s : State) : Out :=
  vecLoad s l v d z o pr 2

end Sys2Proof.Machine
end

