-- ==== Sys2Proof/Machine/Reply.lean ====
section
/-! DEFINITION. Requests of blocks are performed: loads, LDV, RET refills, CBLD reads, ACQ, WAITC and MWAIT (LOAD_REPLY), atomics (ATOMIC_PERFORM, HOST_ATOMIC_CAS_RETRY) (R209-R214, R219, R225, R237-R245, R362). -/
namespace Sys2Proof.Machine

/-- A request whose reply brings a token from memory: one that has been sent is answered under THALT too, and the token is held at the link interface (R377). -/
def ReqKind.replies : ReqKind → Bool
  | .load _ _ => true
  | .atomic _ _ _ _ => true
  | .acq _ _ => true
  | _ => false

/-- A request that goes to a home, whose reply reaches a hart wherever it is held (R388). -/
def ReqKind.asksHome (k : ReqKind) : Bool :=
  match k with
  | .vload _ _ _ _ _ => true
  | .refill => true
  | .cbld => true
  | k => k.replies

/-- A hart of a shadow bank, or of an image of which no copy has been loaded: what it has asked of the homes is answered there (R388). -/
def Dev.answers (d : Dev) (hn : Nat) : Bool := decide (hn < 4096) || d.imageHarts.contains hn

/-- The request of instruction `idx` of a block on a hart whose nodes fire (R369), or under THALT one whose token is held, or of a held hart one that went to a home; a request whose fault stands recorded is not tried again until a resume clears it, and the oldest block takes its fault before anything else (R480). -/
def State.pendingReq (s : State) (hn tag idx : Nat) : Option (Block × Req) :=
  let h := s.hart hn
  if (if hn < 2048 then h.run != .running && h.run != .frozen else !s.dev.answers hn) then none
  else
    match h.block tag with
    | none => none
    | some b =>
      if h.faulty b || b.faults.any (fun f => f.word == 32 + idx) then none
      else
        match b.reqs.find? (fun r => r.idx == idx) with
        | some r => if h.thalt && !(if hn < 2048 then r.kind.replies else r.kind.asksHome) then none else some (b, r)
        | none => none

/-- Store a changed hart: forward what resolved, copy traces. -/
def State.settle (s : State) (hn : Nat) (src : Option (Nat × Nat)) (h : Hart) : State :=
  s.setHart hn ((s.hart hn).traced h.forward src)

/-- Token flow goes on: what the link interfaces have held reaches its targets (R377). -/
def State.landLinks (s : State) (hn : Nat) : State :=
  ((s.hart hn).blocks.flatMap (fun b => b.links.map (fun x => (b.tag, x)))).foldl (fun s x =>
    let h := s.hart hn
    match h.block x.1 with
    | some b => s.settle hn (some (x.1, x.2.1)) (h.putBlock ({ b with links := b.links.erase x.2 }.deliver x.2.2.1 x.2.2.2))
    | none => s) s

/-- A reply that has reached a held hart is a message to its context, which joins the arrival log of its image (R388). -/
def State.replied (s : State) (hn : Nat) (r : Req) (t : State) : State :=
  if hn < 2048 ∨ t.hart hn = s.hart hn then t
  else { t with dev := { t.dev with msgs := t.dev.msgs ++ [((s.hart hn).graph, { seg := r.va, kind := 3 })] } }

/-- The same for a change that ends in a discard: the copies of what was sent before it are made as well (R382). -/
def State.settleVia (s : State) (hn : Nat) (src : Option (Nat × Nat)) (sent h : Hart) : State :=
  let old := s.hart hn
  let copied := old.traced sent.forward src
  s.setHart hn { h.forward with trace := copied.trace, traceLost := copied.traceLost }

/-- Record a fault of a request found at the home (R235). -/
def State.lateFault (s : State) (hn tag : Nat) (r : Req) (f : FaultRec) : State :=
  let h := s.hart hn
  match h.block tag with
  | some b => s.setHart hn (h.putBlock (b.addFault { f with late := true, word := 32 + r.idx }))
  | none => s

/-- The LSID that a fault packet names (R373): a refill and CBLD's reads hold none. -/
def Req.packetLsid (r : Req) : Option Nat :=
  match r.kind with
  | .refill => none
  | .cbld => none
  | .waitc _ _ _ => none
  | _ => some r.lsid

/-- The cause that a fault found at the home gives: a CBLD knows permission, uncorrectable data, and for all else the page-table fault (R351). -/
def Req.cause (r : Req) (c : Nat) : Nat :=
  match r.kind with
  | .cbld => if c = 0x13 ∨ c = 0x17 then c else 0x15
  | _ => c

/-- A part of an access by its name (R208): zone, address, bytes. -/
abbrev Part := Nat × Nat × Nat

/-- The names of the pieces of an access of hart `hn`. -/
def State.parts (s : State) (hn zone : Nat) (ps : List (Nat × Nat)) : List Part :=
  ps.map (fun p =>
    let q := s.namesOf hn zone (BitVec.ofNat 64 p.1)
    (q.1, q.2.toNat, p.2))

/-- A load has read other bytes than `bs` from the range. -/
def staleSeen (zone va : Nat) (bs : List Byte) (x : Seen) : Bool :=
  x.zone == zone &&
  (List.zip (upTo x.base.length) x.base).any (fun p =>
    let a := x.va.toNat + p.1
    decide (va ≤ a) &&
    (match bs[a - va]? with
     | some c => c != p.2
     | none => false))

/-- The same over the parts of an access. -/
def stalePart (x : Seen) : List Part → List Byte → Bool
  | [], _ => false
  | (zone, va, n) :: ps, bs => staleSeen zone va (bs.take n) x || stalePart x ps (bs.drop n)

/-- The read that fixed byte `a` of an access of `n` bytes at `va`: it shares bytes with the access in the aligned 16-byte granule of `a`, so that an aligned access takes the granule of one moment (R224). -/
def Seen.fixes (x : Seen) (va n a : Nat) : Bool :=
  let g := a / 16 * 16
  let lo := Nat.max va g
  overlaps lo (Nat.min (va + n) (g + 16) - lo) x.va.toNat x.base.length

/-- A bound block cannot be discarded (R29): a load of it that is performed after a load or an atomic with a higher LSID returns what stood there when that one was performed, so that the two never return values against the write order (R209, R214). -/
def Block.asSeen (b : Block) (lsid : Nat) : List Part → List Byte → List Byte
  | [], _ => []
  | (zone, va, n) :: ps, bs =>
    (if !b.bound then bs.take n
     else (List.zip (upTo n) (bs.take n)).map (fun p =>
       match b.seen.find? (fun x => decide (lsid < x.lsid) && x.zone == zone && x.fixes va n (va + p.1)) with
       | some x => x.wide.getD (va + p.1 - x.va.toNat / 16 * 16) p.2
       | none => p.2)) ++ b.asSeen lsid ps (bs.drop n)

/-- The first block with a load that stands later in program order and has read other bytes than a load that is performed just now (R214). A bound block takes what it has read (`Block.asSeen`). -/
def Hart.staleBlock (h : Hart) (b : Block) (lsid : Nat) (ps : List Part) (bs : List Byte) : Option Nat :=
  if !b.bound && b.seen.any (fun x => decide (lsid < x.lsid) && stalePart x ps bs) then some b.tag
  else
    match (h.youngerBlocks b.tag).find? (fun y => y.seen.any (fun x => stalePart x ps bs)) with
    | some y => some y.tag
    | none => none

/-- The bytes of an access as the core sees them, under its own older stores (R209). -/
def Hart.ownParts (h : Hart) (tag lsid : Nat) : List Part → List Byte → List Byte
  | [], _ => []
  | (zone, va, n) :: ps, bs => h.ownBytes tag lsid zone va (bs.take n) ++ h.ownParts tag lsid ps (bs.drop n)

/-- What a load has read, piece by piece. -/
def State.seenPieces (s : State) (hn lsid zone : Nat) : List (Nat × Nat) → List Byte → List Seen
  | [], _ => []
  | (va, n) :: ps, bs =>
    { lsid := lsid, zone := zone, va := BitVec.ofNat 64 va, base := bs.take n,
      wide := s.peekAs hn zone (BitVec.ofNat 64 (va / 16 * 16)) ((va % 16 + n + 15) / 16 * 16) } ::
      s.seenPieces hn lsid zone ps (bs.drop n)

/-- Whether a load may perform now (R28, R29, R209, R211, R213, R216, R250). -/
def State.loadTurn (s : State) (hn : Nat) (b : Block) (r : Req) (ps : List (Nat × Nat)) : Bool :=
  let h := s.hart hn
  b.lsidTurn r.lsid && !h.loadsHeld && !(ps.any (fun p => h.invalidating r.zone p.1 p.2)) &&
  (h.isOldest b.tag ||
    (r.ord == 0 && !(ps.any (fun p => s.isWT hn r.zone (BitVec.ofNat 64 p.1))))) &&
  (r.ord == 0 || h.drained r.ord)

/-- The replay notice that a request of the oldest block meets in its ord wait (R281). -/
def Hart.ordNotice (h : Hart) (b : Block) (r : Req) : Option Notice :=
  if h.isOldest b.tag && b.lsidTurn r.lsid then h.noticeIn r.ord else none

/-- Perform the reads of a request and hand its bytes to `g` (R209, R235, R281). -/
def State.performLoad (s : State) (hn tag : Nat) (b : Block) (r : Req) (ps : List (Nat × Nat)) (kind size : Nat)
    (g : Hart → Block → List Byte → Hart) : State :=
  let h := s.hart hn
  match h.ordNotice b r with
  | some n => s.lateFault hn tag r (deferredFault n 0)
  | none =>
    if !s.loadTurn hn b r ps then s
    else
    match ps.findSome? (fun p => h.noticeFor r.zone (p.1 / 4096)) with
    | some n => s.lateFault hn tag r (deferredFault n 0)
    | none =>
      match s.readPieces hn r.zone ps with
      | (s1, .wait) => s1
      | (s1, .fault c pa) => s1.lateFault hn tag r (accessFault r.idx r.packetLsid (r.cause c) r.zone kind size pa r.va true)
      | (s1, .bytes bytes) =>
        let h1 := s1.hart hn
        let f := s1.namesOf hn
        let parts := s1.parts hn r.zone ps
        let bs := (b.renamed f).asSeen r.lsid parts bytes
        let own := (h1.renamed f).ownParts tag r.lsid parts bs
        let b1 := { b.dropReq r.idx with seen := b.seen ++ s1.seenPieces hn r.lsid r.zone ps bs }
        let h2 := g (h1.putBlock b1) b1 own
        s1.settleVia hn (some (tag, r.idx)) h2
          (match (h1.renamed f).staleBlock (b.renamed f) r.lsid parts bs with
           | some y => h2.discardFrom y
           | none => h2)

/-- The token of a scalar load (R237). -/
def loadToken (size : Nat) (signed : Bool) (bs : List Byte) : Token :=
  if size = 16 then tokPair (BitVec.ofNat 128 (leNat bs))
  else if signed then tokOf (BitVec.ofNat 64 (sext64 (8 * size) (leNat bs)))
  else tokOf (BitVec.ofNat 64 (leNat bs))

/-- The parts of an access that are still to be read once `n` of its bytes have come. -/
def partsAfter : Nat → List (Nat × Nat) → List (Nat × Nat)
  | 0, ps => ps
  | _ + 1, [] => []
  | n + 1, p :: ps => if p.2 ≤ n + 1 then partsAfter (n + 1 - p.2) ps else p :: ps

/-- The byte ranges that a request has still to read: those of an LDV or a CBLD in parts (R240, R341), else the one it begins. -/
def Hart.restOf (h : Hart) (b : Block) (r : Req) : List (Nat × Nat) :=
  match r.kind with
  | .vload d form _ stride got => partsAfter got.length (vecPieces (b.ctxOf h) h.cwidth.toNat d form r.va stride)
  | .cbld => piecesOf r.va.toNat 1024
  | _ => [(r.va.toNat, 1)]

/-- The kind and the size by which a packet names the access of a request (R374), an LDV's by its element; none for one that goes to no home. -/
def Hart.accessOf (h : Hart) (b : Block) (r : Req) : Option (Nat × Nat) :=
  match r.kind with
  | .load size _ => some (0, size)
  | .vload _ _ _ _ _ => some (0, memBits (b.ctxOf h).vtype.toNat / 8)
  | .atomic _ n _ _ => some (2, n)
  | .acq _ _ => some (0, 64)
  | .cbld => some (0, 64)
  | _ => none

/-- An LDV writes its register and resolves its VSID (R139, R240). -/
def Block.filled (b : Block) (cw idx d form vsid : Nat) (bs : List Byte) : Block :=
  (b.leave (.load d form cw bs)).resolveV idx (some vsid)

/-- An LDV has read all its bytes: its LSID resolves, and it takes effect now or, with lower VSIDs of its block still open, in its turn (R139). -/
def Block.loaded (b : Block) (cw : Nat) (r : Req) (d form vsid : Nat) (bs : List Byte) : Block :=
  let b1 := b.resolveL r.idx (some r.lsid)
  if b.vsidTurn vsid then b1.filled cw r.idx d form vsid bs else b1.addReq { r with kind := .vdone d form vsid bs }

/-- The regions of a binder (R217): address, length, zone. -/
def binderRegions (bs : List Byte) : List (Nat × Nat × Nat) :=
  (upTo (bitsOf (leNat ((bs.drop 8).take 8)) 1 0)).map (fun n =>
    let r := bs.drop (16 + 16 * n)
    (leNat (r.take 8), leNat ((r.drop 8).take 4), leNat ((r.drop 12).take 1)))

/-- What the binder's page grants joins the lookaside with the reply (R196). -/
def State.learnPage (s : State) (hn zone : Nat) (va : Dbl) (l : Loc) (a : Attr) : State :=
  match l with
  | .scr _ _ => s
  | .held _ _ => s
  | _ => s.learn hn zone (va.toNat / 4096) a

/-- Write back, and with `drop` invalidate, the lines of binder regions (R218, R219), uncounted (R355); zone 0xFE is skipped. -/
def Hart.regionWork (h : Hart) (drop : Bool) (rs : List (Nat × Nat × Nat)) : Hart :=
  rs.foldl (fun h r => h.writeback false drop (inRange h.ctxid.toNat r.2.2 r.1 r.2.1)) h

/-- The binder wait of a number. -/
def Dev.binderWait (d : Dev) (num : Nat) : Option BinderWait := d.binders.find? (fun w => w.num == num)

/-- The binder as the home gives it to an ACQ (R219): as it stood when a write made the condition true since the ACQ's wait began there, or as it stands. -/
def State.binderBytes (s : State) (l : Loc) (wait : Option Nat) : List Byte :=
  match wait.bind s.dev.binderWait with
  | some w => if w.loc = l then w.got.getD (s.readLoc l 64) else s.readLoc l 64
  | none => s.readLoc l 64

/-- Some block's request, or the kick wait of some tile, stands in the wait of that number, be it held (R388). -/
def Dev.waitedFor (d : Dev) (num : Nat) : Bool :=
  d.allHarts.any (fun p => p.2.blocks.any (fun b => b.reqs.any (fun r =>
    match r.kind with
    | .acq _ w => w == some num
    | .waitc _ _ w => w == some num
    | _ => false))) ||
  d.mts.any (fun p => p.2.any (fun m => m.kick == some num)) || d.shadow.any (fun p => p.2.any (fun v => v.mt.kick == some num)) ||
  d.images.any (fun i => i.tiles.any (fun v => v.mt.kick == some num))

/-- A number that no wait has. -/
def Dev.nextWait (d : Dev) : Nat := d.binders.foldl (fun n w => Nat.max n w.num) 0 + 1

/-- A wait of a number and no other begins; waits in which nothing stands any more are forgotten. -/
def Dev.addWait (d : Dev) (w : BinderWait) : Dev := { d with binders := d.binders.filter (fun x => d.waitedFor x.num && x.num != w.num) ++ [w] }

/-- The wait of a request begins at the home of its word (R219, R362), of which `got` holds what has met its condition already. -/
def State.beginWait (s : State) (hn : Nat) (b : Block) (r : Req) (kind : Option Nat → ReqKind) (cond : Nat) (l : Loc) (got : Option (List Byte)) : State :=
  let num := s.dev.nextWait
  let s1 := s.setHart hn ((s.hart hn).putBlock { b with reqs := b.reqs.map (fun q => if q.idx = r.idx then { r with kind := kind (some num) } else q) })
  { s1 with dev := s1.dev.addWait { num := num, loc := l, got := got, cond := cond } }

/-- The wait is over. -/
def State.endWait (s : State) (wait : Option Nat) : State :=
  match wait with
  | some k => { s with dev := { s.dev with binders := s.dev.binders.filter (fun w => w.num != k) } }
  | none => s

/-- The wait stands at that place already. -/
def State.waitsAt (s : State) (l : Loc) (wait : Option Nat) : Bool :=
  match wait.bind s.dev.binderWait with
  | some w => w.loc == l
  | none => false

/-- An ACQ of the oldest block (R219): read at the home, condition, region work, token. The home evaluates the condition at every write to WORD. -/
def State.performAcq (s : State) (hn tag : Nat) (b : Block) (r : Req) (sc : Nat) (wait : Option Nat) : State :=
  let h := s.hart hn
  match h.ordNotice b r, h.noticeFor r.zone (r.va.toNat / 4096) with
  | some n, _ => s.lateFault hn tag r (deferredFault n 0)
  | none, note =>
    if !h.isOldest tag || !b.lsidTurn r.lsid || h.loadsHeld || !h.drained r.ord then s
    else
    match note with
    | some n => s.lateFault hn tag r (deferredFault n 0)
    | none =>
      if s.postedTouches hn r.zone r.va 64 then s
      else
      match (s.countWalk hn r.zone r.va).target h.ctxid.toNat hn r.zone r.va 64 true false with
      | (s1, .wait) => s1
      | (s1, .fault c pa) => (s1.learnAt hn r.zone r.va).lateFault hn tag r (accessFault r.idx (some r.lsid) c r.zone 0 64 pa r.va true)
      | (s0, .at l a) =>
        let s1 := s0.learnPage hn r.zone r.va l a
        let bs := s1.binderBytes l wait
        let word := leNat (bs.take 8)
        if !bytesReady bs then if s1.waitsAt l wait then s1 else s1.beginWait hn b r (.acq sc) 0 l none
        else
          let rs := binderRegions bs
          match rs.find? (fun x => zoneOf x.2.2 == .invalid) with
          | some x => s1.lateFault hn tag r (accessFault r.idx (some r.lsid) 0x10 x.2.2 0 64 0 (BitVec.ofNat 64 x.1) true)
          | none =>
            let b1 := ((b.dropReq r.idx).resolveL r.idx (some r.lsid)).arrive h.thalt r.idx r.t0 (tokOf (BitVec.ofNat 64 word))
            let s2 := s1.endWait wait
            let h1 := (s2.hart hn).putBlock b1
            s2.settle hn (some (tag, r.idx)) (((h1.regionWork true rs).awaitWbacks h1).redoLoads tag (fun _ => true))

/-- Finish a wait: drop the request and send the token. -/
def Hart.sendWait (h : Hart) (b : Block) (r : Req) (k : Token) : Hart := h.putBlock ((b.dropReq r.idx).deliver r.t0 k)

/-- The replay notice of a write-back that the acquire work waits for (R281). -/
def Hart.wbackNotice (h : Hart) : Option Notice :=
  h.posted.findSome? (fun p =>
    match p.what with
    | .wback z a _ _ => if p.status = 1 ∨ p.status = 2 then h.noticeFor z (a.toNat / 4096) else none
    | _ => none)

/-- Finish a WAITC (R362): the acquire work is done first, its write-backs performed, and no younger access is performed before the token is sent. -/
def State.sendWaitc (s : State) (hn tag : Nat) (b : Block) (r : Req) (k : Token) : State :=
  let h := s.hart hn
  if h.acquireDone then s.settle hn (some (tag, r.idx)) ((h.sendWait b r k).acquireWork tag)
  else
    match h.wbackNotice with
    | some n => s.lateFault hn tag r (deferredFault n 0)
    | none => s.setHart hn h.invalidateLines

/-- Every item that R355 counts in the named classes has been performed (R362). -/
def Hart.countsZero (h : Hart) (mask : Nat) : Bool := (upTo 3).all (fun c => !bitOf mask c || h.posts c == 0)

/-- WAITC in the oldest block (R362; of the AGE and join kinds too, DESIGN CHOICE, log 64). The join kind follows the core's own older SPAWNs and JADDs. The home of the join word evaluates it at every change, as that of a binder does: a 0 that it has seen ends the wait, whatever stands there when the acquire work is done. -/
def State.performWaitc (s : State) (hn tag : Nat) (b : Block) (r : Req) (kind arg : Nat) (wait : Option Nat) : State :=
  let h := s.hart hn
  if !h.isOldest tag then s
  else
    match kind with
    | 0 =>
      match h.noticeIn arg with
      | some n => s.lateFault hn tag r (deferredFault n 0)
      | none => if h.countsZero arg then s.sendWaitc hn tag b r (tokOf 0) else s
    | 1 =>
      let g := s.age (placeOfHart hn) arg
      if g.state = 1 then s else s.sendWaitc hn tag b r (tokOf (BitVec.ofNat 64 g.state))
    | _ =>
      if isEngine hn then s.sendWaitc hn tag b r (tokOf 0)
      else if h.loadsHeld || h.spawnsPending then s
      else
        match h.noticeFor 0 ((h.seg + 56).toNat / 4096) with
        | some n => s.lateFault hn tag r (deferredFault n 0)
        | none =>
          if s.postedTouches hn 0 (h.seg + 56) 8 then s
          else match (s.countWalk hn 0 (h.seg + 56)).target h.ctxid.toNat hn 0 (h.seg + 56) 8 true false with
          | (s1, .wait) => s1
          | (s1, .fault c pa) => (s1.learnAt hn 0 (h.seg + 56)).lateFault hn tag r (accessFault r.idx none c 0 0 8 pa (h.seg + 56) true)
          | (s0, .at l a) =>
            let s1 := s0.learnPage hn 0 (h.seg + 56) l a
            let bs := s1.binderBytes l wait
            let met := condMet 2 bs
            if met && h.acquireDone then (s1.endWait wait).sendWaitc hn tag b r (tokOf 0)
            else
              let s2 := if s1.waitsAt l wait then s1 else s1.beginWait hn b r (.waitc kind arg) 2 l (if met then some bs else none)
              if met then s2.sendWaitc hn tag b r (tokOf 0) else s2

/-- How many of an LDV's remaining parts the next reply brings: all of them, or one, by a free value, since they are unordered towards other agents and need not come together (R224, R241). -/
def State.vecTake (s : State) (n : Nat) : Nat := if n ≤ 1 ∨ (Config.freeValue s.dev.fresh).getLsbD 0 = true then n else 1

/-- Every tensor instruction of the block has resolved its VSID (R169). -/
def tensorsIssued (b : Block) : Bool :=
  (decoded b.code).all (fun p =>
    !isTensor p.2 ||
    (match vsidOf p.2 with
     | some v => b.vsids.contains v
     | none => true))

/-- LOAD_REPLY: A load's value returns from its home and resolves the load (R237); also an LDV (R240), a RET's refill (R118), CBLD's reads (R341), an ACQ (R219), a WAITC (R362) and an MWAIT (R169) (log 15). The detail of a CBLD fault gives the size of one line, as R374 names none for its 1,024 bytes (DESIGN CHOICE, log 61). -/
def execLoadReply (hart tag idx : Nat) (s : State) : Out :=
  .next (match s.pendingReq hart tag idx with
    | none => s
    | some (b, r) =>
      s.replied hart r (match r.kind with
      | .load size signed =>
        s.performLoad hart tag b r [(r.va.toNat, size)] 0 size fun h b bs =>
          h.putBlock ((b.resolveL idx (some r.lsid)).arrive h.thalt idx r.t0 (loadToken size signed bs))
      | .vload d form vsid stride got =>
        let h := s.hart hart
        let c := b.ctxOf h
        let cw := h.cwidth.toNat
        let rest := h.restOf b r
        let ps := rest.take (s.vecTake rest.length)
        s.freshened.performLoad hart tag b r ps 0 (memBits c.vtype.toNat / 8) fun h b bs =>
          h.putBlock (if ps.length = rest.length then
              b.loaded cw r d form vsid (got ++ bs)
            else b.addReq { r with kind := .vload d form vsid stride (got ++ bs) })
      | .vdone d form vsid bs =>
        let h := s.hart hart
        if b.vsidTurn vsid then s.settle hart (some (tag, idx)) (h.putBlock ((b.dropReq idx).filled h.cwidth.toNat idx d form vsid bs)) else s
      | .refill =>
        s.performLoad hart tag b r [(r.va.toNat, 8)] 8 8 fun h b bs =>
          let a := BitVec.ofNat 64 (leNat bs)
          h.putBlock (if goodTarget (tokOf a) then b.setBranch idx (.ret a true) else b.fault 0x05 idx a 0)
      | .cbld =>
        if (s.hart hart).isOldest tag then
          s.performLoad hart tag b r (piecesOf r.va.toNat 1024) 0 64 fun h b bs => h.putBlock (b.addEff idx (.cbld bs))
        else s
      | .acq sc wait => s.performAcq hart tag b r sc wait
      | .waitc kind arg wait => s.performWaitc hart tag b r kind arg wait
      | .mwait mask =>
        let h := s.hart hart
        if h.isOldest tag && tensorsIssued b && (h.busy.toNat &&& mask) == 0 then
          s.settle hart (some (tag, idx)) (h.sendWait b r (tokOf (mstatWord h)))
        else s
      | .atomic _ _ _ _ => s
      | .domwait _ => s
      | .tensor _ => s))

/-- The parts of a request that lie in one page are tried (R414): what they meet there is all that counts. -/
def State.tryPage (s : State) (hart tag idx page : Nat) : Out :=
  .next (match s.pendingReq hart tag idx with
    | none => s
    | some (b, r) =>
      let h := s.hart hart
      match h.accessOf b r with
      | some (kind, size) => s.performLoad hart tag b r ((h.restOf b r).filter (fun p => p.1 / 4096 == page)) kind size (fun h _ _ => h)
      | none => s)

/-! Atomics -/

/-- The numeric state of AFADD (R243): RNE, no flushing. -/
def afaddEnv : NEnv := { nmode := false, ftz := false, rm := 0, s0 := 0, k := 0 }

/-- The value an atomic writes, if it writes (R242, R243); `n` is its width in bytes, `v` its operand. -/
def atomicNew (op n old : Nat) (v : Quad) : Option Nat :=
  let w := 8 * n
  let x := v.toNat % 2 ^ w
  match op with
  | 0 => some ((old + x) % 2 ^ w)
  | 1 => some (old &&& x)
  | 2 => some (old ||| x)
  | 3 => some (old ^^^ x)
  | 4 => some (if sval w old ≤ sval w x then old else x)
  | 5 => some (if sval w x ≤ sval w old then old else x)
  | 6 => some (Nat.min old x)
  | 7 => some (Nat.max old x)
  | 8 => some x
  | 9 =>
    let cmp := v.toNat % 2 ^ 64
    let nv := v.toNat / 2 ^ 64
    if n = 16 then
      if old % 2 ^ 64 = cmp then some ((old / 2 ^ 64 + 1) % 2 ^ 64 * 2 ^ 64 + nv) else none
    else if old = cmp % 2 ^ w then some (nv % 2 ^ w) else none
  | _ =>
    let t := if n = 4 then tagF32 else tagF64
    some (roundTo afaddEnv t 0 false 0 (exAdd afaddEnv 0 (valueOf t false old) (valueOf t false x)))

/-- The token of an atomic's old value (R242): 4 bytes sign-extended, 16 bytes a PAIR. -/
def atomicToken (n old : Nat) : Token :=
  if n = 16 then tokPair (BitVec.ofNat 128 old)
  else tokOf (BitVec.ofNat 64 (if n = 4 then sext64 32 old else old))

/-- The core holds a line of an atomic's location (R201, R225). -/
def State.holdsLine (s : State) (hn zone va : Nat) : Bool := (s.hart hn).l1d.any (fun l => l.home.isNone && l.names (s.namesOf hn) (s.hart hn).ctxid.toNat zone va)

/-- The atomic's own line leaves the L1D first, written back (R225). -/
def State.dropOwnLine (s : State) (hn zone va : Nat) : State :=
  s.setHart hn ((s.hart hn).writeback false true (fun l => l.home.isNone && l.names (s.namesOf hn) (s.hart hn).ctxid.toNat zone va))

/-- The home keeps FREECNT: an 8-byte compare-and-swap that has put a segment at the head of its context's pool adds one (R264, log 60). -/
def State.pooled (s : State) (ctx zone : Nat) (va : Dbl) (op n : Nat) (w : Writer) : State :=
  if op ≠ 9 ∨ n ≠ 8 ∨ zone ≠ 0 ∨ va ≠ s.ctxPool ctx then s
  else
    match (s.xlate ctx 0 (va + 8).toNat false false).2 with
    | .ok l _ => s.homeWrite ctx 0 (va + 8) l (full (natLe 8 (leNat (s.readLoc l 8) + 1))) w
    | _ => s

/-- An atomic is performed at its location (R242): the block is bound, the old value sent, later accesses made again where they read too early; a load of its block with a lower LSID that is still to come returns the bytes as they stood before (R209). -/
def State.atomicAt (s : State) (hn tag : Nat) (b : Block) (r : Req) (op n sc : Nat) (v : Quad) (l : Loc) (a : Attr) : State :=
  let h := s.hart hn
  let old := leNat (s.readLoc l n)
  let new := atomicNew op n old v
  if new.isSome && !a.w then s.lateFault hn tag r (accessFault r.idx (some r.lsid) 0x13 r.zone 2 n l.addr r.va true)
  else
    let s1 := match new with
      | some x =>
        (s.homeWrite h.ctxid.toNat r.zone r.va l (full (natLe n x)) (hartWriter hn b.seq)).pooled h.ctxid.toNat r.zone r.va op n (hartWriter hn b.seq)
      | none => s
    let b1 := (({ b.dropReq r.idx with bound := true, seen := b.seen ++ s.seenPieces hn r.lsid r.zone [(r.va.toNat, n)] (s.readLoc l n) }).resolveL
      r.idx (some r.lsid)).arrive h.thalt r.idx r.t0 (atomicToken n old)
    let h1 := ((s1.hart hn).putBlock b1).violate (s1.namesOf hn) tag r.zone r.va n
    s1.settle hn (some (tag, r.idx)) (if sc = 0 then h1 else h1.acquireWork tag)

/-- Every access of the block with a lower LSID has been performed or nullified, or is a store that its commit releases: what an atomic with a scope waits for (R225). -/
def Block.lowerDone (b : Block) (n : Nat) : Bool := (upTo n).all (fun k =>
  !((decoded b.code).any (fun p => lsidOf p.2 == some k)) || b.lsids.contains k)

/-- ATOMIC_PERFORM: An atomic of the oldest block is performed at its home, binding the block (R244). -/
def execAtomicPerform (hart tag idx : Nat) (s : State) : Out :=
  .next (match s.pendingReq hart tag idx with
    | none => s
    | some (b, r) =>
      s.replied hart r (match r.kind with
      | .atomic op n sc v =>
        let h := s.hart hart
        match h.ordNotice b { r with ord := r.ord ||| scopeMask sc } with
        | some x => s.lateFault hart tag r (deferredFault x 0)
        | none =>
        if !h.isOldest tag || !b.lsidTurn r.lsid || h.fenced || !h.drained r.ord then s
        else if sc ≠ 0 ∧ b.lowerDone r.lsid = false then s
        else if sc ≠ 0 ∧ h.anyDirty = true then s.setHart hart h.releaseLines
        else if !h.workDone (scopeMask sc) then s
        else if s.holdsLine hart r.zone r.va.toNat then s.dropOwnLine hart r.zone r.va.toNat
        else if s.postedTouches hart r.zone r.va n then s
        else
          match h.noticeFor r.zone (r.va.toNat / 4096) with
          | some x => s.lateFault hart tag r (deferredFault x 0)
          | none =>
            match (s.countWalk hart r.zone r.va).target h.ctxid.toNat hart r.zone r.va n true (zoneOf r.zone == .host) with
            | (s1, .wait) => s1
            | (s1, .fault c pa) => (s1.learnAt hart r.zone r.va).lateFault hart tag r (accessFault r.idx (some r.lsid) c r.zone 2 n pa r.va true)
            | (s1, .at l a) => if l.snooped s1.dev then s1 else (s1.learnPage hart r.zone r.va l a).atomicAt hart tag b r op n sc v l a
      | _ => s))

/-- A host atomic that the home performs by read and CAS (R245): every kind but AADD, ASWP and the 4- and 8-byte ACAS. -/
def byCas (op n : Nat) : Bool := !(op == 0 || op == 8 || (op == 9 && n != 16))

/-- HOST_ATOMIC_CAS_RETRY: The home repeats a read and CAS at a host location until it succeeds (R245): another agent wrote `other` between the read and the CAS, which fails; the atomic stays pending. -/
def execHostAtomicCasRetry (hart tag idx : Nat) (other : Dbl) (s : State) : Out :=
  .next (match s.pendingReq hart tag idx with
    | none => s
    | some (b, r) =>
      match r.kind with
      | .atomic op n _ _ =>
        let h := s.hart hart
        if !h.isOldest tag || !b.lsidTurn r.lsid || zoneOf r.zone != .host || !byCas op n then s
        else
          match s.xlate h.ctxid.toNat r.zone r.va.toNat true true with
          | (s1, .ok l _) => s1.writeLoc l (full (natLe (Nat.min n 8) other.toNat))
          | (s1, _) => s1
      | _ => s)

end Sys2Proof.Machine
end

