-- ==== Sys2Proof/Machine/Posted.lean ====
section
/-! DEFINITION. What committed blocks have released: posted stores, write-backs, REL items, JADD, spawn and launch posts (R208-R218, R247, R266, R287, R295, R353, R364), the replay queues (R281, R282, R383) and evictions (R223). -/
namespace Sys2Proof.Machine

/-! Replay queues -/

/-- The zone and page an item touches. -/
def PWhat.page (w : PWhat) : Option (Nat × Nat) :=
  match w with
  | .store z a _ => some (z, a.toNat / 4096)
  | .rel z a _ => some (z, a.toNat / 4096)
  | .wback z a _ _ => some (z, a.toNat / 4096)
  | .jadd seg _ => some (0, seg.toNat / 4096)
  | _ => none

def PWhat.isRel (w : PWhat) : Bool :=
  match w with
  | .rel _ _ _ => true
  | _ => false

def PWhat.line (w : PWhat) : Nat :=
  match w with
  | .store _ a _ => a.toNat / 64
  | .rel _ a _ => a.toNat / 64
  | .wback _ a _ _ => a.toNat / 64
  | .jadd seg _ => seg.toNat / 64
  | _ => 0

def Posted.bank (p : Posted) (ctx : Nat) : Option Nat :=
  match p.what.page with
  | some (z, g) => some (bankOf ctx z g)
  | none => none

/-- The item is an entry of its home's replay queue (R281): it waits for its replay, or is a REL whose regions have been written back in its replay and whose WORD is still to be written (R218). -/
def Posted.entry (p : Posted) : Bool := p.status == 1 || p.status == 6

/-- Items of all harts that stand in a bank's queue (status 1) or hold slots (status 2), where the messages that a log refused stand too (R282, R388). -/
def Dev.queued (d : Dev) (bank status : Nat) : Nat :=
  (d.allHarts.map Prod.snd).foldl (fun n h =>
    n + (h.posted.filter (fun q => (if status = 1 then q.entry else q.status == status) && q.bank h.ctxid.toNat == some bank)).length)
    (if status = 2 then (d.heldMsgs.filter (fun x => x.2.2 == some bank)).length else 0)

def Hart.setPosted (h : Hart) (n : Nat) (p : Posted) : Hart := { h with posted := setAt h.posted n p }

def Hart.dropPosted (h : Hart) (n : Nat) : Hart := { h with posted := h.posted.eraseIdx n }

def Hart.addNotice (h : Hart) (n : Notice) : Hart :=
  { h with notices := (h.notices.filter (fun m => !(m.zone == n.zone && m.page == n.page))) ++ [n] }

/-- Notices of pages with no item left in a replay queue or hold slot go (R355). -/
def Hart.settleNotices (h : Hart) : Hart :=
  { h with notices := h.notices.filter (fun n =>
      h.posted.any (fun p => (p.entry || p.status == 2) && p.what.page == some (n.zone, n.page))) }

/-- What a posted item of a hart in a Sepia image brings about is told to the image, where the message joins the arrival log (R355, R388). -/
def State.tellImage (s : State) (hn kind : Nat) (w : PWhat) : State :=
  if hn < 4096 then s
  else
    match s.dev.imageTile hn with
    | some (i, _) => { s with dev := { s.dev with msgs := s.dev.msgs ++ [(i.graph.id, { seg := BitVec.ofNat 64 (64 * w.line), kind := kind })] } }
    | none => s

/-- An item that faults at the home becomes a replay entry; with 64 entries it takes a hold slot, and with 16 of those it is answered with a retry (R281, R282). -/
def State.enterReplay (s : State) (hn n : Nat) (p : Posted) (cause : Nat) : State :=
  let h := s.hart hn
  match p.what.page with
  | none => s
  | some (z, g) =>
    let bank := bankOf h.ctxid.toNat z g
    let occ := s.dev.queued bank 1
    let st := if occ < 64 then 1 else if s.dev.queued bank 2 < 16 then 2 else 3
    let turn := if p.turn = 0 then (h.posted.map Posted.turn).foldl Nat.max 0 + 1 else p.turn
    let h1 := h.setPosted n { p with status := st, cause := cause, turn := turn }
    let notice : Notice := { zone := z, page := g, cls := p.cls % 4, cause := cause, line := p.what.line, seq := p.seq }
    let h2 := if st = 3 then h1
      else match h.noticeFor z g with
        | some _ => h1
        | none => h1.addNotice notice
    let d := s.dev.setHart hn h2
    let s1 : State := { s with dev := if st = 1 then { d with hwm := mset 0 d.hwm bank (Nat.max (mget 0 d.hwm bank) (occ + 1)) } else d }
    if st = 3 then s1 else s1.tellImage hn 2 p.what

/-- The page lies in a descriptor's range (R380). -/
def Watch.touches (w : Watch) (zone page : Nat) : Bool :=
  w.zone.toNat == zone && decide (0 < w.len.toNat) && decide (w.base.toNat / 4096 ≤ page) &&
  decide (page ≤ (w.base.toNat + w.len.toNat - 1) / 4096)

/-- A write-back that the arming of a descriptor has posted still stands (R380). -/
def Dev.arming (d : Dev) (ctx : Nat) (w : Watch) : Bool :=
  d.allHarts.any (fun x => x.2.ctxid.toNat == ctx && x.2.posted.any (fun p => p.quiet &&
    (match p.what.page with
     | some (z, g) => w.touches z g
     | none => false)))

/-- A write-back of arming has gone: descriptors whose arming is complete now have ARMED set (R380). -/
def State.armWatches (s : State) : State :=
  { s with dev := { s.dev with watch := s.dev.watch.map (fun x => (x.1, x.2.map (fun w =>
      if w.en && !w.armed && !s.dev.arming (x.1 / 8) w then { w with armed := true } else w))) } }

/-- Remove a performed item; a hold slot's item takes the freed entry (R282). -/
def State.itemDone (s : State) (hn n : Nat) : State :=
  let s1 := s.setHart hn ((s.hart hn).dropPosted n).settleNotices
  match (s.hart hn).posted[n]? with
  | some p => if p.quiet then (s1.tellImage hn 1 p.what).armWatches else s1.tellImage hn 1 p.what
  | none => s1

/-! Performing items -/

/-- The bytes that an item writes to a place of its own program order (R210). -/
def PWhat.range (w : PWhat) : Option (Nat × Nat × Nat) :=
  match w with
  | .store z a d => some (z, a.toNat, d.length)
  | .rel z a _ => some (z, a.toNat, 8)
  | .jadd seg _ => some (0, (seg + 56).toNat, 8)
  | _ => none

/-- Two stores to the own scratchpad, which keep their order (R190). -/
def ownPair (p q : Posted) : Bool := p.delayed && q.delayed

/-- What item `p` waits for in an earlier item `q` by its place in program order: the same bytes (R210), the stores that a CACHE operation covers, and that operation (R249, R250), a fence that holds stores (R216), the own scratchpad's order (R190), and the order of spawns, of launches and of a line's write-backs (R266, R311). A write-back holds what its line held, so it waits for an earlier write-back of its line alone. -/
def Posted.behind (p q : Posted) : Bool :=
  match p.what with
  | .wback z a _ _ => q.isWback z (lineOf a.toNat)
  | .cache _ _ _ _ =>
    match q.what with
    | .store z a d => p.touches z a.toNat d.length
    | _ => false
  | w =>
    (match w.range with
     | some (z, a, n) => q.touches z a n
     | none => false) ||
    ownPair p q ||
    (match q.what, w with
     | .barrier _ stores, _ => stores
     | .spawn _ _ _ _, .spawn _ _ _ _ => true
     | .launch _, .launch _ => true
     | _, _ => false)

/-- Item `p` waits for the classes of its mask: the ord classes of a store (R211), or release work (R216, R218), and acquire work's write-backs (R216, R219). -/
def Posted.awaits (p q : Posted) : Bool :=
  match p.what with
  | .store _ _ _ => q.inMask p.ord
  | .wback _ _ _ _ => false
  | _ => q.inWork p.ord

/-- An item's turn has come among the earlier ones; `f` names the bytes that they write (R208, R210). -/
def itemTurn (f : Nat → Dbl → Nat × Dbl) (earlier : List Posted) (p : Posted) : Bool :=
  earlier.all (fun q => !p.awaits q && !p.behind q && !(p.renamed f).behind (q.renamed f))

/-- What keeps draining while its core is swapped out (R236, R389): memory writes, JADD, and the fences between them; a push, a launch post or a retirement goes on at restore (R297). -/
def PWhat.drains (w : PWhat) : Bool :=
  match w with
  | .store _ _ _ => true
  | .rel _ _ _ => true
  | .wback _ _ _ _ => true
  | .jadd _ _ => true
  | .cache _ _ _ _ => true
  | .barrier _ _ => true
  | _ => false

/-- Whether an item can be performed where its hart is held: live, or on the shadow side or in a Sepia image, from where memory writes keep draining (R236). -/
def mayDrain (hn : Nat) (w : PWhat) : Bool := decide (hn < 2048) || w.drains

/-- Item `n` of a hart on its way. -/
def State.onItsWay (s : State) (hn n : Nat) : Option Posted :=
  match (s.hart hn).posted[n]? with
  | some p => if (p.status == 0 || p.status == 4 || p.status == 7) && mayDrain hn p.what then some p else none
  | none => none

/-- The item `n` of a hart when it is on its way and its turn has come. -/
def State.readyItem (s : State) (hn n : Nat) : Option Posted :=
  match s.onItsWay hn n with
  | some p => if itemTurn (s.namesOf hn) ((s.hart hn).posted.take n) p then some p else none
  | none => none

/-- Finish a store or write-back, or put it into a replay queue (R210, R281). -/
def finishStore (hn n : Nat) (p : Posted) (r : State × Access) : State :=
  match r with
  | (s1, .bytes _) => s1.itemDone hn n
  | (s1, .fault c _) => s1.enterReplay hn n p c
  | (s1, .wait) => s1

/-- The block that an item comes from. -/
def Posted.asker (p : Posted) : Asker := ⟨p.src.1, p.src.2, p.seq⟩

/-- Stop an item at a fault of the deque engine (R264, R270). -/
def State.stopItem (s : State) (hn n : Nat) (p : Posted) (m : Miss) : State :=
  let h := s.hart hn
  (s.setHart hn (h.setPosted n { p with status := 5 })).dequeFault (placeOfHart hn) h.ctxid.toNat m

/-- The push of a spawn (R266, R287, R353): step 1 at the home once, then the frame. A core that stands frozen takes the fault of a counter that is full once it runs on (R369). -/
def State.performSpawn (s : State) (hn n : Nat) (p : Posted) (entry seg : Dbl) (args : List Dbl) (st : BitVec 5) : State :=
  let h := s.hart hn
  let ctx := h.ctxid.toNat
  let pl := placeOfHart hn
  let frame : Frame := { entry := entry, args := args, parent := seg, status := st, resume := false }
  let push (s : State) : State :=
    match s.pushFrame ctx pl frame.dbls with
    | (s1, true) => s1.setHart hn ((s1.hart hn).dropPosted n)
    | (s1, false) => s1
  if p.status = 4 then push s
  else
    match s.readDbl ctx pl (seg + 56) with
    | (s1, none, c) => s1.stopItem hn n p c
    | (s1, some w, _) =>
      if wordJcount w = 2 ^ 32 - 1 then
        if h.run = .frozen then s1
        else
        let s2 := s1.setHart hn ((s1.hart hn).dropPosted n)
        { s2 with dev := s2.dev.takeSourced hn p.src { plainFault 0x60 0xFFFF with va := seg + 56, late := true, d0 := seg, d1 := 1, seq := some p.seq } }
      else
        match s1.addJcount hn ctx seg 1 p.asker with
        | (s2, ⟨0, _, _⟩) => push (s2.setHart hn ((s2.hart hn).setPosted n { p with status := 4 }))
        | (s2, c) => s2.stopItem hn n p c

/-- WBR and INVR once the stores before them are performed (R249, R250): the write-backs of the covered lines stand in the item's place. -/
def Hart.performCache (h : Hart) (n : Nat) (p : Posted) (inv : Bool) (zone : Option Nat) (a len : Dbl) : Hart :=
  (h.dropPosted n).writeback true inv (cacheHits h.ctxid.toNat p.cls zone a len)

/-- Perform an item that is not a REL (R208, R210, R216, R266, R274, R295, R364). -/
def State.performItem (s : State) (hn n : Nat) (p : Posted) : State :=
  let h := s.hart hn
  let ctx := h.ctxid.toNat
  match p.what with
  | .store z a d => finishStore hn n p (s.storeAs hn z a d p.seq)
  | .wback z a d bad => finishStore hn n p (s.writeBack ctx hn z a d bad p.seq p.quiet)
  | .rel _ _ _ => s
  | .barrier loads _ =>
    s.setHart hn (if loads ∧ p.ord ≠ wbackWork ∧ p.ord ≠ scratchWork then (h.dropPosted n).invalidateLines else h.dropPosted n)
  | .cache inv z a len => s.setHart hn (h.performCache n p inv z a len)
  | .alinv z size va =>
    let s1 := s.setHart hn (h.dropPosted n)
    if zoneOf z = .place then s1
    else { s1 with dev := { s1.dev with inval := s1.dev.inval ++ [{ req := hn, ctx := ctx, zone := z, size := size, va := va }] } }
  | .jadd seg d =>
    match (s.countWalk hn 0 (seg + 56)).addJcount hn ctx seg (sval 32 d.toNat) p.asker with
    | (s1, c) => if c.cause = 0 ∨ c.cause = 0x60 then (s1.learnAt hn 0 (seg + 56)).itemDone hn n else (s1.learnAt hn 0 (seg + 56)).enterReplay hn n p c.cause
  | .spawn e g args st => s.performSpawn hn n p e g args st
  | .launch rec_ =>
    let s1 := s.setHart hn (h.dropPosted n)
    { s1 with dev := { s1.dev with intake := s1.dev.intake ++ [{ op := 0, record := rec_, src := 2, srcN := hn, ctx := some ctx, via := ctx, prio := 0 }] } }
  | .retire seg =>
    match s.endTask hn ctx seg with
    | (s1, ⟨0, _, _⟩) => s1.setHart hn ((s1.hart hn).dropPosted n)
    | (s1, c) => s1.stopItem hn n p c

/-- A store to a page whose earlier stores stand in a replay queue joins them, whether or not it overlaps them (R281): what it waits for besides has come. -/
def State.joinsReplay (s : State) (hn n : Nat) : Option (Posted × Notice) :=
  let h := s.hart hn
  match s.onItsWay hn n with
  | none => none
  | some p =>
    match p.what.page with
    | none => none
    | some (z, g) =>
      match h.noticeFor z g with
      | none => none
      | some x =>
        let earlier := h.posted.take n
        let rest := earlier.filter (fun q => !((q.entry || q.status == 2) && q.what.page == some (z, g)))
        if itemTurn (s.namesOf hn) rest p then some (p, x) else none

/-- The release work of an item (R216, R291): the dirty lines of the context go before it as write-backs, which it then waits for by its classes. -/
def State.releaseWork (s : State) (hn n : Nat) (p : Posted) : State :=
  s.setHart hn ((s.hart hn).setPosted n { p with status := 0 }).releaseLines

/-- POSTED_STORE_PERFORM: A posted store is performed at its target and its class count falls (R210); also a write-back or a CACHE operation (R249, R250), a JADD (R364), a spawn's push (R266), a launch post (R295), a retirement (R274), and the end of a fence's wait (R216) (log 15). -/
def execPostedStorePerform (hart n : Nat) (s : State) : Out :=
  .next ((match s.joinsReplay hart n with
    | some (p, x) => s.enterReplay hart n p x.cause
    | none =>
      match s.readyItem hart n with
      | none => s
      | some p => if p.status = 7 ∧ (s.hart hart).anyDirty = true then s.releaseWork hart n p else s.performItem hart n p).tryLeave hart)

/-- A REL reads its binder and tries its WORD's translation (R218): its regions, a fault, or a wait. -/
inductive RelRead where
  | regions (rs : List (Nat × Nat × Nat))
  | fault (cause : Nat)
  | wait
  deriving DecidableEq, Repr

/-- Step 2's read (R217, R218): a fault of the read, of a region's zone, or of the WORD write to come is found before any region is written back. -/
def State.readBinder (s : State) (ctx hn z : Nat) (a : Dbl) : State × RelRead :=
  match s.target ctx hn z a 64 true true with
  | (s1, .wait) => (s1, .wait)
  | (s1, .fault c _) => (s1.learnAt hn z a, .fault c)
  | (s0, .at l at_) =>
    let s1 := s0.learnPage hn z a l at_
    let rs := binderRegions (s1.readLoc l 64)
    (s1, if rs.any (fun r => zoneOf r.2.2 == .invalid) then .fault 0x10 else .regions rs)

/-- The dirty lines of the regions (R194, R218). -/
def Hart.regionDirty (h : Hart) (rs : List (Nat × Nat × Nat)) : Bool :=
  h.l1d.any (fun l => l.dirty != 0 && rs.any (fun r => inRange h.ctxid.toNat r.2.2 r.1 r.2.1 l))

/-- Step 3 of a REL (R218). -/
def State.writeWord (s : State) (hn : Nat) (p : Posted) (z : Nat) (a v : Dbl) : State × Access :=
  match s.writeHome (s.hart hn).ctxid.toNat hn z a (full (natLe 8 v.toNat)) (hartWriter hn p.seq) with
  | (s1, .bytes bs) => (s1.patchOwn hn z a.toNat (relData v), .bytes bs)
  | r => r

/-- Steps 2 and 3 of a REL (R218): the regions' write-backs go before it, and WORD is written once they are performed. -/
def State.performRel (s : State) (hn n : Nat) (p : Posted) (z : Nat) (a v : Dbl) : State :=
  if p.status = 4 then finishStore hn n p (s.writeWord hn p z a v)
  else
    match s.readBinder (s.hart hn).ctxid.toNat hn z a with
    | (s1, .wait) => s1
    | (s1, .fault c) => s1.enterReplay hn n p c
    | (s1, .regions rs) =>
      if (s1.hart hn).regionDirty rs then
        s1.setHart hn (((s1.hart hn).setPosted n { p with status := 4 }).regionWork false rs)
      else finishStore hn n p (s1.writeWord hn p z a v)

/-- REL_ITEM_PERFORM: A committed REL drains, writes back its regions and writes WORD (R218). -/
def execRelItemPerform (hart n : Nat) (s : State) : Out :=
  .next (match s.joinsReplay hart n with
    | some (p, x) => if p.what.isRel then s.enterReplay hart n p x.cause else s
    | none =>
      match s.readyItem hart n with
      | none => s
      | some p =>
        match p.what with
        | .rel z a v => s.performRel hart n p z a v
        | _ => s)

/-- STORE_RETRY_REOFFER: 256 cycles after a retry reply the agent offers the store again (R282). -/
def execStoreRetryReoffer (hart n : Nat) (s : State) : Out :=
  let h := s.hart hart
  .next (match h.posted[n]? with
    | some p => if p.status = 3 then s.setHart hart (h.setPosted n { p with status := 0 }) else s
    | none => s)

/-! Replay commands (R282, R383) -/

/-- The hart that RPLSEL names: KIND 0 a logical core, 1 an engine hart, with its CTXID. -/
def rplHart (sel : Dbl) : Option (Nat × Nat) :=
  let x := sel.toNat
  match bitsOf x 3 0 with
  | 0 => some (bitsOf x 13 4, bitsOf x 31 20)
  | 1 => some (1024 + bitsOf x 13 4, bitsOf x 31 20)
  | _ => none

/-- The place of posted item `i` in its agent's order of replay. -/
def Hart.turnOf (h : Hart) (i : Nat) : Nat :=
  match h.posted[i]? with
  | some p => p.turn
  | none => 0

/-- Insert by the first number, behind equal ones. -/
def insertTurn (l : List (Nat × Nat)) (e : Nat × Nat) : List (Nat × Nat) :=
  match l with
  | [] => [e]
  | x :: xs => if x.1 ≤ e.1 then x :: insertTurn xs e else e :: x :: xs

/-- The entries of the agent that a value of RPLSEL names in the bank's queue, in sequence, by position in its hart: the hart of that number and context, wherever it is held (R236, R282). -/
def Dev.rplEntries (d : Dev) (bank : Nat) (sel : Dbl) : Option (Nat × List Nat) :=
  match rplHart sel with
  | none => none
  | some (hn, ctx) =>
    let there := [hn, 2048 + hn] ++ d.imageHarts.filter (fun n => isEngine n == isEngine hn && (d.hart n).place.toNat == placeOfHart hn)
    match there.find? (fun n => (d.hart n).ctxid.toNat == ctx) with
    | none => none
    | some n =>
      let h := d.hart n
      some (n, (((upTo h.posted.length).filter (fun i =>
        match h.posted[i]? with
        | some p => p.entry && p.bank ctx == some bank
        | none => false)).map (fun i => (h.turnOf i, i))).foldl insertTurn [] |>.map Prod.snd)

/-- The oldest item in a hold slot of the bank becomes an entry once one is free (R282). -/
def State.promoteHold (s : State) (bank : Nat) : State :=
  if 64 ≤ s.dev.queued bank 1 then s
  else
    match s.dev.allHarts.findSome? (fun x =>
      match (upTo x.2.posted.length).find? (fun i =>
        match x.2.posted[i]? with
        | some p => p.status == 2 && p.bank x.2.ctxid.toNat == some bank
        | none => false) with
      | some i => some (x.1, i)
      | none => none) with
    | some (hn, i) =>
      let h := s.hart hn
      match h.posted[i]? with
      | some p =>
        let d := s.dev.setHart hn (h.setPosted i { p with status := 1 })
        { s with dev := { d with hwm := mset 0 d.hwm bank (Nat.max (mget 0 d.hwm bank) (d.queued bank 1)) } }
      | none => s
    | none => s

def State.setRplrun (s : State) (bank : Nat) (l : List Dbl) : State :=
  { s with dev := { s.dev with rplrun := mset [] s.dev.rplrun bank l } }

/-- The replay of a selection is over at the bank. -/
def State.replayOver (s : State) (bank : Nat) (sel : Dbl) : State := s.setRplrun bank ((mget [] s.dev.rplrun bank).filter (fun x => x != sel))

/-- The write-back that a REL in its replay waits for though it cannot be performed by itself: it has joined the bank's queue behind the REL, stands in a hold slot or awaits its next offer (R218, R281, R282). -/
def Hart.relNeeds (h : Hart) (bank n : Nat) : Option Nat :=
  (upTo n).find? (fun i =>
    match h.posted[i]? with
    | some q => q.what.isWback && decide (1 ≤ q.status) && decide (q.status ≤ 3) && q.bank h.ctxid.toNat == some bank
    | none => false)

/-- What the replay performs when entry `n` has come up: the entry, or first such a write-back that it waits for. -/
def Hart.replayNext (h : Hart) (bank n : Nat) : Nat :=
  match h.posted[n]? with
  | some p => if p.status = 6 then (h.relNeeds bank n).getD n else n
  | none => n

/-- Perform one entry: done, or it faults again and stops the replay (R282). A REL writes its regions back, keeps its entry, and writes WORD once what went before it is performed (R218). The answer says whether it has gone on, or waits. -/
def State.replayOne (s : State) (bank : Nat) (sel : Dbl) (hn n : Nat) (p : Posted) : State × Bool :=
  let h := s.hart hn
  let again (s : State) (c : Nat) : State × Bool :=
    let h := s.hart hn
    let h1 := h.setPosted n { p with cause := c }
    let h2 := match p.what.page with
      | some (z, g) => h1.addNotice { zone := z, page := g, cls := p.cls % 4, cause := c, line := p.what.line, seq := p.seq }
      | none => h1
    ((s.setHart hn h2).replayOver bank sel, true)
  let finish (r : State × Access) : State × Bool :=
    match r with
    | (s1, .bytes _) => ((s1.itemDone hn n).promoteHold bank, true)
    | (s1, .fault c _) => again s1 c
    | (s1, .wait) => (s1, false)
  match p.what with
  | .store z a d => finish (s.storeAs hn z a d p.seq)
  | .wback z a d bad => finish (s.writeBack h.ctxid.toNat hn z a d bad p.seq p.quiet)
  | .rel z a v =>
    if p.status = 6 then (if itemTurn (s.namesOf hn) (h.posted.take n) p then finish (s.writeWord hn p z a v) else (s, false))
    else
    match s.readBinder h.ctxid.toNat hn z a with
    | (s1, .wait) => (s1, false)
    | (s1, .fault c) => again s1 c
    | (s1, .regions rs) =>
      if (s1.hart hn).regionDirty rs then (s1.setHart hn (((s1.hart hn).setPosted n { p with status := 6 }).regionWork false rs), true)
      else finish (s1.writeWord hn p z a v)
  | .jadd seg d =>
    match s.addJcount hn h.ctxid.toNat seg (sval 32 d.toNat) p.asker with
    | (s0, c) =>
      let s1 := s0.learnAt hn 0 (seg + 56)
      if c.cause = 0 ∨ c.cause = 0x60 then ((s1.itemDone hn n).promoteHold bank, true) else again s1 c.cause
  | _ => (s, false)

/-- The first selection of a list whose entry in turn can go on: one whose entry waits holds no other agent's (R282). -/
def State.replayStep (s : State) (bank : Nat) : List Dbl → State
  | [] => s
  | sel :: rest =>
    match s.dev.rplEntries bank sel with
    | some (hn, n :: _) =>
      let k := (s.hart hn).replayNext bank n
      match (s.hart hn).posted[k]? with
      | some p =>
        match s.replayOne bank sel hn k p with
        | (s1, true) => s1
        | (s1, false) => s1.replayStep bank rest
      | none => s.replayOver bank sel
    | _ => s.replayOver bank sel

/-- RPLCMD_REPLAY: A Slate core starts replay of a selected agent's entries (R282). A replay keeps the agent that it was started for; of the replays of several agents the one started first goes on first where its entry does not wait (log 60). -/
def execRplcmdReplay (bank : Nat) (s : State) : Out :=
  let sel := mget 0 s.dev.rplsel bank
  let l := mget [] s.dev.rplrun bank
  .next (match s.dev.rplEntries bank sel with
    | some (_, _ :: _) => if l.contains sel then s else s.setRplrun bank (l ++ [sel])
    | _ => s)

/-- REPLAY_ENTRY_PERFORM: A replay entry is performed in sequence, lowering its class count (R282). -/
def execReplayEntryPerform (bank : Nat) (s : State) : Out :=
  .next (s.replayStep bank (mget [] s.dev.rplrun bank))

/-- RPLCMD_DISCARD: A Slate core discards a selected agent's replay entries (R383). -/
def execRplcmdDiscard (bank : Nat) (s : State) : Out :=
  .next (match s.dev.rplEntries bank (mget 0 s.dev.rplsel bank) with
    | some (hn, is) =>
      let h := s.hart hn
      let kept := (List.zip (upTo h.posted.length) h.posted).filter (fun p => !is.contains p.1)
      ((s.setHart hn ({ h with posted := kept.map Prod.snd }).settleNotices).promoteHold bank).armWatches
    | none => s)

/-- REPLAY_HWM_READ: Reading the high-water mark returns and clears it (R383). -/
def execReplayHwmRead (bank : Nat) (s : State) : Out :=
  .next (({ s with dev := { s.dev with hwm := mset 0 s.dev.hwm bank 0 } } : State).answer (natLe 1 (mget 0 s.dev.hwm bank)))

/-! Homes' own moments -/

/-- L1D_EVICTION: An L1D line is evicted and its dirty nibbles written back (R223); the write-back is counted in no class (R355). -/
def execL1dEviction (hart zone line : Nat) (s : State) : Out :=
  let h := s.hart hart
  .next (match h.findLine h.ctxid.toNat zone line with
    | none => s
    | some l =>
      let h1 := { h with l1d := h.l1d.filter (fun k => !k.same h.ctxid.toNat zone line) }
      s.setHart hart (if l.dirty = 0 then h1 else { h1 with posted := placeWback h1.posted (evictItem h.seq l) }))

/-- One decrement leaves the list: its count falls, or a fault stops the deque engine that it came from with the decrement to be repeated (R274). -/
def State.decrement (s : State) (p : Nat) (d : Dbl × Nat × Bool) : State :=
  let q := s.deque p
  let hn := if d.2.2 then 1024 + p else p
  match (s.setDeque p { q with decs := q.decs.erase d }).addJcount hn d.2.1 d.1 (-1) Asker.none with
  | (s1, c) => if c.cause = 0 ∨ c.cause = 0x60 then s1 else (s1.holdDec d.1 d.2.1 hn).stopEngine p d.2.1 c

/-- A retirement or a resume frame that was held is tried again (R274, R275). -/
def State.redoStep (s : State) (p : Nat) (r : Bool × Dbl × Nat × Bool) : State :=
  let q := s.deque p
  let hn := if r.2.2.2 then 1024 + p else p
  let s0 := s.setDeque p { q with redo := q.redo.erase r }
  if r.1 then s0.pushResume hn r.2.2.1 r.2.1 else s0.retire hn r.2.2.1 r.2.1

/-- The engine of a tile does the next step of R274 or R275 that it holds, unless it stands stopped. -/
def State.dequeStep (s : State) (p : Nat) : State :=
  let q := s.deque p
  if q.stopped then s
  else
    match q.decs, q.redo with
    | d :: _, _ => s.decrement p d
    | [], r :: _ => s.redoStep p r
    | [], [] => s

/-- JCOUNT_DECREMENT: The home decrements a join counter and resumes or retires as the old word gives (R274): each live tile's engine does the next step that it holds. What came from a deque engine that stands stopped waits. -/
def execJcountDecrement (s : State) : Out := .next (s.dev.mts.foldl (fun s x => s.dequeStep x.1) s)

/-- RESUME_FRAME_HANDOFF: The placement unit pushes a resume frame onto the domain's origin core (R275); while the graph is not live the frame goes into its shadow bank or arrival log (R388). -/
def execResumeFrameHandoff (s : State) : Out :=
  .next (match s.dev.resumes with
    | [] => s
    | (seg, g) :: rest =>
      let s0 := { s with dev := { s.dev with resumes := rest } }
      match s0.dev.graph g with
      | none => s0
      | some x =>
        if x.state = 0 then
          let f : Frame := { entry := seg, args := [], parent := 0, status := 0, resume := true }
          match s0.pushFrame x.launch.ctx (s0.dev.origin x) f.dbls with
          | (s1, true) => s1
          | (s1, false) => { s1 with dev := { s1.dev with resumes := s1.dev.resumes ++ [(seg, g)] } }
        else { s0 with dev := { s0.dev with msgs := s0.dev.msgs ++ [(g, { seg := seg })] } })

end Sys2Proof.Machine
end

