-- ==== Sys2Proof/Machine/Block.lean ====
section
/-! DEFINITION. The life of a block (R21-R30, R67, R83-R85, R99, R100, R115-R121, R253, R287-R295, R324, R376, R480): fetch and its checks, the commit conditions and the commit, the return-stack spill, the taking of a fault, and the Slate cores' packet queues (R283). -/
namespace Sys2Proof.Machine

/-! Fetch checks (R83): each gives the offending word -/

/-- The first number below `n` for which `p` holds. -/
def firstWord (n : Nat) (p : Nat → Bool) : Option Nat := (upTo n).find? p

/-- Check 1: the format byte, reserved bits, invalid slots (R68, R70, R71). -/
def badHeader (hdr : List Word) : Option Nat :=
  firstWord 32 fun k =>
    let x := wordAt hdr k
    if k = 0 then bitsOf x 31 24 != 0xA5 || bitsOf x 18 0 != 0
    else if k < 3 then false
    else if k < 11 then
      let half (y : Nat) : Bool := if bitOf y 15 then bitsOf y 14 8 != 0 else y != 0
      half (x % 2 ^ 16) || half (x / 2 ^ 16)
    else if k < 27 then (if bitOf x 31 then bitsOf x 4 0 != 0 else x != 0)
    else x != 0

/-- The registers a write slot and a read slot may name (R72). -/
def writeName (r : Nat) : Bool := decide (r < 0x40) || (decide (0x48 ≤ r) && decide (r < 0x54))
def readName (r : Nat) : Bool := decide (r < 0x48) || (decide (0x50 ≤ r) && decide (r < 0x54))

/-- Check 3: register names; of two write slots of one register the later offends (log 16). -/
def badNames (hdr : List Word) : Option Nat :=
  let ws := writeSlots hdr
  firstWord 27 fun k =>
    if k < 3 then false
    else if k < 11 then
      ws.any (fun p => (3 + p.1 / 2 == k) && (!writeName p.2 || ws.any (fun q => decide (q.1 < p.1) && q.2 == p.2)))
    else (readSlots hdr).any (fun r => (11 + r.k == k) && !readName r.reg)

/-- Check 4: words that are not instructions (R79-R82). -/
def badWord (engine : Bool) (code : List Word) : Option Nat :=
  (firstWord code.length fun i =>
    let w := code.getD i 0
    if w = 0 then false
    else
      match decodeWord w with
      | none => true
      | some x => engine && engineForbids x).map (32 + ·)

/-- The index of the last instruction, plus one (R74). -/
def lastInstr (code : List Word) : Nat := (code.reverse.dropWhile (fun w => w == 0)).length

/-- Check 5 on one target (R73). -/
def badSlotTarget (hdr : List Word) (t : BitVec 9) : Bool :=
  let x := t.toNat
  x % 4 == 3 && t != noTarget && !((writeSlots hdr).any (fun p => p.1 == x / 4))

/-- The operand kinds of an instruction (R76). -/
def hasOperand (i : Instr) (kind : Nat) : Bool :=
  if kind = 2 then predField i != 0 else decide (kind < operandCount i)

/-- Check 6 on one target (R74, R76). -/
def badOperandTarget (code : List Word) (t : BitVec 9) : Bool :=
  let x := t.toNat
  x % 4 != 3 &&
  (decide (lastInstr code ≤ x / 4) ||
    (match decodeWord (code.getD (x / 4) 0) with
     | none => true
     | some i => !hasOperand i (x % 4)))

/-- The first word one of whose targets fails `bad`. -/
def badTarget (hdr code : List Word) (bad : BitVec 9 → Bool) : Option Nat :=
  match (readSlots hdr).find? (fun r => bad r.t0 || bad r.t1) with
  | some r => some (11 + r.k)
  | none =>
    match (decoded code).find? (fun p => (targetsOf p.2).any bad) with
    | some p => some (32 + p.1)
    | none => none

/-- Check 7: identifiers and masks (R69). -/
def badIds (hdr code : List Word) : Option Nat :=
  let is := decoded code
  let held (f : Instr → Option Nat) (n : Nat) : Bool := is.any (fun p => f p.2 == some n)
  if (upTo 32).any (fun n => bitOf (hdrStoreMask hdr) n && !held lsidOf n) then some 1
  else if (upTo 32).any (fun n => bitOf (hdrVecMask hdr) n && !held vsidOf n) then some 2
  else
    match is.find? (fun p =>
      (match lsidOf p.2 with | some n => !bitOf (hdrStoreMask hdr) n | none => false) ||
      (match vsidOf p.2 with | some n => !bitOf (hdrVecMask hdr) n | none => false)) with
    | some p => some (32 + p.1)
    | none => none

/-- Every target the block names. -/
def allTargets (hdr code : List Word) : List (BitVec 9) :=
  (readSlots hdr).flatMap (fun r => [r.t0, r.t1]) ++ (decoded code).flatMap (fun p => targetsOf p.2)

/-- Check 8: write slots and operands that nothing targets. -/
def unTargeted (hdr code : List Word) : Option Nat :=
  let ts := (allTargets hdr code).map BitVec.toNat
  match (writeSlots hdr).find? (fun p => !ts.contains (4 * p.1 + 3)) with
  | some p => some (3 + p.1 / 2)
  | none =>
    match (decoded code).find? (fun p => (upTo 3).any (fun k => hasOperand p.2 k && !ts.contains (4 * p.1 + k))) with
    | some p => some (32 + p.1)
    | none => none

/-- The offending word of a fetched block, 0xFFFF when no word offends (R83, R84). -/
def formatFault (engine : Bool) (hdr code : List Word) : Option Nat :=
  (badHeader hdr).or <|
  (if hdrEng hdr = engine then none else some 0).or <|
  (badNames hdr).or <|
  (badWord engine code).or <|
  (badTarget hdr code (badSlotTarget hdr)).or <|
  (badTarget hdr code (badOperandTarget code)).or <|
  (badIds hdr code).or <|
  (unTargeted hdr code).or <|
  (if (decoded code).any (fun p => isBranch p.2) then none else some 0xFFFF)

/-! Fetch (R22, R67, R85, R195) -/

/-- What a fetch of a header or a row finds. -/
inductive Fetched where
  | words (ws : List Word)
  | fault (f : FaultRec)
  | wait
  deriving DecidableEq, Repr

/-- The words of a run of bytes. -/
def wordsOf (n : Nat) (bs : List Byte) : List Word :=
  (upTo n).map (fun i => BitVec.ofNat 32 (leNat ((bs.drop (4 * i)).take 4)))

/-- The newest entries of the block cache whose bytes fit its size, of the list newest first (R195). -/
def fitCache : Nat → List (Nat × Nat × List Word) → List (Nat × Nat × List Word)
  | _, [] => []
  | room, e :: es => if 4 * e.2.2.length ≤ room then e :: fitCache (room - 4 * e.2.2.length) es else []

/-- A header or row joins the block cache of 256 KiB per XT (R187, R195); the oldest entries are evicted for it (log 52). -/
def Hart.keepCode (h : Hart) (e : Nat × Nat × List Word) : Hart :=
  { h with bcache := (fitCache (262144 * Nat.max h.cwidth.toNat 1) (e :: h.bcache.reverse)).reverse }

/-- Fetch `n` words through the block cache (R85, R195); a failure is the instruction-fetch fault, or uncorrectable data (R67, R203). X is checked on every fetch, in the lookaside or at the home (R67, R196, R350); a cached header or row gives the bytes it was filled with until an IBAR (log 52). -/
def State.fetchPart (s : State) (hn : Nat) (va : Dbl) (n : Nat) : State × Fetched :=
  let h := s.hart hn
  let ctx := h.ctxid.toNat
  let bad (cause pa : Nat) : Fetched :=
    if cause = 0x17 then
      .fault { plainFault 0x17 0xFFFF with va := va, late := true, d0 := BitVec.ofNat 64 pa, d1 := accessDetail 3 (4 * n) pa }
    else .fault { plainFault 0x02 0xFFFF with va := va }
  let cached := h.bcache.find? (fun e => e.1 == ctx && e.2.1 == va.toNat && (e.2.2.length == n || e.2.2.length == n + 1))
  let hit (e : Nat × Nat × List Word) : Fetched := if e.2.2.length = n then .words e.2.2 else bad 0x17 0
  match h.lookup 0 (va.toNat / 4096), cached with
  | some a, some e => (s, if a.x then hit e else bad 0x13 0)
  | _, _ =>
    match (s.countWalk hn 0 va).xlate ctx 0 va.toNat false false with
    | (s1, .wait) => (s1, .wait)
    | (s1, .fault c) => (s1, bad c (walkAddr c))
    | (s1, .ok l a) =>
      let s2 := s1.learn hn 0 (va.toNat / 4096) a
      if !a.x then (s2, bad 0x13 l.addr)
      else
        match cached with
        | some e => (s2, hit e)
        | none =>
          if l.uncorr s2.dev (4 * n) then (s2, bad 0x17 l.addr)
          else
            let ws := wordsOf n (s2.readLoc l (4 * n))
            (s2.setHart hn ((s2.hart hn).keepCode (ctx, va.toNat, ws)), .words ws)

/-- The rows of a block from its first, `n` of them. -/
def State.fetchRows (s : State) (hn : Nat) (va : Dbl) : Nat → State × Fetched
  | 0 => (s, .words [])
  | n + 1 =>
    match s.fetchPart hn va 16 with
    | (s1, .words ws) =>
      match s1.fetchRows hn (va + 64) n with
      | (s2, .words xs) => (s2, .words (ws ++ xs))
      | r => r
    | r => r

/-- The address to fetch next (R27, R115): the committed next block, where the youngest block's branch leads, or else a guess of the predictor. -/
def Hart.fetchAddr (h : Hart) (guess : Option Dbl) : Option Dbl :=
  match h.blocks.getLast? with
  | none => some h.next
  | some b =>
    match b.branch with
    | some (_, .goto a) => some a
    | some (_, .call a _) => some a
    | some (_, .ret a _) => some a
    | some (_, .join a) => some a
    | some _ => none
    | none =>
      match guess with
      | some a => if (a &&& 0x7F) == 0 then some a else none
      | none => none

/-- The hart stands in a rectangle in drain mode, where none fetches (R396). -/
def State.draining (s : State) (hn : Nat) : Bool :=
  match s.dev.drain with
  | none => false
  | some x =>
    match s.dev.graph x.graph with
    | some g => g.contains (placeClu hn) (placeRow hn) (placeCol hn)
    | none => false

/-- Whether the hart may fetch now (R21, R28, R32, R251, R336, R376). -/
def State.mayFetch (s : State) (hn : Nat) : Bool :=
  let h := s.hart hn
  h.run == .running && !h.thalt && !h.halting && !h.leaving && h.susp.isNone && h.reserve.isNone && h.pending.isEmpty &&
  !(h.blocks.any (fun b => b.nospec)) &&
  !(h.posted.any (fun p => match p.what with
    | .barrier false false => true
    | .alinv _ _ _ => true
    | _ => false)) &&
  !(s.dev.inval.any (fun i => i.req == hn || (h.graph != 0 && i.req == 4096 + h.graph))) &&
  !s.draining hn

/-- A block as it is mapped (R21, R357). -/
def mappedBlock (h : Hart) (tag : Nat) (addr : Dbl) (hdr code : List Word) (fs : List FaultRec) : Block :=
  let seq := h.seq + h.blocks.length
  let twice := h.violated.any (fun x => x.1 == addr && x.2.1 == seq && decide (2 ≤ x.2.2))
  { tag := tag, addr := addr, hdr := hdr, code := code, seq := seq, injected := [], pops := [], toks := [],
    fired := [], lsids := [], vsids := [], branch := none, faults := fs, reqs := [], stores := [], effs := [],
    vec := none, seen := [], breaks := [], bound := false, sr := false, spilled := false,
    nospec := hdrNspec hdr || twice, book := none }

/-- Put a fetched block in flight and inject its read slots (R22, R99). -/
def State.mapBlock (s : State) (hn tag : Nat) (addr : Dbl) (hdr code : List Word) (fs : List FaultRec) : State :=
  let h := s.hart hn
  let h1 := { h with blocks := h.blocks ++ [mappedBlock h tag addr hdr code fs] }
  ((s.setHart hn h1).settle hn none h1).injectPorts hn

/-- Fetch the block at an address (R67, R83, R84): its fault, if any, is recorded against it and nothing of it fires. Every row that NROW counts is fetched before the checks, so that a row that cannot be fetched gives cause 0x02 although the header also fails a check (log 52). -/
def State.fetchBlock (s : State) (hn tag : Nat) (addr : Dbl) : State :=
  match s.fetchPart hn addr 32 with
  | (s1, .wait) => s1
  | (s1, .fault f) => s1.mapBlock hn tag addr [] [] [f]
  | (s1, .words hdr) =>
    match s1.fetchRows hn (addr + 128) (hdrRows hdr) with
    | (s2, .wait) => s2
    | (s2, .fault f) => s2.mapBlock hn tag addr [] [] [f]
    | (s2, .words code) =>
      match formatFault (isEngine hn) hdr code with
      | some w => s2.mapBlock hn tag addr [] [] [plainFault 0x01 w]
      | none => s2.mapBlock hn tag addr hdr code []

/-- BLOCK_FETCH: A core or engine hart fetches a block, checks it and injects read-slot tokens (R83). -/
def execBlockFetch (hart : Nat) (guess : Option Dbl) (s : State) : Out :=
  let h := s.hart hart
  .next (if s.mayFetch hart then
      match h.fetchAddr guess, h.freeTag with
      | some a, some t => s.fetchBlock hart t a
      | _, _ => s.injectPorts hart
    else s.injectPorts hart)

/-! The commit conditions (R25, R100, R117, R174, R183, R270, R287) -/

def Eff.isSpawn : Eff → Bool
  | .spawn _ _ => true
  | _ => false

def Block.yields (b : Block) : Bool :=
  match b.branch with
  | some (_, .yield _) => true
  | _ => false

/-- A store to the own scratchpad is performed at its block's commit, so that the commit waits for its page (R192, R208), for its ord classes (R211), for a fence of an older block (R216) and for an older block's store that is still delayed (R190, log 55). -/
def State.scratchTurn (s : State) (hn : Nat) (t : St) : Bool :=
  if ownScratch t.zone t.va && !t.rel then
    (match s.dev.scratchLoc hn t.va t.data.length with
     | some (p, off) => s.pageReady hn p off t.data.length
     | none => true) && (s.hart hn).drained t.ord && !(s.hart hn).storesHeld && !(s.hart hn).posted.any Posted.delayed
  else true

/-- The waits at commit (R100, R174, R192, R208, R211, R216, R270, R287, R324): room in every pushed port with no MSTO entry before it, no older change of a port that it pushes to still waiting, no release fence before a push, the own scratchpad's stores ready, no faulted spill before a spawn, or before the resume frame that a YIELD pushes (R292). -/
def State.commitRoom (s : State) (hn : Nat) (b : Block) : Bool :=
  let h := s.hart hn
  let p := placeOfHart hn
  let q := s.deque p
  b.pushes.all (fun x =>
    decide ((s.port p x.1).q.length < 16) && !(h.mout.any (fun o => o.live && o.port == x.1)) &&
    !((s.mt p).waits x.1)) &&
  (b.pushes.isEmpty || !h.storesHeld) &&
  b.stores.all (s.scratchTurn hn) &&
  !((b.effs.any (fun e => e.2.isSpawn) || b.yields) && q.spillf && q.isFull)

/-- The oldest block when it can commit but for what its own branch asks (R25). -/
def State.committing (s : State) (hn : Nat) : Option (Block × Nat × Branch) :=
  let h := s.hart hn
  if h.run != .running || h.thalt then none
  else
    match h.blocks with
    | [] => none
    | b :: _ =>
      match b.branch with
      | some (i, br) => if b.complete && s.commitRoom hn b then some (b, i, br) else none
      | none => none

/-! Effects at commit -/

def insertEff (l : List (Nat × Eff)) (e : Nat × Eff) : List (Nat × Eff) :=
  match l with
  | [] => [e]
  | x :: xs => if x.1 ≤ e.1 then x :: insertEff xs e else e :: x :: xs

/-- Effects in instruction order (R287). -/
def sortEffs (l : List (Nat × Eff)) : List (Nat × Eff) := l.foldl insertEff []

/-- The slot and the address of the oldest block, which commits. -/
def Hart.source (h : Hart) : Nat × Dbl :=
  match h.blocks with
  | b :: _ => (b.tag, b.addr)
  | [] => (0, h.next)

def Hart.post (h : Hart) (cls ord : Nat) (w : PWhat) : Hart :=
  { h with posted := h.posted ++ [{ cls := cls, ord := ord, what := w, status := 0, seq := h.seq, cause := 0, src := h.source }] }

/-- Post an item that carries release work: the lines dirty when its turn comes are written back before it (R216, R291). -/
def Hart.postRelease (h : Hart) (cls ord : Nat) (w : PWhat) : Hart :=
  { h with posted := h.posted ++ [{ cls := cls, ord := ord, what := w, status := 7, seq := h.seq, cause := 0, src := h.source }] }

/-- Release one store of a committing block (R208, R210, R218): a store to the own scratchpad is performed now, every other is posted in its class. One that must follow a store of its own block in a class that its ord names, which this commit has only just released, follows it, uncounted (R211, log 55). -/
def State.commitStore (s : State) (hn : Nat) (t : St) : State :=
  let h := s.hart hn
  if t.rel then s.setHart hn (h.post (classOfZone t.zone) 7 (.rel t.zone t.va (BitVec.ofNat 64 (leNat (t.data.map Prod.fst)))))
  else if ownScratch t.zone t.va then
    let later := s.setHart hn (h.post 4 t.ord (.store t.zone t.va t.data))
    if !h.drained t.ord || h.posted.any Posted.delayed then later
    else
      match s.storeAs hn t.zone t.va t.data h.seq with
      | (s1, .bytes _) => s1
      | _ => later
  else s.setHart hn (h.post (classOfZone t.zone) t.ord (.store t.zone t.va t.data))

/-- A fence starts its work (R216): the release work and the drain hold younger accesses; an acquire fence does its acquire work at once, a full fence when its release work is done. Younger loads that were early are made again. Core scope orders accesses to the own scratchpad alone: the writes there that are still to be made come first, and early loads of it are made again. Whether a fence with acquire work in a block older than a popping one orders the loads after the pop is not said beyond R216 (R228): what its "before" and "after" give is all that it orders (DESIGN CHOICE, log 60). A store-store fence posts the barrier of a release fence, so that the younger port pushes, spawns, launches, engine accesses and atomics wait for it as well (DESIGN CHOICE, log 64). -/
def Hart.startFence (h : Hart) (tag kind sc : Nat) : Hart :=
  if sc = 0 then
    let h1 := if kind ≤ 1 then h.redoLoads tag (fun x => ownScratch x.zone x.va) else h
    if kind = 1 ∨ h1.posted.any Posted.toScratch = false then h1
    else h1.post 3 scratchWork (.barrier (kind == 0) true)
  else
    match kind with
    | 0 => (h.releaseLines.acquireWork tag).postRelease 3 (scopeMask sc) (.barrier true true)
    | 1 => h.acquireWork tag
    | 2 => h.postRelease 3 (scopeMask sc) (.barrier false true)
    | _ => h.post 3 (scopeMask sc) (.barrier false true)

/-- WBR and INVR (R249, R250): the operation follows the stores of its own and older blocks, counted in the class of its zone until its write-backs are; with a length above 2^30 it covers the lines of every zone, so one operation of class B and one of class C do it. Loads of younger blocks that were too early for an INVR are made again. -/
def Hart.cacheOp (h : Hart) (tag : Nat) (inv : Bool) (zone : Nat) (a len : Dbl) : Hart :=
  if zoneOf zone = .place ∨ len = 0 then h
  else
    let all : Bool := decide (2 ^ 30 < len.toNat)
    let h1 := if all then (h.post 1 0 (.cache inv none a len)).post 2 0 (.cache inv none a len)
      else h.post (classOfZone zone) 0 (.cache inv (some zone) a len)
    if !inv then h1
    else
      h1.redoLoads tag (fun x =>
        all || (x.zone == zone && overlaps (a.toNat / 64 * 64) (a.toNat % 64 + len.toNat + 63) x.va.toNat x.base.length))

/-- IBAR (R251): the fetch waits behind the drain of classes B and C. -/
def Hart.fetchBarrier (h : Hart) (tag : Nat) : Hart :=
  let h1 := h.discardYounger tag
  { h1 with bcache := h1.bcache.filter (fun e => e.1 != h1.ctxid.toNat) }.postRelease 3 6 (.barrier false false)

/-- The release work of a TASKEND: a deferred store it meets freezes the core at the commit (R216, R281, R291). An engine hart has no segment and no such work (R305). -/
def Hart.endRelease (h : Hart) (hn : Nat) (br : Branch) : Hart :=
  match br with
  | .taskend => if isEngine hn then h else h.postRelease 3 7 (.barrier false false)
  | _ => h

/-- A system register takes its written value (R105, R137). -/
def Dev.writeSys (d : Dev) (hn : Nat) (h : Hart) (sel : Nat) (v : Dbl) : Hart :=
  let x := d.sysWritten hn h sel v
  match sel with
  | 0 => { h with status := x.setWidth 5 }
  | 2 => if isEngine hn then h else { h with vec := { h.vec with vtype := x.setWidth 4 } }
  | 3 => { h with stklim := x }
  | 8 => { h with srstate := x.setWidth 32 }
  | _ => h

/-- PCFG (R365). -/
def Hart.configCounter (h : Hart) (n : Nat) (c : Dbl) : Hart :=
  { h with pcfg := mset 0 h.pcfg n (c.setWidth 9), pcnt := if c.getLsbD 9 then mset 0 h.pcnt n 0 else h.pcnt }

/-- Zero the m-registers of a mask, over all their elements (R168). -/
def Hart.zeroRegs (h : Hart) (mask : Nat) : Hart :=
  { h with m := pickRegs mask [] h.m, mtag := pickTags mask [] h.mtag }

/-- MZERO (R168): registers with an operation outstanding are zeroed at its completion. -/
def Hart.mzero (h : Hart) (mask : Nat) : Hart :=
  let now := mask - (mask &&& h.busy.toNat)
  { h.zeroRegs now with zeroes := h.zeroes ||| (BitVec.ofNat 8 mask &&& h.busy) }

/-- The five argument registers (R287). -/
def Hart.args (h : Hart) : List Dbl := (upTo 5).map (fun i => h.reg (8 + i))

/-- One effect of a committing block on its core; port changes join those that wait at the MT (R174). Effects follow the order of their instructions, so that of two MTSCL of one mk, or of two MSHAPE, in one block the one with the higher index stands (log 50). -/
def Hart.applyEff (h : Hart) (hn tag : Nat) (e : Eff) : Hart :=
  match e with
  | .wrsys _ _ => h
  | .wrsysNull _ => h
  | .fence kind sc => h.startFence tag kind sc
  | .cache inv z a len => h.cacheOp tag inv z a len
  | .ibar => h.fetchBarrier tag
  | .lncfg _ _ _ _ => h
  | .chcfg _ _ _ _ _ => h
  | .chcfgAge _ _ => h
  | .chclr _ _ => h
  | .spawn entry seg => h.postRelease 3 3 (.spawn entry seg h.args h.status)
  | .width hint => { h with whint := hint }
  | .launch rec_ => h.postRelease 3 7 (.launch rec_)
  | .jadd sc seg x => if sc = 0 then h.post 1 0 (.jadd seg x) else h.postRelease 1 (scopeMask sc) (.jadd seg x)
  | .pcfg n c => if isEngine hn then h else h.configCounter n c
  | .cbld _ => h
  | .alinv z size a => (h.discardYounger tag).postRelease 3 7 (.alinv z size a)
  | .mshape r c => { h with mrows := BitVec.ofNat 6 r, mcols := BitVec.ofNat 9 c }
  | .mzero mask => h.mzero mask
  | .mtscl k ta tb => { h with mscale := mset scaleOne (mset scaleOne h.mscale (2 * k) ta) (2 * k + 1) tb }

/-- CBLD's bytes reach the context's codebook (R341): its slot at CBOOK, whatever that address is, and every XT that holds the context. -/
def State.storeBook (s : State) (ctx : Nat) (bs : List Byte) : State :=
  let s1 := s.writeLoc (.dev (descDbl (s.descriptor ctx) 40)) (full bs)
  { s1 with dev := { s1.dev with books := (s1.dev.books.filter (fun b => b.1 != ctx)) ++
      [(ctx, (upTo 256).map (fun j => leNat ((bs.drop (4 * j)).take 4)))] } }

/-! The commit (R25, R115-R118) -/

/-- The push of CALL (R117): with eight resident entries, entry 0 has been spilled. -/
def Hart.pushReturn (h : Hart) (a : Dbl) : Hart :=
  if h.rstk.length < 8 then { h with rstk := h.rstk ++ [a] }
  else { h with rstk := h.rstk.drop 1 ++ [a], spilled := h.spilled + 1 }

/-- The pop of RET (R118). The popped position, now at or above RES, reads as a Slate register write last left it, or 0, and a later rise of RES shows that: not the popped address (R116 is silent, DESIGN CHOICE, log 60). -/
def Hart.popReturn (h : Hart) (spilled : Bool) : Hart :=
  if spilled then { h with spilled := h.spilled - 1 } else { h with rstk := h.rstk.dropLast }

/-- The next-block address and the return stack (R114-R118); how the task leaves. -/
def Hart.takeBranch (h : Hart) (br : Branch) : Hart :=
  match br with
  | .goto a => { h with next := a }
  | .call a ra => { h.pushReturn ra with next := a }
  | .ret a sp => { h.popReturn sp with next := a }
  | .scall a _ => { h with next := a }
  | .taskend => { h with leaving := true }
  | .yield c => { h with next := c, susp := some (c, true) }
  | .join c => { h with next := c, susp := some (c, false) }

/-- Register values of the write slots (R24, R97). -/
def Hart.commitRegs (h : Hart) (b : Block) : Hart :=
  (writeSlots b.hdr).foldl (fun h p =>
    match b.tok (4 * p.1 + 3) with
    | some k => if k.null || !isPlainReg p.2 then h else h.setReg p.2 k.lo
    | none => h) h

/-- The vector context, WRSYS and SRSTATE (R55, R105, R139). -/
def Dev.commitState (d : Dev) (hn : Nat) (h : Hart) (b : Block) : Hart :=
  let h1 := { h with vec := b.vecOver h.vec }
  let h2 := if b.sr && !b.wroteSys 8 then { h1 with srstate := BitVec.ofNat 32 (sstep h1.srstate.toNat) } else h1
  (sortEffs b.effs).foldl (fun h e => match e.2 with | .wrsys sel v => d.writeSys hn h sel v | _ => h) h2

/-- The waiting changes of a port at an MT (R174). -/
def Mt.waitCount (m : Mt) (n : Nat) : Nat := (m.waiting.filter (fun e => e.2.1.portOf == some n)).length

/-- The block leaves: its slot is free, its checkpoint is dropped, its MSTO snapshots may push, each after the changes of its port that older blocks of the tile `m` still have waiting, and it is counted (R21, R164, R174, R182, R357, R359). -/
def Hart.retireBlock (h : Hart) (m : Mt) (b : Block) : Hart :=
  { h.count 2 1 with blocks := h.blocks.filter (fun c => c.tag != b.tag), ckpt := none, seq := h.seq + 1, came := (b.tag, b.addr, b.seq),
                     violated := h.violated.filter (fun x => decide (h.seq < x.2.1)),
                     mout := h.mout.map (fun (o : MOut) => if o.live then o else { o with live := true, behind := m.waitCount o.port }) }

/-- Younger blocks fetched on another address go; after a block that leaves the task, a supervisor call or a fired BREAK, all go (R27, R115, R120, R121). -/
def Hart.keepPath (h : Hart) (b : Block) (br : Branch) : Hart :=
  let none' : Bool := !b.breaks.isEmpty || (match br with
    | .scall _ _ => true
    | .taskend => true
    | .yield _ => true
    | .join _ => true
    | _ => false)
  match h.blocks with
  | [] => h
  | c :: _ => if none' || c.addr != h.next then h.discardAll else h

/-- The freeze that follows a commit (R120, R121, R376, R381): supervisor call, break, watchpoint, halt, step. A block in which an SCALL and a BREAK have both fired freezes once, for the supervisor call (log 50). -/
def stopAfter (h : Hart) (b : Block) (idx : Nat) (br : Branch) : Option FaultRec :=
  match br with
  | .scall _ num => some { plainFault 0x70 (32 + idx) with d0 := num }
  | _ =>
    match b.breaks with
    | x :: xs => some (plainFault 0x71 (32 + xs.foldl Nat.min x))
    | [] =>
      match h.pending with
      | f :: _ => some f
      | [] =>
        if h.halting then some (plainFault 0x74 0xFFFF)
        else if h.stepping then some (plainFault 0x75 0xFFFF)
        else none

/-- A running hart whose TASKEND has committed leaves: an engine hart returns to idle (R305), a core does the steps of R278. -/
def State.finishLeave (s : State) (hn : Nat) : State :=
  let h := s.hart hn
  if !h.leaving || h.run != .running then s
  else if isEngine hn then s.setHart hn { h with run := .idle, leaving := false, blocks := [] }
  else s.tryLeave hn

/-- Commit the oldest block: all its effects at one step (R25, R30). Its PCFG configure the counters before the commit itself is counted, which R365 leaves open (DESIGN CHOICE, log 63). -/
def State.commitBlock (s : State) (hn : Nat) (b : Block) (idx : Nat) (br : Branch) : State :=
  let p := placeOfHart hn
  let nm := statusNmode (s.hart hn).status
  let s1 := b.pushes.foldl (fun s x => s.pushEntry p x.1 { val := x.2, null := false, nmode := nm, tag := 0, scl := [], epoch := none }) s
  let s2 := s1.commitPops p b.pops
  let s3 := s2.setHart hn (s2.dev.commitState hn ((s2.hart hn).commitRegs b) b)
  let s4 := (sortStores b.stores).foldl (fun s t => s.commitStore hn t) s3
  let effs := sortEffs b.effs
  let s4' := effs.foldl (fun s e => match e.2 with | .pcfg n _ => s.holdCounter hn n | _ => s) s4
  let s5 := s4'.setHart hn (effs.foldl (fun h e => h.applyEff hn b.tag e.2) (s4'.hart hn))
  let s6 := effs.foldl (fun s e => match e.2 with | .cbld bs => s.storeBook (s.hart hn).ctxid.toNat bs | _ => s) s5
  let s6' : State := match br with
    | .taskend => { s6 with dev := s6.dev.lapse hn }
    | .yield _ => { s6 with dev := s6.dev.lapse hn }
    | .join _ => { s6 with dev := s6.dev.lapse hn }
    | _ => s6
  let h7 := ((((s6'.hart hn).takeBranch br).endRelease hn br).retireBlock (s6'.mt p) b).keepPath b br
  let s7 := ((s6'.setHart hn h7).addWaiting hn nm effs).runWaiting p
  let s8 := s7.settle hn none (s7.hart hn)
  let s9 := s8.lookPorts p
  match stopAfter (s9.hart hn) b idx br with
  | some f =>
    let s10 := s9.setHart hn { s9.hart hn with pending := if f.cause = 0x73 then (s9.hart hn).pending.drop 1 else (s9.hart hn).pending }
    { s10 with dev := s10.dev.takeFault hn (some b) f false }
  | none => s9.finishLeave hn

/-- Live engine state of the anchor MT when a JOIN or YIELD block is oldest (R290). -/
def State.liveState (s : State) (hn : Nat) : Bool :=
  let m := s.mt (placeOfHart hn)
  ageMask m != 0 || portMask m (fun q => !q.q.isEmpty) != 0 || portMask m (fun q => q.bind != 0) != 0

/-- Record the live-engine-state fault against the oldest block (R290, R374). -/
def State.liveFault (s : State) (hn : Nat) (b : Block) (idx : Nat) : State :=
  let h := s.hart hn
  s.setHart hn (h.putBlock (b.fault 0x30 idx (liveWord h (s.mt (placeOfHart hn))) 0))

/-- A CALL with a full return stack whose spill has not been performed (R117). -/
def needsSpill (h : Hart) (b : Block) (br : Branch) : Bool :=
  match br with
  | .call _ _ => decide (8 ≤ h.rstk.length) && !b.spilled
  | _ => false

/-- The replay notice that a block meets at its commit (R281): a store or a JADD to the page, an ord wait of a store to the own scratchpad, and for a TASKEND any notice. -/
def Hart.commitNotice (h : Hart) (b : Block) (br : Branch) : Option Notice :=
  match br with
  | .taskend => h.notices.head?
  | _ =>
    (b.stores.findSome? (fun t =>
      if ownScratch t.zone t.va && !t.rel then h.noticeIn t.ord else h.noticeFor t.zone (t.va.toNat / 4096))).or
    (b.effs.findSome? (fun e => match e.2 with
      | .jadd _ seg _ => h.noticeFor 0 ((seg + 56).toNat / 4096)
      | _ => none))

/-- The oldest block commits unless it meets a replay notice, which freezes the core (R281). -/
def State.commitOrFreeze (s : State) (hn : Nat) (b : Block) (idx : Nat) (br : Branch) : State :=
  match (s.hart hn).commitNotice b br with
  | some n => { s with dev := s.dev.takeFault hn (some b) (deferredFault n 0xFFFF) false }
  | none => s.commitBlock hn b idx br

/-- BLOCK_COMMIT: The oldest block meeting every commit condition commits all its effects at one step (R25). A JOIN commits in JOIN_WORD_READ (R289). -/
def execBlockCommit (hart : Nat) (s : State) : Out :=
  .next (match s.committing hart with
    | none => s
    | some (b, idx, br) =>
      let h := s.hart hart
      match br with
      | .join _ => s
      | .taskend => if h.busy ≠ 0 then s else s.commitOrFreeze hart b idx br
      | .yield _ => if s.liveState hart then s.liveFault hart b idx else s.commitOrFreeze hart b idx br
      | _ => if needsSpill h b br then s else s.commitOrFreeze hart b idx br)

/-- RETURN_STACK_SPILL: The oldest CALL block spills return-stack entry 0 to its slot before commit (R117): a store of that block, which meets the replay notice of its page (R281), waits for a fence of an older block (R216), and makes younger loads of its bytes again (R213). -/
def execReturnStackSpill (hart : Nat) (s : State) : Out :=
  .next (match s.committing hart with
    | none => s
    | some (b, idx, br) =>
      let h := s.hart hart
      let va := spillSlot h h.spilled.toNat
      if !needsSpill h b br then s
      else
        match h.noticeFor 0 (va.toNat / 4096) with
        | some n => { s with dev := s.dev.takeFault hart (some b) (deferredFault n (32 + idx)) false }
        | none =>
        if s.postedTouches hart 0 va 8 || h.storesHeld then s
        else
        let data := full (natLe 8 (h.rstk.headD 0).toNat)
        match (s.countWalk hart 0 va).writeHome h.ctxid.toNat hart 0 va data (hartWriter hart b.seq) with
        | (s1, .wait) => s1
        | (s1, .fault c pa) =>
          let s2 := s1.learnAt hart 0 va
          { s2 with dev := s2.dev.takeFault hart (some b) (accessFault idx none c 0 7 8 pa va true) false }
        | (s1, .bytes _) =>
          let s2 := (s1.learnAt hart 0 va).patchOwn hart 0 va.toNat data
          s2.setHart hart (((s2.hart hart).putBlock { b with spilled := true }).violate (s2.namesOf hart) b.tag 0 va 8))

/-! Taking a fault (R26, R369, R480) -/

/-- An instruction that has not fired could fire with the tokens that stand there (R23). -/
def couldFire (b : Block) (p : Nat × Instr) : Bool :=
  let i := p.2
  let turn := (vsidOf i).all (b.turnFor (vecNeed i))
  !b.fired.contains p.1 &&
  (match predVerdict (predField i) b p.1 with
   | .wait => false
   | .nullified => turn
   | .go => turn && (upTo (operandCount i)).all (fun k => (b.tok (4 * p.1 + k)).isSome))

/-- A request that can still be answered without another step of the block (R163, R169, R213). -/
def couldAnswer (b : Block) (r : Req) : Bool :=
  match r.kind with
  | .load _ _ => b.lsidTurn r.lsid
  | .vload _ _ _ _ _ => b.lsidTurn r.lsid
  | .vdone _ _ v _ => b.vsidTurn v
  | .atomic _ _ _ _ => b.lsidTurn r.lsid
  | .acq _ _ => b.lsidTurn r.lsid
  | .tensor t => b.vsidTurn t.vsid
  | .mwait _ => tensorsIssued b
  | _ => true

/-- The block-incomplete condition of the oldest block (R26): nothing on its way, nothing able to fire, and something missing. -/
def Block.stuck (b : Block) : Bool :=
  !b.complete && b.faults.isEmpty &&
  (readSlots b.hdr).all (fun r => b.injected.contains r.k) &&
  !(b.reqs.any (couldAnswer b)) && !((decoded b.code).any (couldFire b))

/-- A load fault that EMUL can hold: one of precision G, found at the home, and not the deferred-store fault (R369, R379). -/
def Block.emulFault (b : Block) (f : FaultRec) : Bool :=
  f.late && f.cause != 0x18 && b.reqs.any (fun r => 32 + r.idx == f.word && (match r.kind with | .load _ _ => true | _ => false))

/-- Take fault `f` of the oldest block (R369): a bound block, or a load held for emulation, stays; the younger blocks go. -/
def State.takeBlockFault (s : State) (hn : Nat) (b : Block) (f : FaultRec) : State :=
  let h := s.hart hn
  let hold := h.emul && b.emulFault f
  let s1 := if hold = true ∨ b.bound = true then s.setHart hn (h.discardYounger b.tag) else s
  let s2 : State := { s1 with dev := s1.dev.takeFault hn (some b) f hold }
  s2.setHart hn { s2.hart hn with emulHeld := hold }

/-- The notice that a wait of a committed item meets (R281): an ord wait, a fence's drain, a REL, release work. -/
def Hart.waitNotice (h : Hart) : Option Notice :=
  h.posted.findSome? (fun p => if p.status = 0 ∨ p.status = 4 ∨ p.status = 7 then h.noticeIn p.ord else none)

/-- FAULT_TAKE: The oldest block with a recorded fault takes it, discards and freezes the core (R480); also the block-incomplete fault (R26), a reported watchpoint between blocks (R381), which an idle hart, having no block boundary to stop at, only reports (log 60), and a deferred store that a committed wait meets (R281). -/
def execFaultTake (hart : Nat) (s : State) : Out :=
  let h := s.hart hart
  .next (if h.run = .idle then
      match h.pending with
      | f :: fs => { s with dev := (s.dev.setHart hart { h with pending := fs }).sendPacket (deviceRow (placeOfHart hart)) { packetOf s.dev hart h none f false false with task := 0 } }
      | [] => s
    else if h.run != .running || h.thalt then s
    else
      match h.waitNotice with
      | some n => { s with dev := s.dev.takeFault hart none (deferredFault n 0xFFFF) false }
      | none =>
        match h.blocks with
        | [] =>
          match h.pending with
          | f :: fs =>
            let s1 := s.setHart hart { h with pending := fs }
            { s1 with dev := s1.dev.takeFault hart none f false }
          | [] => s
        | b :: _ =>
          match pickFault b.faults with
          | some f => s.takeBlockFault hart b f
          | none => if b.stuck then s.takeBlockFault hart b (plainFault 0x04 0xFFFF) else s)

/-! Slate cores (R283) -/

/-- OCHRE_PACKET_ENQUEUE: A stopped sender's packet enters the Slate queue once room frees (R283); a port change that waited for an AGE to be free of its packet follows. -/
def execOchrePacketEnqueue (row : Nat) (s : State) : Out :=
  let q := mget [] s.dev.slateq row
  .next (match s.dev.senders.find? (fun x => x.1 == row) with
    | some x =>
      if q.length < 64 then
        let s1 : State := { s with dev := { s.dev with slateq := mset [] s.dev.slateq row (q ++ [x.2]), senders := s.dev.senders.erase x } }
        if x.2.agent = 2 then s1.runWaiting x.2.place else s1
      else s
    | none => s)

/-- OCHRE_PACKET_READ: A Slate core reads a packet from its queue, freeing room (R283): its 64 bytes (R373), or none where the queue is empty. -/
def execOchrePacketRead (row : Nat) (s : State) : Out :=
  let q := mget [] s.dev.slateq row
  .next (({ s with dev := { s.dev with slateq := mset [] s.dev.slateq row (q.drop 1) } } : State).answer
    (match q with | p :: _ => p.bytes | [] => []))

end Sys2Proof.Machine
end

