-- ==== Sys2Proof/Machine/Tensor.lean ====
section
/-! DEFINITION. Tensor configuration (op 0x70; R166-R171) and the tensor instructions (op 0x71 to 0x76; R163, R172-R182) at fire: they collect their operands; what they do at issue is in TensorOp. -/
namespace Sys2Proof.Machine

/-- A configuration effect at commit; a null left token does nothing (R166). -/
def mconf (s : State) (pr : BitVec 2) (operands : Nat) (t0 : BitVec 9) (e : Token → Option (Eff × Token)) : Out :=
  let c := s.dev.focus
  .next (s.fire { pr := pr, operands := operands, oldest := true, lsid := none, vsid := none }
    (onBlock fun _ b l _ =>
      if operands = 1 ∧ l.null = true then b.deliver t0 tokNull
      else
        match e l with
        | some (x, k) => (b.addEff c.idx x).deliver t0 k
        | none => b))

/-- The mask of an MZERO or MWAIT: 0 stands for 0xFF (R166). -/
def regMask (m : BitVec 8) : Nat := if m = 0 then 0xFF else m.toNat

/-- The rows and columns that a shape request is granted (R167). -/
def grantShape (cw req : Nat) : Nat × Nat :=
  let r := bitsOf req 5 0
  let c := bitsOf req 17 8
  (if r = 0 then 32 else Nat.min r 32, if c = 0 then 32 * cw else Nat.min c (32 * cw))

/-- A tensor instruction at fire: a null or zero K, where it has one, resolves the VSID; otherwise it waits to issue (R163, R173). -/
def tensorFire (s : State) (v : BitVec 5) (pr : BitVec 2) (operands : Nat) (t : Dbl → TIns) : Out :=
  let c := s.dev.focus
  .next (s.fire { pr := pr, operands := operands, oldest := true, lsid := none, vsid := some v.toNat }
    (onBlock fun _ b l _ =>
      if operands = 1 ∧ (l.null = true ∨ l.lo = 0) then b.resolveV c.idx (some v.toNat)
      else b.addReq { idx := c.idx, lsid := 0, ord := 0, zone := 0, va := 0, t0 := noTarget, kind := .tensor (t l.lo) }))

/-- The parts of a tensor instruction. -/
def tins (op d a b mode : Nat) (flag : Bool) (vsid : Nat) (k : Dbl) : TIns :=
  { op := op, d := d, a := a, b := b, mode := mode, flag := flag, k := k, vsid := vsid }

/-- MSHAPE: Request an accumulator shape, granted at commit (R167). -/
def execMshape (t0 : BitVec 9) (pr : BitVec 2) (s : State) : Out :=
  .next (s.fire { pr := pr, operands := 1, oldest := true, lsid := none, vsid := none }
    (onBlock fun h b l _ =>
      if l.null then b.deliver t0 tokNull
      else
        let g := grantShape h.cwidth.toNat l.lo.toNat
        (b.addEff s.dev.focus.idx (.mshape g.1 g.2)).deliver t0 (tokOf (BitVec.ofNat 64 (g.2 + 2 ^ 9 * g.1)))))

/-- MZERO: Zero the named m-registers at commit (R168). -/
def execMzero (m : BitVec 8) (pr : BitVec 2) (s : State) : Out :=
  mconf s pr 0 noTarget fun _ => some (.mzero (regMask m), tokNull)

/-- MWAIT: Send MSTAT once operations on the named m-registers complete (R169). -/
def execMwait (t0 : BitVec 9) (m : BitVec 8) (pr : BitVec 2) (s : State) : Out :=
  .next (s.fire { pr := pr, operands := 0, oldest := true, lsid := none, vsid := none }
    (onBlock fun _ b _ _ => b.addReq { idx := s.dev.focus.idx, lsid := 0, ord := 0, zone := 0, va := 0, t0 := t0, kind := .mwait (regMask m) }))

/-- MSTAT: Send MSTAT and the full column count (R170). -/
def execMstat (t0 : BitVec 9) (pr : BitVec 2) (s : State) : Out :=
  .next (s.fireScalar pr 0 true t0 noTarget fun h _ _ _ =>
    tokOf (mstatWord h + BitVec.ofNat 64 (2 ^ 32 * (32 * h.cwidth.toNat))))

/-- MTSCL: Set the tensor scales of an m-register at commit (R171). -/
def execMtscl (k : BitVec 3) (pr : BitVec 2) (s : State) : Out :=
  mconf s pr 1 noTarget fun l => some (.mtscl k.toNat (l.lo.setWidth 32) (l.hi.setWidth 32), tokNull)

/-- MMA: Multiply two port streams into an accumulator (R175). -/
def execMma (v : BitVec 5) (d : BitVec 3) (a : BitVec 3) (b : BitVec 3) (c : BitVec 1) (pr : BitVec 2) (s : State) : Out :=
  tensorFire s v pr 1 (tins 0 d.toNat a.toNat b.toNat 0 (c == 1) v.toNat)

/-- MMAS: Multiply two scaled narrow port streams into an accumulator (R175). -/
def execMmas (v : BitVec 5) (d : BitVec 3) (a : BitVec 3) (b : BitVec 3) (c : BitVec 1) (pr : BitVec 2) (s : State) : Out :=
  tensorFire s v pr 1 (tins 1 d.toNat a.toNat b.toNat 0 (c == 1) v.toNat)

/-- MMAV: Accumulate an outer product of two v-registers (R178). -/
def execMmav (v : BitVec 5) (k : BitVec 3) (a : BitVec 5) (b : BitVec 5) (pr : BitVec 2) (s : State) : Out :=
  tensorFire s v pr 0 (tins 2 k.toNat a.toNat b.toNat 0 false v.toNat)

/-- MMAV_SUB: Subtract an outer product of two v-registers (R178). -/
def execMmavSub (v : BitVec 5) (k : BitVec 3) (a : BitVec 5) (b : BitVec 5) (pr : BitVec 2) (s : State) : Out :=
  tensorFire s v pr 0 (tins 3 k.toNat a.toNat b.toNat 0 true v.toNat)

/-- MLDV: Load one accumulator row from a v-register (R179). -/
def execMldv (v : BitVec 5) (k : BitVec 3) (a : BitVec 5) (r : BitVec 5) (pr : BitVec 2) (s : State) : Out :=
  tensorFire s v pr 0 (tins 4 k.toNat a.toNat r.toNat 0 false v.toNat)

/-- MRDV: Read one accumulator row into a v-register (R179). -/
def execMrdv (v : BitVec 5) (d : BitVec 5) (k : BitVec 3) (r : BitVec 5) (pr : BitVec 2) (s : State) : Out :=
  tensorFire s v pr 0 (tins 5 d.toNat k.toNat r.toNat 0 false v.toNat)

/-- MSTO: Snapshot, scale and round an accumulator into an outbound port (R181). -/
def execMsto (v : BitVec 5) (k : BitVec 3) (n : BitVec 3) (r : BitVec 3) (g : BitVec 4) (c : BitVec 1) (pr : BitVec 2) (s : State) : Out :=
  tensorFire s v pr 0 (tins 6 k.toNat (n.toNat + 8) g.toNat r.toNat (c == 1) v.toNat)

/-- MADDM: Add two m-registers element-wise (R180). -/
def execMaddm (v : BitVec 5) (d : BitVec 3) (a : BitVec 3) (b : BitVec 3) (pr : BitVec 2) (s : State) : Out :=
  tensorFire s v pr 0 (tins 7 d.toNat a.toNat b.toNat 0 false v.toNat)

/-- MTRN: Transpose each 32 x 32 slice of an m-register (R180). -/
def execMtrn (v : BitVec 5) (d : BitVec 3) (a : BitVec 3) (pr : BitVec 2) (s : State) : Out :=
  tensorFire s v pr 0 (tins 8 d.toNat a.toNat 0 0 false v.toNat)

/-- MCOPY: Copy an m-register with its tag (R180). -/
def execMcopy (v : BitVec 5) (d : BitVec 3) (a : BitVec 3) (pr : BitVec 2) (s : State) : Out :=
  tensorFire s v pr 0 (tins 9 d.toNat a.toNat 0 0 false v.toNat)

end Sys2Proof.Machine
end

