-- ==== Sys2Proof/Machine/TensorOp.lean ====
section
/-! DEFINITION. Tensor operations at issue and after it (R57, R60-R66, R161-R186): MMA and MMAS streams, MMAV, rows, MACC, MSTO snapshots and their output drain. The operations but MMA, MMAS and MSTO complete in the step in which they issue (log 17). -/
namespace Sys2Proof.Machine

/-! m-registers (R103) -/

/-- The tag of mk: F32 unless set (R95, R103). -/
def Hart.mtagOf (h : Hart) (k : Nat) : Nat := (mget 1 h.mtag k).toNat

def Hart.mAt (h : Hart) (k i j : Nat) : Nat := (mget 0 h.m (mKey k i j)).toNat

/-- Write element [i][j] of mk. -/
def Hart.setM (h : Hart) (k i j x : Nat) : Hart := { h with m := mset 0 h.m (mKey k i j) (BitVec.ofNat 32 x) }

def Hart.setMtag (h : Hart) (k t : Nat) : Hart := { h with mtag := mset 1 h.mtag k (BitVec.ofNat 4 t) }

/-- Every index pair of a shape, row by row. -/
def shapePairs (r c : Nat) : List (Nat × Nat) := (upTo r).flatMap (fun i => (upTo c).map (fun j => (i, j)))

/-- Write f(i, j) into the region of mk; `f` reads the state from before (R180). -/
def Hart.mapM (h : Hart) (k r c : Nat) (f : Nat → Nat → Nat) : Hart :=
  (shapePairs r c).foldl (fun g p => g.setM k p.1 p.2 (f p.1 p.2)) h

/-- No operation runs on the nodes of these registers and none is outstanding on them (R162, R163). -/
def Hart.nodesFree (h : Hart) (ks : List Nat) : Bool :=
  ks.all (fun k => !(bitOf h.busy.toNat k) && !(h.nodes.any (fun o => o.md / 2 == k / 2)))

def Hart.setBusy (h : Hart) (k : Nat) (b : Bool) : Hart :=
  { h with busy := if b then h.busy ||| BitVec.ofNat 8 (2 ^ k) else h.busy &&& ~~~BitVec.ofNat 8 (2 ^ k) }

/-- An operation on mk has completed: BUSY clears, and a zeroing that waited follows (R163, R168). -/
def Hart.opDone (h : Hart) (k : Nat) : Hart :=
  let h1 := h.setBusy k false
  if bitOf h1.zeroes.toNat k then { h1.zeroRegs (2 ^ k) with zeroes := h1.zeroes &&& ~~~BitVec.ofNat 8 (2 ^ k) } else h1

/-! Entries (R172) -/

/-- Elements or indices in an entry: twice the per-lane count. -/
def entryCount (t : Nat) : Nat := 2 * perLane t

/-- The bit position of element `p` in an entry. -/
def entryBit (t p : Nat) : Nat := (if p < perLane t then 0 else 32) + p % perLane t * tagBits t

def unpackEntry (t : Nat) (v : Dbl) : List Nat :=
  (upTo (entryCount t)).map (fun p => v.toNat / 2 ^ entryBit t p % 2 ^ tagBits t)

/-- Pack at most one entry's elements; unused positions are zero. -/
def packEntry (t : Nat) (xs : List Nat) : Dbl :=
  BitVec.ofNat 64 ((List.zip (upTo xs.length) xs).foldl (fun a p => a + p.2 % 2 ^ tagBits t * 2 ^ entryBit t p.1) 0)

/-- Cut a list into runs of `n`; `fuel` bounds their number. -/
def chunks {α : Type} (n : Nat) : Nat → List α → List (List α)
  | 0, _ => []
  | _ + 1, [] => []
  | fuel + 1, x :: xs => ((x :: xs).take n) :: chunks n fuel ((x :: xs).drop n)

/-! GroupSum (R62, R63, R175) -/

/-- The elements of line `i` in group `grp` of a stream, decoded (R60, R172). -/
def streamRun (o : TOp) (e : NEnv) (t lines : Nat) (xs : List Nat) (grp i : Nat) : List Ex :=
  let g := groupSize o.ta o.tb
  let per (n : Nat) : Nat := if t = tagCB2 then (n + 7) / 8 else n
  let n := Nat.min o.k ((grp + 1) * g) - grp * g
  let raw := (xs.drop (grp * lines * per g + i * per n)).take (per n)
  if t = tagCB2 then (raw.flatMap (fun x => (cb2Weights4 (o.book.getD (x / 256) 0) x).map weightEx)).take n
  else raw.map (operand e t)

/-- The integer elements of a line (R57, R64). -/
def intRun (o : TOp) (t lines : Nat) (xs : List Nat) (grp i : Nat) : List Int :=
  let g := groupSize o.ta o.tb
  let n := Nat.min o.k ((grp + 1) * g) - grp * g
  ((xs.drop (grp * lines * g + i * n)).take n).map (sval (tagBits t))

def TOp.groups (o : TOp) : Nat := (o.k + groupSize o.ta o.tb - 1) / groupSize o.ta o.tb

/-- The scale of a run: 1 for MMA; for MMAS what the AGE delivered with it, or a value nobody delivered (log 3). -/
def runScale (o : TOp) (ss : List Half) (n fresh : Nat) : Scale :=
  if o.op = 0 then .val ⟨1, 0⟩
  else
    match ss[n]? with
    | some x => scaleOf x.toNat
    | none => scaleOf (Config.freeValue (fresh + n)).toNat

/-- The numeric environment of the operation's block (R40). -/
def TOp.env (o : TOp) : NEnv := { nmode := statusNmode o.status, ftz := statusFtz o.status, rm := 0, s0 := 0, k := 0 }

/-- One element of MMA or MMAS from its accumulator value (R175). -/
def TOp.element (o : TOp) (fresh acc0 i j : Nat) : Nat :=
  if isIntTag o.ta then
    wrap 32 ((upTo o.groups).foldl (fun (a : Int) g =>
      (List.zip (intRun o o.ta o.rows o.ea g i) (intRun o o.tb o.cols o.eb g j)).foldl (fun a p => a + p.1 * p.2) a) (sval 32 acc0))
  else
    (upTo o.groups).foldl (fun acc g =>
      let prods := List.zip (streamRun o o.env o.ta o.rows o.ea g i) (streamRun o o.env o.tb o.cols o.eb g j)
      groupStep o.env acc (groupC prods (runScale o o.sa (g * o.rows + i) fresh) (runScale o o.sb (g * o.cols + j) (fresh + o.groups * o.rows)))) acc0

/-- The finished operation writes its region and its tag (R175). -/
def Hart.finishMma (h : Hart) (o : TOp) (fresh : Nat) : Hart :=
  let h1 := h.mapM o.md o.rows o.cols (fun i j => o.element fresh (if o.acc then h.mAt o.md i j else 0) i j)
  (({ h1 with nodes := h1.nodes.filter (fun x => x.md != o.md) }).setMtag o.md (if isIntTag o.ta then tagI32 else tagF32)).opDone o.md

/-! MMA and MMAS at issue (R173) -/

def streamTags : List Nat := [tagF32, tagBF16, tagF16, tagE4M3, tagE5M2, tagE3M2, tagE2M3, tagE2M1, tagCB2, tagI8, tagI4]
def scaledTags : List Nat := [tagE4M3, tagE5M2, tagE3M2, tagE2M3, tagE2M1, tagCB2]

/-- NMODE of the core in bit 1 of byte 51 (R374). -/
def coreNmode (h : Hart) : Nat := 2 * (statusNmode h.status).toNat

/-- Bytes 48-52 of a mismatch (R374). -/
def streamDetail (expected found port nm md : Nat) : Dbl :=
  BitVec.ofNat 64 (expected + 2 ^ 8 * found + 2 ^ 16 * port + 2 ^ 24 * nm + 2 ^ 32 * md)

/-- The entry an operation meets next on a port: behind what read slots have popped tentatively (R174). -/
def State.streamHead (s : State) (hn n : Nat) : Option Entry :=
  (s.port (placeOfHart hn) n).q[popsOf (s.hart hn).blocks n]?

/-- Remove that entry: the pop is final (R174). -/
def State.streamTake (s : State) (hn n : Nat) : State :=
  let p := placeOfHart hn
  let q := s.port p n
  s.setPort p n { q with q := q.q.eraseIdx (popsOf (s.hart hn).blocks n), owed := if q.agreed then q.owed + 1 else q.owed }

/-- The port is bound to an AGE whose record has a scale side-band nest (R173). -/
def State.hasScales (s : State) (p n : Nat) : Bool :=
  let q := s.port p n
  q.bind == 2 && (let g := s.age p q.age.toNat; bitOf ((g.record.drop 18).headD 0).toNat 5)

/-- The NMODE clash of a narrow entry against a STATUS (R45). -/
def entryClash (st : BitVec 5) (e : Entry) : Bool := isNarrow e.tag.toNat && e.nmode != statusNmode st

/-- The first failing check of an MMA or MMAS with its head entries (R173): cause and detail. -/
def State.mmaCheck (s : State) (hn : Nat) (t : TIns) (a b : Entry) : Option (Nat × Dbl) :=
  let h := s.hart hn
  let p := placeOfHart hn
  let ta := a.tag.toNat
  let tb := b.tag.toNat
  let acc := if isIntTag ta then tagI32 else tagF32
  let clash (cause exp : Nat) (e : Entry) (n : Nat) : Option (Nat × Dbl) :=
    some (cause, streamDetail exp e.tag.toNat n (e.nmode.toNat + coreNmode h) t.d)
  if 1048576 < t.k.toNat ∨ t.a = t.b then some (0x42, t.k)
  else if !streamTags.contains ta then clash 0x40 0xFF a t.a
  else if !streamTags.contains tb then clash 0x40 0xFF b t.b
  else if isIntTag ta != isIntTag tb then clash 0x40 0xFF b t.b
  else if t.flag && h.mtagOf t.d != acc then some (0x40, streamDetail acc (h.mtagOf t.d) 0 (coreNmode h) t.d)
  else if t.op = 1 ∧ scaledTags.contains ta = false then clash 0x40 0xFF a t.a
  else if t.op = 1 ∧ scaledTags.contains tb = false then clash 0x40 0xFF b t.b
  else if t.op = 1 ∧ (s.hasScales p t.a && s.hasScales p t.b) = false then some (0x42, t.k)
  else if entryClash h.status a then clash 0x41 ta a t.a
  else if entryClash h.status b then clash 0x41 tb b t.b
  else none

/-- MMA or MMAS begins (R163, R173-R175): it waits for an entry on both ports, passes its checks, consumes its first entry, binds its block and resolves its VSID. With ROWS 0 its A stream has no entry (R172): it takes none, its tag is that of the entry that waits there, and its block is bound at issue all the same (DESIGN CHOICE, log 56). -/
def State.issueMma (s : State) (hn tag : Nat) (b : Block) (r : Req) (t : TIns) : State :=
  let h := s.hart hn
  let own (n : Nat) : Bool := (readSlots b.hdr).all (fun x => x.reg != 0x40 + n || b.injected.contains x.k)
  let free (n : Nat) : Bool := !h.portBusy n && !(s.mt (placeOfHart hn)).waits n && popsOf (s.hart (otherHart hn)).blocks n == 0 && own n
  if !h.nodesFree [t.d] || !free t.a || !free t.b then s
  else
    match s.streamHead hn t.a, s.streamHead hn t.b with
    | some ea, some eb =>
      match s.mmaCheck hn t ea eb with
      | some (c, d) => s.setHart hn (h.putBlock ((b.dropReq r.idx).fault c r.idx d 0))
      | none =>
        let o : TOp :=
          { op := t.op, md := t.d, pa := t.a, pb := t.b, k := t.k.toNat, rows := h.mrows.toNat, cols := h.mcols.toNat, acc := t.flag,
            ta := ea.tag.toNat, tb := eb.tag.toNat, ea := unpackEntry ea.tag.toNat ea.val, eb := [], sa := ea.scl, sb := [],
            block := b.addr, slot := b.tag, seq := b.seq, idx := r.idx, status := h.status,
            book := s.bookOf hn b }
        let none' : Bool := decide (o.qa = 0)
        let s1 := if none' then s else s.streamTake hn t.a
        let o : TOp := if none' then { o with ea := [], sa := [] } else o
        let b1 := { (b.dropReq r.idx).resolveV r.idx (some t.vsid) with bound := true, book := some o.book }
        let h1 := s1.hart hn
        s1.settle hn (some (tag, r.idx)) (({ h1 with nodes := h1.nodes ++ [o] }.setBusy t.d true).putBlock b1)
    | _, _ => s

/-! The other tensor instructions at issue (R178-R181) -/

/-- What an immediate tensor instruction does: a mismatch, or the hart and block it leaves. -/
inductive TRes where
  | clash (d : Dbl)
  | ok (h : Hart) (b : Block)
  deriving DecidableEq, Repr

/-- MMAV (R178). -/
def issueMmav (h : Hart) (b : Block) (t : TIns) (e : NEnv) : TRes :=
  let c := b.ctxOf h
  let ta := c.tagOf t.a
  let tb := c.tagOf t.b
  let fl := [tagF32, tagBF16, tagF16]
  let ints := [tagI32, tagI16, tagI8]
  let acc := if ints.contains ta then tagI32 else tagF32
  if !(fl.contains ta || ints.contains ta) then .clash (streamDetail 0xFF ta t.a (coreNmode h) t.d)
  else if !((if fl.contains ta then fl else ints).contains tb) then .clash (streamDetail 0xFF tb t.b (coreNmode h) t.d)
  else if h.mtagOf t.d ≠ acc then .clash (streamDetail acc (h.mtagOf t.d) 0 (coreNmode h) t.d)
  else
    let f (i j : Nat) : Nat :=
      let x := c.elem t.a ta i
      let y := c.elem t.b tb j
      let m := h.mAt t.d i j
      if acc = tagI32 then
        let p := ival ta x * ival tb y
        wrap 32 (sval 32 m + (if t.flag then -p else p))
      else
        let p := exMul (operand e ta x) (operand e tb y)
        roundTo e tagF32 0 false 0 (exAdd e 0 (operand e tagF32 m) (if t.flag then p.negate else p))
    .ok ((h.checkpoint (2 ^ t.d)).mapM t.d h.mrows.toNat h.mcols.toNat f) b

/-- MLDV (R179). -/
def issueMldv (h : Hart) (b : Block) (t : TIns) : TRes :=
  let c := b.ctxOf h
  let ta := c.tagOf t.a
  if ta ≠ tagF32 ∧ ta ≠ tagI32 then .clash (streamDetail 0xFF ta t.a (coreNmode h) t.d)
  else
    let h1 := (upTo (32 * h.cwidth.toNat)).foldl (fun g j => g.setM t.d t.b j (c.lane t.a j)) (h.checkpoint (2 ^ t.d))
    .ok (h1.setMtag t.d ta) b

/-- MRDV (R179). -/
def issueMrdv (h : Hart) (b : Block) (t : TIns) : TRes :=
  let c := (upTo (32 * h.cwidth.toNat)).foldl (fun c j => c.setLane t.d j (h.mAt t.a t.b j)) (b.ctxOf h)
  .ok h { b with vec := some (c.setTag t.d (h.mtagOf t.a)) }

/-- MADDM, MTRN and MCOPY (R180). -/
def issueMacc (h : Hart) (b : Block) (t : TIns) (e : NEnv) : TRes :=
  let h0 := h.checkpoint (2 ^ t.d)
  let cw := h.cwidth.toNat
  match t.op with
  | 7 =>
    if h.mtagOf t.a ≠ h.mtagOf t.b then .clash (streamDetail (h.mtagOf t.a) (h.mtagOf t.b) 0 (coreNmode h) t.d)
    else
      let f (i j : Nat) : Nat :=
        let x := h.mAt t.a i j
        let y := h.mAt t.b i j
        if h.mtagOf t.a = tagI32 then wrap 32 (sval 32 x + sval 32 y)
        else roundTo e tagF32 0 false 0 (exAdd e 0 (operand e tagF32 x) (operand e tagF32 y))
      .ok ((h0.mapM t.d h.mrows.toNat h.mcols.toNat f).setMtag t.d (h.mtagOf t.a)) b
  | 8 => .ok ((h0.mapM t.d 32 (32 * cw) (fun i j => h.mAt t.a (j % 32) (j / 32 * 32 + i))).setMtag t.d (h.mtagOf t.a)) b
  | _ => .ok ((h0.mapM t.d 32 (32 * cw) (fun i j => h.mAt t.a i j)).setMtag t.d (h.mtagOf t.a)) b

/-- One element that MSTO stores (R65, R181): a subnormal F32 element is an operand and is flushed under FTZ (R51). -/
def mstoElem (e : NEnv) (tag dest mode ta tb idx x : Nat) : Nat :=
  let v := if tag = tagI32 then Ex.ofInt (sval 32 x) else operand e tagF32 x
  let y := exMul (exMul v (operand e tagF32 ta)) (operand e tagF32 tb)
  if isIntTag dest then wrap (tagBits dest) (roundToInt e true (tagBits dest) mode idx y) else roundTo e dest mode false idx y

/-- MSTO's snapshot (R181). -/
def issueMsto (h : Hart) (b : Block) (t : TIns) (e : NEnv) : TRes :=
  let r := h.mrows.toNat
  let c := h.mcols.toNat
  let dest := t.b
  let out := (shapePairs r c).map (fun p =>
    mstoElem e (h.mtagOf t.d) dest t.mode (h.scaleAt t.d 0).toNat (h.scaleAt t.d 1).toNat (p.1 * (32 * h.cwidth.toNat) + p.2) (h.mAt t.d p.1 p.2))
  let ents := (chunks (entryCount dest) out.length out).map (fun xs =>
    Entry.mk (packEntry dest xs) false (statusNmode h.status) (BitVec.ofNat 4 dest) [] none)
  let h1 := if t.flag then (h.checkpoint (2 ^ t.d)).mapM t.d r c (fun _ _ => 0) else h
  let h2 : Hart := { h1 with mout := h1.mout ++ [MOut.mk (t.d / 2) t.d t.a ents false 0] }
  .ok (h2.setBusy t.d true) { b with sr := b.sr || (drawsSr e t.mode && !out.isEmpty) }

/-- The m-registers a tensor instruction names (R163). -/
def TIns.regs (t : TIns) : List Nat :=
  match t.op with
  | 5 => [t.a]
  | 7 => [t.d, t.a, t.b]
  | 8 => [t.d, t.a]
  | 9 => [t.d, t.a]
  | _ => [t.d]

/-- What a tensor instruction other than MMA and MMAS does at issue. -/
def issueNow (h : Hart) (b : Block) (t : TIns) (e : NEnv) : TRes :=
  match t.op with
  | 2 => issueMmav h b t e
  | 3 => issueMmav h b t e
  | 4 => issueMldv h b t
  | 5 => issueMrdv h b t
  | 6 => issueMsto h b t e
  | _ => issueMacc h b t e

/-- TENSOR_ISSUE: A tensor instruction issues once oldest, node free and BUSY clear (R163); an MSTO also once the node's output buffer, which holds one snapshot, is empty (R161, log 56): the second of two MSTO of one node in one block never issues, since the first's buffer drains only after that block's commit. -/
def execTensorIssue (hart tag idx : Nat) (s : State) : Out :=
  .next (match s.pendingReq hart tag idx with
    | none => s
    | some (b, r) =>
      let h := s.hart hart
      match r.kind with
      | .tensor t =>
        if !h.isOldest tag || !b.vsidTurn t.vsid then s
        else if t.op ≤ 1 then s.issueMma hart tag b r t
        else if !h.nodesFree t.regs || (t.op == 6 && h.mout.any (fun o => o.node == t.d / 2)) then s
        else
          match issueNow h b t (h.nenv idx) with
          | .clash d => s.setHart hart (h.putBlock ((b.dropReq idx).fault 0x40 idx d 0))
          | .ok h1 b1 => s.settle hart (some (tag, idx)) (h1.putBlock ((b1.dropReq idx).resolveV idx (some t.vsid)))
      | _ => s)

/-! After issue -/

/-- Groups both streams have completed (R176). -/
def TOp.groupsDone (o : TOp) : Nat :=
  let g := groupSize o.ta o.tb
  Nat.min (o.ea.length / streamCount o.ta g g (Nat.max o.rows 1)) (o.eb.length / streamCount o.tb g g (Nat.max o.cols 1))

/-- A later entry fails its check (R176): the operation stops before it, until a resume, and the core freezes with every block held. -/
def State.streamFault (s : State) (hn : Nat) (o : TOp) (n : Nat) (e : Entry) (cause exp : Nat) : State :=
  let h := s.hart hn
  if h.run != .running then s
  else
    let f : FaultRec := { plainFault cause (32 + o.idx) with
      d0 := streamDetail exp e.tag.toNat n (e.nmode.toNat + 2 * (statusNmode o.status).toNat) o.md, d1 := BitVec.ofNat 64 o.groupsDone }
    let s1 := s.setHart hn { h with nodes := h.nodes.map (fun x => if x.md = o.md then { x with stop := true } else x) }
    { s1 with dev := s1.dev.takeFault hn (some { mappedBlock h o.slot o.block [] [] [] with seq := o.seq }) f true }

/-- Consume the next entry of one of the operation's ports (R174, R176): its 64 bits are elements whatever its null bit says (log 50). -/
def State.consume (s : State) (hn : Nat) (o : TOp) (left : Bool) : State :=
  let n := if left then o.pa else o.pb
  let t := if left then o.ta else o.tb
  match s.streamHead hn n with
  | none => s
  | some e =>
    let first := !left && o.eb.isEmpty
    if e.tag.toNat ≠ t then s.streamFault hn o n e 0x40 t
    else if entryClash o.status e && !first then s.streamFault hn o n e 0x41 t
    else
      let xs := unpackEntry t e.val
      let o1 := if left then { o with ea := o.ea ++ xs, sa := o.sa ++ e.scl } else { o with eb := o.eb ++ xs, sb := o.sb ++ e.scl }
      let s1 := s.streamTake hn n
      let h1 := s1.hart hn
      let s2 := s1.setHart hn { h1 with nodes := h1.nodes.map (fun x => if x.md = o.md then o1 else x) }
      (s2.runWaiting (placeOfHart hn)).portsChanged (placeOfHart hn)

/-- MMA_ENTRY_CONSUME: On a live tile, since the saved side of one changes by no such step (R384, R386), an MMA consumes and checks the next entry arriving on its port (R176); A before B where both are there. -/
def execMmaEntryConsume (hart node : Nat) (s : State) : Out :=
  let h := s.hart hart
  .next (if h.thalt || decide (2048 ≤ hart) then s
    else
      match h.nodes.find? (fun o => o.md / 2 == node) with
      | none => s
      | some o =>
        if o.stop then s
        else if o.ea.length < o.qa ∧ (s.streamHead hart o.pa).isSome = true then s.consume hart o true
        else if o.eb.length < o.qb then s.consume hart o false
        else s)

/-- After a tensor operation has freed its accumulator: the cycles that its BUSY bit stood are counted (R359, log 59), and port changes that waited for it follow (R174). -/
def State.unbusy (s : State) (hn : Nat) : State := (s.countSome hn 10 32).runWaiting (placeOfHart hn)

/-- TENSOR_OP_COMPLETE: A tensor operation of a live tile completes and clears its BUSY bit (R163). -/
def execTensorOpComplete (hart node : Nat) (s : State) : Out :=
  let h := s.hart hart
  .next (if h.thalt || decide (2048 ≤ hart) then s
    else
      match h.nodes.find? (fun o => o.md / 2 == node) with
      | none => s
      | some o =>
        if o.ea.length < o.qa ∨ o.eb.length < o.qb then s
        else
          let s1 := s.setHart hart (h.finishMma o s.dev.fresh)
          let used := if o.op = 1 ∧ (o.sa.length < o.groups * o.rows ∨ o.sb.length < o.groups * o.cols) then o.groups * (o.rows + o.cols) else 0
          ({ s1 with dev := { s1.dev with fresh := s1.dev.fresh + used } }.unbusy hart).portsChanged (placeOfHart hart))

/-- MSTO_ENTRY_PUSH: An MSTO output entry of a live tile enters its port as room allows after commit (R182), after the port changes of older blocks that still wait (R174), and after the release work of a fence (R216, R228). -/
def execMstoEntryPush (hart node : Nat) (s : State) : Out :=
  let h := s.hart hart
  let p := placeOfHart hart
  .next (if 2048 ≤ hart then s else match h.mout.find? (fun o => o.live && o.behind == 0 && o.node == node &&
        (match h.mout.find? (fun x => x.port == o.port) with | some x => x == o | none => false)) with
    | none => s
    | some o =>
      match o.ents with
      | [] => ((s.setHart hart (({ h with mout := h.mout.erase o }).opDone o.acc)).unbusy hart).portsChanged p
      | e :: es =>
        if 16 ≤ (s.port p o.port).q.length ∨ h.storesHeld = true then s
        else
          let s1 := s.pushEntry p o.port e
          if es.isEmpty then ((s1.setHart hart (({ h with mout := h.mout.erase o }).opDone o.acc)).unbusy hart).portsChanged p
          else s1.setHart hart { h with mout := h.mout.map (fun (x : MOut) => if x = o then { o with ents := es } else x) })

/-- The operation stands at a group boundary: what it has taken of each stream is whole groups (R176, R185). -/
def TOp.atBoundary (o : TOp) : Bool :=
  let g := groupSize o.ta o.tb
  let whole (tag taken n : Nat) : Bool := (upTo (o.groups + 1)).any (fun j =>
    let c := streamCount tag g (Nat.min o.k (j * g)) (Nat.max n 1)
    if j = o.groups then decide (c ≤ taken) else c == taken)
  whole o.ta o.ea.length o.rows && whole o.tb o.eb.length o.cols

/-- MATRIX_NODE_MODE_CHANGE: A matrix node enters or leaves narrowed mode at a group boundary (R185): as the alarm stands; MSTAT.NARROW follows once every node of the core has changed (R434). -/
def execMatrixNodeModeChange (hart node : Nat) (s : State) : Out :=
  let h := s.hart hart
  if decide (2048 ≤ hart) || h.nodes.any (fun o => o.md / 2 == node && !o.atBoundary) then .next s
  else
  let slow : BitVec 4 := if s.dev.valarm.getLsbD 32 then h.slow ||| BitVec.ofNat 4 (2 ^ node) else h.slow &&& ~~~BitVec.ofNat 4 (2 ^ node)
  .next (s.setHart hart { h with slow := slow, narrow := if slow = 0xF then true else if slow = 0 then false else h.narrow })

end Sys2Proof.Machine
end

