-- ==== Sys2Proof/Machine/Age.lean ====
section
/-! DEFINITION. Address-generation engines (R254-R258, R280, R300, R356, R376): the loop-nest record, its fetch, the walk of the nest, delivery of entries by a reader, writes of elements by a writer, resume and stop, and the completion timeout of every unit (R416). -/
namespace Sys2Proof.Machine

/-! The record (R254) -/

/-- A field of the record: bits `hi` to `lo` counted from byte `off`. -/
def Age.field (a : Age) (off hi lo : Nat) : Nat := bitsOf (leNat ((a.record.drop off).take 8)) hi lo

def Age.base (a : Age) : Nat := a.field 8 63 0
def Age.zone (a : Age) : Nat := a.field 16 7 0
def Age.tag (a : Age) : Nat := a.field 17 3 0
def Age.ndim (a : Age) : Nat := a.field 18 2 0
def Age.mode (a : Age) : Nat := a.field 18 4 3
def Age.hasScales (a : Age) : Bool := a.field 18 5 5 == 1
def Age.krun (a : Age) : Nat := a.field 20 15 0
def Age.repeats (a : Age) : Nat := a.field 24 31 0
def Age.pstride (a : Age) : Int := sval 32 (a.field 28 31 0)
def Age.count (a : Age) (d : Nat) : Nat := a.field (32 + 8 * d) 31 0
def Age.stride (a : Age) (d : Nat) : Int := sval 32 (a.field (36 + 8 * d) 31 0)
def Age.sbase (a : Age) : Nat := a.field 72 63 0
def Age.szone (a : Age) : Nat := a.field 80 7 0
def Age.sndim (a : Age) : Nat := a.field 81 2 0
def Age.scount (a : Age) (d : Nat) : Nat := a.field (88 + 8 * d) 31 0
def Age.sstride (a : Age) (d : Nat) : Int := sval 32 (a.field (92 + 8 * d) 31 0)

/-- The element size in bits (R41, R254). -/
def Age.bits (a : Age) : Nat := if a.tag = tagNone then 8 * 2 ^ a.field 17 5 4 else tagBits a.tag

def Age.isWriter (a : Age) : Bool := decide (8 ≤ a.port.toNat)

/-- The elements of an entry (R172, R257). -/
def Age.perEntry (a : Age) : Nat :=
  if a.tag = tagNone then 64 / a.bits else if a.tag = tagF64 then 1 else entryCount a.tag

/-- The first failing condition of R254, numbered from 1 in listed order. -/
def Age.invalid (a : Age) : Option Nat :=
  if a.ndim = 0 ∨ 5 < a.ndim ∨ (upTo a.ndim).any (fun d => a.count d == 0) = true then some 1
  else if a.tag = tagMask then some 2
  else if a.hasScales = true ∧ a.isWriter = true then some 3
  else if a.hasScales = true ∧ (a.sndim = 0 ∨ 5 < a.sndim ∨ (upTo a.sndim).any (fun d => a.scount d == 0) = true) then some 4
  else if 2 ≤ a.mode ∧ a.repeats = 0 then some 5
  else if a.mode = 3 ∧ a.ndim < 2 then some 6
  else none

/-! The walk (R256) -/

/-- Every pass of the record has been walked. -/
def Age.exhausted (a : Age) : Bool :=
  match a.mode with
  | 0 => a.pass != 0
  | 1 => a.repeats != 0 && a.pass.toNat == a.repeats
  | _ => false

/-- The index that stands for dimension `d` in the sum: LINE turns i1 by the pass (R256). -/
def Age.at (a : Age) (d : Nat) : Nat :=
  let i := a.idx.getD d 0
  if a.mode = 3 ∧ d = 1 then (i + a.pass.toNat) % a.repeats else i

def Age.passOff (a : Age) : Int :=
  match a.mode with
  | 1 => (a.pass.toNat : Int) * a.pstride
  | 2 => ((a.pass.toNat % a.repeats : Nat) : Int) * a.pstride
  | _ => 0

/-- The bit address of the element in turn, modulo 2^67. -/
def Age.bitAddr (a : Age) : Nat :=
  let off := (upTo a.ndim).foldl (fun (x : Int) d => x + (a.at d : Int) * a.stride d) a.passOff
  wrap 67 ((a.base * 8 : Nat) + off * (a.bits : Int))

/-- One past the last i0 of the run in turn. -/
def Age.runEnd (a : Age) : Nat :=
  if a.krun = 0 then a.count 0 else Nat.min (a.count 0) ((a.run.toNat + 1) * a.krun)

def Age.runStart (a : Age) : Nat := a.run.toNat * a.krun

/-- Carry into dimension `d` and those above it; `none` when they all wrap. -/
def carryDims (a : Age) (idx : List Nat) : Nat → Nat → Option (List Nat)
  | 0, _ => none
  | n + 1, d =>
    if a.ndim ≤ d then none
    else if idx.getD d 0 + 1 < a.count d then some (setAt idx d (idx.getD d 0 + 1))
    else carryDims a (setAt idx d 0) n (d + 1)

/-- The indices and run after the element in turn; `none` at the end of the pass. -/
def Age.advance (a : Age) : Option (List Nat × Nat) :=
  let i0 := a.idx.getD 0 0 + 1
  if i0 < a.runEnd then some (setAt a.idx 0 i0, a.run.toNat)
  else
    match carryDims a (setAt a.idx 0 a.runStart) 5 1 with
    | some idx => some (idx, a.run.toNat)
    | none =>
      if a.krun ≠ 0 ∧ a.runEnd < a.count 0 then some ([(a.run.toNat + 1) * a.krun, 0, 0, 0, 0], a.run.toNat + 1)
      else none

/-- Move past one element: to the next, or to the start of the next pass, where STREAM and a finished FIFO go idle (R256, R356); `n` elements have thereby been delivered or written. -/
def Age.moved (a : Age) (n : Nat) : Age :=
  match a.advance with
  | some (idx, run) => { a with idx := idx, run := BitVec.ofNat 32 run, done := a.done + BitVec.ofNat 32 n }
  | none =>
    let b := { a with idx := [0, 0, 0, 0, 0], run := 0, pass := a.pass + 1, done := 0, spos := 0 }
    if b.exhausted && b.state == 1 then { b with state := 0 } else b

def Age.lastOfPass (a : Age) : Bool := a.advance.isNone

/-! Accesses -/

def ageWriter (p a : Nat) : Writer := { agent := 2, hart := p, place := p, unit := a, seq := 0 }

/-- The bytes that hold `n` bits at a bit address: first byte, count, and the bits below the first one. -/
def bitSpan (addr n : Nat) : Dbl × Nat × Nat := (BitVec.ofNat 64 (addr / 8), (addr % 8 + n + 7) / 8, addr % 8)

/-- The masked bytes that write `n` bits (R205, R478). -/
def bitData (addr n v : Nat) : List (Byte × Byte) :=
  let s := bitSpan addr n
  (upTo s.2.1).map (fun k =>
    (BitVec.ofNat 8 (v % 2 ^ n * 2 ^ s.2.2 / 2 ^ (8 * k)), BitVec.ofNat 8 ((2 ^ n - 1) * 2 ^ s.2.2 / 2 ^ (8 * k))))

/-- An AGE's access faults (R258, R374): kind 5 read, 6 write, 4 where its walk failed. -/
def State.ageAccessFault (s : State) (p a cause pa kind size zone : Nat) (va : Dbl) : State :=
  s.ageFault p a cause zone va (BitVec.ofNat 64 pa) (accessDetail kind size pa)

/-- Alignment of elements of whole bytes (R256). -/
def Age.misaligned (a : Age) : Bool := decide (8 ≤ a.bits) && a.bitAddr % a.bits != 0

/-- Release work of a fence still stands on a hart of the MT: an AGE that its harts have started makes no access before it (R216, R227, R253). -/
def State.ageHeld (s : State) (p : Nat) : Bool := (s.hart p).storesHeld || (s.hart (1024 + p)).storesHeld

/-- The AGE runs, a port is bound to it, and no fence holds its accesses. -/
def State.ageRuns (s : State) (p a : Nat) : Bool :=
  let g := s.age p a
  let q := s.port p g.port.toNat
  g.state == 1 && q.bind == 2 && q.age.toNat == a && !s.ageHeld p

/-! Record fetch (R255) -/

/-- AGE_RECORD_FETCH: An AGE reads its record with the two SEAL reads and starts or faults (R255): SEAL, then bytes 8-127, then SEAL again. A fault of the read of 120 bytes reports size code 6, its log2 rounded down (R374; DESIGN CHOICE, log 64). -/
def execAgeRecordFetch (place age : Nat) (s : State) : Out :=
  let g := s.age place age
  .next (match g.fetch with
    | none => s
    | some (zone, rec_) =>
      if g.state ≠ 1 ∨ s.ageHeld place = true then s
      else
        let off := if g.record.length = 8 then 8 else 0
        let n := if g.record.length = 8 then 120 else 8
        match s.readHomeAll g.ctx place zone (rec_ + BitVec.ofNat 64 off) n with
        | (s1, .wait) => s1
        | (s1, .fault c pa) =>
          (s1.setAge place age { s1.age place age with record := [] }).ageAccessFault place age c pa 5 n zone (rec_ + BitVec.ofNat 64 off)
        | (s1, .bytes bs) =>
          let g1 := s1.age place age
          if g1.record.length < 128 then s1.setAge place age { g1 with record := g1.record ++ bs }
          else if bs ≠ g1.record.take 8 then
            (s1.setAge place age { g1 with record := [] }).ageFault place age 0x19 zone rec_
              (BitVec.ofNat 64 (leNat (g1.record.take 8))) (BitVec.ofNat 64 (leNat bs))
          else
            match g1.invalid with
            | some c =>
              (s1.setAge place age { g1 with record := [] }).ageFault place age 0x1A zone rec_ (BitVec.ofNat 64 c) 0
            | none => s1.setAge place age { g1 with fetch := none })

/-! Readers (R257) -/

/-- A run begins at the element in turn, so that a scale belongs to it: each run, or each 32 elements of dimension 0, for CB2 each 4 indices. -/
def Age.scaleDue (a : Age) : Bool :=
  let i := a.idx.getD 0 0
  a.hasScales &&
  (if a.krun ≠ 0 then i == a.runStart else i % (if a.tag = tagCB2 then 4 else 32) == 0)

/-- The positions of the scale nest. -/
def Age.scaleTotal (a : Age) : Nat := (upTo a.sndim).foldl (fun n d => n * a.scount d) 1

/-- The address of the scale in turn, walked in its own index order. -/
def Age.scaleAddr (a : Age) : Dbl :=
  let r := (upTo a.sndim).foldl (fun (x : Nat × Int) d =>
    (x.1 / a.scount d, x.2 + ((x.1 % a.scount d : Nat) : Int) * a.sstride d)) (a.spos.toNat, 0)
  BitVec.ofNat 64 (wrap 64 ((a.sbase : Nat) + r.2 * 2))

/-- The scale position after one scale. -/
def Age.nextScale (a : Age) : Word := BitVec.ofNat 32 ((a.spos.toNat + 1) % a.scaleTotal)

/-- Pack an entry's elements (R41, R172, R257). -/
def Age.pack (a : Age) (xs : List Nat) : Dbl :=
  if a.tag = tagNone ∨ a.tag = tagF64 then
    BitVec.ofNat 64 ((List.zip (upTo xs.length) xs).foldl (fun x p => x + p.2 * 2 ^ (p.1 * a.bits)) 0)
  else packEntry a.tag xs

def Age.unpack (a : Age) (v : Dbl) : List Nat :=
  if a.tag = tagNone ∨ a.tag = tagF64 then (upTo a.perEntry).map (fun p => v.toNat / 2 ^ (p * a.bits) % 2 ^ a.bits)
  else unpackEntry a.tag v

/-- Add one element, with the scale its run brings; a full entry, or the last of a pass, goes into the port. -/
def State.ageAdd (s : State) (p a : Nat) (x : Nat) (scale : Option Half) : State :=
  let g := s.age p a
  let part := g.part ++ [x]
  let scl := g.scl ++ scale.toList
  let closes := part.length == g.perEntry || g.lastOfPass
  let g1 := { g with spos := if scale.isSome then g.nextScale else g.spos }
  let g2 := { g1.moved (if closes then part.length else 0) with part := if closes then [] else part, scl := if closes then [] else scl }
  let s1 := s.setAge p a g2
  if closes then
    (s1.pushEntry p g.port.toNat { val := g.pack part, null := false, nmode := g.nmode, tag := BitVec.ofNat 4 g.tag, scl := scl, epoch := none }).portsChanged p
  else s1

/-- AGE_ELEMENT_DELIVER: A reader AGE packs elements and delivers an entry into its port (R257): one element at a time in element order, its run's scale with the first (R227 has no order across locations; DESIGN CHOICE, log 64). R39 also names a stream delivery into a v-register, of which no rule says more: there is none (DESIGN CHOICE, log 63). -/
def execAgeElementDeliver (place age : Nat) (s : State) : Out :=
  let g := s.age place age
  .next (if !s.ageRuns place age || g.fetch.isSome || g.isWriter then s
    else if g.exhausted then s.setAge place age { g with state := 0 }
    else if 16 ≤ (s.port place g.port.toNat).q.length then s
    else
      let span := bitSpan g.bitAddr g.bits
      if g.misaligned then s.ageAccessFault place age 0x12 0 5 span.2.1 g.zone span.1
      else
        let sc : State × Option (Option Half) :=
          if g.scaleDue then
            match s.readHomeAll g.ctx place g.szone g.scaleAddr 2 with
            | (s1, .wait) => (s1, none)
            | (s1, .fault c pa) => (s1.ageAccessFault place age c pa 5 2 g.szone g.scaleAddr, none)
            | (s1, .bytes bs) => (s1, some (some (BitVec.ofNat 16 (leNat bs % 2 ^ 12))))
          else (s, some none)
        match sc with
        | (s1, none) => s1
        | (s1, some scale) =>
          match s1.readHomeAll g.ctx place g.zone span.1 span.2.1 with
          | (s2, .wait) => s2
          | (s2, .fault c pa) => s2.ageAccessFault place age c pa 5 span.2.1 g.zone span.1
          | (s2, .bytes bs) => s2.ageAdd place age (leNat bs / 2 ^ span.2.2 % 2 ^ g.bits) scale)

/-! Writers (R257) -/

/-- The elements of an entry stand next: of one popped anew while none is posted, nothing earlier can be undone. -/
def Age.opened (g : Age) (xs : List Nat) : Age :=
  { g with part := xs, recent := (if g.out.isEmpty then [] else g.recent) ++ [xs] }

/-- A writer pops the head entry: an entry of another tag stays (R257), where the packet gives the one tag it accepts, or 0xFF since it accepts NONE and its own (R374), and so does one that entered the port under a neighbour binding, which only a binding of its key delivers (R299). An entry that it has to write again comes first. -/
def State.agePop (s : State) (p a : Nat) : State :=
  let g := s.age p a
  let n := g.port.toNat
  let q := s.port p n
  match g.backlog, q.q with
  | xs :: more, _ => s.setAge p a { g.opened xs with backlog := more }
  | [], [] => s
  | [], e :: rest =>
    if e.epoch.isSome then s
    else if e.tag.toNat ≠ tagNone ∧ e.tag.toNat ≠ g.tag then
      s.ageFault p a 0x40 0 0 (BitVec.ofNat 64 ((if g.tag = tagNone then tagNone else 0xFF) + 2 ^ 8 * e.tag.toNat + 2 ^ 16 * n + 2 ^ 24 * e.nmode.toNat + 2 ^ 25 * g.nmode.toNat)) 0
    else
      let s1 := (s.setPort p n { q with q := rest }).setAge p a (g.opened (g.unpack e.val))
      s.waitOver (((s1.runWaiting p).portsChanged p).tryLeave p) p

/-- Post the element in turn and move past it; the pass's end discards the rest of the entry. The AGE stays active until what it has posted is performed. -/
def State.agePost (s : State) (p a : Nat) (rest : List Nat) (e : AgeStore) : State :=
  let g := s.age p a
  s.setAge p a { g.moved 1 with part := if g.lastOfPass then [] else rest, state := g.state, out := g.out ++ [e] }

/-- The element that a writer posts next. -/
def Age.store (g : Age) (x : Nat) : AgeStore :=
  { zone := g.zone, va := (bitSpan g.bitAddr g.bits).1, data := bitData g.bitAddr g.bits x,
    idx := g.idx, pass := g.pass, run := g.run, done := g.done, part := g.part, nth := g.recent.length }

/-- Posted element `i` may be performed: no earlier one that is still to be performed shares bytes with it (R210, R227); `f` names the bytes. -/
def Age.outTurn (g : Age) (f : Nat → Dbl → Nat × Dbl) (i : Nat) : Bool :=
  match g.out[i]? with
  | some e =>
    let x := f e.zone e.va
    (g.out.take i).all (fun k =>
      let y := f k.zone k.va
      x.1 != y.1 || !overlaps x.2.toNat e.data.length y.2.toNat k.data.length)
  | none => false

/-- The posted element that is performed next: any whose turn has come, by a free value (R210, log 34). -/
def State.agePick (s : State) (p a : Nat) : Nat :=
  let g := s.age p a
  let is := (upTo g.out.length).filter (g.outTurn (s.namesOf p))
  if is.length ≤ 1 then 0 else is.getD ((Config.freeValue s.dev.fresh).toNat % is.length) 0

/-- The AGE stands before posted element `i` again: the elements posted after it are undone, and the entries popped after its own are to be written again, those before it go on (R258). -/
def State.ageRewind (s : State) (p a i : Nat) : State :=
  let g := s.age p a
  match g.out[i]? with
  | some e => s.setAge p a { g with idx := e.idx, pass := e.pass, run := e.run, done := e.done, part := e.part, out := g.out.take i,
                                    recent := g.recent.take e.nth, backlog := g.recent.drop e.nth ++ g.backlog }
  | none => s

/-- Posted element `i` has been performed; what has waited for the last of them goes on. -/
def State.ageWrote (s : State) (p a i : Nat) : State :=
  let g := s.age p a
  ((s.setAge p a { g with out := g.out.eraseIdx i }).runWaiting p).tryLeave p

/-- A posted element is performed at its home (R257), whatever the AGE's state is. One that cannot be stops the AGE before it (R258), one that hits a watchpoint after it (R381). -/
def State.agePerform (s : State) (p a i : Nat) : State :=
  let g := s.age p a
  match g.out[i]? with
  | none => s
  | some e =>
    match s.writeElem g.ctx p e.zone e.va e.data (ageWriter p a) with
    | (s1, .wait) => s1
    | (s1, .fault c pa) => (s1.ageRewind p a i).ageAccessFault p a c pa 6 e.data.length e.zone e.va
    | (s1, .bytes _) => (if (s1.age p a).state = g.state then s1 else s1.ageRewind p a (i + 1)).ageWrote p a i

/-- Every posted element of an AGE that can be performed is, in order: its tile is about to be swapped or saved (R236, log 34). -/
def State.ageFlush (s : State) (p a : Nat) : State :=
  (upTo (s.age p a).out.length).foldl (fun s _ => s.agePerform p a 0) s

/-- A writer runs, with its record fetched. -/
def State.ageWrites (s : State) (p a : Nat) : Bool := s.ageRuns p a && (s.age p a).fetch.isNone && (s.age p a).isWriter

/-- A writer can go on: elements stand to be posted, or an entry to be popped (R257, R299). -/
def State.ageGoes (s : State) (p a : Nat) : Bool :=
  let g := s.age p a
  s.ageWrites p a && !g.exhausted && (!g.part.isEmpty || !g.backlog.isEmpty || (s.port p g.port.toNat).q.head?.any (fun e => e.epoch.isNone))

/-- AGE_ELEMENT_WRITE: A writer AGE pops an entry and writes its elements (R257): the pop, then one element at a time is posted, and those posted are performed at their homes. While some stand posted a free value says whether the AGE goes on or one of them is performed, and which (R210, DESIGN CHOICE, log 34). -/
def execAgeElementWrite (place age : Nat) (s : State) : Out :=
  let g := s.age place age
  let s1 := if g.out.isEmpty then s else s.freshened
  .next (if !g.out.isEmpty && (!s.ageGoes place age || (Config.freeValue s.dev.fresh).getLsbD 63) then s1.agePerform place age (s.agePick place age)
    else if !s.ageWrites place age then s
    else if g.exhausted then s.setAge place age { g with state := 0 }
    else
      match g.part with
      | [] => s1.agePop place age
      | x :: rest =>
        let span := bitSpan g.bitAddr g.bits
        if g.misaligned then s1.ageAccessFault place age 0x12 0 6 span.2.1 g.zone span.1
        else s1.agePost place age rest (g.store x))

/-! The control word (R258, R300, R376) -/

/-- The port bound to an AGE. -/
def State.agePort (s : State) (p a : Nat) : Option Nat :=
  (upTo 16).find? (fun n => (s.port p n).bind == 2 && (s.port p n).age.toNat == a)

/-- AGE_RESUME: The AGE control RESUME bit resumes an AGE at its faulting element (R258); a stopped AGE continues from its save area while a port is bound to it. One whose packet still waits for room stays stopped (R283). -/
def execAgeResume (place age : Nat) (s : State) : Out :=
  let g := s.age place age
  .next (if s.dev.sending 2 place age = false ∧ (g.state = 2 ∨ (g.state = 3 ∧ (s.agePort place age).isSome = true)) then
      match s.agePort place age with
      | some n =>
        if decide (n < 8) = decide (g.port.toNat < 8) then s.runAge place age { g with port := BitVec.ofNat 4 n }
        else s.ageFault place age 0x31 0 0 (BitVec.ofNat 64 n) 0
      | none => s.runAge place age g
    else s)

/-- AGE_STOP: The AGE control STOP bit stops an AGE into its save area (R376). -/
def execAgeStop (place age : Nat) (s : State) : Out :=
  .next (s.stopAge place age)

/-! Timeouts (R416) -/

/-- The access that an AGE makes: kind (R374), size, zone and address. -/
def State.ageAccess (s : State) (p a : Nat) : Option (Nat × Nat × Nat × Dbl) :=
  let g := s.age p a
  let span := bitSpan g.bitAddr g.bits
  match g.out with
  | e :: _ => some (6, e.data.length, e.zone, e.va)
  | [] =>
  match g.fetch with
  | some (zone, rec_) =>
    if g.state ≠ 1 ∨ s.ageHeld p = true then none
    else if g.record.length = 8 then some (5, 120, zone, rec_ + 8)
    else some (5, 8, zone, rec_)
  | none =>
    if !s.ageRuns p a || g.exhausted || g.misaligned then none
    else if g.isWriter then none
    else if 16 ≤ (s.port p g.port.toNat).q.length then none
    else if g.scaleDue && s.dev.overLink g.szone then some (5, 2, g.szone, g.scaleAddr)
    else some (5, span.2.1, g.zone, span.1)

/-- What an access of a kind (R374) asks of the host (R414): read and write. -/
def kindRights (kind : Nat) : Bool × Bool :=
  match kind with
  | 1 => (false, true)
  | 6 => (false, true)
  | 2 => (true, true)
  | _ => (true, false)

/-- The same for a posted item: a REL reads its binder first (R218). -/
def Posted.rights (p : Posted) : Bool × Bool := (p.what.isRel && p.status != 4 && p.status != 6, true)

/-- The access waits for a Page Request Group Response, on which the device sets no timeout (R414): its page's request asks what it needs, which the translation does not grant. -/
def Dev.waitsPage (d : Dev) (ctx zone : Nat) (va : Dbl) (rights : Bool × Bool) : Bool :=
  let page := va.toNat / 4096
  zoneOf zone == .host && d.pri.contains ⟨ctx, page, rights.1, rights.2⟩ &&
  !d.ats.any (fun t => t.ctx == ctx && t.page == page && (!rights.1 || t.rd) && (!rights.2 || t.wr))

/-- An access can exceed the completion timeout: it leaves the device, and it is not one that waits for a page (R414, R416). -/
def Dev.canTimeOut (d : Dev) (ctx zone : Nat) (va : Dbl) (rights : Bool × Bool) : Bool := d.overLink zone && !d.waitsPage ctx zone va rights

/-- COMPLETION_TIMEOUT: A host or fabric access exceeds its completion timeout (R416): the request of instruction `idx` of the block with slot number `tag` faults, one of whose parts has had no completion; with `tag` 8, the posted item `idx` enters its replay queue (R281); with `tag` 9, the access that AGE `idx` makes faults (R258). -/
def execCompletionTimeout (hart tag idx : Nat) (s : State) : Out :=
  .next (if tag = 8 then
      match s.readyItem hart idx with
      | some p =>
        match p.what.page with
        | some (z, pg) => if s.dev.canTimeOut (s.hart hart).ctxid.toNat z (BitVec.ofNat 64 (4096 * pg)) p.rights then s.enterReplay hart idx p 0x1C else s
        | none => s
      | none => s
    else if tag = 9 then
      match s.ageAccess hart idx with
      | some (kind, size, zone, va) => if s.dev.canTimeOut ((s.mt hart).age idx).ctx zone va (kindRights kind) then (s.ageRewind hart idx 0).ageAccessFault hart idx 0x1C 0 kind size zone va else s
      | none => s
    else
      match s.pendingReq hart tag idx with
      | none => s
      | some (b, r) =>
        let h := s.hart hart
        match h.accessOf b r with
        | some (k, n) => if (h.restOf b r).any (fun p => s.dev.canTimeOut h.ctxid.toNat r.zone (BitVec.ofNat 64 p.1) (kindRights k)) then s.lateFault hart tag r (accessFault idx r.packetLsid (r.cause 0x1C) r.zone k n 0 r.va true) else s
        | none => s)

end Sys2Proof.Machine
end

