-- ==== Sys2Proof/Machine/TaskEv.lean ====
section
/-! DEFINITION. The steps of tasks between blocks: JOIN and YIELD (R272, R289, R292), owner pops and thefts (R267, R268, R322), quiescence (R276, R296), widening (R31-R35), the kick of an engine hart (R305), and the retries of a deque engine (R264, R270). -/
namespace Sys2Proof.Machine

/-! JOIN and YIELD -/

/-- JOIN_WORD_READ: The oldest JOIN block reads its word with acquire and commits (R289): with JCOUNT 0 it continues, else its task is to suspend. A replay notice that it meets freezes the core (R281). -/
def execJoinWordRead (hart : Nat) (s : State) : Out :=
  .next (match s.committing hart with
    | some (b, idx, .join c) =>
      let h := s.hart hart
      if s.liveState hart then s.liveFault hart b idx
      else
        match (h.commitNotice b (.join c)).or (h.noticeFor 0 ((h.seg + 56).toNat / 4096)) with
        | some n => { s with dev := s.dev.takeFault hart (some b) (deferredFault n 0xFFFF) false }
        | none =>
          if h.spawnsPending || h.loadsHeld then s
          else
            match (s.countWalk hart 0 (h.seg + 56)).readHome h.ctxid.toNat hart 0 (h.seg + 56) 8 with
            | (_, .wait) => s
            | (s1, .fault x pa) =>
              let s2 := s1.learnAt hart 0 (h.seg + 56)
              s2.setHart hart ((s2.hart hart).putBlock (b.addFault (accessFault idx none x 0 0 8 pa (h.seg + 56) true)))
            | (s1, .bytes bs) =>
              let s1' := s1.learnAt hart 0 (h.seg + 56)
              let s2 := s1'.setHart hart ((s1'.hart hart).acquireWork b.tag)
              s2.commitBlock hart b idx (if wordJcount (leNat bs) = 0 then .goto c else .join c)
    | _ => s)

/-- The failed write of a suspension record freezes the core (R272); the packet names the JOIN or YIELD block, which has committed (R373). -/
def State.suspendFault (s : State) (n cause pa : Nat) (va : Dbl) : State :=
  let f : FaultRec := { plainFault cause 0xFFFF with va := va, late := true, d0 := BitVec.ofNat 64 pa, d1 := accessDetail 1 8 pa }
  { s with dev := s.dev.takeFault n none ((s.hart n).asCame f) false }

/-- After its suspension record a JOIN swaps STATE to SUSP, or continues when the count has reached 0 (R272). -/
def State.swapSusp (s : State) (n : Nat) : State :=
  let h := s.hart n
  let ctx := h.ctxid.toNat
  match s.readHome ctx n 0 (h.seg + 56) 8 with
  | (_, .wait) => s
  | (s1, .fault c pa) => s1.suspendFault n c pa (h.seg + 56)
  | (s1, .bytes bs) =>
    let w := leNat bs
    if wordJcount w = 0 then s1.setHart n { (s1.hart n).acquireWork 8 with susp := none }
    else
      match s1.writeHome ctx n 0 (h.seg + 56) (full (natLe 8 (withState w 1))) (hartWriter n h.came.2.2) with
      | (_, .wait) => s
      | (s2, .fault c pa) => s2.suspendFault n c pa (h.seg + 56)
      | (s2, .bytes _) => ({ s2 with dev := s2.dev.awaits (s2.hart n).graph h.seg true } : State).leaveTask n

/-- After its suspension record a YIELD pushes a resume frame and falls idle, to seek one theft first (R292). -/
def State.pushYield (s : State) (n : Nat) : State :=
  let h := s.hart n
  let f : Frame := { entry := h.seg, args := [], parent := 0, status := 0, resume := true }
  match s.pushFrame h.ctxid.toNat n f.dbls with
  | (s1, false) => s1
  | (s1, true) =>
    let s2 := s1.leaveTask n
    s2.setHart n { s2.hart n with theftFirst := true }

/-- JOIN_SUSPEND: After the suspension record the CAS to SUSP completes or is retried (R272); for a YIELD, the push of its resume frame (R292); every push of its own blocks comes first (R287). A replay notice of the segment's page freezes the core (R281). -/
def execJoinSuspend (hart : Nat) (s : State) : Out :=
  let h := s.hart hart
  .next (match h.susp with
    | none => s
    | some (cont, yields) =>
      if h.run != .running || h.thalt || h.spawnsPending then s
      else
        match h.noticeFor 0 (h.seg.toNat / 4096) with
        | some x => { s with dev := s.dev.takeFault hart none (h.asCame (deferredFault x 0xFFFF)) false }
        | none =>
          match (s.countWalk hart 0 (h.seg + 0x40)).writeHomeAll h.ctxid.toNat hart 0 (h.seg + 0x40) (hartWriter hart h.came.2.2) ((h.suspension cont).flatMap (natLe 8)) with
          | (_, .wait) => s
          | (s1, .fault c pa) => (s1.learnAt hart 0 (h.seg + 0x40)).suspendFault hart c pa (h.seg + 0x40)
          | (s0, .bytes _) =>
            let s1 := s0.learnAt hart 0 (h.seg + 0x40)
            if yields then s1.pushYield hart else s1.swapSusp hart)

/-! Taking work (R267, R268, R322) -/

/-- The core is an idle core of a live domain, with no frame and no theft on its way. -/
def State.seeks (s : State) (n : Nat) : Option Graph :=
  let h := s.hart n
  let q := s.deque n
  if h.run != .idle || h.start.isSome || q.copy.isSome || q.reply.isSome || isEngine n then none
  else
    match s.dev.graph h.graph with
    | some g =>
      if g.state = 0 ∧ g.ring.contains n = true ∧ g.ring.all (fun v => (s.deque v).thief != some n) = true then some g else none
    | none => none

/-- The idle core stands in the context of its graph. -/
def State.inContext (s : State) (n : Nat) : Hart :=
  let h := s.hart n
  match s.dev.graph h.graph with
  | some g => { h with ctxid := BitVec.ofNat 12 g.launch.ctx }
  | none => h

/-- Take a frame that the core's own acquire, of the lines of its graph's context, must precede: a stolen frame (R230), or a resume frame. -/
def State.takeAcquired (s : State) (n : Nat) (xs : List Dbl) : State := (s.setHart n ((s.inContext n).acquireWork 8)).take n xs

/-- Pop the newest frame of a nonempty ring (R267). -/
def State.popRing (s : State) (n : Nat) : State :=
  let q := s.deque n
  let xs := q.slot (q.bidx - 1)
  let q1 : Deque := if q.count = 1 then { q with tidx := q.tidx + 1, bidx := q.tidx + 1 } else { q with bidx := q.bidx - 1 }
  let s1 := s.setDeque n q1
  let s2 := s1.setHart n { s1.hart n with lapWait := false, lap := 0 }
  if (frameOf xs).resume then s2.takeAcquired n xs else s2.take n xs

/-- OWNER_POP: An idle core's deque engine takes a frame from its ring or overflow (R267). -/
def execOwnerPop (hart : Nat) (s : State) : Out :=
  let q := s.deque hart
  .next (match s.seeks hart with
    | none => s
    | some g =>
      if (s.hart hart).theftFirst && decide (1 < g.ring.length) then s
      else if q.count ≠ 0 then s.popRing hart
      else if q.stopped then s
      else if q.ovfcnt ≠ 0 then
        let s1 := s.refill g.launch.ctx hart
        if (s1.deque hart).count ≠ 0 then s1.popRing hart else s1
      else s)

/-- A theft has succeeded: both cores turn black (R276), once the thief has the frame (R448). -/
def State.blacken (s : State) (v n : Nat) : State :=
  let s1 := s.setDeque v { s.deque v with black := true }
  s1.setDeque n { s1.deque n with black := true }

/-- The core that a thief's pointer names; a pointer that names the core itself, since it was alone in its domain when the pointer was set, names the next core of the ring (R322). -/
def Hart.victimOf (h : Hart) (ring : List Nat) (n : Nat) : Nat := if h.victim = n then ringNext ring n else h.victim

/-- The thief receives an empty reply: it is counted (R359), and the victim pointer moves on (R322). -/
def State.emptyReply (s : State) (n : Nat) : State :=
  let q := s.deque n
  let h := s.hart n
  let h1 := h.count 12 1
  let s1 := (s.setDeque n { q with reply := none }).setHart n h1
  match s.dev.graph h.graph with
  | none => s1
  | some g =>
    let lap := h.lap + 1
    let done := decide (g.ring.length ≤ lap + 1)
    s1.setHart n { h1 with victim := nextVictim g.ring n (h.victimOf g.ring n), lap := if done then 0 else lap, lapWait := done, theftFirst := false }

/-- THEFT_REQUEST: A victim MT performs a thief's request by overflow hand-over or CAS (R268); `hart` is the thief. An absorbed victim answers empty (R35). -/
def execTheftRequest (hart : Nat) (s : State) : Out :=
  .next (match s.seeks hart with
    | none => s
    | some g =>
      let h := s.hart hart
      let v := h.victimOf g.ring hart
      let own := s.deque hart
      if g.ring.length ≤ 1 || h.lapWait || (!h.theftFirst && !own.isEmpty) then s
      else
        let q := s.deque v
        let empty := s.setDeque hart { own with reply := some false }
        if !g.ring.contains v then empty
        else if q.stopped then s
        else if q.ovfcnt ≠ 0 then
          match s.overflowTake g.launch.ctx v with
          | (s1, some xs) =>
            (s1.setDeque hart { s1.deque hart with copy := some xs, reply := some true }).blacken v hart
          | (s1, none) => s1.setDeque hart { s1.deque hart with reply := some false }
        else if q.transit || q.count == 0 then empty
        else
          let s1 := s.setDeque v { q with tidx := q.tidx + 1, transit := true, thief := some hart, stolen := q.tidx }
          s1.setDeque hart { s1.deque hart with reply := some true })

/-- THEFT_REPLY: A thief receives a reply and moves its victim pointer on empty (R322); a frame that comes with it, or an empty reply, is counted (R359). -/
def execTheftReply (hart : Nat) (s : State) : Out :=
  let q := s.deque hart
  let h := s.hart hart
  .next (match q.reply with
    | none => s
    | some true =>
      let s1 := s.setDeque hart { q with reply := none, copy := none }
      let h1 : Hart := { h with lap := 0, lapWait := false, theftFirst := false }
      match q.copy with
      | some xs => (s1.setHart hart (h1.count 11 1)).takeAcquired hart xs
      | none => s1.setHart hart h1
    | some false => s.emptyReply hart)

/-- THEFT_COPY_COMPLETE: The thief finishes copying the slot, clears TRANSIT and starts the frame (R268), which is counted (R359); a freed slot ends a faulted spill (R270). -/
def execTheftCopyComplete (hart : Nat) (s : State) : Out :=
  .next (match s.dev.graph (s.hart hart).graph with
    | none => s
    | some g =>
      match g.ring.find? (fun v => (s.deque v).thief == some hart) with
      | none => s
      | some v =>
        if (s.deque hart).reply.isSome || s.dev.torn hart then s
        else
          let q := s.deque v
          let xs := q.slot q.stolen
          let s1 := s.setDeque v { q with transit := false, thief := none, spillf := false }
          ((s1.blacken v hart).setHart hart ((s1.hart hart).count 11 1)).takeAcquired hart xs)

/-- THEFT_LAP_WAIT_EXPIRY: 64 cycles after a lap of empty replies the thief starts a new lap (R322). -/
def execTheftLapWaitExpiry (hart : Nat) (s : State) : Out :=
  .next (s.setHart hart { s.hart hart with lapWait := false })

/-- Items of a core that a fault of its deque engine stopped go on (R264, R270). -/
def Hart.restartItems (h : Hart) : Hart :=
  { h with posted := h.posted.map (fun (p : Posted) => if p.status = 5 then { p with status := 0 } else p) }

/-- The pool of a context holds a segment that can be taken. -/
def State.poolReady (s : State) (ctx p : Nat) : Bool :=
  (s.deque p).heldSpare.isSome ||
  (match (s.readDbl ctx p (s.ctxPool ctx)).2.1 with
   | some head => segOk head
   | none => false)

/-- POOL_TAKE_RETRY: A waiting deque engine retries the take once segments are added (R264, R370): a task's start, or a spill whose take found the pool empty. A start that another fault stopped goes on once it can succeed; that of a resume frame takes no segment (R275). An engine whose packet still waits for room stays stopped (R283). -/
def execPoolTakeRetry (place : Nat) (s : State) : Out :=
  let h := s.hart place
  let q := s.deque place
  .next (match s.dev.graph h.graph with
    | some g =>
      if g.state ≠ 0 ∨ s.dev.sending 3 place 0 = true ∨ (s.poolReady g.launch.ctx place = false ∧ (h.run == .idle && h.start.any Frame.resume) = false) then s
      else if h.run == .idle && h.start.isSome then
        let s1 := s.beginTask place
        if (s1.hart place).start.isNone then s1 else s
      else if q.spillf && q.dry && q.isFull then (s.setDeque place { q with spillf := false }).spill g.launch.ctx place
      else s
    | none => s)

/-- DEQUE_SPILL_RESUME: A Slate core resumes a faulted deque spill, which is repeated from its start (R270); a deque with a free slot has nothing to spill. An engine that another fault stopped goes on too (R264), but for one whose packet still waits for room (R283). -/
def execDequeSpillResume (place : Nat) (s : State) : Out :=
  let ctx := match s.dev.graph (s.hart place).graph with
    | some g => g.launch.ctx
    | none => (s.hart place).ctxid.toNat
  let s0 := s.returnBack ctx place
  let q := s0.deque place
  let s1 := s0.setHart place (s0.hart place).restartItems
  .next (if s.dev.sending 3 place 0 then s
    else if !q.spillf then s1
    else
      let s2 := s1.setDeque place { q with spillf := false }
      if q.isFull then s2.spill ctx place else s2)

/-! Quiescence (R276, R296) -/

/-- A task waits in DOMWAIT in the oldest block. -/
def Hart.inDomwait (h : Hart) : Bool :=
  match h.blocks with
  | [] => false
  | b :: _ => b.reqs.any (fun r => match r.kind with | .domwait _ => true | _ => false)

/-- A core counts as idle: no resident task, or one that waits in DOMWAIT; nothing queued, copied or handed to it. -/
def State.quiet (s : State) (g : Graph) (n : Nat) : Bool :=
  let h := s.hart n
  let q := s.deque n
  (h.run == .idle || (h.run == .running && h.inDomwait)) && h.start.isNone && q.copy.isNone && q.reply != some true &&
  q.isEmpty && !q.transit && g.ring.all (fun v => (s.deque v).thief != some n)

/-- The round count of every DOMWAIT that has fired, by `f` (R450). -/
def Hart.mapDomwait (h : Hart) (f : Nat → Nat) : Hart :=
  { h with blocks := h.blocks.map (fun (b : Block) => { b with reqs := b.reqs.map (fun (r : Req) =>
      match r.kind with
      | .domwait k => { r with kind := .domwait (f k) }
      | _ => r) }) }

/-- One DOMWAIT of the oldest block sends its count of rounds, at least 1 (R296). -/
def State.endOneDomwait (s : State) (n : Nat) (r : Req) : State :=
  let h := s.hart n
  match h.blocks, r.kind with
  | b :: _, .domwait k => s.settle n (some (b.tag, r.idx)) (h.sendWait b r (tokOf (BitVec.ofNat 64 (Nat.max k 1))))
  | _, _ => s

/-- Quiescence: every DOMWAIT of the core's oldest block ends (R296). -/
def State.endDomwait (s : State) (n : Nat) : State :=
  match (s.hart n).blocks with
  | [] => s
  | b :: _ => b.reqs.foldl (fun s r => s.endOneDomwait n r) s

/-- The origin starts a round: it whitens itself and sends a white token on. -/
def State.startRound (s : State) (g : Graph) (n : Nat) : State :=
  let s1 := s.setDeque n { s.deque n with black := false, token := false, tblack := false }
  let nx := ringNext g.ring n
  let s2 := s1.setDeque nx { s1.deque nx with token := true, tblack := false }
  let s3 := g.ring.foldl (fun s k => s.setHart k ((s.hart k).mapDomwait (fun r => r + 1))) s2
  { s3 with dev := s3.dev.setGraph { g with round := g.round + 1, active := true } }

/-- QUIESCENCE_TOKEN_FORWARD: An idle core forwards the domain token, coloured, and whitens (R276); the origin starts the rounds and finds quiescence. -/
def execQuiescenceTokenForward (hart : Nat) (s : State) : Out :=
  .next (match s.dev.graph (s.hart hart).graph with
    | none => s
    | some g =>
      let q := s.deque hart
      if g.state ≠ 0 ∨ g.ring.contains hart = false ∨ s.quiet g hart = false then s
      else if hart = s.dev.origin g then
        if q.token then
          if !q.tblack && !q.black then
            let s1 := g.ring.foldl (fun s n => s.endDomwait n) (s.setDeque hart { q with token := false })
            { s1 with dev := s1.dev.setGraph { g with active := false } }
          else s.startRound g hart
        else if g.active then s
        else s.startRound g hart
      else if q.token then
        let nx := ringNext g.ring hart
        let c := q.black || q.tblack
        let s1 := s.setDeque hart { q with token := false, tblack := false, black := false }
        s1.setDeque nx { s1.deque nx with token := true, tblack := c }
      else s)

/-! Widening (R31-R35) -/

/-- Nothing that its last task has left can still bring a frame to the core's deque: a spawn, a JADD, a retirement, or a decrement that follows from one (R266, R275). -/
def State.noFrameDue (s : State) (n : Nat) : Bool :=
  (s.hart n).posted.all (fun p =>
    match p.what with
    | .spawn _ _ _ _ => false
    | .jadd _ _ => false
    | .retire _ => false
    | _ => true) &&
  (s.deque n).decs.all (fun d => d.2.2) && (s.deque n).redo.all (fun r => r.2.2.2)

/-- The core can be absorbed: idle, its deque empty, its ports empty and unbound, its AGEs idle, and it does not hold the token (R35); an absorbed core takes no frame, so none may be due. -/
def State.absorbable (s : State) (g : Graph) (n : Nat) : Bool :=
  let h := s.hart n
  let q := s.deque n
  let m := s.mt n
  h.run == .idle && h.start.isNone && q.copy.isNone && q.reply.isNone && g.ring.all (fun v => (s.deque v).thief != some n) &&
  q.count == 0 && !q.transit && q.ovfcnt == 0 && !q.spillf && !q.token && !q.stopped && s.noFrameDue n &&
  portMask m (fun p => !p.q.isEmpty || p.bind != 0) == 0 && (upTo 8).all (fun a => (m.age a).state == 0)

/-- The positions of a shape of width `w` that contains `n` lie in the graph's rectangle. -/
def Graph.holdsShape (g : Graph) (w n : Nat) : Bool :=
  let rows := if 4 ≤ w then 2 else 1
  let cols := w / rows
  let r0 := placeRow n / rows * rows
  let c0 := placeCol n / cols * cols
  g.contains (placeClu n) r0 c0 && g.contains (placeClu n) (r0 + rows - 1) (c0 + cols - 1)

/-- WIDEN_RESERVE: The placement unit reserves idle completing tiles and the core stops fetching (R31). -/
def execWidenReserve (hart : Nat) (s : State) : Out :=
  let h := s.hart hart
  .next (match s.dev.graph h.graph with
    | none => s
    | some g =>
      let w := 2 * h.cwidth.toNat
      if h.run != .running || h.reserve.isSome || h.leaving || h.susp.isSome || isEngine hart || g.state != 0 ||
          decide (8 < w) || decide (h.whint ≤ h.cwidth.toNat) || !g.holdsShape w hart then s
      else
        let add := g.cut.filter (fun c =>
          let p := placeOf g.clu (g.row + c.1) (g.col + c.2.1)
          inShape w hart p && !inShape h.cwidth.toNat hart p && !g.absorbed.contains (c.1, c.2.1))
        if add.all (fun c => s.absorbable g (placeOf g.clu (g.row + c.1) (g.col + c.2.1))) then
          let s1 := s.setHart hart { h with reserve := some w }
          { s1 with dev := s1.dev.setGraph { g with absorbed := g.absorbed ++ add.map (fun c => (c.1, c.2.1)) } }
        else s)

/-- Lanes and accumulator columns beyond those of a width read zero (R33, R34). -/
def Hart.clip (h : Hart) (w : Nat) : Hart :=
  { h with vec := { h.vec with v := h.vec.v.filter (fun p => decide (p.1 % 512 < 64 * w)) },
           m := h.m.filter (fun p => decide (p.1 % 256 < 32 * w)) }

/-- The vector context and the accumulators at a new width (R32, R33). -/
def Hart.widened (h : Hart) (w : Nat) : Hart :=
  { h.clip h.cwidth.toNat with cwidth := BitVec.ofNat 4 w, reserve := none }

/-- WIDEN_REDISTRIBUTE: After drain and BUSY clear, registers are redistributed and CWIDTH set (R32). -/
def execWidenRedistribute (hart : Nat) (s : State) : Out :=
  let h := s.hart hart
  .next (match h.reserve with
    | some w =>
      if h.run == .running && h.blocks.isEmpty && h.busy == 0 && h.susp.isNone && !h.leaving then s.setHart hart (h.widened w) else s
    | none => s)

/-! Engine harts (R305) -/

/-- The state of an engine hart at its start: g8 and g9 set, everything else zero. It starts at EENTRY as it stands, aligned or not (DESIGN CHOICE, log 64). -/
def Hart.engineStart (h : Hart) (place : Nat) (ctx : BitVec 12) (entry word kick : Dbl) : Hart :=
  { Hart.reset with
    g := mset 0 (mset 0 [] 8 word) 9 kick, ctxid := ctx, place := BitVec.ofNat 10 place, next := entry, run := .running,
    emul := h.emul, posted := h.posted, notices := h.notices, l1d := h.l1d, look := h.look, bcache := h.bcache,
    trc := h.trc, trace := h.trace, traceLost := h.traceLost }

/-- The wait's fault freezes the engine hart, which stands at EENTRY (R219, R305); a resume makes the wait again. -/
def State.kickFault (s : State) (place : Nat) (f : FaultRec) : State :=
  let n := 1024 + place
  let m := s.mt place
  let s1 := s.setHart n { s.hart n with ctxid := m.ectx, place := BitVec.ofNat 10 place, run := .running, next := m.eentry, kicked := true }
  { s1 with dev := s1.dev.takeFault n none f false }

/-- A fault that the wait meets as an access of a zone (R374). -/
def kickAccess (cause zone pa : Nat) (va : Dbl) : FaultRec :=
  { plainFault cause 0xFFFF with zone := zone, va := va, late := true, d0 := BitVec.ofNat 64 pa, d1 := accessDetail 0 64 pa }

/-- The binder wait of an idle engine hart ends. -/
def State.endKick (s : State) (place : Nat) : State := (s.setMt place { s.mt place with kick := none }).endWait (s.mt place).kick

/-- The wait of an idle engine hart stands at the home of its kick word (R219, R305). -/
def State.awaitKick (s : State) (place : Nat) (l : Loc) : State :=
  if s.waitsAt l (s.mt place).kick then s
  else
    let num := s.dev.nextWait
    let s1 := s.setMt place { s.mt place with kick := some num }
    { s1 with dev := s1.dev.addWait { num := num, loc := l, got := none, cond := 1 } }

/-- ENGINE_KICK_START: A kick ends an idle hart's binder wait and it starts at EENTRY (R305). The wait is an ACQ (R219): it follows the hart's own fences and stores to the binder, meets its replay notices (R281), stands at the home, which evaluates it at every write to WORD, and does the region work before the hart runs. A hart whose packet still waits for room stays stopped (R283). -/
def execEngineKickStart (place : Nat) (s : State) : Out :=
  let n := 1024 + place
  let h := s.hart n
  let m := s.mt place
  .next (if h.run != .idle || s.dev.hartSending n || m.ekick == 0 || (h.ctxid != m.ectx && !h.posted.isEmpty) || h.loadsHeld then s
    else
      if m.ekick.toNat % 64 ≠ 0 then s.kickFault place (kickAccess 0x12 0 0 m.ekick)
      else
      match h.noticeFor 0 (m.ekick.toNat / 4096) with
      | some x => s.kickFault place (deferredFault x 0xFFFF)
      | none =>
        if s.postedTouches n 0 m.ekick 64 then s
        else
          match s.target m.ectx.toNat n 0 m.ekick 64 true false with
          | (_, .wait) => s
          | (s1, .fault c pa) => s1.kickFault place (kickAccess c 0 pa m.ekick)
          | (s0, .at l _) =>
            let bs := s0.binderBytes l (s0.mt place).kick
            let s1 := s0.endKick place
            let word := leNat (bs.take 8)
            let rs := binderRegions bs
            if word = 0 then s0.awaitKick place l
            else
              match rs.find? (fun x => zoneOf x.2.2 == .invalid) with
              | some x => s1.kickFault place (kickAccess 0x10 x.2.2 0 (BitVec.ofNat 64 x.1))
              | none =>
                let h1 := (s1.hart n).engineStart place m.ectx m.eentry (BitVec.ofNat 64 word) m.ekick
                s1.setHart n ((h1.regionWork true rs).awaitWbacks h1))

end Sys2Proof.Machine
end

