-- ==== Sys2Proof/Machine/Homes.lean ====
section
/-! DEFINITION. Steps of the homes and of the memory behind them: walks, invalidations, page moves, the table-invalidation register, watchpoint arming, soft errors, snoops, ATS and PRI (R199-R204, R335, R336, R380, R411, R414-R417). -/
namespace Sys2Proof.Machine

/-! Invalidation (R200, R335, R336) -/

/-- log2 of the page size of size codes 0 to 4 (R336). -/
def sizeShift (k : Nat) : Nat := [12, 16, 25, 29, 38].getD k 12

/-- The invalidation covers a page of a zone of a context. -/
def Inval.covers (i : Inval) (ctx zone page : Nat) : Bool :=
  i.ctx == ctx &&
  (match i.size with
   | 6 => true
   | 5 => i.zone == zone
   | k => i.zone == zone && page * 4096 / 2 ^ sizeShift k == i.va.toNat / 2 ^ sizeShift k)

/-- Drop what the homes and the lookasides hold of the pages covered; size code 6 also drops the cached descriptor. -/
def Dev.invalidate (d : Dev) (i : Inval) : Dev :=
  let d1 := d.mapHarts (fun h => { h with look := h.look.filter (fun t => !i.covers t.ctx t.zone t.page) })
  { d1 with
    tlb := d1.tlb.filter (fun t => !i.covers t.ctx t.zone t.page),
    ats := d1.ats.filter (fun t => !i.covers t.ctx 0xF0 t.page),
    armed := d1.armed.filter (fun p => !i.covers p.1 0 p.2),
    ctxc := if i.size = 6 then d1.ctxc.filter (fun p => p.1 != i.ctx) else d1.ctxc }

/-- INVALIDATION_COMPLETE: A home completes an invalidation after its old-entry requests are performed (R200). -/
def execInvalidationComplete (s : State) : Out :=
  .next (match s.dev.inval with
    | [] => s
    | i :: rest => { s with dev := { s.dev.invalidate i with inval := rest } })

/-- TINV_INVALIDATE: A GO write starts a table invalidation for a context (R411); a write of GO is ignored while BUSY is set, and GO with size code 7 starts nothing. -/
def execTinvInvalidate (ctl : Dbl) (s : State) : Out :=
  let x := ctl.toNat
  let size := bitsOf x 22 20
  .next (if bitOf x 63 = true ∧ s.dev.inval.any (fun i => i.req == 2048) = true then s
    else
      let d := { s.dev with regs := mset 0 s.dev.regs 0x18 (BitVec.ofNat 64 (x % 2 ^ 23)) }
      if size = 7 ∨ bitOf x 63 = false then { s with dev := d }
      else
        { s with dev := { d with inval := d.inval ++
            [{ req := 2048, ctx := bitsOf x 11 0, zone := bitsOf x 19 12, size := size, va := mget 0 d.regs 0x10 }] } })

/-- PAGE_WALK_COMPLETE: A home walk completes, serving the requests waiting on that page (R199). -/
def execPageWalkComplete (ctx zone : Nat) (va : Dbl) (s : State) : Out :=
  .next (match zoneOf zone with
    | .own => (s.xlate ctx zone va.toNat false false).1
    | .fabric => (s.xlate ctx zone va.toNat false false).1
    | _ => s)

/-! Page moves (R204, R332, R345) -/

/-- The frame at the head of a free-frame ring whose three registers start at `key`: none when the ring is empty. -/
def State.ringHead (s : State) (key : Nat) : Option Nat :=
  let base := (mget 0 s.dev.regs key).toNat
  let head := mget 0 s.dev.regs (key + 8)
  if head = mget 0 s.dev.regs (key + 16) then none else some (s.phys64 (base + 8 * head.toNat))

/-- The entry at the head leaves the ring. Its size and where it wraps are not stated: FPHEAD and FPTAIL index the entries from FPBASE on (log 60). -/
def State.ringTake (s : State) (key : Nat) : State :=
  { s with dev := { s.dev with regs := mset 0 s.dev.regs (key + 8) (mget 0 s.dev.regs (key + 8) + 1) } }

/-- Give an entry back at the tail. -/
def State.ringGive (s : State) (key entry : Nat) : State :=
  let base := (mget 0 s.dev.regs key).toNat
  let tail := mget 0 s.dev.regs (key + 16)
  let s1 := s.setPhys64 (base + 8 * tail.toNat) entry
  { s1 with dev := { s1.dev with regs := mset 0 s1.dev.regs (key + 16) (tail + 1) } }

/-- The registers of a stack's frame pool (R345, R410). -/
def poolKey (stack : Nat) : Nat := 0x100 + 24 * stack

/-- Copy one 4 KiB frame of device memory, with its uncorrectable granules (R203, R204). -/
def State.copyFrame (s : State) (src dst : Nat) : State :=
  let moved := (s.dev.uncorr.filter (fun g => 32 * g / 4096 == src / 4096)).map (fun g => g - src / 32 + dst / 32)
  let kept := s.dev.uncorr.filter (fun g => 32 * g / 4096 != dst / 4096)
  let s1 := s.putDev dst (bytesAt s.mem src 4096)
  { s1 with dev := { s1.dev with uncorr := kept ++ moved } }

/-- Step 1 of a move: the leaf group of the page, the values of its entries, each of them a valid 4 KiB piece without PIN, of the group's kind, in a frame that nothing marks executable: Indigo alone writes the execute map (R204, R326, R331). -/
def State.movable (s : State) (ctx page : Nat) : Option (Nat × List Nat) :=
  match s.walk ctx 0 (4096 * page) with
  | .none _ => none
  | .leaf _ leaf e lev =>
    let k := if pteC e then 16 else 1
    let first := leaf - 8 * (page % k)
    let vals := (upTo k).map (fun i => s.phys64 (first + 8 * i))
    let good (v : Nat) : Bool :=
      pteV v && pteL v && !bitOf v 11 && pteC v == pteC e && decide (pteFrame v * 4096 < Config.reservedBase) && !s.dev.frameExec (pteFrame v * 4096)
    if lev = 0 && vals.all good then some (first, vals) else none

/-- Step 3: the pieces are copied to the new frame (R204). -/
def State.copyPieces (s : State) (m : Move) : State :=
  (List.zip (upTo m.vals.length) m.vals).foldl (fun s p => s.copyFrame (pteFrame p.2 * 4096) (m.dst + 4096 * p.1)) s

/-- A compare-and-swap of one leaf at system scope (R204). -/
def State.casLeaf (s : State) (pa old new : Nat) : Option State := if s.phys64 pa = old then some (s.setPhys64 pa new) else none

/-- Entry `i` as the move read it, and as it leaves it. -/
def Move.old (m : Move) (i : Nat) : Nat := m.vals.getD i 0
def Move.new (m : Move) (i : Nat) : Nat := setBits (m.old i) 51 12 (m.dst / 4096 + i)

/-- Step 4: one compare-and-swap for each entry, in increasing index; where one fails, the entries already replaced are set back, each by compare-and-swap (R332). -/
def State.swapLeaves (s : State) (m : Move) : List Nat → State × Bool
  | [] => (s, true)
  | i :: is =>
    let a := m.first + 8 * i
    match s.casLeaf a (m.old i) (m.new i) with
    | none => (s, false)
    | some s1 =>
      match s1.swapLeaves m is with
      | (s2, true) => (s2, true)
      | (s2, false) => ((s2.casLeaf a (m.new i) (m.old i)).getD s2, false)

/-- The homes replace their translations of the moved pieces (R204): one made from another value of its leaf is dropped instead, so that no request mixes its attributes with the new frame (R200). -/
def Dev.moveTlb (d0 : Dev) (m : Move) : Dev :=
  let d := m.vals.foldl (fun d v => d.dropCopies none (.dev (pteFrame v * 4096)) 4096) d0
  { d with
    binders := d.binders.map (fun (w : BinderWait) =>
      match w.loc with
      | .dev pa =>
        match (upTo m.vals.length).find? (fun i => pteFrame (m.old i) == pa / 4096) with
        | some i => { w with loc := .dev (m.dst + 4096 * i + pa % 4096) }
        | none => w
      | _ => w)
    tlb := d.tlb.filterMap (fun (t : Tlb) =>
      if m.first ≤ t.leaf ∧ t.leaf < m.first + 8 * m.vals.length then
        let i := (t.leaf - m.first) / 8
        let e := m.old i
        if t.frame = pteFrame e ∧ t.attr = attrOf d t.ctx (d.ownZone t.zone) (pteFrame e * 4096) e 0 then
          some { t with frame := m.dst / 4096 + i }
        else none
      else some t) }

/-- The vacated frames go to the pools of their stacks: one of 64 KiB where the group's frames follow one another, else each 4 KiB frame by itself (R332, R345). -/
def State.vacate (s : State) (m : Move) : State :=
  let frames := m.vals.map pteFrame
  let base := frames.headD 0
  if m.vals.length = 16 ∧ frames = (upTo 16).map (fun i => base + i) then s.ringGive (poolKey (base * 4096 / 0x1000000000)) (base * 4096 + 1)
  else frames.foldl (fun s f => s.ringGive (poolKey (f * 4096 / 0x1000000000)) (f * 4096)) s

/-- Steps 3 to 6: the pieces are copied and the entries swapped where they still hold what was read, and the vacated frames go to the pools; else the move is abandoned and the new frame returned (R204, R332). -/
def State.finishMove (s : State) (m : Move) : State :=
  let s0 : State := { s with dev := { s.dev with moving := none } }
  match (s0.copyPieces m).swapLeaves m (upTo m.vals.length) with
  | (s1, true) => ({ s1 with dev := s1.dev.moveTlb m } : State).vacate m
  | (s1, false) => s1.ringGive (poolKey m.stack) (m.dst + (m.vals.length == 16).toNat)

/-- PAGE_MOVE: The placement unit moves a page between HBM stacks by copy and CAS (R204): a leaf of 4 or 64 KiB of zone 0x00 with PIN clear, into the frame at the head of the stack's pool when that has the page's size. The first event of a move takes the frame and reads the leaf; the next one with the same operands copies and swaps, so that a store to the leaf between them ends the move (log 58). -/
def execPageMove (ctx : Nat) (va : Dbl) (stack : Nat) (s : State) : Out :=
  let page := va.toNat / 4096
  .next (match s.dev.moving with
    | some m => if m.ctx = ctx ∧ m.page = page ∧ m.stack = stack then s.finishMove m else s
    | none =>
      match s.movable ctx page, s.ringHead (poolKey stack) with
      | some (first, vals), some f =>
        let big := vals.length == 16
        if bitOf f 0 ≠ big ∨ 12 ≤ stack ∨ s.dev.ready.getLsbD stack = false then s
        else
          let s1 := s.ringTake (poolKey stack)
          let dst := bitsOf f 51 12 * 4096 / (4096 * vals.length) * (4096 * vals.length)
          let m : Move := { ctx := ctx, page := page, stack := stack, first := first, vals := vals, dst := dst }
          ({ s1 with dev := { s1.dev with moving := some m } } : State)
      | _, _ => s)

/-! Watchpoints (R380) -/

/-- Write back one line at once; what its home does not take yet stays posted (R194, R210). The write-backs of arming a watchpoint are quiet (R380). -/
def State.flushLine (s : State) (ctx hn : Nat) (quiet : Bool) (l : Line) : State :=
  if l.dirty = 0 then s
  else
    match s.writeBack ctx hn l.zone (BitVec.ofNat 64 (64 * l.line)) l.writeback (l.bad &&& l.dirtyGranules) (s.hart hn).seq quiet with
    | (s1, .bytes _) => s1
    | (s1, _) => s1.setHart hn { s1.hart hn with posted := placeWback (s1.hart hn).posted { evictItem (s.hart hn).seq l with quiet := quiet } }

/-- One core writes back and invalidates its lines of the watched pages and drops their lookaside entries. -/
def State.emptyWatched (s : State) (ctx : Nat) (w : Watch) (hn : Nat) : State :=
  let h := s.hart hn
  let hit (l : Line) : Bool := l.ctx == ctx && w.touches l.zone (l.line / 64)
  let s1 := s.setHart hn { h with l1d := h.l1d.filter (fun l => !hit l),
                                  look := h.look.filter (fun t => !(t.ctx == ctx && w.touches t.zone t.page)) }
  (h.l1d.filter hit).foldl (fun s l => s.flushLine ctx hn true l) s1

def Dev.watchAt (d : Dev) (ctx n : Nat) : Watch :=
  match mget none d.watch (8 * ctx + n) with
  | some w => w
  | none => Watch.reset

/-- WATCH_ARM: Setting EN arms a watchpoint's pages as WT and then, once no write-back of the arming is still on its way to its home, sets ARMED (R380). -/
def execWatchArm (ctx n : Nat) (s : State) : Out :=
  let w := s.dev.watchAt ctx n
  let s1 := s.dev.allHarts.foldl (fun s p => s.emptyWatched ctx w p.1) s
  .next { s1 with dev := { s1.dev with watch := mset none s1.dev.watch (8 * ctx + n) (some { w with en := true, armed := !s1.dev.arming ctx w }) } }

/-- WATCH_DISARM: Clearing EN disarms pages no other descriptor covers (R380). -/
def execWatchDisarm (ctx n : Nat) (s : State) : Out :=
  let w := { s.dev.watchAt ctx n with en := false, armed := false }
  .next { s with dev := { s.dev with watch := mset none s.dev.watch (8 * ctx + n) (if w = Watch.reset then none else some w) } }

/-! Soft errors, snoops and the host's translations -/

/-- The uncorrectable granules that a core's own lines hold are marked in the line (R203). -/
def Hart.spoilLine (h : Hart) (pos : Nat) (g : Nat) : Hart :=
  match h.l1d[pos]? with
  | some l => { h with l1d := setAt h.l1d pos { l with bad := l.bad ||| (if g = 0 then 1 else 2) } }
  | none => h

/-- An error in a granule that the core has written in a line it holds exclusive strikes the location itself (R193, R203). -/
def Dev.strikeLine (d : Dev) (n pos g : Nat) : Dev :=
  let bit : BitVec 2 := if g = 0 then 1 else 2
  let d1 := match (d.hart n).l1d[pos]? with
    | some k =>
      match k.home, k.excl with
      | some w, some x => d.spoilLine w (x &&& bit)
      | _, _ => d
    | none => d
  d1.setHart n ((d1.hart n).spoilLine pos g)

/-- A header or row in the block cache that fails its code stands with one word too many: a fetch that hits it takes the fault (R203). -/
def Hart.spoilCode (h : Hart) (pos : Nat) : Hart :=
  match h.bcache[pos]? with
  | some e => { h with bcache := setAt h.bcache pos (e.1, e.2.1, if e.2.2.length % 16 = 0 then e.2.2 ++ [0] else e.2.2) }
  | none => h

/-- A granule of a tile's scratchpad now reads as uncorrectable (R203). -/
def Dev.spoilScratch (d : Dev) (p g : Nat) : Dev :=
  let m := d.mt p
  d.setMt p { m with errs := if m.errs.contains g then m.errs else m.errs ++ [g] }

/-- MEMORY_SOFT_ERROR: A soft error strikes an SRAM or HBM granule; a corrected error is counted and logged (R437), and an uncorrectable one stays in the location (R203). Below 2^60 the operand names a byte of device memory or, from 2^52 on, of a scratchpad; from 2^60 on an L1D line by hart, position and granule, and from 2^61 on an entry of the block cache by hart and position (log 58). -/
def execMemorySoftError (pa : Nat) (uncorrectable : Bool) (s : State) : Out :=
  let x := pa - 2 ^ 60
  .next { s with dev :=
    if !uncorrectable then ({ s.dev with corrected := s.dev.corrected + 1 } : Dev).logEvent 1 pa
    else if pa < 2 ^ 52 then s.dev.spoil (pa / 32)
    else if pa < 2 ^ 60 then s.dev.spoilScratch ((pa - 2 ^ 52) / 2 ^ 20) (pa % 2 ^ 20 / 32)
    else if 2 ^ 61 ≤ pa then
      let y := pa - 2 ^ 61
      s.dev.setHart (y / 2 ^ 20) ((s.dev.hart (y / 2 ^ 20)).spoilCode (y % 2 ^ 20))
    else s.dev.strikeLine (x / 2 ^ 20) (x % 2 ^ 20 / 2) (x % 2) }

/-- CXL_CACHE_SNOOP: The host snoops a zone 0xF0 line that the device caches as COH over CXL.cache (R414): every core's copy of it goes. -/
def execCxlCacheSnoop (ctx : Nat) (va : Dbl) (s : State) : Out :=
  .next { s with dev := s.dev.mapHarts (fun h => { h with l1d := h.l1d.filter (fun l => !(l.ctx == ctx && l.zone == 0xF0 && l.line == lineOf va.toNat)) }) }

/-- BACK_INVALIDATE_RESPONSE: A back-invalidate snoop response lets a waiting device write proceed (R417). -/
def execBackInvalidateResponse (pa : Nat) (s : State) : Out :=
  .next { s with dev := { s.dev with bisnp := s.dev.bisnp.filter (fun k => k != pa / 64) } }

/-- ATS_TRANSLATION_COMPLETION: An ATS completion answers a Translation Request with the page's frame in host memory and the permissions, and the home translates or asks PRI (R414): an access that lacks a permission asks for the page when it is next offered. A completion without a request is nothing. -/
def execAtsTranslationCompletion (ctx : Nat) (va : Dbl) (rights : Bool × Bool) (frameSize : Nat × Nat) (s : State) : Out :=
  let page := va.toNat / 4096
  .next (match s.ctxPasid ctx, s.dev.atsAsked.contains (ctx, page) with
    | none, _ | _, false => s
    | some _, true =>
      { s with dev := { s.dev with atsAsked := s.dev.atsAsked.erase (ctx, page), ats := (s.dev.ats.filter (fun t => !(t.ctx == ctx && t.page == page))) ++
          [{ ctx := ctx, page := page, frame := frameSize.1, rd := rights.1, wr := rights.2, size := frameSize.2 }] } })

/-- The steps that make the accesses of the device to a page of zone 0xF0: a block's request, of which an LDV's or a CBLD's parts in that page, a posted item, an AGE's access. -/
def State.hostAccesses (s : State) (page : Nat) : List (State → Out) :=
  s.dev.allHarts.flatMap (fun p =>
    p.2.blocks.flatMap (fun b => (b.reqs.filter (fun r => r.zone == 0xF0)).map (fun r =>
      match r.kind with
      | .atomic _ _ _ _ => execAtomicPerform p.1 b.tag r.idx
      | .vload _ _ _ _ _ => fun t => t.tryPage p.1 b.tag r.idx page
      | .cbld => fun t => t.tryPage p.1 b.tag r.idx page
      | _ => execLoadReply p.1 b.tag r.idx)) ++
    (List.zip (upTo p.2.posted.length) p.2.posted).filterMap (fun x =>
      match x.2.what.page with
      | some (0xF0, _) => some (if x.2.what.isRel then execRelItemPerform p.1 x.1 else execPostedStorePerform p.1 x.1)
      | _ => none)) ++
  s.dev.mts.flatMap (fun p => (upTo 8).filterMap (fun a =>
    match s.ageAccess p.1 a with
    | some (_, _, 0xF0, _) =>
      let g := s.age p.1 a
      some (if g.fetch.isSome then execAgeRecordFetch p.1 a else if g.isWriter then execAgeElementWrite p.1 a else execAgeElementDeliver p.1 a)
    | _ => none))

def nextOr (s : State) (o : Out) : State :=
  match o with
  | .next t => t
  | _ => s

/-- The access waits for the answer to that Page Request: with the request gone it asks the host anew (R414). -/
def State.asksPage (s : State) (q : Pri) (run : State → Out) : Bool :=
  let t := nextOr s (run { s with dev := { s.dev with pri := s.dev.pri.erase q, atsAsked := s.dev.atsAsked.erase (q.ctx, q.page) } })
  t.dev.pri.contains q || t.dev.atsAsked.contains (q.ctx, q.page)

/-- A Page Request has failed: every access that waits for its answer takes the fault, and no later one (R414). -/
def State.failPage (s : State) (q : Pri) : State :=
  let s0 : State := { s with dev := { s.dev with pri := s.dev.pri.erase q } }
  let t := (s.hostAccesses q.page).foldl (fun t run =>
    if s.asksPage q run then nextOr t (run { t with dev := { t.dev with priFail := [q] } }) else t) s0
  { t with dev := { t.dev with priFail := [] } }

/-- PRI_RESPONSE: A Page Request Group Response arrives; success retranslates, failure faults the accesses that asked (R414). Code 0 is Success. Of the requests that stand, the oldest are outstanding at the host, as many as it has granted. -/
def execPriResponse (ctx : Nat) (va : Dbl) (code : Nat) (s : State) : Out :=
  let page := va.toNat / 4096
  .next (match (s.dev.pri.take Config.priAllocation).find? (fun q => q.ctx == ctx && q.page == page) with
    | some q =>
      let d : Dev := { s.dev with priSent := s.dev.priSent + (decide (Config.priAllocation < s.dev.pri.length)).toNat }
      if code = 0 then { s with dev := { d with pri := d.pri.erase q, ats := d.ats.filter (fun t => !(t.ctx == ctx && t.page == page)) } }
      else ({ s with dev := d } : State).failPage q
    | none => s)

/-- The context with number `ctx` is bound to the PASID of an ATS Invalidation Request, and the page lies in its range (R415). -/
def State.inAtsRange (s : State) (pasid : Nat) (va : Dbl) (pages ctx page : Nat) : Bool :=
  s.ctxPasid ctx == some pasid && decide (va.toNat / 4096 ≤ page) && decide (page < va.toNat / 4096 + pages)

/-- The home holds a translation, or a core one or a line, of the range. -/
def State.holdsAtsRange (s : State) (pasid : Nat) (va : Dbl) (pages : Nat) : Bool :=
  let hit := s.inAtsRange pasid va pages
  s.dev.ats.any (fun t => hit t.ctx t.page) ||
  s.dev.allHarts.any (fun p => p.2.look.any (fun t => t.zone == 0xF0 && hit t.ctx t.page) || p.2.l1d.any (fun l => l.zone == 0xF0 && hit l.ctx (l.line / 64)))

/-- ATS_INVALIDATION: An ATS invalidation is taken and completed after the home's steps (R415). When it is taken the translations and the lines of the range go; each access that the home translated with one of them has been performed, since it is translated and performed in one step (log 54). Its completion is sent in a later step, until which the request stands: the same event then; at once where nothing of the range was held, as for a PASID bound to no context. -/
def execAtsInvalidation (pasid : Nat) (va : Dbl) (pages : Nat) (s : State) : Out :=
  let hit := s.inAtsRange pasid va pages
  if (pasid, va, pages) ∈ s.dev.atsInval then
    .next { s with dev := { s.dev with atsInval := s.dev.atsInval.erase (pasid, va, pages), invalSent := s.dev.invalSent + 1 } }
  else if s.holdsAtsRange pasid va pages then
    let d := s.dev.mapHarts (fun h => { h with look := h.look.filter (fun t => !(t.zone == 0xF0 && hit t.ctx t.page)), l1d := h.l1d.filter (fun l => !(l.zone == 0xF0 && hit l.ctx (l.line / 64))) })
    .next { s with dev := { d with ats := d.ats.filter (fun t => !hit t.ctx t.page), atsInval := d.atsInval ++ [(pasid, va, pages)] } }
  else .next { s with dev := { s.dev with invalSent := s.dev.invalSent + 1 } }

end Sys2Proof.Machine
end

