-- ==== Sys2Proof/Machine/Objects.lean ====
section
/-! DEFINITION. Code objects (R346-R350, R476): placement, relocation, resolution, verification and the execute map at a load; the registry's reference counts; unloading and withdrawal. A page that is mapped keeps its frame and takes its section's attributes; a page that is not gets the next of the frames that the loader has (log 18). The entry layouts of sections, symbols and relocations are fields in listed order (log 19). -/
namespace Sys2Proof.Machine

/-! Reading an object -/

structure Sect where
  off : Nat
  size : Nat
  typ : Nat
  align : Nat
  deriving DecidableEq, Repr

structure Sym where
  name : List Byte
  sect : Nat
  bind : Nat
  kind : Nat
  value : Nat
  size : Nat
  deriving DecidableEq, Repr

structure Rel where
  sect : Nat
  off : Nat
  sym : Nat
  kind : Nat
  addend : Nat
  deriving DecidableEq, Repr

def numAt (bs : List Byte) (off n : Nat) : Nat := leNat ((bs.drop off).take n)

/-- Bytes of device memory that zone 0x00 of a context shows from an address; `none` where a page is not translated. -/
def State.zoneBytes (s : State) (ctx : Nat) (va n : Nat) : Option (List Byte) :=
  (piecesOf va n).foldl (fun acc p =>
    match acc with
    | none => none
    | some bs =>
      match s.walk ctx 0 p.1 with
      | .leaf pa _ _ _ => some (bs ++ bytesAt s.mem pa p.2)
      | .none _ => none) (some [])

/-- MAGIC and format 1.0 (R346). -/
def headerOk (h : List Byte) : Bool := numAt h 0 4 == 0x424F4C57 && numAt h 4 2 == 1 && numAt h 6 2 == 0

def sectAt (bs : List Byte) (i : Nat) : Sect :=
  let x := bs.drop (numAt bs 48 8 + 32 * i)
  { off := numAt x 0 8, size := numAt x 8 8, typ := numAt x 16 1, align := numAt x 17 1 }

/-- A string of the string table: up to its zero byte. -/
def stringAt (bs : List Byte) (off : Nat) : List Byte :=
  ((bs.drop (numAt bs 72 8 + off)).take (numAt bs 44 4)).takeWhile (fun b => b != 0)

def symAt (bs : List Byte) (i : Nat) : Sym :=
  let x := bs.drop (numAt bs 56 8 + 32 * i)
  { name := stringAt bs (numAt x 0 4), sect := numAt x 4 2, bind := numAt x 6 1, kind := numAt x 7 1, value := numAt x 8 8, size := numAt x 16 8 }

def relAt (bs : List Byte) (i : Nat) : Rel :=
  let x := bs.drop (numAt bs 64 8 + 24 * i)
  { sect := numAt x 0 4, off := numAt x 4 4, sym := numAt x 8 4, kind := numAt x 12 4, addend := numAt x 16 8 }

def sections (bs : List Byte) : List Sect := (upTo (numAt bs 32 4)).map (sectAt bs)
def symbols (bs : List Byte) : List Sym := (upTo (numAt bs 36 4)).map (symAt bs)
def relocations (bs : List Byte) : List Rel := (upTo (numAt bs 40 4)).map (relAt bs)

/-! Placement (R347, R476) -/

def alignUp (a k : Nat) : Nat := (a + k - 1) / k * k

/-- Addresses of the sections, each at a multiple of 4 KiB and of its alignment. Their order and distances R476 leaves to the loader: text stands from one base and every other section from a second, in the object's order and without further gaps (DESIGN CHOICE, log 63). -/
def placeSects : List Sect → Nat → Nat → List Nat
  | [], _, _ => []
  | x :: xs, t, d =>
    let k := Nat.max 4096 (2 ^ x.align)
    if x.typ = 0 then
      let a := alignUp t k
      a :: placeSects xs (a + x.size) d
    else
      let a := alignUp d k
      a :: placeSects xs t (a + x.size)

/-- The initial bytes of a section: zeros for bss. -/
def sectBytes (bs : List Byte) (x : Sect) : List Byte :=
  if x.off = 0 ∨ x.typ = 3 then List.replicate x.size 0 else (bs.drop x.off).take x.size

/-! Resolution (R348) -/

/-- The definition of a global name among the loaded objects: a strong one, else the earliest weak one. Whether an object whose unload is pending (STATE 2) still supplies definitions R348 does not say: it does (DESIGN CHOICE, log 63). -/
def globalDef (objs : List Obj) (ctx : Nat) (name : List Byte) : Option (Nat × Dbl) :=
  let defs := (objs.filter (fun o => o.ctx == ctx && (o.state == 1 || o.state == 2))).flatMap (fun o => o.syms.filter (fun y => y.1 == name && y.2.1 != 0))
  match defs.find? (fun y => y.2.1 == 1) with
  | some y => some (1, y.2.2)
  | none =>
    match defs with
    | y :: _ => some (2, y.2.2)
    | [] => none

/-- What a reference through symbol `y` binds to; `none` when a strong reference is not defined. -/
def resolveSym (objs : List Obj) (ctx : Nat) (own : List (List Byte × Nat × Dbl)) (addrs : List Nat) (y : Sym) : Option Dbl :=
  let here : Dbl := BitVec.ofNat 64 (addrs.getD y.sect 0 + y.value)
  if y.sect ≠ 0xFFFF ∧ y.bind = 0 then some here
  else
    match globalDef objs ctx y.name, own.find? (fun o => o.1 == y.name && o.2.1 == 1) with
    | some (1, a), _ => some a
    | _, some o => some o.2.2
    | some (_, a), none => some a
    | none, none =>
      match own.find? (fun o => o.1 == y.name && o.2.1 == 2) with
      | some o => some o.2.2
      | none => if y.bind = 2 then some 0 else none

/-! Relocation (R346) -/

/-- The word at a byte offset of a section. -/
def wordIn (bs : List Byte) (off : Nat) : Nat := numAt bs off 4

def putBytes (bs : List Byte) (off : Nat) (new : List Byte) : List Byte := bs.take off ++ new ++ bs.drop (off + new.length)

/-- The offset of the block that holds a byte of a text section: blocks follow one another at 128-byte boundaries, with zeros between them where .align has put padding (R93): 128 bytes without the FMT of a header are no block. R346 gives no rule by which the loader finds the block of an OFF21 word: this scan, not the block symbols (DESIGN CHOICE, log 63). -/
def blockOf (bs : List Byte) (off : Nat) : Nat → Nat → Nat
  | 0, b => b
  | n + 1, b =>
    let w := wordIn bs b
    let size := if bitsOf w 31 24 = 0xA5 then alignUp (128 + 64 * hdrRows [BitVec.ofNat 32 w]) 128 else 128
    if off < b + size then b else blockOf bs off n (b + size)

/-- Apply one relocation to its section's bytes; `none` when the target is out of range. -/
def applyRel (bs : List Byte) (base : Nat) (r : Rel) (v : Dbl) : Option (List Byte) :=
  let a := (v + BitVec.ofNat 64 r.addend).toNat
  match r.kind with
  | 0 => some (putBytes bs r.off (natLe 8 a))
  | 1 =>
    some ((upTo 5).foldl (fun bs k =>
      let o := r.off + 4 * k
      let imm := if k = 0 then bitsOf a 63 56 else bitsOf a (69 - 14 * k) (56 - 14 * k)
      putBytes bs o (natLe 4 (setBits (wordIn bs o) 24 11 imm))) bs)
  | _ =>
    let blk := base + blockOf bs r.off bs.length 0
    let d : Int := (a : Int) - blk
    if d % 128 ≠ 0 ∨ d < -(2 ^ 27) ∨ (2 ^ 27 : Int) ≤ d then none
    else some (putBytes bs r.off (natLe 4 (setBits (wordIn bs r.off) 24 4 (wrap 21 (d / 128)))))

/-! The registry (R349) -/

/-- Bytes of registry entry `i` of a context. -/
def State.regEntry (s : State) (ctx i : Nat) : Option Nat :=
  let base := descDbl (s.descriptor ctx) 32
  match s.walk ctx 0 (base + 64 * i) with
  | .leaf pa _ _ _ => if base = 0 then none else some pa
  | .none _ => none

/-- What the homes do at a write of the loader under a context's translation: A and D in the leaf (R333), the bits of the bitmap sessions (R339). -/
def State.touchPage (s : State) (ctx page : Nat) : State :=
  match s.walk ctx 0 (4096 * page) with
  | .leaf _ leaf _ _ => (s.setPhys64 leaf (s.phys64 leaf ||| 0x300)).armPage ctx page
  | .none _ => s

/-- Write the registry entry of an object. -/
def State.writeRegistry (s : State) (o : Obj) (refcnt : Nat) : State :=
  match s.regEntry o.ctx o.slot with
  | some pa =>
    let s := s.touchPage o.ctx ((descDbl (s.descriptor o.ctx) 32 + 64 * o.slot) / 4096)
    let bs := natLe 8 o.base.toNat ++ natLe 8 o.len ++ natLe 4 refcnt ++ natLe 1 o.state ++ natLe 3 0 ++ natLe 8 o.id.toNat
    s.putDev pa bs
  | none => s

def State.refcnt (s : State) (o : Obj) : Nat :=
  match s.regEntry o.ctx o.slot with
  | some pa => leNat (bytesAt s.mem (pa + 16) 4)
  | none => 0

/-- The object's text covers an address. -/
def Obj.covers (o : Obj) (a : Dbl) : Bool := decide (o.base.toNat ≤ a.toNat) && decide (a.toNat < o.base.toNat + o.len)

/-- The object that covers an address of a context's text: one that is loaded, else one that has been withdrawn. -/
def Dev.covering (d : Dev) (ctx : Nat) (a : Dbl) : Option Obj :=
  match d.objs.find? (fun o => o.ctx == ctx && o.covers a && (o.state == 1 || o.state == 2)) with
  | some o => some o
  | none => d.objs.find? (fun o => o.ctx == ctx && o.covers a && o.state != 0)

/-! Withdrawal (R350) -/

/-- Withdraw an object: its frames leave the execute map, its leaves go and are invalidated, STATE becomes 3. -/
def State.withdraw (s : State) (o : Obj) : State :=
  let s1 := o.pages.foldl (fun s p =>
    match s.walk o.ctx 0 (4096 * p) with
    | .leaf _ leaf _ _ =>
      let s1 := s.setPhys64 leaf 0
      { s1 with dev := s1.dev.invalidate { req := 2048, ctx := o.ctx, zone := 0, size := 0, va := BitVec.ofNat 64 (4096 * p) } }
    | .none _ => s) s
  let n := s1.refcnt o
  let o1 : Obj := { o with state := 3 }
  let d := { s1.dev with xmap := s1.dev.xmap.filter (fun x => !(x.1 == o.ctx && o.frames.contains x.2)),
                         objs := s1.dev.objs.map (fun (x : Obj) => if x.ctx = o.ctx ∧ x.slot = o.slot then o1 else x) }
  ({ s1 with dev := d } : State).writeRegistry o1 n

/-- The object of a reference's id that covers its address: for a reference that is added the one that is found there now, for one that is taken back the earliest that still holds some. -/
def State.refObj (s : State) (ctx : Nat) (r : Dbl × Dbl) (up : Bool) : Option Obj :=
  if up then s.dev.covering ctx r.1 else s.dev.objs.find? (fun o => o.ctx == ctx && o.id == r.2 && o.covers r.1 && decide (0 < s.refcnt o))

/-- Change REFCNT of the objects that references (address and id) name; a pending unload is done at 0 (R349, R350). -/
def State.countRefs (s : State) (ctx : Nat) (refs : List (Dbl × Dbl)) (up : Bool) : State :=
  refs.foldl (fun s r =>
    match s.refObj ctx r up with
    | none => s
    | some o =>
      let n := if up then s.refcnt o + 1 else s.refcnt o - 1
      let s1 := s.writeRegistry o n
      if n = 0 ∧ o.state = 2 then s1.withdraw o else s1) s

/-! Loading -/

/-- The pages of a placed section. -/
def pagesOf (a n : Nat) : List Nat := (upTo ((n + 4095) / 4096)).map (fun i => a / 4096 + i)

/-- What a load is to do: sections with addresses and bytes, symbols, registry entry; or a status (R348). -/
structure Plan where
  id : Dbl
  base : Nat
  len : Nat
  parts : List (Sect × Nat × List Byte)
  syms : List (List Byte × Nat × Dbl)
  slot : Nat
  deriving DecidableEq, Repr

/-- The pages of a plan's sections, in order. -/
def Plan.pages (p : Plan) : List Nat := p.parts.flatMap (fun x => pagesOf x.2.1 x.1.size)

/-- Relocate the sections' bytes, in order; 5 for a reference that stays undefined, 6 for a target out of range. -/
def relocate (objs : List Obj) (ctx : Nat) (own : List (List Byte × Nat × Dbl)) (addrs : List Nat) (syms : List Sym) :
    List Rel → List (List Byte) → Nat × List (List Byte)
  | [], parts => (0, parts)
  | r :: rs, parts =>
    match syms[r.sym]? with
    | none => (1, parts)
    | some y =>
      match resolveSym objs ctx own addrs y with
      | none => (5, parts)
      | some v =>
        match applyRel (parts.getD r.sect []) (addrs.getD r.sect 0) r v with
        | none => (6, parts)
        | some bs => relocate objs ctx own addrs syms rs (setAt parts r.sect bs)

/-- The first free registry entry. -/
def State.freeEntry (s : State) (ctx : Nat) : Option Nat :=
  (upTo 256).find? (fun i =>
    match s.regEntry ctx i with
    | some pa => (byteAt s.mem (pa + 20)) == 0
    | none => false)

/-- The address of the level-0 entry of a page, where the tables reach down to it (R330, R331). -/
def State.slotFrom (s : State) (va node : Nat) : Nat → Option Nat
  | 0 => some (node + 8 * bitsOf va 24 12)
  | lev + 1 =>
    let idx := bitsOf va (13 * (lev + 1) + 24) (13 * (lev + 1) + 12)
    let e := s.phys64 (node + 8 * idx)
    if !pteV e || pteL e || pteMalformed true e (lev + 1) idx then none else s.slotFrom va (pteFrame e * 4096) lev

def State.pageSlot (s : State) (ctx page : Nat) : Option Nat :=
  let zdir := descDbl (s.descriptor ctx) 0
  let node := bitsOf (s.phys64 zdir) 51 16 * 2 ^ 16
  if zdir = 0 ∨ s.ctxLive ctx = false ∨ node = 0 ∨ Config.reservedBase ≤ node then none else s.slotFrom (4096 * page) node 3

/-- The page has a 4 KiB leaf. -/
def State.mapped (s : State) (ctx page : Nat) : Bool :=
  match s.walk ctx 0 (4096 * page) with
  | .leaf _ _ _ lev => lev == 0
  | .none _ => false

/-- The page has none yet, but an empty entry for one. -/
def State.mappable (s : State) (ctx page : Nat) : Bool :=
  match s.walk ctx 0 (4096 * page), s.pageSlot ctx page with
  | .none 2, some _ => true
  | _, _ => false

/-- Every page of the plan has a leaf or can have one, with a frame for each that has none: device memory below the reserved frames, each frame once (R345, R347). -/
def State.roomFor (s : State) (ctx : Nat) (p : Plan) (frames : List Nat) : Bool :=
  let missing := p.pages.filter (fun g => !s.mapped ctx g)
  missing.all (fun g => s.mappable ctx g) && decide (missing.length ≤ frames.length) && decide frames.Nodup &&
  frames.all (fun f => decide (4096 * f < Config.reservedBase) && s.dev.frameReady (4096 * f))

/-- No page of the plan is shared with another section or with an object that is loaded (R476). -/
def Dev.apart (d : Dev) (ctx : Nat) (p : Plan) : Bool :=
  decide p.pages.Nodup && d.objs.all (fun o => o.ctx != ctx || !(o.state == 1 || o.state == 2) || o.pages.all (fun g => !p.pages.contains g))

/-- Check an object and plan its load, the steps in the loader's order (R347, R348). It takes the lowest registry entry with STATE 0, and with none free the load answers status 7 (DESIGN CHOICE, log 61). -/
def State.planLoad (s : State) (ctx : Nat) (object textBase dataBase : Dbl) (frames : List Nat) : Nat × Option Plan :=
  match s.zoneBytes ctx object.toNat 128 with
  | none => (1, none)
  | some h =>
    if !headerOk h then (1, none)
    else
      let sigoff := numAt h 8 8
      match s.zoneBytes ctx object.toNat sigoff with
      | none => (1, none)
      | some bs =>
        let ss := sections bs
        let ys := symbols bs
        if ss.any (fun x => decide (3 < x.typ) || (x.typ == 0 && decide (x.align < 7))) || (relocations bs).any (fun r => decide (2 < r.kind)) then (1, none)
        else
          let addrs := placeSects ss textBase.toNat dataBase.toNat
          let own := (ys.filter (fun y => y.sect != 0xFFFF && y.bind != 0)).map (fun y => (y.name, y.bind, (BitVec.ofNat 64 (addrs.getD y.sect 0 + y.value) : Dbl)))
          let clash := own.any (fun o => o.2.1 == 1 && (match globalDef s.dev.objs ctx o.1 with | some (1, _) => true | _ => false))
          let rel := relocate s.dev.objs ctx own addrs ys (relocations bs) (ss.map (sectBytes bs))
          let text := (List.zip addrs ss).filter (fun p => p.2.typ == 0)
          let base := (text.map Prod.fst).headD 0
          let len := text.foldl (fun n p => Nat.max n (p.1 + p.2.size - base)) 0
          if clash then (4, none)
          else if ys.any (fun y => y.sect == 0xFFFF && resolveSym s.dev.objs ctx own addrs y == none) then (5, none)
          else if rel.1 ≠ 0 then (rel.1, none)
          else
            match s.freeEntry ctx with
            | none => (7, none)
            | some slot =>
              let plan : Plan := { id := Config.objectId bs, base := base, len := len, slot := slot, syms := own,
                                   parts := List.zip ss (List.zip addrs rel.2) }
              if !s.dev.apart ctx plan || !s.roomFor ctx plan frames then (7, none)
              else
                let key := numAt h 16 16
                if key != Config.synwenKey && !s.dev.keys.contains key then (3, none)
                else
                  match s.zoneBytes ctx (object.toNat + sigoff) Config.signatureSize with
                  | some sig => if Config.objectSigned key bs sig then (0, some plan) else (2, none)
                  | none => (2, none)

/-- The leaf bits of a section's pages: text RSH with R and X, rodata PRIV with R, data and bss PRIV with R and W (R329, R347). -/
def sectBits (typ : Nat) : Nat :=
  match typ with
  | 0 => 0x4 + 0x10 + 0x40
  | 2 => 0x10
  | _ => 0x10 + 0x20

/-- Give a page without a leaf one for frame `f`. -/
def State.mapPage (s : State) (ctx page f : Nat) : State :=
  match s.pageSlot ctx page with
  | some a => s.setPhys64 a (4096 * f + 3)
  | none => s

/-- Map the pages of a plan that have no leaf, with the loader's frames in order. -/
def State.mapPages (s : State) (ctx : Nat) (pages frames : List Nat) : State :=
  (List.zip (pages.filter (fun g => !s.mapped ctx g)) frames).foldl (fun s p => s.mapPage ctx p.1 p.2) s

/-- Place one page: its bytes, its leaf's attributes, and a place in the execute map for text; a bitmap session sees the page (R339). -/
def State.placePage (s : State) (ctx typ page : Nat) (bs : List Byte) : State :=
  match s.walk ctx 0 (4096 * page) with
  | .none _ => s
  | .leaf pa leaf e _ =>
    let s1 := ({ s with dev := s.dev.healUncorr pa (full bs) } : State).putDev pa bs
    let s2 := (s1.setPhys64 leaf (e - bitsOf e 6 2 * 4 + sectBits typ)).touchPage ctx page
    let d := s2.dev.invalidate { req := 2048, ctx := ctx, zone := 0, size := 0, va := BitVec.ofNat 64 (4096 * page) }
    { s2 with dev := { d with xmap := if typ = 0 then d.xmap ++ [(ctx, pa / 4096)] else d.xmap } }

def State.textFrame (s : State) (ctx page : Nat) : Nat :=
  match s.walk ctx 0 (4096 * page) with
  | .leaf pa _ _ _ => pa / 4096
  | .none _ => 0

/-- OBJECT_LOAD: The loader places, relocates, verifies and maps a code object (R347); a nonzero status leaves the tables and the registry as they were. -/
def execObjectLoad (ctx : Nat) (object : Dbl) (bases : Dbl × Dbl) (frames : List Nat) (s : State) : Out :=
  .next (match s.planLoad ctx object bases.1 bases.2 frames with
    | (st, none) => { s with dev := { s.dev with loadStatus := st } }
    | (_, some p) =>
      let s1 := p.parts.foldl (fun s x =>
        (List.zip (upTo (pagesOf x.2.1 x.1.size).length) (pagesOf x.2.1 x.1.size)).foldl (fun s g =>
          s.placePage ctx x.1.typ g.2 ((x.2.2.drop (4096 * g.1)).take 4096)) s) (s.mapPages ctx p.pages frames)
      let text := (p.parts.filter (fun x => x.1.typ == 0)).flatMap (fun x => pagesOf x.2.1 x.1.size)
      let o : Obj := { ctx := ctx, id := p.id, base := BitVec.ofNat 64 p.base, len := p.len, frames := text.map (s1.textFrame ctx),
                       pages := p.pages, syms := p.syms, state := 1, slot := p.slot }
      ({ s1 with dev := { s1.dev with objs := s1.dev.objs.filter (fun x => !(x.ctx == ctx && x.slot == p.slot)) ++ [o], loadStatus := 0 } } : State).writeRegistry o 0)

/-- The object that an unload names by its identifier, which two loads of the same bytes share: one whose unload is not pending, where there is one. -/
def Dev.unloadable (d : Dev) (ctx : Nat) (object : Dbl) : Option Obj :=
  match d.objs.find? (fun o => o.ctx == ctx && o.id == object && o.state == 1) with
  | some o => some o
  | none => d.objs.find? (fun o => o.ctx == ctx && o.id == object && o.state == 2)

/-- OBJECT_UNLOAD: An object is withdrawn now or marked pending until REFCNT reaches 0 (R350). -/
def execObjectUnload (ctx : Nat) (object : Dbl) (forced : Bool) (s : State) : Out :=
  .next (match s.dev.unloadable ctx object with
    | none => s
    | some o =>
      let n := s.refcnt o
      if forced ∨ n = 0 then s.withdraw o
      else
        let o1 : Obj := { o with state := 2 }
        let d := { s.dev with objs := s.dev.objs.map (fun (x : Obj) => if x.ctx = ctx ∧ x.slot = o.slot then o1 else x) }
        ({ s with dev := d } : State).writeRegistry o1 n)

/-- KEY_INSTALL: An operator installs a public key in the Indigo core (R347), which holds up to 16, the Synwen key among them. -/
def execKeyInstall (key : Nat) (s : State) : Out :=
  .next (if s.dev.keys.contains key ∨ 15 ≤ s.dev.keys.length then s
    else { s with dev := { s.dev with keys := s.dev.keys ++ [key] } })

end Sys2Proof.Machine
end

