-- ==== Sys2Proof/Machine/Areas.lean ====
section
/-! DEFINITION. Registers, ports and the MT system area as the doubles that the debug window shows (R108, R261, R262, R279, R280, R479) and that an Ivory record holds (R400). -/
namespace Sys2Proof.Machine

/-! The register areas (R108, R109, R475) -/

/-- Replace `n` bytes at byte `k` of a double. -/
def patchDbl (old : Nat) (k n v : Nat) : Nat := setBits old (8 * (k + n) - 1) (8 * k) v

/-- The core whose shape holds an XT (R108). -/
def Dev.coreOf (d : Dev) (p : Nat) : Option Nat :=
  (d.harts.find? (fun x => decide (x.1 < 1024) &&
    (match x.2 with
     | some h => (h.run == .running || h.run == .frozen) && inShape h.cwidth.toNat x.1 p
     | none => false))).map Prod.fst

/-- The slice of an XT in its core's shape, row by row (R108, R162). -/
def sliceOf (w n p : Nat) : Nat :=
  let rows := if 4 ≤ w then 2 else 1
  let cols := w / rows
  placeRow p % rows * cols + (placeCol p - placeCol n / cols * cols)

/-- The return stack as its nine doubles, and a write of one of them: entries beyond RES keep what was written for a later RES. -/
def Hart.stackWord (h : Hart) (k : Nat) : Nat :=
  if k = 8 then (depthWord h.rstk.length h.spilled).toNat
  else
    match h.rstk[k]? with
    | some a => a.toNat
    | none => (mget 0 h.rhid k).toNat

def Hart.setStackWord (h : Hart) (k x : Nat) : Hart :=
  if k = 8 then
    let n := Nat.min (x % 16) 8
    { h with rstk := (upTo n).map (fun i => BitVec.ofNat 64 (h.stackWord i)), spilled := BitVec.ofNat 32 (bitsOf x 39 8),
             rhid := (upTo 8).foldl (fun m i => mset 0 m i (if n ≤ i then BitVec.ofNat 64 (h.stackWord i) else 0)) [] }
  else if k < h.rstk.length then { h with rstk := setAt h.rstk k (BitVec.ofNat 64 x) }
  else { h with rhid := mset 0 h.rhid k (BitVec.ofNat 64 x) }

/-- Four zone registers as bytes. -/
def Hart.zWord (h : Hart) : Nat := (upTo 4).foldl (fun x i => x + (mget (0 : Byte) h.z i).toNat * 2 ^ (8 * i)) 0
def Hart.setZWord (h : Hart) (x : Nat) : Hart :=
  { h with z := (upTo 4).foldl (fun z i => mset (0 : Byte) z i (BitVec.ofNat 8 (x / 2 ^ (8 * i)))) h.z }

/-- A system register takes a value through the window (R109): all but TIMEBASE, DMAPVER, TILEREV, CTXID, PLACE and CWIDTH; of MSTAT only COLS and ROWS, up to their limits. A VL above 4,096, for which no limit is given, is stored as 4,096 (log 50). -/
def Dev.windowSys (d : Dev) (n : Nat) (h : Hart) (sel x : Nat) : Hart :=
  match sel with
  | 1 => { h with vec := { h.vec with vl := BitVec.ofNat 13 (Nat.min (x % 2 ^ 13) 4096) } }
  | 4 => { h with taskid := BitVec.ofNat 32 x }
  | 9 => { h with mcols := BitVec.ofNat 9 (Nat.min (bitsOf x 8 0) (32 * h.cwidth.toNat)), mrows := BitVec.ofNat 6 (Nat.min (bitsOf x 14 9) 32) }
  | k => d.writeSys n h k (BitVec.ofNat 64 x)

/-- The committed m-registers and their tags: those that the oldest block has written show what the checkpoint keeps (R108, R164). -/
def Hart.settledM (h : Hart) : SMap Word :=
  match h.ckpt with
  | some (m, _, mask) => pickRegs mask.toNat m h.m
  | none => h.m

def Hart.settledTags (h : Hart) : SMap (BitVec 4) :=
  match h.ckpt with
  | some (_, t, mask) => pickTags mask.toNat t h.mtag
  | none => h.mtag

/-- A committed element of an m-register, or a tag, takes a value: also in the checkpoint, which a discard of uncommitted work restores (R109, R164). -/
def Hart.settleM (h : Hart) (key : Nat) (x : Word) : Hart :=
  { h with m := mset 0 h.m key x, ckpt := h.ckpt.map (fun c => (mset 0 c.1 key x, c.2.1, c.2.2)) }

def Hart.settleTag (h : Hart) (k t : Nat) : Hart :=
  { h.setMtag k t with ckpt := h.ckpt.map (fun c => (c.1, mset 1 c.2.1 k (BitVec.ofNat 4 t), c.2.2)) }

/-- The offsets of the register areas that only the anchor's window shows: all but the tags (R108). -/
def anchorOnly (o : Nat) : Bool := !(o == 0x290 || o == 0x298 || o == 0x2A0)

/-- The double at an aligned offset of the register areas below the slices. -/
def Dev.anchorWord (d : Dev) (n : Nat) (h : Hart) (o : Nat) : Option Nat :=
  if o < 0x200 then some (mget 0 h.g (o / 8)).toNat
  else if o < 0x268 then some (d.sysreg n h ((o - 0x200) / 8)).toNat
  else if o = 0x280 then some h.zWord
  else if o = 0x290 ∨ o = 0x298 then
    some ((upTo 16).foldl (fun x i => x + (mget 0 h.vec.tag (2 * (o - 0x290) + i)).toNat * 2 ^ (4 * i)) 0)
  else if o = 0x2A0 then some ((upTo 8).foldl (fun x i => x + (mget 1 h.settledTags i).toNat * 2 ^ (8 * i)) 0)
  else if 0x300 ≤ o ∧ o < 0x348 then some (h.stackWord ((o - 0x300) / 8))
  else none

def Dev.setAnchorWord (d : Dev) (n : Nat) (h : Hart) (o x : Nat) : Hart :=
  if o < 0x200 then { h with g := mset 0 h.g (o / 8) (BitVec.ofNat 64 x) }
  else if o < 0x268 then d.windowSys n h ((o - 0x200) / 8) x
  else if o = 0x280 then h.setZWord x
  else if o = 0x290 ∨ o = 0x298 then
    { h with vec := { h.vec with tag := (upTo 16).foldl (fun t i => mset 0 t (2 * (o - 0x290) + i) (BitVec.ofNat 4 (x / 2 ^ (4 * i)))) h.vec.tag } }
  else if o = 0x2A0 then (upTo 8).foldl (fun h i => h.settleTag i (if x / 2 ^ (8 * i) % 256 = 0x0A then 0x0A else 0x01)) h
  else h.setStackWord ((o - 0x300) / 8) x

/-- The double at an aligned offset of the v and m areas of slice `k`. -/
def Hart.sliceWord (h : Hart) (k o : Nat) : Nat :=
  let two (a b : Word) : Nat := a.toNat + 2 ^ 32 * b.toNat
  if o < 0x4000 then
    let n := (o - 0x2000) / 256
    let l := 64 * k + o % 256 / 4
    two (mget 0 h.vec.v (512 * n + l)) (mget 0 h.vec.v (512 * n + l + 1))
  else
    let r := (o - 0x4000) / 4096
    let i := (o - 0x4000) % 4096 / 128
    let c := 32 * k + o % 128 / 4
    two (mget 0 h.settledM (mKey r i c)) (mget 0 h.settledM (mKey r i (c + 1)))

def Hart.setSliceWord (h : Hart) (k o x : Nat) : Hart :=
  let lo : Word := BitVec.ofNat 32 x
  let hi : Word := BitVec.ofNat 32 (x / 2 ^ 32)
  if o < 0x4000 then
    let a := 512 * ((o - 0x2000) / 256) + 64 * k + o % 256 / 4
    { h with vec := { h.vec with v := mset 0 (mset 0 h.vec.v a lo) (a + 1) hi } }
  else
    let a := mKey ((o - 0x4000) / 4096) ((o - 0x4000) % 4096 / 128) (32 * k + o % 128 / 4)
    (h.settleM a lo).settleM (a + 1) hi

/-! Port areas (R279, R479) -/

def Port.word (q : Port) : Nat :=
  q.q.length + 2 ^ 5 * q.bind.toNat + 2 ^ 7 * q.age.toNat + 2 ^ 10 * q.dx.toNat + 2 ^ 18 * q.dy.toNat + 2 ^ 26 * q.pport.toNat +
  2 ^ 30 * q.credit.toNat + 2 ^ 35 * q.key.toNat

def emptyEntry : Entry := { val := 0, null := false, nmode := false, tag := 0, scl := [], epoch := none }

/-- The first `c` positions as entries: those held, then what the entry area holds there. -/
def Port.resize (q : Port) (c : Nat) : Port :=
  let es := (upTo c).map (fun i => match q.q[i]? with | some e => e | none => (mget none q.ghost i).getD emptyEntry)
  { q with q := es, ghost := q.ghost.filter (fun p => decide (c ≤ p.1)) }

/-- A written control word (R479): COUNT above 16 is stored as 16, BIND 0b11 keeps its value, no credit moves. A CREDIT above 16, of which nothing is said, is stored as 16 (DESIGN CHOICE, log 61). -/
def Port.control (q : Port) (x : Nat) : Port :=
  let q1 := q.resize (Nat.min (x % 32) 16)
  { q1 with bind := if bitsOf x 6 5 = 3 then q1.bind else BitVec.ofNat 2 (bitsOf x 6 5),
            age := BitVec.ofNat 3 (bitsOf x 9 7), dx := BitVec.ofNat 8 (bitsOf x 17 10), dy := BitVec.ofNat 8 (bitsOf x 25 18),
            pport := BitVec.ofNat 4 (bitsOf x 29 26), credit := BitVec.ofNat 5 (Nat.min (bitsOf x 34 30) 16),
            key := BitVec.ofNat 16 (bitsOf x 50 35) }

/-- The two doubles of an entry position. -/
def Port.entryWord (q : Port) (e : Nat) (hi : Bool) : Nat :=
  match q.q[e]? with
  | none => 0
  | some x => if hi then x.tag.toNat + 2 ^ 4 * x.null.toNat + 2 ^ 5 * x.nmode.toNat else x.val.toNat

def Port.setEntryWord (q : Port) (e : Nat) (hi : Bool) (v : Nat) : Port :=
  let put (x : Entry) : Entry :=
    if hi then { x with tag := BitVec.ofNat 4 v, null := bitOf v 4, nmode := bitOf v 5 } else { x with val := BitVec.ofNat 64 v }
  match q.q[e]? with
  | some x => { q with q := setAt q.q e (put x) }
  | none => { q with ghost := mset none q.ghost e (some (put ((mget none q.ghost e).getD emptyEntry))) }

/-! The MT system area through SYSWIN (R261, R262, R280) -/

def Deque.ctlWord (q : Deque) (k : Nat) : Nat :=
  match k with
  | 0 => q.tidx.toNat + 2 ^ 32 * q.transit.toNat
  | 1 => q.bidx.toNat
  | 2 => q.ovfhead.toNat
  | 3 => q.ovftail.toNat
  | 4 => q.ovfcnt.toNat
  | 5 => q.idle.toNat + 2 * q.black.toNat + 4 * q.token.toNat + 8 * q.tblack.toNat + 16 * q.spillf.toNat
  | k => if k < 10 then (q.spareAt (k - 6)).toNat else 0

def Deque.setCtlWord (q : Deque) (k x : Nat) : Deque :=
  match k with
  | 0 => { q with tidx := BitVec.ofNat 32 x, transit := bitOf x 32, stolen := BitVec.ofNat 32 x - 1 }
  | 1 => { q with bidx := BitVec.ofNat 32 x }
  | 2 => { q with ovfhead := BitVec.ofNat 64 x }
  | 3 => { q with ovftail := BitVec.ofNat 64 x }
  | 4 => { q with ovfcnt := BitVec.ofNat 32 x }
  | 5 => { q with black := bitOf x 1, token := bitOf x 2, tblack := bitOf x 3, spillf := bitOf x 4 }
  | k =>
    if k < 10 then q.setSpare (k - 6) (BitVec.ofNat 64 x) else q

/-- An AGE's save area as its 32 doubles. Of a partial entry of seven 8-bit elements bytes 161-166 hold the first six (log 60). -/
def Age.saveBytes (a : Age) : List Byte :=
  (a.record ++ List.replicate (128 - a.record.length) 0).take 128 ++ a.idx.flatMap (fun i => natLe 4 i) ++ natLe 4 a.pass.toNat ++
  natLe 4 a.run.toNat ++ natLe 4 a.spos.toNat ++ natLe 1 (a.port.toNat + 16 * a.state) ++
  natLe 6 ((List.zip (upTo a.part.length) a.part).foldl (fun x p => x + p.2 * 2 ^ (p.1 * a.bits)) 0) ++ natLe 1 a.part.length ++
  natLe 4 a.done.toNat ++ List.replicate 84 0

/-- The AGE that a save area describes. What the area names no place for stays as it is: the NMODE bit and the scales; of a partial entry it holds 48 bits (R280, log 60). -/
def Age.setSaveBytes (a : Age) (bs : List Byte) : Age :=
  let r : Age := { a with record := bs.take 128 }
  let n := numAt bs 167 1
  { r with idx := (upTo 5).map (fun i => numAt bs (128 + 4 * i) 4), pass := BitVec.ofNat 32 (numAt bs 148 4), run := BitVec.ofNat 32 (numAt bs 152 4),
           spos := BitVec.ofNat 32 (numAt bs 156 4), port := BitVec.ofNat 4 (numAt bs 160 1), state := numAt bs 160 1 / 16 % 8,
           part := (upTo n).map (fun i => numAt bs 161 6 / 2 ^ (i * r.bits) % 2 ^ r.bits), done := BitVec.ofNat 32 (numAt bs 168 4) }

/-- The state that an AGE's save area shows (R280): that of an AGE at rest, and while it runs what was last saved. -/
def Mt.areaOf (m : Mt) (a : Nat) : Age :=
  if (m.age a).state = 1 then (mget none m.areas a).getD Age.reset else m.age a

/-- A double of the system area at byte offset `o` from 0x7E000. -/
def Mt.areaWord (m : Mt) (o : Nat) : Nat :=
  if o < 0x1000 then ((mget [] m.deque.ring (o / 64)).getD (o % 64 / 8) 0).toNat
  else if o < 0x1080 then m.deque.ctlWord ((o - 0x1000) / 8)
  else if 0x1800 ≤ o then numAt (m.areaOf ((o - 0x1800) / 256)).saveBytes (o % 256) 8
  else 0

/-- Write a double of the system area. The reserved bits of a frame's last double stay zero (R6, R263). A running AGE keeps its state in its own registers, and its save area does not reach it (R280). -/
def Mt.setAreaWord (m : Mt) (o x : Nat) : Mt :=
  if o < 0x1000 then
    let old := (upTo 8).map (fun i => (mget [] m.deque.ring (o / 64)).getD i 0)
    let y := if o % 64 = 56 then x &&& 0xFFFFFFFF0000071F else x
    m.setDeque { m.deque with ring := mset [] m.deque.ring (o / 64) (setAt old (o % 64 / 8) (BitVec.ofNat 64 y)) }
  else if o < 0x1080 then m.setDeque (m.deque.setCtlWord ((o - 0x1000) / 8) x)
  else if 0x1800 ≤ o then
    let k := (o - 0x1800) / 256
    let g := (m.areaOf k).setSaveBytes (putBytes (m.areaOf k).saveBytes (o % 256) (natLe 8 x))
    if (m.age k).state = 1 then { m with areas := mset none m.areas k (some g) } else m.setAge k g
  else m

end Sys2Proof.Machine
end

