-- ==== Sys2Proof/Machine/Ivory.lean ====
section
/-! DEFINITION. Ivory records as bytes of device memory (R385, R399-R401): the frames of a saved form, the header and sections that a drain writes, and what a restore reads from them. -/
namespace Sys2Proof.Machine

/-! The frames of a saved form (R385) -/

/-- Where byte `k` of the saved form at `addr` stands: in its frames in their order, or, for a form that software has put there, right after the bytes before it (log 6). -/
def Dev.savedAt (d : Dev) (addr k : Nat) : Nat :=
  match d.saves.find? (fun x => x.1 == addr) with
  | some (_, fs) =>
    match fs[k / 2 ^ 21]? with
    | some f => f + k % 2 ^ 21
    | none => addr + k
  | none => addr + k

/-- `n` bytes of a saved form from byte `k` on. -/
def State.savedBytes (s : State) (addr k n : Nat) : List Byte := (upTo n).map (fun i => byteAt s.mem (s.dev.savedAt addr (k + i)))

/-- Write bytes of a saved form from byte `k` on, frame by frame. -/
def State.putSaved (s : State) (addr k : Nat) (bs : List Byte) : State :=
  (upTo (bs.length / 2 ^ 21 + 2)).foldl (fun s j =>
    let lo := Nat.max k ((k / 2 ^ 21 + j) * 2 ^ 21)
    let hi := Nat.min (k + bs.length) ((k / 2 ^ 21 + j + 1) * 2 ^ 21)
    if lo < hi then s.putDev (s.dev.savedAt addr lo) ((bs.drop (lo - k)).take (hi - lo)) else s) s

/-! Sections (R399, R400) -/

/-- A section: its TYPE, whether it is required, its SVER, its payload. -/
structure RecSect where
  typ : Nat
  req : Bool
  ver : Nat
  body : List Byte
  deriving DecidableEq, Repr

/-- A length as the next multiple of 8. -/
def padTo8 (n : Nat) : Nat := (n + 7) / 8 * 8

/-- The 8-byte section header and the payload, padded with zeros (R399). -/
def RecSect.bytes (x : RecSect) : List Byte :=
  natLe 2 x.typ ++ natLe 1 x.req.toNat ++ natLe 1 x.ver ++ natLe 4 x.body.length ++ x.body ++ List.replicate (padTo8 x.body.length - x.body.length) 0

/-- `n` doubles. -/
def dblBytes (n : Nat) (f : Nat → Nat) : List Byte := (upTo n).flatMap (fun i => natLe 8 (f i))

/-- Double `k` of some bytes from byte `off` on. -/
def dblAt (b : List Byte) (off k : Nat) : Nat := numAt b (off + 8 * k) 8

/-- Elements as a sparse store: those that differ from what an unlisted key reads as. -/
def listed {α : Type} [DecidableEq α] (d : α) (m : SMap α) : SMap α := m.filter (fun x => decide (x.2 ≠ d))

/-- CORE: offset, width, hint, next block, g, z, six system registers, return stack, segment, sequence number, v tags, resident flag, START frame. Of the fields' sizes the spec gives those of the offset, the registers and the frame; every other one has 8 bytes here, the width and the hint one each (log 6). -/
def coreBody (off : Nat × Nat) (w : Nat) (h : Hart) : List Byte :=
  natLe 1 off.1 ++ natLe 1 off.2 ++ natLe 1 w ++ natLe 1 h.whint ++ natLe 4 0 ++ natLe 8 h.next.toNat ++
  dblBytes 64 (fun i => (mget 0 h.g i).toNat) ++ natLe 8 h.zWord ++
  [h.status.toNat, h.vec.vl.toNat, h.vec.vtype.toNat, h.stklim.toNat, h.taskid.toNat, h.srstate.toNat].flatMap (natLe 8) ++
  dblBytes 9 h.stackWord ++ natLe 8 h.seg.toNat ++ natLe 8 h.seq ++
  (upTo 16).flatMap (fun i => natLe 1 ((mget 0 h.vec.tag (2 * i)).toNat + 16 * (mget 0 h.vec.tag (2 * i + 1)).toNat)) ++
  natLe 8 (h.run != .idle).toNat ++ (match h.start with | some f => f.dbls.flatMap (fun x => natLe 8 x.toNat) | none => List.replicate 64 0)

/-- The core that a CORE section describes. A VL above 4,096, for which R401 lists no check, is stored as 4,096 (DESIGN CHOICE, log 63). -/
def coreOfBody (ctx gid : Nat) (b : List Byte) : Hart :=
  let frame := (b.drop 696).take 64
  let h0 : Hart := { Hart.reset with
    cwidth := BitVec.ofNat 4 (numAt b 2 1), whint := numAt b 3 1, next := BitVec.ofNat 64 (numAt b 8 8),
    g := listed 0 ((upTo 64).map (fun i => (i, BitVec.ofNat 64 (dblAt b 16 i)))),
    status := BitVec.ofNat 5 (dblAt b 536 0), stklim := BitVec.ofNat 64 (dblAt b 536 3 / 16 * 16), taskid := BitVec.ofNat 32 (dblAt b 536 4),
    srstate := srValue (dblAt b 536 5),
    vec := { v := [], tag := listed 0 ((upTo 32).map (fun i => (i, BitVec.ofNat 4 (numAt b (672 + i / 2) 1 / 16 ^ (i % 2))))),
             vl := BitVec.ofNat 13 (Nat.min (dblAt b 536 1) 4096), vtype := BitVec.ofNat 4 (dblAt b 536 2) },
    seg := BitVec.ofNat 64 (numAt b 656 8), seq := numAt b 664 8,
    run := if numAt b 688 8 = 0 then .idle else .running,
    start := if frame.all (fun x => x == 0) then none else some (frameOf ((upTo 8).map (fun i => BitVec.ofNat 64 (dblAt frame 0 i)))),
    ctxid := BitVec.ofNat 12 ctx, graph := gid }
  ((upTo 9).foldl (fun h k => h.setStackWord k (dblAt b 584 k)) (h0.setZWord (numAt b 528 4)))

/-- VREG: the lanes of v0 to v31. -/
def vregBody (w : Nat) (h : Hart) : List Byte :=
  (upTo 32).flatMap (fun n => (upTo (64 * w)).flatMap (fun l => natLe 4 (mget 0 h.vec.v (512 * n + l)).toNat))

def Hart.withVreg (h : Hart) (w : Nat) (b : List Byte) : Hart :=
  { h with vec := { h.vec with v := listed 0 ((upTo 32).flatMap (fun n => (upTo (64 * w)).map (fun l =>
      (512 * n + l, BitVec.ofNat 32 (numAt b (4 * (64 * w * n + l)) 4))))) } }

/-- MREG: the elements of m0 to m7, their tags, ROWS and COLS, tA and tB of each. -/
def mregBody (w : Nat) (h : Hart) : List Byte :=
  (upTo 8).flatMap (fun k => (upTo 32).flatMap (fun i => (upTo (32 * w)).flatMap (fun j => natLe 4 (mget 0 h.m (mKey k i j)).toNat))) ++
  (upTo 8).flatMap (fun k => natLe 1 (mget 1 h.mtag k).toNat) ++ natLe 4 h.mrows.toNat ++ natLe 4 h.mcols.toNat ++
  (upTo 16).flatMap (fun i => natLe 4 (mget scaleOne h.mscale i).toNat)

/-- The m-registers of a MREG section. A tag is F32 or I32, as no other can be held (R103); a ROWS or COLS above its limit, for which R401 lists no check, is stored as the limit, as through the window (R109; DESIGN CHOICE, log 63). -/
def Hart.withMreg (h : Hart) (w : Nat) (b : List Byte) : Hart :=
  let n := 8 * 32 * 32 * w * 4
  { h with
    m := listed 0 ((upTo 8).flatMap (fun k => (upTo 32).flatMap (fun i => (upTo (32 * w)).map (fun j =>
      (mKey k i j, BitVec.ofNat 32 (numAt b (4 * ((32 * k + i) * (32 * w) + j)) 4))))))
    mtag := listed 1 ((upTo 8).map (fun k => (k, if numAt b (n + k) 1 = 0x0A then 0x0A else 0x01)))
    mrows := BitVec.ofNat 6 (Nat.min (numAt b (n + 8) 4) 32), mcols := BitVec.ofNat 9 (Nat.min (numAt b (n + 12) 4) (32 * w))
    mscale := listed scaleOne ((upTo 16).map (fun i => (i, BitVec.ofNat 32 (numAt b (n + 16 + 4 * i) 4)))) }

/-- PORTS: control words and entries in the layout of R279. -/
def portsBody (m : Mt) : List Byte :=
  dblBytes 16 (fun n => (m.port n).word) ++
  (upTo 16).flatMap (fun n => (upTo 16).flatMap (fun e => natLe 8 ((m.port n).entryWord e false) ++ natLe 8 ((m.port n).entryWord e true)))

def Mt.withPorts (m : Mt) (b : List Byte) : Mt :=
  (upTo 16).foldl (fun m n =>
    let q := Port.reset.control (dblAt b 0 n)
    let at_ (e : Nat) : Nat := 128 + 256 * n + 16 * e
    m.setPort n ((upTo q.q.length).foldl (fun q e => (q.setEntryWord e false (numAt b (at_ e) 8)).setEntryWord e true (numAt b (at_ e + 8) 8)) q)) m

/-- DEQUE: slots and control block; AGE: the save areas, both as the system area shows them (R262, R280), `n` doubles of each: bytes beyond the payload that is known are ignored (R401). -/
def Mt.withArea (m : Mt) (lo n : Nat) (b : List Byte) : Mt :=
  (upTo (Nat.min n (b.length / 8))).foldl (fun m k => m.setAreaWord (lo + 8 * k) (dblAt b 0 k)) m

/-- A data page of a scratchpad. -/
def Mt.page (m : Mt) (n : Nat) : List Byte := bytesAt m.scratch (4096 * n) 4096

/-- The data pages that hold a nonzero byte (R386). -/
def Mt.occupied (m : Mt) : List Nat := (upTo 126).filter (fun n => m.scratch.any (fun x => x.1 / 4096 == n))

/-- SCRATCH: the map of occupied pages, then each of them. A granule with an uncorrectable error is saved as the bytes that stand there, and restored without its error: R203 does not name a drain (DESIGN CHOICE, log 64). -/
def scratchBody (m : Mt) : List Byte :=
  natLe 16 ((m.occupied.map (fun n => 2 ^ n)).foldl (· + ·) 0) ++ m.occupied.flatMap m.page

def Mt.withScratch (m : Mt) (b : List Byte) : Mt :=
  let ps := (upTo 126).filter (fun n => bitOf (numAt b 0 16) n)
  { m with scratch := (List.zip (upTo ps.length) ps).foldl (fun sc x => setBytes sc (4096 * x.2) ((b.drop (16 + 4096 * x.1)).take 4096)) m.scratch }

/-- ENGINE: EKICK, EENTRY, ECTX, state, next block, and the registers of 0xE100 to 0xE367. -/
def engineBody (m : Mt) (e : Hart) : List Byte :=
  [m.ekick.toNat, m.eentry.toNat, m.ectx.toNat, (e.run != .idle).toNat, e.next.toNat].flatMap (natLe 8) ++
  dblBytes 64 (fun i => (mget 0 e.g i).toNat) ++ [e.zWord, e.status.toNat, e.stklim.toNat, e.srstate.toNat].flatMap (natLe 8) ++ dblBytes 9 e.stackWord

def Mt.withEngine (m : Mt) (b : List Byte) : Mt :=
  { m with ekick := BitVec.ofNat 64 (dblAt b 0 0), eentry := BitVec.ofNat 64 (dblAt b 0 1), ectx := BitVec.ofNat 12 (dblAt b 0 2) }

/-- The engine hart of an ENGINE section: it runs in the context of the ECTX that was saved with it (R303, R304). -/
def engineOfBody (gid : Nat) (b : List Byte) : Hart :=
  let h0 : Hart := { Hart.reset with
    run := if dblAt b 0 3 = 0 then .idle else .running, next := BitVec.ofNat 64 (dblAt b 0 4),
    g := listed 0 ((upTo 64).map (fun i => (i, BitVec.ofNat 64 (dblAt b 40 i)))), status := BitVec.ofNat 5 (dblAt b 552 1),
    stklim := BitVec.ofNat 64 (dblAt b 552 2 / 16 * 16), srstate := srValue (dblAt b 552 3), ctxid := BitVec.ofNat 12 (dblAt b 0 2), graph := gid }
  (upTo 9).foldl (fun h k => h.setStackWord k (dblAt b 584 k)) (h0.setZWord (numAt b 552 4))

/-- PERF: the eight counters, then their selects and enables. -/
def perfBody (h : Hart) : List Byte :=
  dblBytes 8 (fun i => (mget 0 h.pcnt i).toNat) ++ (upTo 8).flatMap (fun i => natLe 2 (mget (0 : BitVec 9) h.pcfg i).toNat)

def Hart.withPerf (h : Hart) (b : List Byte) : Hart :=
  { h with pcnt := listed 0 ((upTo 8).map (fun i => (i, BitVec.ofNat 64 (dblAt b 0 i))))
           pcfg := listed 0 ((upTo 8).map (fun i => (i, BitVec.ofNat 9 (numAt b (64 + 2 * i) 2)))) }

/-- FROZEN: the packet that 64 bytes describe (R373), their reserved bits ignored (R6). -/
def packetOfBytes (b : List Byte) : Packet :=
  let f := numAt b 1 1
  let l := numAt b 12 1
  { cause := numAt b 0 1 % 128, agent := f % 16, bound := bitOf f 4, late := bitOf f 5, held := bitOf f 6, redeliv := bitOf f 7, ctx := numAt b 2 2 % 4096,
    task := BitVec.ofNat 32 (numAt b 4 4), place := numAt b 8 2 % 1024, unit := numAt b 8 2 / 1024 % 8, word := numAt b 10 2,
    lsid := if bitOf l 5 = false then none else some (l % 32), zone := numAt b 13 1, slot := numAt b 14 1 % 8, block := BitVec.ofNat 64 (numAt b 16 8),
    va := BitVec.ofNat 64 (numAt b 24 8), time := BitVec.ofNat 64 (numAt b 32 8), seq := numAt b 40 8, d0 := BitVec.ofNat 64 (numAt b 48 8),
    d1 := BitVec.ofNat 64 (numAt b 56 8) }

/-- A core or engine that stands frozen with its packet. -/
def Hart.frozenBy (h : Hart) (k : Packet) : Hart := { h with run := .frozen, packet := some k, cause := k.cause }

/-- DOMAIN: the ring index of the core that holds the token, or 0xFFFF, and its colour; the colours of the cores, by ring index; the offset that each core's victim pointer names. -/
def domainBody (g : Graph) (tiles : List Saved) : List Byte :=
  let tile (n : Nat) : Option Saved := tiles[(placeRow n - g.row) * g.cols + (placeCol n - g.col)]?
  let deque (n : Nat) : Deque := ((tile n).map (fun v => v.mt.deque)).getD Deque.reset
  let cores := List.zip (upTo g.ring.length) g.ring
  let held := cores.find? (fun x => (deque x.2).token)
  natLe 2 ((held.map Prod.fst).getD 0xFFFF) ++ natLe 2 (match held with | some x => (deque x.2).tblack.toNat | none => 0) ++ natLe 4 0 ++
  natLe 16 ((cores.filter (fun x => (deque x.2).black)).map (fun x => 2 ^ x.1) |>.foldl (· + ·) 0) ++
  g.ring.flatMap (fun n =>
    let v := (((tile n).bind Saved.hart).getD Hart.reset).victim
    natLe 1 (placeRow v - g.row) ++ natLe 1 (placeCol v - g.col))

/-! What firmware adds for itself (TYPE 0x8000 and up, log 6) -/

/-- 0x8000: the graph's number, its origin, whether its root task has been retired, the segments of its Suspended tasks, its cut. -/
def placeBody (g : Graph) : List Byte :=
  natLe 8 g.num ++ natLe 1 g.clu ++ natLe 1 g.row ++ natLe 1 g.col ++ natLe 1 g.retired.toNat ++ natLe 4 g.waits.length ++
  g.waits.flatMap (fun x => natLe 8 x.toNat) ++
  g.cut.flatMap (fun c => natLe 1 c.1 ++ natLe 1 c.2.1 ++ natLe 1 c.2.2 ++ natLe 1 (g.absorbed.contains (c.1, c.2.1)).toNat)

/-- A counted list of numbers of `n` bytes each, and the reading of one with what follows it. -/
def listBytes (n : Nat) (l : List Nat) : List Byte := natLe 2 l.length ++ l.flatMap (natLe n)

def takeCounted (n : Nat) (b : List Byte) : List Nat × List Byte :=
  let k := numAt b 0 2
  ((upTo k).map (fun i => numAt b (2 + n * i) n), b.drop (2 + n * k))

/-- As many such lists of doubles. -/
def takeLists : Nat → List Byte → List (List Nat) × List Byte
  | 0, b => ([], b)
  | n + 1, b =>
    let x := takeCounted 8 b
    let y := takeLists n x.2
    (x.1 :: y.1, y.2)

/-- 0x8001 for each MT: what no layout of R279 or R280 shows of an AGE (NMODE, the partial entry's elements, scales, the entries to be written again), of a port entry (scales, epoch) and of a deque engine that a fault has stopped. -/
def extraBody (m : Mt) : List Byte :=
  (upTo 8).flatMap (fun a => natLe 2 (m.age a).nmode.toNat ++ listBytes 8 (m.age a).part ++ listBytes 2 ((m.age a).scl.map BitVec.toNat) ++
    natLe 2 (m.age a).backlog.length ++ (m.age a).backlog.flatMap (listBytes 8)) ++
  (upTo 16).flatMap (fun n => (m.port n).q.flatMap (fun e =>
    natLe 4 (match e.epoch with | some k => 0x10000 + k.toNat | none => 0) ++ listBytes 2 (e.scl.map BitVec.toNat))) ++
  natLe 2 (m.deque.stopped.toNat + 2 * m.deque.dry.toNat) ++ listBytes 8 (m.deque.back.map BitVec.toNat)

def halves (l : List Nat) : List Half := l.map (BitVec.ofNat 16)

def Mt.withExtra (m : Mt) (b : List Byte) : Mt :=
  let ages := (upTo 8).foldl (fun (x : Mt × List Byte) a =>
    let part := takeCounted 8 (x.2.drop 2)
    let scl := takeCounted 2 part.2
    let back := takeLists (numAt scl.2 0 2) (scl.2.drop 2)
    (x.1.setAge a { x.1.age a with nmode := numAt x.2 0 2 != 0, part := part.1, scl := halves scl.1, backlog := back.1 }, back.2)) (m, b)
  let ports := (upTo 16).foldl (fun (x : Mt × List Byte) n =>
    (upTo (x.1.port n).q.length).foldl (fun (y : Mt × List Byte) e =>
      let q := y.1.port n
      let k := numAt y.2 0 4
      let scl := takeCounted 2 (y.2.drop 4)
      match q.q[e]? with
      | some i => (y.1.setPort n { q with q := setAt q.q e { i with epoch := if k = 0 then none else some (BitVec.ofNat 16 k), scl := halves scl.1 } }, scl.2)
      | none => y) x) ages
  let f := numAt ports.2 0 2
  ports.1.setDeque { ports.1.deque with stopped := bitOf f 0, dry := bitOf f 1, back := (takeCounted 8 (ports.2.drop 2)).1.map (BitVec.ofNat 64) }

/-! The record a drain writes (R396, R399, R400) -/

/-- The sections of a record from the drained tiles of a graph; `refs` are the references with their kinds. -/
def recordParts (g : Graph) (tiles : List Saved) (book : List Byte) (refs : List (Nat × Dbl × Dbl)) : List RecSect :=
  let need (t : Nat) (b : List Byte) : RecSect := { typ := t, req := true, ver := 0, body := b }
  let free (t : Nat) (b : List Byte) : RecSect := { typ := t, req := false, ver := 0, body := b }
  let off (n : Nat) : Nat × Nat := (placeRow n - g.row, placeCol n - g.col)
  let hart (n : Nat) : Hart := ((tiles[(off n).1 * g.cols + (off n).2]?).bind Saved.hart).getD Hart.reset
  let cores := g.ring.map (fun n => (off n, Nat.max 1 (g.shapeWidth n (hart n)), hart n))
  let mts := tiles.map (fun v => v.mt)
  let engs := tiles.map (fun v => v.eng.getD Hart.reset)
  cores.map (fun c => need 1 (coreBody c.1 c.2.1 c.2.2)) ++ cores.map (fun c => need 2 (vregBody c.2.1 c.2.2)) ++
  cores.map (fun c => need 3 (mregBody c.2.1 c.2.2)) ++
  mts.map (fun m => need 4 (portsBody m)) ++ mts.map (fun m => need 5 (dblBytes 256 (fun k => m.areaWord (0x1800 + 8 * k)))) ++
  mts.map (fun m => need 6 (dblBytes 528 (fun k => m.areaWord (8 * k)))) ++ mts.map (fun m => need 7 (scratchBody m)) ++
  (List.zip mts engs).map (fun x => need 8 (engineBody x.1 x.2)) ++
  [need 9 ((book ++ List.replicate (1024 - book.length) 0).take 1024)] ++
  ((cores.map (fun c => c.2.2) ++ engs).filterMap (fun h => if h.run = .frozen then h.packet.map (fun k => need 10 k.bytes) else none)) ++
  [need 11 (refs.flatMap (fun r => natLe 8 r.2.2.toNat ++ natLe 1 r.1 ++ natLe 8 r.2.1.toNat)), free 12 (domainBody g tiles)] ++
  tiles.map (fun v => free 13 (perfBody (v.hart.getD Hart.reset))) ++
  [free 0x8000 (placeBody g)] ++ mts.map (fun m => free 0x8001 (extraBody m))

/-- The record's bytes: the header of R399 and the sections. RECSEQ is the requester's to set (R399) and zero here. -/
def recordBytes (d : Dev) (g : Graph) (xs : List RecSect) : List Byte :=
  let body := xs.flatMap RecSect.bytes
  natLe 4 0x49565259 ++ natLe 2 1 ++ natLe 2 0 ++ natLe 4 (Config.imageVersion d.running).toNat ++ natLe 4 d.dmapver.toNat ++ natLe 2 d.tilerev.toNat ++
  natLe 2 xs.length ++ natLe 4 0 ++ natLe 8 (64 + body.length) ++ natLe 2 g.launch.ctx ++ natLe 1 g.rows ++ natLe 1 g.cols ++
  natLe 4 g.ring.length ++ natLe 8 0 ++ List.replicate 16 0 ++ body

/-! Reading a record (R401) -/

/-- The sections from byte `off` on, if they end where TOTLEN says. -/
def State.readParts (s : State) (addr total : Nat) : Nat → Nat → Option (List RecSect)
  | 0, off => if off = total then some [] else none
  | n + 1, off =>
    let h := s.savedBytes addr off 8
    let len := numAt h 4 4
    if total < off + 8 + padTo8 len then none
    else
      match s.readParts addr total n (off + 8 + padTo8 len) with
      | some xs => some ({ typ := numAt h 0 2, req := bitOf (numAt h 2 1) 0, ver := numAt h 3 1, body := s.savedBytes addr (off + 8) len } :: xs)
      | none => none

/-- The firmware reads the section: a TYPE it knows, at a version it knows. -/
def RecSect.known (x : RecSect) : Bool := ((decide (1 ≤ x.typ) && decide (x.typ ≤ 13)) || x.typ == 0x8000 || x.typ == 0x8001) && x.ver == 0

/-- The cut of a record, with the absorbed cores: what 0x8000 keeps of it, else the cores as they stand. -/
def cutOfParts (place : Option (List Byte)) (cores : List (List Byte)) : List (Nat × Nat × Nat) × List (Nat × Nat) :=
  match place with
  | some b =>
    let b := b.drop (16 + 8 * numAt b 12 4)
    let es := (upTo (b.length / 4)).map (fun i => (numAt b (4 * i) 1, numAt b (4 * i + 1) 1, numAt b (4 * i + 2) 1, numAt b (4 * i + 3) 1))
    (es.map (fun e => (e.1, e.2.1, e.2.2.1)), (es.filter (fun e => e.2.2.2 != 0)).map (fun e => (e.1, e.2.1)))
  | none => (cores.map (fun b => (numAt b 0 1, numAt b 1 1, numAt b 2 1)), [])

/-- A graph of which nothing but its record is known here: its launch names no record and no binder (log 6). -/
def strangeGraph (id ctx rows cols : Nat) : Graph :=
  { id := id, num := id,
    launch := { record := 0, ctx := ctx, entry := 0, arg := 0, binder := 0, prio := 0, cap := 0, whint := 0, domsz := 1, noage := false, stamp := 0,
                level := 0, since := 0, order := 2 ^ 64 + id, via := ctx, src := 4, srcN := 0 },
    clu := 0, row := 0, col := 0, rows := rows, cols := cols, cut := [], absorbed := [], prio := 0, placed := 0, state := 2, image := 0, round := 0,
    active := false, retired := false, eligible := false, refs := [], gone := [], waits := [] }

/-- The tile at a position of the rectangle, from the sections of each kind. An XT that anchors no core has its counters (R352, R400). -/
def tileOfParts (ctx gid : Nat) (place : Nat × Nat → Nat) (body : Nat → Nat → List Byte) (cores : List (List Byte)) (packets : List Packet)
    (extra : Bool) (i : Nat) (off : Nat × Nat) : Saved :=
  let frozen (agent : Nat) (h : Hart) : Hart :=
    match packets.find? (fun k => k.agent == agent && k.place == place off) with
    | some k => h.frozenBy k
    | none => h
  let core : Option Hart := ((List.zip (upTo cores.length) cores).find? (fun c => (numAt c.2 0 1, numAt c.2 1 1) == off)).map (fun c =>
    let w := numAt c.2 2 1
    frozen 0 ((((coreOfBody ctx gid c.2).withVreg w (body 2 c.1)).withMreg w (body 3 c.1)).withPerf (body 13 i)))
  let bare : Hart := ({ Hart.reset with ctxid := BitVec.ofNat 12 ctx, graph := gid } : Hart).withPerf (body 13 i)
  let m0 := ((((Mt.reset.withPorts (body 4 i)).withArea 0x1800 256 (body 5 i)).withArea 0 528 (body 6 i)).withScratch (body 7 i)).withEngine (body 8 i)
  let ages : SMap (Option Age) := m0.ages.map (fun x => (x.1, x.2.map (fun a => { a with ctx := ctx })))
  let m1 : Mt := { m0 with ages := ages }
  let idle := match core with | some h => h.run == .idle | none => true
  let m2 := if extra then m1.withExtra (body 0x8001 i) else m1
  { hart := some (core.getD bare), eng := some (frozen 1 (engineOfBody gid (body 8 i))), mt := m2.setDeque { m2.deque with idle := idle }, graph := gid }

/-- The DOMAIN section takes its place in the tiles; without one a fresh white round starts at the origin and every victim pointer stands at its task-start position (R401). -/
def domainInto (g : Graph) (b : Option (List Byte)) (tiles : List Saved) : List Saved :=
  let idx (n : Nat) : Nat := (placeRow n - g.row) * g.cols + (placeCol n - g.col)
  let change (l : List Saved) (n : Nat) (f : Saved → Saved) : List Saved :=
    match l[idx n]? with
    | some v => setAt l (idx n) (f v)
    | none => l
  (List.zip (upTo g.ring.length) g.ring).foldl (fun l x =>
    change l x.2 (fun v =>
      let q := v.mt.deque
      match b with
      | some b =>
        let victim := placeOf g.clu (g.row + numAt b (24 + 2 * x.1) 1) (g.col + numAt b (25 + 2 * x.1) 1)
        let holds := numAt b 0 2 == x.1
        { v with hart := v.hart.map (fun h => { h with victim := victim }),
                 mt := v.mt.setDeque { q with token := holds, tblack := holds && numAt b 2 2 != 0, black := bitOf (numAt b 8 16) x.1 } }
      | none =>
        { v with hart := v.hart.map (fun h => { h with victim := ringNext g.ring x.2 }), mt := v.mt.setDeque { q with token := false, tblack := false, black := false } })) tiles

/-- The references that a record kept at the source of a migration still counts in its context's registry (R349, R431). -/
def Dev.keptRefs (d : Dev) (ctx : Nat) (addr : Dbl) : List (Dbl × Dbl) :=
  (d.kept.filter (fun k => k.1 == ctx && k.2.1 == addr)).flatMap (fun k => k.2.2)

/-- They have been subtracted, at the restore of the record or at the end of the context. -/
def Dev.dropKept (d : Dev) (ctx : Nat) (addr : Option Dbl) : Dev :=
  { d with kept := d.kept.filter (fun k => !(k.1 == ctx && (addr.isNone || addr == some k.2.1))) }

/-- Where the rectangle of a record stood that has no section 0x8000, which R400 never requires: the first origin that puts every FROZEN packet of a core (AGENT 0) on an anchor with the packet's TASKID and every one of an engine hart on a tile (R373, R402; DEDUCED, log 65). -/
def originOf (rows cols : Nat) (cores : List (List Byte)) (packets : List Packet) : Nat × Nat × Nat :=
  let fits (o : Nat × Nat × Nat) : Bool := packets.all (fun k =>
    placeClu k.place == o.1 && decide (o.2.1 ≤ placeRow k.place) && decide (placeRow k.place < o.2.1 + rows) &&
    decide (o.2.2 ≤ placeCol k.place) && decide (placeCol k.place < o.2.2 + cols) &&
    (k.agent != 0 || cores.any (fun b => numAt b 0 1 == placeRow k.place - o.2.1 && numAt b 1 1 == placeCol k.place - o.2.2 && numAt b 568 8 == k.task.toNat)))
  match packets with
  | [] => (0, 0, 0)
  | k :: _ =>
    let os := (upTo (placeRow k.place + 1)).flatMap (fun r => (upTo (placeCol k.place + 1)).map (fun c => (placeClu k.place, r, c)))
    (os.find? fits).getD (0, 0, 0)

/-- The saved form in a record, its header and sections read: the graph is the one that waits here under the number of 0x8000, else one of which nothing is known. -/
def Dev.formOf (d : Dev) (addr : Nat) (h : List Byte) (xs : List RecSect) : Image :=
  let ctx := numAt h 32 2 % 4096
  let rows := numAt h 34 1
  let cols := numAt h 35 1
  let all (t : Nat) : List (List Byte) := (xs.filter (fun x => x.known && x.typ == t)).map RecSect.body
  let body (t i : Nat) : List Byte := (all t).getD i []
  let mine := (all 0x8000).head?
  let number := match mine with | some b => numAt b 0 8 | none => 0
  let g0 := match d.graphs.find? (fun g => g.num == number && g.launch.ctx == ctx && g.rows == rows && g.cols == cols) with
    | some g => g
    | none => { strangeGraph d.nextGraph ctx rows cols with num := number, refs := d.keptRefs ctx (BitVec.ofNat 64 addr) }
  let cut := cutOfParts mine (all 1)
  let b := mine.getD []
  let packets := (all 10).map packetOfBytes
  let o := if mine.isSome then (numAt b 8 1, numAt b 9 1, numAt b 10 1) else originOf rows cols (all 1) packets
  let g : Graph := { g0 with
    clu := o.1, row := o.2.1, col := o.2.2, cut := cut.1, absorbed := cut.2, retired := numAt b 11 1 != 0,
    waits := (upTo (numAt b 12 4)).map (fun i => BitVec.ofNat 64 (dblAt b 16 i)) }
  let place (off : Nat × Nat) : Nat := placeOf g.clu (g.row + off.1) (g.col + off.2)
  let offs := (upTo rows).flatMap (fun r => (upTo cols).map (fun c => (r, c)))
  let tiles := (List.zip (upTo offs.length) offs).map (fun x => tileOfParts ctx g.id place body (all 1) packets (!(all 0x8001).isEmpty) x.1 x.2)
  let dom := (all 12).head?
  let k : Graph := { g with active := match dom with | some b => numAt b 0 2 != 0xFFFF | none => false }
  { addr := BitVec.ofNat 64 addr, ivory := true, taken := false, ctx := ctx, tilerev := BitVec.ofNat 16 (numAt h 16 2), dmapver := BitVec.ofNat 32 (numAt h 12 4),
    scanver := d.scanver, rows := rows, cols := cols, cut := cut.1, absorbed := cut.2, graph := k, tiles := domainInto k dom tiles, book := body 9 0,
    log := [], refs := ((all 11).flatMap (fun b => (upTo (b.length / 17)).map (fun i => (BitVec.ofNat 64 (numAt b (17 * i + 9) 8), BitVec.ofNat 64 (numAt b (17 * i) 8))))) }

/-- The record at an address (R401): status 5 where the header is wrong or TOTLEN disagrees with the sections, 6 where a required section cannot be read. -/
def State.readRecord (s : State) (addr : Nat) : Nat ⊕ Image :=
  let h := s.savedBytes addr 0 64
  let total := numAt h 24 8
  if numAt h 0 4 ≠ 0x49565259 ∨ numAt h 4 2 ≠ 1 ∨ Config.deviceTop < total then .inl 5
  else
    match s.readParts addr total (numAt h 18 2) 64 with
    | none => .inl 5
    | some xs => if xs.any (fun x => x.req && !x.known) then .inl 6 else .inr (s.dev.formOf addr h xs)

end Sys2Proof.Machine
end

