-- ==== Sys2Proof/Machine/Preempt.lean ====
section
/-! DEFINITION. Pre-emption (R384-R404): shadow swaps, the streamer, Sepia images, restores, drains to Ivory records, messages to a context that is not live, references into code, and the command register. A Sepia image is held by field, and written to the save pool with its header and tile records (log 6); an Ivory record stands as its bytes. -/
namespace Sys2Proof.Machine

/-! Rectangles -/

/-- A graph holds its rectangle: placed or draining. -/
def Graph.resident (g : Graph) : Bool := g.state == 0 || g.state == 5

def Graph.hasPlace (g : Graph) (p : Nat) : Bool := g.contains (placeClu p) (placeRow p) (placeCol p)

/-- The tile's shadow bank holds a context that is still to be swapped or streamed out: a bank is empty only once every tile of the rectangle has been written (R391). -/
def Dev.streaming (d : Dev) (p : Nat) : Bool :=
  d.swaps.contains p ||
  d.shadowOut.any (fun x => x.1 == p || (match mget none d.shadow p with | some v => v.graph == x.2.1 | none => false))

/-- A tile is free for a placement (R317): in no resident rectangle, and not held for a shadow context that is still being streamed out. -/
def Dev.freeTile (d : Dev) (p : Nat) : Bool :=
  !(d.graphs.any (fun g => g.resident && g.hasPlace p)) && !d.streaming p

structure Rect where
  clu : Nat
  row : Nat
  col : Nat
  rows : Nat
  cols : Nat
  deriving DecidableEq, Repr

def Rect.places (r : Rect) : List Nat := rectPlaces r.clu r.row r.col r.rows r.cols

/-- The sides and the origin suit cores of width `w` (R18, R317). -/
def Rect.suits (r : Rect) (w : Nat) : Bool :=
  (decide (w < 2) || (r.cols % 2 == 0 && r.col % 2 == 0)) && (decide (w < 4) || (r.rows % 2 == 0 && r.row % 2 == 0)) &&
  (decide (w < 8) || ((r.cols == 4 || r.cols == 8) && (r.col == 0 || r.col == 4)))

/-! Cuts (R318) -/

/-- The cut into cores of width `w` (R318). -/
def cutEven (rows cols w : Nat) : List (Nat × Nat × Nat) :=
  let hh := if 4 ≤ w then 2 else 1
  let cc := w / hh
  (upTo (rows / hh)).flatMap (fun i => (upTo (cols / cc)).map (fun j => (hh * i, cc * j, w)))

/-- The positions of one core of a cut. -/
def cutCover (c : Nat × Nat × Nat) : List (Nat × Nat) :=
  let hh := if 4 ≤ c.2.2 then 2 else 1
  (upTo hh).flatMap (fun i => (upTo (c.2.2 / hh)).map (fun j => (c.1 + i, c.2.1 + j)))

/-- The cut for WHINT 0 of positions of the cluster's grid, taken in the given order (R318): at each one not yet in a core, the first of 2 x 2, 1 x 2, 1 x 1 that fits. -/
def cutCells (cells : List (Nat × Nat)) : List (Nat × Nat × Nat) :=
  cells.foldl (fun cut x =>
    let taken := cut.flatMap cutCover
    let fits (c : Nat × Nat × Nat) : Bool := (cutCover c).all (fun y => cells.contains y && !taken.contains y)
    if taken.contains x then cut
    else if x.1 % 2 = 0 ∧ x.2 % 2 = 0 ∧ fits (x.1, x.2, 4) = true then cut ++ [(x.1, x.2, 4)]
    else if x.2 % 2 = 0 ∧ fits (x.1, x.2, 2) = true then cut ++ [(x.1, x.2, 2)]
    else cut ++ [(x.1, x.2, 1)]) []

/-- The positions of a rectangle in the cluster's grid, row by row. -/
def Rect.cells (r : Rect) : List (Nat × Nat) := (upTo r.rows).flatMap (fun i => (upTo r.cols).map (fun j => (r.row + i, r.col + j)))

/-- A cut of the grid as offsets in a rectangle. -/
def Rect.offsets (r : Rect) (l : List (Nat × Nat × Nat)) : List (Nat × Nat × Nat) := l.map (fun c => (c.1 - r.row, c.2.1 - r.col, c.2.2))

def cutFree (r : Rect) : List (Nat × Nat × Nat) := r.offsets (cutCells r.cells)

/-- An idle core of a graph that has just been placed, its victim pointer at its task-start position (R322); its own memories and its registers stay as they are until a task starts on it (R94, R104). -/
def Hart.onPlacement (h : Hart) (gid victim : Nat) : Hart :=
  { h with run := .idle, graph := gid, blocks := [], seg := 0, parent := 0, start := none, susp := none, leaving := false, reserve := none, thalt := false,
           marked := false, cause := 0, packet := none, victim := victim, lap := 0, lapWait := false, theftFirst := false }

/-! What a saved rectangle becomes at another place (R34, R387) -/

/-- The positions of the aligned shape of width `w` around a position of the grid (R18). -/
def shapeCells (w : Nat) (x : Nat × Nat) : List (Nat × Nat) :=
  let hh := if 4 ≤ w then 2 else 1
  let cc := w / hh
  (upTo hh).flatMap (fun i => (upTo cc).map (fun j => (x.1 / hh * hh + i, x.2 / cc * cc + j)))

/-- A position that moves with its rectangle from origin `a` to origin `b`. -/
def shiftCell (a b x : Nat × Nat) : Nat × Nat := (x.1 - a.1 + b.1, x.2 - a.2 + b.2)

/-- The core of width `w` around `x` has its shape at the new place too. -/
def keepsShape (a b : Nat × Nat) (w : Nat) (x : Nat × Nat) : Bool :=
  (shapeCells w x).map (shiftCell a b) == shapeCells w (shiftCell a b x)

/-- R34's limits: what the core's vector grant and its accumulator shape need. -/
def Hart.fitsWidth (h : Hart) (w : Nat) : Bool := decide (h.vec.vl.toNat ≤ 64 * w) && decide (h.mcols.toNat ≤ 32 * w)

/-- The width of a core at the new place: its own, or the widest narrower one that R18 allows within its own tiles and R34 for its state (log 57). -/
def narrowTo (a b : Nat × Nat) (h : Hart) (w : Nat) (x : Nat × Nat) : Option Nat :=
  if keepsShape a b w x then some w
  else
    let own := (shapeCells w x).map (shiftCell a b)
    [4, 2, 1].find? (fun u => decide (u < w) && h.fitsWidth u && (shapeCells u (shiftCell a b x)).all (fun y => own.contains y))

/-- A rectangle's cores at a place: the cut and the absorbed cores by offset, the width of each core of the ring, and the cores that come to be there. -/
structure Recut where
  cut : List (Nat × Nat × Nat)
  absorbed : List (Nat × Nat)
  widths : List (Nat × Nat × Nat)
  fresh : List (Nat × Nat × Nat)
  freed : List (Nat × Nat)
  deriving DecidableEq, Repr

def Image.hartAt (i : Image) (r c : Nat) : Hart :=
  match i.tiles[r * i.cols + c]? with
  | some v => v.hart.getD Hart.reset
  | none => Hart.reset

/-- One core of the ring at the new place: unchanged with the cores it has absorbed, those that a widening in progress has reserved among them (R32, R35), else narrower, with the rest of its shape cut anew and absorbed, and the tiles it gives up freed. -/
def Image.recutCore (i : Image) (b : Nat × Nat) (c : Nat × Nat × Nat) : Option Recut :=
  let a := (i.graph.row, i.graph.col)
  let off (y : Nat × Nat) : Nat × Nat := shiftCell b (0, 0) y
  let x := (a.1 + c.1, a.2 + c.2.1)
  let h := i.hartAt c.1 c.2.1
  let w := Nat.max (Nat.max h.cwidth.toNat c.2.2) (h.reserve.getD 0)
  let inside := i.cut.filter (fun e => (shapeCells w x).contains (a.1 + e.1, a.2 + e.2.1))
  if keepsShape a b w x && inside.all (fun e => keepsShape a b e.2.2 (a.1 + e.1, a.2 + e.2.1)) then
    some { cut := inside, absorbed := (inside.filter (fun e => e != c)).map (fun e => (e.1, e.2.1)), widths := [(c.1, c.2.1, w)], fresh := [], freed := [] }
  else
    match narrowTo a b h w x with
    | none => none
    | some w1 =>
      let y := shiftCell a b x
      let shape := shapeCells w1 y
      let u := ([8, 4, 2, 1].find? (fun u => decide (u ≤ Nat.min c.2.2 w1) && (shapeCells u y).headD (0, 0) == y)).getD 1
      let rest := (cutCells (shape.filter (fun z => !(shapeCells u y).contains z))).map (fun e => ((off (e.1, e.2.1)).1, (off (e.1, e.2.1)).2, e.2.2))
      some { cut := (c.1, c.2.1, u) :: rest, absorbed := rest.map (fun e => (e.1, e.2.1)), widths := [(c.1, c.2.1, w1)], fresh := rest,
             freed := ((shapeCells w x).map (shiftCell a b)).filter (fun z => !shape.contains z) }

/-- The whole rectangle at origin `b`; `none` where some core cannot be so narrow. Tiles that narrowing frees become idle cores, cut as R318 gives (R387); the cut stands row by row. A Sepia image keeps its cut and every width. -/
def Image.recut (i : Image) (row col : Nat) : Option Recut :=
  let b := (row, col)
  let ring := i.cut.filter (fun c => !i.absorbed.contains (c.1, c.2.1))
  let parts := ring.map (i.recutCore b)
  if parts.any Option.isNone || (!i.ivory && parts.any (fun p => match p with | some r => !(r.fresh.isEmpty && r.freed.isEmpty) || r.cut.any (fun e => !i.cut.contains e) | none => true)) then none
  else
    let rs := parts.filterMap id
    let r : Rect := { clu := 0, row := row, col := col, rows := i.rows, cols := i.cols }
    let freed := rs.flatMap Recut.freed
    let idle := r.offsets (cutCells (r.cells.filter (fun z => freed.contains z)))
    let all := rs.flatMap Recut.cut ++ idle
    some { cut := r.cells.filterMap (fun z => all.find? (fun e => (row + e.1, col + e.2.1) == z)), absorbed := rs.flatMap Recut.absorbed,
           widths := rs.flatMap Recut.widths, fresh := rs.flatMap Recut.fresh ++ idle, freed := freed }

/-- The graph whose rectangle has its origin there. -/
def Dev.graphAt (d : Dev) (ctx clu row col : Nat) : Option Graph :=
  d.graphs.find? (fun g => g.state == 0 && g.launch.ctx == ctx && g.clu == clu && g.row == row && g.col == col)

/-! The save pool (R385) -/

def saveKey : Nat := 0x220

/-- The `n` frames at the head of the save pool, at their 2 MiB boundaries. -/
def State.saveHeads (s : State) (n : Nat) : List Nat :=
  let base := (mget 0 s.dev.regs saveKey).toNat
  let head := (mget 0 s.dev.regs (saveKey + 8)).toNat
  (upTo n).map (fun i => s.phys64 (base + 8 * (head + i)) / 2 ^ 21 * 2 ^ 21)

/-- Take frames for a rectangle of `n` tile pairs, one 2 MiB frame each; the first is the image's address. Frames of a stack that is not ready are not used (R436). -/
def State.takeSave (s : State) (n : Nat) : State × Option Dbl :=
  let avail := mget 0 s.dev.regs (saveKey + 16) - mget 0 s.dev.regs (saveKey + 8)
  if avail.toNat < n || (s.saveHeads n).any (fun f => !s.dev.frameReady f) then (s, none)
  else
    match s.saveHeads n with
    | [] => (s, none)
    | f :: fs =>
      let s1 := (upTo n).foldl (fun s _ => s.ringTake saveKey) s
      ({ s1 with dev := { s1.dev with saves := s1.dev.saves.filter (fun x => x.1 != f) ++ [(f, f :: fs)] } }, some (BitVec.ofNat 64 f))

/-- The frames of a saved form that is discarded return to the pool. -/
def State.giveSave (s : State) (addr : Nat) : State :=
  match s.dev.saves.find? (fun x => x.1 == addr) with
  | none => s
  | some (_, fs) =>
    let s1 := fs.foldl (fun s f => s.ringGive saveKey f) s
    { s1 with dev := { s1.dev with saves := s1.dev.saves.filter (fun x => x.1 != addr) } }

/-- An item that is placed or gone holds no cluster (R319). -/
def Dev.unreserve (d : Dev) (order : Nat) : Dev := { d with reserved := d.reserved.filter (fun r => r.1 != order) }

/-! References into code (R349, R403) -/

/-- The continuation in a segment's suspension record; 0 where it cannot be read. -/
def State.continuation (s : State) (ctx p : Nat) (seg : Dbl) : Dbl :=
  match (s.readDbl ctx p (seg + 0x2A8)).2.1 with
  | some a => BitVec.ofNat 64 a
  | none => 0

/-- Code addresses of queued frames (kind 2); a resume frame stands for the continuation in its suspension record (kind 3). -/
def State.frameRefs (s : State) (ctx p : Nat) (fs : List (List Dbl)) : List (Nat × Dbl) :=
  fs.map (fun xs => if (frameOf xs).resume then (3, s.continuation ctx p (frameOf xs).entry) else (2, (frameOf xs).entry))

/-- The frames of the overflow segments from `seg`. -/
def State.overflowFrames (s : State) (ctx p : Nat) : Nat → Dbl → List (List Dbl)
  | 0, _ => []
  | n + 1, seg =>
    if seg = 0 then []
    else
      match (s.readDbls ctx p seg 2).2.1 with
      | some [next, ct] =>
        let k := ct % 2 ^ 32
        match (s.readDbls ctx p (seg + BitVec.ofNat 64 (64 + 64 * (ct / 2 ^ 32))) (8 * k)).2.1 with
        | some xs =>
          (upTo k).map (fun i => ((xs.drop (8 * i)).take 8).map (BitVec.ofNat 64)) ++ s.overflowFrames ctx p n (BitVec.ofNat 64 next)
        | none => []
      | _ => []

/-- Every frame queued in a deque, oldest first. -/
def State.queuedFrames (s : State) (ctx p : Nat) (q : Deque) : List (List Dbl) :=
  s.overflowFrames ctx p (q.ovfcnt.toNat + 1) q.ovfhead ++ (upTo q.count).map (fun i => q.slot (q.tidx + BitVec.ofNat 32 i))

/-- The code addresses that the saved state of a graph holds, with their kinds as DETAIL of cause 0x50 gives them (R349, R374): those of its tasks and queued frames, and the continuations of its Suspended tasks whose resume frame is not among them. -/
def State.codeRefs (s : State) (g : Graph) (p : Nat) (tiles : List Saved) : List (Nat × Dbl) :=
  let ctx := g.launch.ctx
  let harts := tiles.flatMap (fun v => v.hart.toList)
  let live := harts.filter (fun h => h.run == .running || h.run == .frozen)
  let frames := tiles.flatMap (fun v => s.queuedFrames ctx p v.mt.deque) ++ harts.flatMap (fun h => h.start.toList.map Frame.dbls)
  let susp := g.waits.filter (fun seg => !(frames.any (fun xs => (frameOf xs).resume && (frameOf xs).entry == seg)))
  live.flatMap (fun h => (0, h.next) :: h.rstk.map (fun a => (1, a))) ++ s.frameRefs ctx p frames ++
  susp.map (fun seg => (3, s.continuation ctx p seg))

/-- The references with their kinds and the objects that hold them. -/
def State.kindRefs (s : State) (g : Graph) (p : Nat) (tiles : List Saved) : List (Nat × Dbl × Dbl) :=
  (s.codeRefs g p tiles).filterMap (fun a => (s.dev.covering g.launch.ctx a.2).map (fun o => (a.1, a.2, o.id)))

/-- References with the objects that hold them. -/
def State.objRefs (s : State) (g : Graph) (p : Nat) (tiles : List Saved) : List (Dbl × Dbl) := (s.kindRefs g p tiles).map Prod.snd

/-- At a save: count the references the saved state holds, and remember them with the graph. -/
def State.saveRefs (s : State) (g : Graph) (tiles : List Saved) : State :=
  let refs := s.objRefs g (placeOf g.clu g.row g.col) tiles
  ({ s with dev := s.dev.setGraph { g with refs := refs } } : State).countRefs g.launch.ctx refs true

/-! Moving saved state onto tiles -/

/-- The number of a core of one rectangle when the rectangle stands elsewhere. -/
def moveNum (g k : Graph) (n : Nat) : Nat := placeOf k.clu (placeRow n - g.row + k.row) (placeCol n - g.col + k.col)

/-- What the new placement re-sets in a core (R386, R389): PLACE, in the packet that a frozen core keeps too, MSTAT.NARROW, and the positions its victim pointer names. -/
def Hart.placedAt (h : Hart) (g k : Graph) (p : Nat) (alarm : Bool) : Hart :=
  { h with place := BitVec.ofNat 10 p, packet := h.packet.map (fun (x : Packet) => { x with place := p }), slow := if alarm then 0xF else 0, narrow := alarm, victim := moveNum g k h.victim }

def Deque.placedAt (q : Deque) (g k : Graph) : Deque := { q with thief := q.thief.map (moveNum g k) }

/-- An invalidation that a saved core waits for holds the fetches of its graph. -/
def Dev.keepInval (d : Dev) (p gid : Nat) : Dev :=
  { d with inval := d.inval.map (fun (i : Inval) => if i.req = p ∨ i.req = 1024 + p then { i with req := 4096 + gid } else i) }

/-- Load one saved tile at `p`, its link channels rewritten (R395); `nonres` are the scratch pages still to be exchanged. -/
def State.loadTile (s : State) (g k : Graph) (v : Saved) (p : Nat) (nonres : SMap Bool) : State :=
  let alarm := s.dev.valarm.getLsbD 32
  let hs := mset none (mset none s.dev.harts p (v.hart.map (fun h => h.placedAt g k p alarm))) (1024 + p) (v.eng.map (fun h => h.placedAt g k p alarm))
  let m : Mt := { v.mt with deque := v.mt.deque.placedAt g k, nonres := nonres, ports := v.mt.ports.map (fun x => (x.1, x.2.map Port.linkRestored)) }
  (({ s with dev := { s.dev with harts := hs } } : State).setMt p m)

/-- The state of a tile that nothing occupies. -/
def State.idleTile (s : State) (p : Nat) (nonres : SMap Bool) : State :=
  let hs := mset none (mset none s.dev.harts p none) (1024 + p) none
  (({ s with dev := { s.dev with harts := hs } } : State).setMt p { Mt.reset with nonres := nonres })

/-- The 126 data pages of a scratchpad, none of them resident (R392). -/
def allPages : SMap Bool := (upTo 126).map (fun n => (n, true))

/-- A frozen core sends its packet again to the Slate core of its new row (R375). -/
def State.resend (s : State) (n : Nat) : State :=
  match (s.hart n).run, (s.hart n).packet with
  | .frozen, some k => { s with dev := s.dev.sendPacket (deviceRow (placeOfHart n)) { k with redeliv := true, place := placeOfHart n, time := s.dev.timebase } }
  | _, _ => s

/-- A resident core whose next block or return stack lies in withdrawn text freezes before it fetches (R350). -/
def State.checkCode (s : State) (g : Graph) (n : Nat) : State :=
  let h := s.hart n
  if h.run != .running then s
  else
    match s.dev.withdrawn g h.next with
    | some id => s.withdrawnFault n 0 id
    | none =>
      match h.rstk.findSome? (fun a => s.dev.withdrawn g a) with
      | some id => s.withdrawnFault n 1 id
      | none => s

/-- A resume frame reaches its domain (R275, R388). -/
def State.deliverResume (s : State) (g : Graph) (seg : Dbl) : State :=
  let f : Frame := { entry := seg, args := [], parent := 0, status := 0, resume := true }
  match s.pushFrame g.launch.ctx (s.dev.origin g) f.dbls with
  | (s1, true) => s1
  | (s1, false) => { s1 with dev := { s1.dev with resumes := s1.dev.resumes ++ [(seg, g.id)] } }

/-- A logged message is applied (R388): the effect of an acknowledgement or a notice stands already (log 6). -/
def State.applyMsg (s : State) (g : Graph) (m : Msg) : State := if m.kind = 0 then s.deliverResume g m.seg else s

/-- What reached the link interfaces of the harts of a rectangle while they were held arrives before any node fires (R388); under THALT it waits on (R377). -/
def State.landAll (s : State) (k : Graph) : State :=
  k.places.foldl (fun s p => [p, 1024 + p].foldl (fun s n => if (s.hart n).thalt then s else s.landLinks n) s) s

/-- The graph runs on at a new place: it holds no cluster any longer (R319), the references it was saved with leave the counts, those of its saved form that do not resolve are found (R403), packets are sent again, withdrawn code is found, logged messages arrive, and what a swap has held goes on (R389). -/
def State.revive (s : State) (g : Graph) (refs : List (Dbl × Dbl)) (log : List Msg) : State :=
  let ctx := g.launch.ctx
  let k : Graph := { g with gone := s.dev.unresolved ctx refs, refs := [] }
  let s1 := ({ s with dev := (s.dev.setGraph k).unreserve g.launch.order } : State).countRefs ctx g.refs false
  let s2 := k.places.foldl (fun s p => ((s.resend p).resend (1024 + p)).checkCode k p) s1
  k.places.foldl (fun s p => (s.runWaiting p).tryLeave p) (log.foldl (fun s m => s.applyMsg k m) s2)

/-! Posted items of saved harts (R236, R260) -/

/-- What is left of an item that a saved hart gave to its copy: as it stands there; a spawn that the copy has performed has still its frame to push, since the deque that took the frame is gone while its count stands (R397). -/
def Posted.leftOf (p : Posted) (now : List Posted) : Option Posted :=
  match now.find? (fun q => q.seq == p.seq && q.what == p.what) with
  | some q => some q
  | none =>
    match p.what with
    | .spawn _ _ _ _ => some { p with status := 4 }
    | _ => none

/-- The items that a saved hart gave to its copy come back with what is left of them. -/
def Hart.takeBack (h k : Hart) : Hart := { h with posted := h.posted.filterMap (fun (p : Posted) => p.leftOf k.posted), notices := k.notices }.settleNotices

/-- A copy of the image is loaded: what its harts have posted is drained there and not at the image as well. -/
def Dev.takeImage (d : Dev) (addr : Dbl) : Dev :=
  { d with images := d.images.map (fun (i : Image) => if i.addr = addr then { i with taken := true } else i) }

/-- The segments whose resume frames stand in a tile: queued in its deque, or taken by its core and not started. -/
def State.resumeSegs (s : State) (ctx p : Nat) (v : Saved) : List Dbl :=
  ((s.queuedFrames ctx p v.mt.deque).map frameOf ++ v.hart.toList.flatMap (fun h => h.start.toList)).filterMap (fun f => if f.resume then some f.entry else none)

/-- The deque engine of a saved tile goes on from where that of its copy stands (R297, R397): the decrements and retirements that it has still to make, the segments that it holds, and the resume frames that have come to the copy alone, to be pushed again. -/
def Deque.takeBack (q k : Deque) (ctx : Nat) (came : List Dbl) : Deque :=
  { q with decs := k.decs, redo := k.redo ++ came.map (fun a => (true, a, ctx, false)), spare := k.spare, back := k.back, stopped := k.stopped }

/-- The loaded copy of an image goes: what its harts have still to drain stands in the image again, and the image goes on with every retirement that the copy has begun (R297, R397). `more` are resume frames that had still to reach a deque of the copy; what the log holds arrives from there. -/
def State.refillImage (s : State) (addr : Dbl) (copies : List Saved) (more : List Dbl) : State :=
  let refill (i : Image) : Image :=
    let p := placeOf i.graph.clu i.graph.row i.graph.col
    let known := i.tiles.flatMap (s.resumeSegs i.ctx p) ++ i.log.filterMap (fun m => if m.kind = 0 then some m.seg else none)
    let fresh (l : List Dbl) : List Dbl := l.filter (fun a => !known.contains a)
    let back (x : Nat × Saved × Saved) : Saved :=
      let v := x.2.1
      let c := x.2.2
      let came := fresh (s.resumeSegs i.ctx p c ++ (if x.1 = 0 then more else []))
      { v with hart := v.hart.map (fun h => h.takeBack (c.hart.getD Hart.reset)), eng := v.eng.map (fun h => h.takeBack (c.eng.getD Hart.reset)),
               mt := v.mt.setDeque (v.mt.deque.takeBack c.mt.deque i.ctx came) }
    { i with taken := false, tiles := (List.zip (upTo i.tiles.length) (List.zip i.tiles copies)).map back, log := i.log.map (fun m => { m with banked := false }) }
  { s with dev := { s.dev with images := s.dev.images.map (fun i => if i.addr = addr then refill i else i) } }

/-- What the graph of an image's copy has come to stands in the image's graph: its root task retired, its tasks Suspended (R265, R397). -/
def Dev.regraphImage (d : Dev) (addr : Dbl) (g : Graph) : Dev :=
  { d with images := d.images.map (fun (i : Image) => if i.addr = addr then { i with graph := { i.graph with retired := g.retired, waits := g.waits } } else i) }

/-! Shadow swap (R389-R392) -/

/-- What a tile's writer AGEs have posted is performed (R236, log 34). -/
def State.flushAges (s : State) (p : Nat) : State := (upTo 8).foldl (fun s a => s.ageFlush p a) s

/-- Both harts of the tile write back their dirty lines and keep them clean. -/
def State.cleanTile (s0 : State) (p : Nat) : State :=
  let s := s0.flushAges p
  [p, 1024 + p].foldl (fun s n =>
    let h := s.hart n
    h.l1d.foldl (fun s l => s.flushLine l.ctx n false l) (s.setHart n { h with l1d := h.l1d.map (fun l => { l with dirty := 0 }) })) s

/-- What the arrays of a tile keep for the core that comes to stand there (R390): lines, cached blocks and lookaside entries, tagged by context, that the core does not bring itself. -/
def Hart.withArrays (h k : Hart) : Hart :=
  { h with l1d := k.l1d.filter (fun l => !h.l1d.any (fun x => x.same l.ctx l.zone l.line)) ++ h.l1d
           look := k.look.filter (fun t => !h.look.any (fun x => x.ctx == t.ctx && x.zone == t.zone && x.page == t.page)) ++ h.look
           bcache := k.bcache.filter (fun e => !h.bcache.any (fun x => x.1 == e.1 && x.2.1 == e.2.1)) ++ h.bcache }

/-- The arrays of a tile without the lines of a context: the core that comes in hits none that another core of its context has left there, be it an older copy of what it has written since (R118, R390). -/
def Hart.linesBut (h : Hart) (ctx : BitVec 12) : Hart := { h with l1d := h.l1d.filter (fun l => l.ctx != ctx.toNat) }

/-- A saved hart without the arrays, which stay in their tile (R390). -/
def Hart.noArrays (h : Hart) : Hart := { h with l1d := [], look := [], bcache := [] }

/-- The idle tile state that a fresh placement swaps in, with what the tile's arrays keep (R389, R390). -/
def State.freshTile (s : State) (p : Nat) (live : Saved) (nonres : SMap Bool) : State :=
  let alarm := s.dev.valarm.getLsbD 32
  let idle (k : Option Hart) : Option Hart :=
    some { Hart.reset.withArrays (k.getD Hart.reset) with place := BitVec.ofNat 10 p, slow := if alarm then 0xF else 0, narrow := alarm }
  let hs := mset none (mset none s.dev.harts p (idle live.hart)) (1024 + p) (idle live.eng)
  (({ s with dev := { s.dev with harts := hs } } : State).setMt p { Mt.reset with nonres := nonres })

/-- What stands on a tile's live side. -/
def Dev.liveTile (d : Dev) (p gid : Nat) : Saved :=
  { hart := mget none d.harts p, eng := mget none d.harts (1024 + p), mt := d.mt p, graph := gid }

/-- The rectangle is to swap: every tile takes a signal; `dst` is where its image will be written. -/
def State.signalSwap (s : State) (g : Graph) (state : Nat) (dst : Dbl) : State :=
  { s with dev := { s.dev.setGraph { g with state := state, image := 0 } with
      swaps := s.dev.swaps ++ g.places, shadowOut := s.dev.shadowOut ++ g.places.map (fun p => (p, g.id, dst)) } }

/-- One tile exchanges its live and shadow sides (R389). -/
def State.swapTile (s : State) (p : Nat) : State :=
  if !s.dev.swaps.contains p then s
  else
    match s.dev.shadowOut.find? (fun x => x.1 == p) with
    | none => s
    | some (_, gid, _) =>
      match s.dev.graph gid with
      | none => s
      | some g =>
        let incoming := mget none s.dev.shadow p
        -- lines, cached blocks and lookaside entries stay in the tile's arrays (R390), the lines written back (log 6)
        let s0 := s.cleanTile p
        let live := s0.dev.liveTile p gid
        let d := s0.dev.keepInval p gid
        let s1 : State := { s0 with dev := { d with swaps := d.swaps.erase p, shadow := mset none d.shadow p (some (live.mapHarts Hart.noArrays)) } }
        let s2 := match incoming with
          | some v0 =>
            let onto (h k : Option Hart) : Option Hart := some ((h.getD Hart.reset).withArrays ((k.getD Hart.reset).linesBut (h.getD Hart.reset).ctxid))
            let v : Saved := { v0 with hart := onto v0.hart live.hart, eng := onto v0.eng live.eng }
            match s1.dev.graph v.graph with
            | some b => s1.loadTile b g v p allPages
            | none => s1.freshTile p live allPages
          | none => s1.freshTile p live allPages
        -- the last tile: the outgoing references are counted, the incoming graph runs on
        if g.places.any (fun x => s2.dev.swaps.contains x) then s2
        else
          let s3 := s2.saveRefs g (g.places.filterMap (fun x => mget none s2.dev.shadow x))
          match incoming with
          | some v =>
            match s3.dev.graph v.graph with
            | some b =>
              let k : Graph := { b with clu := g.clu, row := g.row, col := g.col, state := 0, placed := s3.dev.timebase, eligible := false, prio := b.launch.level }
              -- what has arrived for its image stands in the log (R388), but for what its bank has taken
              let i := s3.dev.images.find? (fun x => x.addr == b.image && b.image != 0)
              let log := ((i.map Image.log).getD []).filter (fun m => !m.banked)
              -- a second copy of an image refers to what the image does, though it counts nothing (R349, R350)
              (({ s3 with dev := s3.dev.setGraph k } : State).landAll k).revive k ((i.map Image.refs).getD k.refs) log
            | none => s3
          | none => s3

/-- SHADOW_SWAP: A tile takes the swap signal and exchanges live and shadow sides in 96 cycles (R389). -/
def execShadowSwap (place : Nat) (s : State) : Out := .next (s.swapTile place)

/-- SCRATCH_PAGE_EXCHANGE: The streamer exchanges one scratch page and sets its resident bit (R392): the outgoing side's page goes to its image, the incoming side's page becomes readable. -/
def execScratchPageExchange (place page : Nat) (s : State) : Out :=
  let m := s.mt place
  .next (if s.dev.swaps.contains place || decide (126 ≤ page) || !(mget false m.nonres page) then s
    else
      let s1 := s.setMt place { m with nonres := mset false m.nonres page false }
      match mget none s.dev.shadow place with
      | some v =>
        { s1 with dev := { s1.dev with shadow := mset none s1.dev.shadow place (some { v with mt := { v.mt with nonres := mset false v.mt.nonres page true } }) } }
      | none => s1)

/-- The end of a pre-emption command (R404). -/
def Dev.peDone (d : Dev) (status : Nat) (addr : Option Dbl) : Dev :=
  { d with pestat := BitVec.ofNat 9 status, pearg := addr.getD d.pearg }

/-- Every scratch page of the tile has been exchanged. -/
def State.exchanged (s : State) (p : Nat) : Bool := (s.mt p).nonres.isEmpty

/-- The context's codebook as a saved form holds it (R386, R400): 1 KiB, or nothing where none has been loaded. -/
def Dev.bookBytes (d : Dev) (ctx : Nat) : List Byte :=
  match d.books.find? (fun b => b.1 == ctx) with
  | some b => b.2.flatMap (natLe 4)
  | none => []

/-- A restore brings the codebook: an Ivory restore writes every section (R402); of a Sepia image that of a context which has none loaded here, since a loaded one is newer and CBLD alone changes it (R326, log 57). -/
def Dev.restoreBook (d : Dev) (ctx : Nat) (ivory : Bool) (bs : List Byte) : Dev :=
  if bs.isEmpty || (!ivory && d.books.any (fun b => b.1 == ctx)) then d
  else { d with books := d.books.filter (fun b => b.1 != ctx) ++ [(ctx, (upTo 256).map (fun j => leNat ((bs.drop (4 * j)).take 4)))] }

/-- Make the image of a graph from its tiles. -/
def Dev.imageOf (d : Dev) (addr : Dbl) (g : Graph) (tiles : List Saved) : Image :=
  { addr := addr, ivory := false, taken := false, ctx := g.launch.ctx, tilerev := d.tilerev, dmapver := d.dmapver, scanver := d.scanver,
    rows := g.rows, cols := g.cols, cut := g.cut, absorbed := g.absorbed, graph := g, tiles := tiles,
    book := d.bookBytes g.launch.ctx, refs := g.refs, log := [] }

/-- The entry of a position in the header's CUT (R393): the ring index of the core whose shape it lies in, bit 7 for one that a widened core has absorbed. -/
def Image.cutByte (i : Image) (off : Nat × Nat) : Nat :=
  let g := i.graph
  let p := placeOf g.clu (g.row + off.1) (g.col + off.2)
  let hart (n : Nat) : Hart := ((i.tiles[(placeRow n - g.row) * g.cols + (placeCol n - g.col)]?).bind Saved.hart).getD Hart.reset
  let ring := List.zip (upTo g.ring.length) g.ring
  let core := ((ring.find? (fun x => inShape (g.shapeWidth x.2 (hart x.2)) x.2 p)).map Prod.fst).getD 0
  core % 128 + (if g.absorbed.any (fun a => (g.cut.filter (fun c => (c.1, c.2.1) == a)).any (fun c => (cutCover c).contains off)) then 128 else 0)

/-- Where the arrival log of an image stands: 1 MiB into its first frame (log 6). -/
def logOffset : Nat := 0x100000

/-- The header of a Sepia image (R393). -/
def Image.header (i : Image) : List Byte :=
  natLe 4 0x41495053 ++ natLe 2 i.scanver.toNat ++ natLe 2 i.tilerev.toNat ++ natLe 4 i.dmapver.toNat ++ natLe 2 i.ctx ++ natLe 1 i.rows ++ natLe 1 i.cols ++
  natLe 8 (i.addr.toNat + logOffset) ++ natLe 4 i.log.length ++ List.replicate 36 0 ++
  (upTo 128).flatMap (fun k => natLe 1 (if k < i.rows * i.cols then i.cutByte (k / i.cols, k % i.cols) else 0))

def Dev.putImage (d : Dev) (i : Image) : Dev := { d with images := d.images.filter (fun x => x.addr != i.addr) ++ [i] }

/-- The channels of a tile pair that no port entry travels: between the XT and its MT and to and from the four neighbouring XTs. What crosses there arrives in the step that sends it (log 27), so that at every stop such a channel stands at CREDITS D, HELD 0 and OWED 0 (R395; DEDUCED, log 65). -/
def restingLinks : List Byte := (upTo 10).flatMap (fun _ => natLe 8 Config.linkDepth ++ natLe 8 0 ++ natLe 8 0)

/-- The link capture of a tile record (R395): for the channel towards each inbound port CREDITS, HELD and OWED as doubles, and the entries held, of 16 bytes each, then the channels at rest (log 6). -/
def Mt.linkCapture (m : Mt) : List Byte :=
  (upTo 8).flatMap (fun n =>
    let q := m.port n
    natLe 8 q.linkCredits ++ natLe 8 q.linkHeld ++ natLe 8 q.linkOwed ++
    q.link.flatMap (fun e => natLe 8 e.val.toNat ++ natLe 8 (e.tag.toNat + 2 ^ 4 * e.nmode.toNat + 2 ^ 5 * e.null.toNat))) ++ restingLinks

/-- The 128 scratch pages of a tile record, the 8 KiB system area last (R392). -/
def Mt.pageBytes (m : Mt) : List Byte := bytesAt m.scratch 0 0x7E000 ++ (upTo 1024).flatMap (fun k => natLe 8 (m.areaWord (8 * k)))

/-- A tile record (R393): the two scan blocks, private to TILEREV and the scan map, whose bytes are free, then the link capture and the scratch pages. -/
def Mt.record (m : Mt) (fresh : Nat) : List Byte :=
  (upTo Config.scanSize).map (fun i => ((Config.freeValue (fresh + i)).setWidth 8 : Byte)) ++ m.linkCapture ++ m.pageBytes

/-- A Sepia image is written (R393): its header and its tile records, each in the frame of its tile, behind the header's 192 bytes (log 6). -/
def State.writeSepia (s : State) (i : Image) : State :=
  let n := s.dev.fresh
  let s1 : State := { s with dev := { (s.dev.putImage i) with fresh := n + Config.scanSize * i.tiles.length } }
  (List.zip (upTo i.tiles.length) i.tiles).foldl (fun s x => s.putSaved i.addr.toNat (2 ^ 21 * x.1 + 192) (x.2.mt.record (n + Config.scanSize * x.1)))
    (s1.putSaved i.addr.toNat 0 i.header)

/-- STREAMER_WRITE_OUT: The streamer writes a swapped-out shadow side as a Sepia image (R391): once every tile of the rectangle has been written, the image stands, the shadow banks are empty and the command is done. -/
def execStreamerWriteOut (place : Nat) (s : State) : Out :=
  .next (match s.dev.shadowOut.find? (fun x => x.1 == place) with
    | none => s
    | some x =>
      if s.dev.swaps.contains place || !s.exchanged place then s
      else
        let out := s.dev.shadowOut.erase x
        let s1 : State := { s with dev := { s.dev with shadowOut := out } }
        if out.any (fun y => y.2.1 == x.2.1) then s1
        else
          match s1.dev.graph x.2.1 with
          | none => s1
          | some g =>
            let tiles := (g.places.filterMap (fun p => mget none s1.dev.shadow p)).map (fun (v : Saved) => { v with mt := { v.mt with nonres := [] } })
            let k : Graph := { g with image := x.2.2 }
            let s2 := ({ s1 with dev := s1.dev.setGraph k } : State).writeSepia (s1.dev.imageOf x.2.2 k tiles)
            let d2 := { s2.dev with shadow := g.places.foldl (fun m p => mset none m p none) s2.dev.shadow }
            { s2 with dev := if g.state = 2 ∧ d2.pestat.getLsbD 8 then d2.peDone 0 (some x.2.2) else d2 })

/-! Commands (R404) -/

structure PeCmd where
  ctx : Nat
  clu : Nat
  row : Nat
  col : Nat
  any : Bool
  limit : Nat
  go : Bool
  deriving DecidableEq, Repr

def peCmd (x : Nat) : PeCmd :=
  { ctx := bitsOf x 15 4, clu := bitsOf x 18 16, row := bitsOf x 22 19, col := bitsOf x 25 23, any := bitOf x 26,
    limit := bitsOf x 47 32, go := bitOf x 63 }

/-- A command is written: without GO nothing starts, while one runs it is refused with status 1, else `run` starts it. -/
def State.command (s : State) (cmd : Dbl) (run : State → PeCmd → State) : State :=
  let s1 : State := { s with dev := { s.dev with pecmd := cmd &&& 0x0000FFFF07FFFFFF } }
  let c := peCmd cmd.toNat
  if !c.go then s1
  else if s.dev.pestat.getLsbD 8 then { s1 with dev := { s1.dev with pestat := 0x101 } }
  else run s1 c

def State.refuse (s : State) (status : Nat) : State := { s with dev := s.dev.peDone status none }

/-- The positions whose shadow banks hold a graph. -/
def Dev.shadowPlaces (d : Dev) (gid : Nat) : List Nat :=
  d.shadow.filterMap (fun x => match x.2 with | some v => if v.graph = gid then some x.1 else none | none => none)

/-- The rectangle's shadow banks can take a context: all empty, or preloaded with one context, whose rectangle it is (R387, R404). -/
def Dev.shadowOpen (d : Dev) (g : Graph) : Bool :=
  g.places.all (fun p => !d.streaming p) &&
  (g.places.all (fun p => (mget none d.shadow p).isNone) ||
   (match g.places with
    | [] => true
    | p :: _ =>
      match mget none d.shadow p with
      | some v => g.places.all (fun q => (d.shadowPlaces v.graph).contains q) && (d.shadowPlaces v.graph).all (fun q => g.places.contains q)
      | none => false))

/-- PE_SWAP_OUT: PECMD OP 1 swaps a rectangle out to its shadow bank (R389). -/
def execPeSwapOut (cmd : Dbl) (s : State) : Out :=
  .next (s.command cmd fun s c =>
    if !s.ctxLive c.ctx then s.refuse 11 else
    match s.dev.graphAt c.ctx c.clu c.row c.col with
    | none => s.refuse 10
    | some g =>
      if !s.dev.shadowOpen g then s.refuse 12
      else
        match s.takeSave (g.rows * g.cols) with
        | (_, none) => s.refuse 12
        | (s1, some dst) =>
          let s2 := s1.signalSwap g 2 dst
          { s2 with dev := { s2.dev with pestat := 0x101 } })

/-- The Sepia image at PEARG. -/
def Dev.imageAt (d : Dev) : Option Image := d.images.find? (fun i => i.addr == d.pearg && !i.ivory)

/-- What refuses a Sepia image (R394). -/
def Dev.imageBad (d : Dev) (i : Image) : Option Nat :=
  if i.tilerev ≠ d.tilerev then some 7
  else if i.dmapver ≠ d.dmapver then some 8
  else if i.scanver ≠ d.scanver then some 9
  else none

/-- A saved graph is the record of the same id that waits, or its saved copy; its rectangle is the one it was saved from. -/
def Dev.savedGraph (d : Dev) (i : Image) : Graph :=
  match d.graph i.graph.id with
  | some g => { g with clu := i.graph.clu, row := i.graph.row, col := i.graph.col, cut := i.cut, absorbed := i.absorbed, active := i.graph.active }
  | none => i.graph

/-- Another placement of the same graph stands. -/
def Dev.standing (d : Dev) (i : Image) : Bool :=
  match d.graph i.graph.id with
  | some g => g.resident || g.places.any (fun p => d.swaps.contains p)
  | none => false

/-- A saved form under another context and graph number: that of a second copy, or of the target of a migration (R394, R430). An engine hart, and ECTX, that name another context stay in it (R303, log 65). -/
def Image.rebind (i : Image) (ctx id : Nat) : Image :=
  let old := i.graph.id
  let core (h : Hart) : Hart := { h with ctxid := BitVec.ofNat 12 ctx, graph := if h.graph = old then id else h.graph }
  let moved (c : BitVec 12) : BitVec 12 := if c.toNat = i.ctx then BitVec.ofNat 12 ctx else c
  let engine (h : Hart) : Hart := { core h with ctxid := moved h.ctxid }
  let mt (m : Mt) : Mt := { m with ages := m.ages.map (fun x => (x.1, x.2.map (fun a => { a with ctx := ctx }))), ectx := moved m.ectx }
  { i with ctx := ctx, graph := { i.graph with id := id, refs := [], launch := { i.graph.launch with ctx := ctx, via := ctx } },
           tiles := i.tiles.map (fun v => { v with hart := v.hart.map core, eng := v.eng.map engine, mt := mt v.mt, graph := id }) }

/-- The saved form as a restore loads it: under its own graph number, or, while another copy of that graph stands, under a new one. -/
def State.copyOf (s : State) (i : Image) : State × Image :=
  if s.dev.standing i then
    let id := s.dev.nextGraph
    ({ s with dev := { s.dev with nextGraph := id + 1 } }, i.rebind i.ctx id)
  else (s, i)

/-- PE_PRELOAD_SHADOW: PECMD OP 2 preloads a shadow bank from a Sepia image (R404): into the banks of a rectangle of the same shape and cut. -/
def execPePreloadShadow (cmd : Dbl) (s : State) : Out :=
  .next (s.command cmd fun s c =>
    if !s.ctxLive c.ctx then s.refuse 11 else
    match s.dev.graphAt c.ctx c.clu c.row c.col with
    | none => s.refuse 10
    | some g =>
      match s.dev.imageAt with
      | none => s.refuse 5
      | some i =>
        match s.dev.imageBad i with
        | some st => s.refuse st
        | none =>
          if i.rows ≠ g.rows ∨ i.cols ≠ g.cols ∨ i.cut ≠ g.cut ∨ (i.recut g.row g.col).isNone = true then s.refuse 10
          else if !(g.places.all (fun p => (mget none s.dev.shadow p).isNone && !s.dev.streaming p)) then s.refuse 12
          else
            let u := s.copyOf i
            let d := u.1.dev
            let b : Graph := { d.savedGraph u.2 with image := i.addr }
            let sh := (List.zip g.places u.2.tiles).foldl (fun m x => mset none m x.1 (some { x.2 with graph := b.id })) d.shadow
            let gs := if (d.graph b.id).isSome then d.graphs else d.graphs ++ [{ b with state := 2 }]
            { s with dev := { (d.takeImage i.addr) with shadow := sh, graphs := gs, pestat := 0 } })

/-- A COH or WT line is released (R386, R393): it holds what its home holds (log 54). -/
def Hart.releaseCoh (h : Hart) : Hart := { h with l1d := h.l1d.filter (fun l => l.home.isNone) }

/-- Stop a rectangle's clocks and write its Sepia image (R393); `none` when the save pool has no room. What its AGEs have posted is performed, and its COH lines are released. -/
def State.clockStop (s : State) (g : Graph) : Option (State × Dbl) :=
  match s.takeSave (g.rows * g.cols) with
  | (_, none) => none
  | (s0, some dst) =>
    let s1 := g.places.foldl (fun s p => s.flushAges p) s0
    let tiles := g.places.map (fun p => (s1.dev.liveTile p g.id).mapHarts Hart.releaseCoh)
    let d1 := g.places.foldl (fun d p => d.keepInval p g.id) s1.dev
    let s2 := ({ s1 with dev := d1 } : State).saveRefs g tiles
    let k : Graph := { ((s2.dev.graph g.id).getD g) with state := 2, image := dst }
    let s3 := g.places.foldl (fun s p => s.idleTile p []) s2
    some (({ s3 with dev := s3.dev.setGraph k } : State).writeSepia (s3.dev.imageOf dst k tiles), dst)

/-- PE_CLOCK_STOP: PECMD OP 3 stops a rectangle's clocks and writes a Sepia image (R393). -/
def execPeClockStop (cmd : Dbl) (s : State) : Out :=
  .next (s.command cmd fun s c =>
    if !s.ctxLive c.ctx then s.refuse 11 else
    match s.dev.graphAt c.ctx c.clu c.row c.col with
    | none => s.refuse 10
    | some g =>
      match s.clockStop g with
      | none => s.refuse 12
      | some (s1, dst) => { s1 with dev := s1.dev.peDone 0 (some dst) })

/-! Restores (R387, R394, R402) -/

/-- The image's rectangle lies in a cluster on tiles that are free or in `extra`, and its cores can stand there (R34, R387). -/
def Dev.canPlaceOn (d : Dev) (extra : List Nat) (i : Image) (clu row col : Nat) : Bool :=
  decide (row + i.rows ≤ 16) && decide (col + i.cols ≤ 8) && (i.recut row col).isSome &&
  (rectPlaces clu row col i.rows i.cols).all (fun p => d.freeTile p || extra.contains p)

def Dev.canPlace (d : Dev) (i : Image) (clu row col : Nat) : Bool := d.canPlaceOn [] i clu row col

/-- Positions of a rectangle of a given shape, each cluster's from north-west. -/
def positions : List (Nat × Nat × Nat) :=
  (upTo 8).flatMap (fun k => (upTo 16).flatMap (fun r => (upTo 8).map (fun c => (k, r, c))))

/-- Free tiles of a cluster (R317). -/
def Dev.freeIn (d : Dev) (clu : Nat) : Nat := ((rectPlaces clu 0 0 16 8).filter (fun p => d.freeTile p)).length

/-- The position suits the width of the image's launch (R317). -/
def Image.suitsAt (i : Image) (x : Nat × Nat × Nat) : Bool :=
  ({ clu := x.1, row := x.2.1, col := x.2.2, rows := i.rows, cols := i.cols } : Rect).suits (Nat.max i.graph.launch.whint 1)

/-- The place R317 chooses for an image, whose shape is fixed: its origin suits the launch's width, of the clusters that hold a candidate the one with the most free tiles, then the north-most and west-most origin. -/
def Dev.chooseFixed (d : Dev) (i : Image) (ok : Nat → Bool) : Option (Nat × Nat × Nat) :=
  (positions.filter (fun x => ok x.1 && i.suitsAt x && d.canPlace i x.1 x.2.1 x.2.2)).foldl (fun best x =>
    match best with
    | none => some x
    | some b => if d.freeIn b.1 < d.freeIn x.1 then some x else some b) none

/-- The cluster is reserved for another item (R319). -/
def Dev.takenBy (d : Dev) (order clu : Nat) : Bool := d.reserved.any (fun r => r.1 != order && r.2 == clu)

/-- Clusters open to an item: its own reserved cluster alone, else every cluster that is not reserved (R319). -/
def Dev.openTo (d : Dev) (order clu : Nat) : Bool :=
  match d.reserved.find? (fun r => r.1 == order) with
  | some r => clu == r.2
  | none => !d.takenBy order clu

/-- The place R317 chooses for an image, where no cluster is reserved for another item (R319). -/
def Dev.chooseOpen (d : Dev) (i : Image) : Option (Nat × Nat × Nat) := d.chooseFixed i (fun k => d.openTo i.graph.launch.order k)

/-- The target of a restore command. R319 does not say whether an explicit place may lie in a cluster that is reserved for another item: it may (DESIGN CHOICE, log 63). -/
def Dev.target (d : Dev) (i : Image) (c : PeCmd) : Option (Nat × Nat × Nat) :=
  if c.any then d.chooseOpen i
  else if d.canPlace i c.clu c.row c.col then some (c.clu, c.row, c.col)
  else none

/-- Narrowing takes effect (R34, R387): lanes and columns beyond a narrower width go, and the cores that come to be there are idle cores of the domain. -/
def State.applyRecut (s : State) (k : Graph) (rc : Recut) : State :=
  let at_ (r c : Nat) : Nat := placeOf k.clu (k.row + r) (k.col + c)
  let s1 := rc.widths.foldl (fun s x =>
    let n := at_ x.1 x.2.1
    if (s.hart n).cwidth.toNat ≤ x.2.2 then s else s.setHart n { (s.hart n).clip x.2.2 with cwidth := BitVec.ofNat 4 x.2.2 }) s
  rc.fresh.foldl (fun s e =>
    let p := at_ e.1 e.2.1
    (s.setDeque p Deque.reset).setHart p ((s.hart p).onPlacement k.id (ringNext k.ring p))) s1

/-- Load an image's tiles into a rectangle, its graph in `state` and at the priority it is now placed at (R316); what its harts have posted stands with the loaded ones alone (R236). -/
def State.loadImage (s : State) (i : Image) (at_ : Nat × Nat × Nat) (state : Nat) : State × Graph :=
  let g := s.dev.savedGraph i
  let rc := (i.recut at_.2.1 at_.2.2).getD { cut := i.cut, absorbed := i.absorbed, widths := [], fresh := [], freed := [] }
  let k : Graph := { g with clu := at_.1, row := at_.2.1, col := at_.2.2, cut := rc.cut, absorbed := rc.absorbed, state := state,
                            placed := s.dev.timebase, eligible := false, image := i.addr, prio := g.launch.level }
  let old : Graph := i.graph
  let s1 := (List.zip k.places i.tiles).foldl (fun s x => s.loadTile old k x.2 x.1 []) s
  let d := (s1.dev.restoreBook i.ctx i.ivory i.book).takeImage i.addr
  let s2 : State := { s1 with dev := { d with nextGraph := Nat.max d.nextGraph (k.id + 1), graphs := if (d.graph k.id).isSome then d.graphs.map (fun x => if x.id = k.id then k else x) else d.graphs ++ [k] } }
  ((s2.applyRecut k rc).landAll k, k)

/-- Restore an image into a place (R394): its graph runs on, its logged messages arrive. Each restore of one image replays its history from the stop. -/
def State.restoreImage (s : State) (i : Image) (at_ : Nat × Nat × Nat) : State :=
  let c := s.copyOf i
  let r := c.1.loadImage c.2 at_ 0
  r.1.revive r.2 i.refs i.log

/-- PE_RESTORE_SEPIA: PECMD OP 5 restores a Sepia image into a rectangle (R394). -/
def execPeRestoreSepia (cmd : Dbl) (s : State) : Out :=
  .next (s.command cmd fun s c =>
    match s.dev.imageAt with
    | none => s.refuse 5
    | some i =>
      match s.dev.imageBad i with
      | some st => s.refuse st
      | none =>
        if i.ctx ≠ c.ctx then s.refuse 14
        else if !s.ctxLive c.ctx then s.refuse 11
        else
          match s.dev.target i c with
          | none => s.refuse 10
          | some p =>
            let s1 := s.restoreImage i p
            { s1 with dev := s1.dev.peDone 0 none })

/-- After an Ivory restore: each resident core runs on, and each START frame is started (R402). -/
def State.startFrames (s : State) (k : Graph) : State :=
  k.places.foldl (fun s p => if (s.hart p).start.isSome && (s.hart p).run == .idle then s.beginTask p else s) s

/-- The parent of a resident core's task stands in its task segment, where the deque engine has put it (R263). -/
def State.readParent (s : State) (ctx n : Nat) : State :=
  let h := s.hart n
  if h.run = .idle then s
  else
    match s.readDbl ctx n (h.seg + 48) with
    | (s1, some x, _) => s1.setHart n { s1.hart n with parent := BitVec.ofNat 64 x }
    | (s1, none, _) => s1

/-- An operator's restore of a record that the source of a committed session has kept takes the context up again (R431), and launches of it with it (log 65). -/
def Dev.readmit (d : Dev) (ctx : Nat) : Dev :=
  { d with stopctx := if d.migs.any (fun m => m.2.any (fun x => x.used && x.source && !x.gone && x.ctx == ctx)) then d.stopctx else d.stopctx.filter (fun c => c != ctx) }

/-- Restore an Ivory record (R402), its sections read: they go into idle tiles, the codebook with them; ports are bound with starting credits, stopped AGEs go on, packets are sent again, cores are resumed, frames started. The quiescence round goes on where its DOMAIN section left it. -/
def State.restoreIvory (s : State) (i : Image) (at_ : Nat × Nat × Nat) : State :=
  let c := s.copyOf i
  let r := c.1.loadImage c.2 at_ 0
  let k := r.2
  let s0 : State := { r.1 with dev := (r.1.dev.dropKept k.launch.ctx (some i.addr)).readmit k.launch.ctx }
  let s1 := k.places.foldl (fun s p => (upTo 16).foldl (fun s n =>
    let q := s.port p n
    let s1 := s.setPort p n { q with agreed := false, owed := 0 }
    if q.bind = 1 then s1.joinLink p n true else s1) s) s0
  let s2 := k.places.foldl (fun s p => (upTo 8).foldl (fun s a =>
    let g := s.age p a
    if g.state = 3 then s.runAge p a g else s) s) s1
  ((k.places.foldl (fun s p => s.readParent k.launch.ctx p) s2).revive k i.refs i.log).startFrames k

/-- The saved form of an image, a record read from its bytes; `none` where they hold no record that can be restored. -/
def State.formAt (s : State) (i : Image) : Option Image :=
  if i.ivory then
    match s.readRecord i.addr.toNat with
    | .inr x => some x
    | .inl _ => none
  else some i

/-- PE_RESTORE_IVORY: PECMD OP 6 restores the Ivory record at PEARG into a rectangle (R402), with the checks of R401 in their order. -/
def execPeRestoreIvory (cmd : Dbl) (s : State) : Out :=
  .next (s.command cmd fun s c =>
    match s.readRecord s.dev.pearg.toNat with
    | .inl st => s.refuse st
    | .inr i =>
      if i.ctx ≠ c.ctx then s.refuse 14
      else if !s.ctxLive c.ctx then s.refuse 11
      else
        match s.dev.target i c with
        | none => s.refuse 10
        | some p =>
          let s1 := s.restoreIvory i p
          { s1 with dev := s1.dev.peDone 0 none })

/-! Drains (R396-R398) -/

/-- A core enters drain mode (R396): every unbound block goes with its checkpoint, a frozen core's too; a theft request still on a link is answered empty. -/
def State.enterDrain (s : State) (p : Nat) : State :=
  let h := s.hart p
  let s1 := s.setHart p (if h.run == .frozen then h.discardUnbound else { h.discardUnbound with stepping := false })
  let s2 := s1.setHart (1024 + p) (s1.hart (1024 + p)).discardAll
  match (s2.deque p).reply with
  | some false => s2.emptyReply p
  | _ => s2

/-- Restore a Sepia image in drain mode, its arrival log applied (R394, R396): the log stays with the image until the drain has succeeded (R397); `none` when the save pool has no room. -/
def State.startDrain (s : State) (i : Image) (at_ : Nat × Nat × Nat) (limit : Nat) : Option State :=
  match s.takeSave (i.rows * i.cols) with
  | (_, none) => none
  | (s1, some dst) =>
    let c := s1.copyOf i
    let r := c.1.loadImage c.2 at_ 5
    let s2 := i.log.foldl (fun s m => s.applyMsg r.2 m) (r.2.places.foldl (fun s p => (s.resend p).enterDrain p) r.1)
    some { s2 with dev := { s2.dev with drain := some { image := i.addr, dest := dst, limit := limit, graph := r.2.id, was := (c.1.dev.graph c.2.graph.id).map Graph.state }, pestat := 0x101 } }

/-- PE_DRAIN_IVORY: PECMD OP 4 restores an image in drain mode and drains it to an Ivory record (R396). Where its rectangle is not free the status is 10, as for a restore (DESIGN CHOICE, log 61). -/
def execPeDrainIvory (cmd : Dbl) (s : State) : Out :=
  .next (s.command cmd fun s c =>
    match s.dev.imageAt with
    | none => s.refuse 5
    | some i =>
      match s.dev.imageBad i with
      | some st => s.refuse st
      | none =>
        if i.ctx ≠ c.ctx then s.refuse 14
        else if !s.ctxLive c.ctx then s.refuse 11
        else if !s.dev.canPlace i c.clu c.row c.col then s.refuse 10
        else (s.startDrain i (c.clu, c.row, c.col) c.limit).getD (s.refuse 12))

/-- Work of the drain that a hart still holds (R396): blocks, a commit-time step begun, be its core frozen (R297), a widening, tensor work, posted items, deferred stores. -/
def Hart.undrained (h : Hart) : Bool :=
  (h.run == .running && (!h.blocks.isEmpty || h.reserve.isSome)) || ((h.run == .running || h.run == .frozen) && (h.susp.isSome || h.leaving)) || !h.nodes.isEmpty || !h.mout.isEmpty || !h.posted.isEmpty

/-- A theft of the deque is still in transit, or a retirement, its decrement or the push of a resume frame is not finished (R297). -/
def Deque.undrained (q : Deque) : Bool := q.transit || q.reply == some true || q.copy.isSome || !q.decs.isEmpty || !q.redo.isEmpty

/-- A tile whose deque has a theft in transit, where a committed port change still waits, whose AGEs have posted elements to perform (R257), or with entries on a link towards it (R297, R386, R398). -/
def State.tileUndrained (s : State) (p : Nat) : Bool :=
  (s.deque p).undrained || !(s.mt p).waiting.isEmpty || (upTo 8).any (fun a => !(s.age p a).out.isEmpty) || (upTo 8).any (fun n => !(s.port p n).link.isEmpty)

/-- A held bound block whose fault is unresolved (R396). -/
def Hart.heldBound (h : Hart) : Bool := h.run == .frozen && h.hasBound

/-- An unresolved replay entry is the only thing outstanding (R397). -/
def Hart.onlyReplay (h : Hart) : Bool := !{ h with posted := h.posted.filter (fun p => !p.entry && p.status != 2) }.undrained

/-- A core as its CORE, VREG and MREG sections hold it: no block, no busy node, no held bit of the drained run, and none of the debug controls or theft waits that no section holds (R386, R400). -/
def Hart.drainedForm (h : Hart) : Hart :=
  { h with blocks := [], busy := 0, nodes := [], mout := [], ckpt := none, posted := [], notices := [],
           l1d := [], look := [], bcache := [], zeroes := 0, reserve := none, thalt := false, marked := false, violated := [],
           emul := false, toksel := 0, inj0 := 0, inj1 := 0, last := 0, stepping := false, halting := false,
           trc := [], trace := [], traceLost := 0, lap := 0, lapWait := false, theftFirst := false }

/-- A tile as the sections of an Ivory record hold it. -/
def Saved.drainedForm (v : Saved) : Saved :=
  { v with hart := v.hart.map Hart.drainedForm, eng := v.eng.map Hart.drainedForm }

/-- Release a drain rectangle's tiles; its graph waits as it did before the drain, for a placement decision or for a command (R321, R404). After a drain that has failed the image stands as it was, with what its harts have still to drain (R397). -/
def State.freeDrain (s : State) (x : Drain) (status : Nat) (addr : Option Dbl) : State :=
  match s.dev.graph x.graph with
  | none => { s with dev := { (s.dev.peDone status addr) with drain := none } }
  | some g =>
    let copies := g.places.map (fun p => s.dev.liveTile p g.id)
    let s1 := g.places.foldl (fun s p => s.idleTile p []) s
    let left := (s1.dev.resumes.filter (fun r => r.2 == g.id)).map Prod.fst
    let d := if status = 0 then s1.dev
      else { (s1.refillImage x.image copies left).dev.regraphImage x.image g with resumes := s1.dev.resumes.filter (fun r => r.2 != g.id) }
    let d1 := if status ≠ 0 ∧ x.was = none then { d with graphs := d.graphs.filter (fun y => y.id != g.id) } else d.setGraph { g with state := x.was.getD 2 }
    let s2 : State := { s1 with dev := { (d1.peDone status addr) with drain := none } }
    if status = 0 then s2 else s2.giveSave x.dest.toNat

/-- An ALINV of the rectangle is in progress (R336), or a resume frame has still to reach its deque. -/
def Dev.calling (d : Dev) (g : Graph) (ns : List Nat) : Bool :=
  d.inval.any (fun i => i.req == 4096 + g.id || ns.contains i.req) || d.resumes.any (fun r => r.2 == g.id)

/-- Dirty lines of the rectangle that are still to be written back. -/
def State.drainLines (s : State) (g : Graph) : Option Nat :=
  g.places.findSome? (fun p =>
    [p, 1024 + p].find? (fun n => (s.hart n).l1d.any (fun l => l.dirty != 0)))

/-- The Ivory record of a drained graph is written into its frames (R399); what the device keeps beside it names its address, its graph and its cut. -/
def State.writeIvory (s : State) (g : Graph) (dst : Dbl) (tiles : List Saved) (refs : List (Nat × Dbl × Dbl)) : State :=
  let xs := recordParts g tiles (s.dev.bookBytes g.launch.ctx) refs
  let i : Image := { s.dev.imageOf dst g [] with ivory := true, book := [] }
  ({ s with dev := s.dev.putImage i } : State).putSaved dst.toNat 0 (recordBytes s.dev g xs)

/-- DRAIN_COMPLETE: Drain steps end and the Ivory record is written (R396): step by step, a held bound block stops the drain, dirty lines are written back, AGEs are stopped, the record is made. -/
def execDrainComplete (s : State) : Out :=
  .next (match s.dev.drain with
    | none => s
    | some x =>
      match s.dev.graph x.graph with
      | none => s
      | some g =>
        let ns := g.places ++ g.places.map (fun p => 1024 + p)
        if ns.any (fun n => (s.hart n).heldBound) then s.freeDrain x 2 none
        else if ns.any (fun n => (s.hart n).undrained) || g.places.any (fun p => s.tileUndrained p) || s.dev.calling g ns then s
        else
          match s.drainLines g with
          | some n => s.setHart n ((s.hart n).writeback false true (fun _ => true))
          | none =>
            let s1 := g.places.foldl (fun s p => (upTo 8).foldl (fun s a => s.stopAge p a) s) s
            let tiles := g.places.map (fun p => (s1.dev.liveTile p g.id).drainedForm)
            let kinds := s1.kindRefs g (placeOf g.clu g.row g.col) tiles
            let k : Graph := { g with refs := kinds.map Prod.snd, image := x.dest, state := 2 }
            let s2 := (s1.countRefs g.launch.ctx k.refs true).countRefs g.launch.ctx g.refs false
            let s3 := ({ s2 with dev := s2.dev.setGraph k } : State).writeIvory k x.dest tiles kinds
            s3.freeDrain x 0 (some x.dest))

/-- DRAIN_LIMIT_EXPIRY: The drain limit expires and the drain stops with status 3 or 4 (R397). -/
def execDrainLimitExpiry (s : State) : Out :=
  .next (match s.dev.drain with
    | none => s
    | some x =>
      if x.limit = 0 then s
      else
        match s.dev.graph x.graph with
        | none => s
        | some g =>
          let ns := g.places ++ g.places.map (fun p => 1024 + p)
          let only := !s.dev.calling g ns && ns.all (fun n => (s.hart n).onlyReplay) && !(g.places.any (fun p => s.tileUndrained p)) &&
            ns.any (fun n => (s.hart n).undrained)
          s.freeDrain x (if only then 4 else 3) none)

/-! Messages to a context that is not live (R388) -/

/-- The origin core of a graph whose tiles are being swapped out or stand in shadow banks (R276): the core that holds its north-west position. -/
def Dev.savedOrigin (d : Dev) (g : Graph) : Nat :=
  let nw := placeOf g.clu g.row g.col
  let core (n : Nat) : Hart := match mget none d.shadow n with
    | some v => if v.graph = g.id then v.hart.getD Hart.reset else d.hart n
    | none => d.hart n
  (g.ring.find? (fun n => inShape (g.shapeWidth n (core n)) n nw)).getD (g.ring.headD nw)

/-- The home that sent a message keeps it (R388): in a hold slot of the bank of the segment's page while one of the 16 is free (R282), else to be offered again. -/
def State.keepMsg (s : State) (g : Graph) (m : Msg) : State :=
  let bank := bankOf g.launch.ctx 0 (m.seg.toNat / 4096)
  let slot := if s.dev.queued bank 2 < 16 then some bank else none
  { s with dev := { s.dev with heldMsgs := s.dev.heldMsgs ++ [(g.id, m, slot)] } }

/-- A message joins the arrival log of a Sepia image, which holds 4,096 entries (R388). An Ivory record never changes (R384): the home keeps the message until its restore (log 61). -/
def State.logMsg (s : State) (g : Graph) (i : Image) (m : Msg) : State :=
  if i.ivory || decide (4096 ≤ i.log.length) then s.keepMsg g m
  else
    let at_ := logOffset + 32 * i.log.length
    ((({ s with dev := s.dev.putImage { i with log := i.log ++ [m] } } : State).putSaved i.addr.toNat at_ (natLe 8 m.seg.toNat ++ natLe 8 m.kind ++ natLe 16 0)).putSaved i.addr.toNat 24
      (natLe 4 (i.log.length + 1)))

/-- Where a preloaded copy of a graph has its origin core: the place in whose shadow bank it stands (R276, R387). -/
def Dev.bankOrigin (d : Dev) (g : Graph) : Option Nat :=
  let ps := d.shadowPlaces g.id
  let bank (n : Nat) : Option Nat := (g.places.idxOf? n).bind (fun j => ps[j]?)
  let core (n : Nat) : Hart :=
    match (bank n).bind (fun q => mget none d.shadow q) with
    | some v => v.hart.getD Hart.reset
    | none => Hart.reset
  let nw := placeOf g.clu g.row g.col
  if ps.length = g.places.length then bank ((g.ring.find? (fun n => inShape (g.shapeWidth n (core n)) n nw)).getD (g.ring.headD nw)) else none

/-- A resume frame joins the deque of a shadow bank; `none` where it has no room. -/
def Dev.bankPush (d : Dev) (p : Nat) (seg : Dbl) : Option Dev :=
  let f : Frame := { entry := seg, args := [], parent := 0, status := 0, resume := true }
  match mget none d.shadow p with
  | some v =>
    let q := v.mt.deque
    if q.isFull then none else some { d with shadow := mset none d.shadow p (some { v with mt := { v.mt with deque := q.push f.dbls } }) }
  | none => none

/-- Deliver a message for a graph: to the live domain, to the tile or the shadow bank that holds its origin core, or to the log of its image; for a context that is preloaded it goes to the bank and, marked, to the log as well, since its image stays restorable (R387, R388). So it does to a graph that drains (R397). -/
def State.deliverMsg (s : State) (gid : Nat) (m : Msg) : State :=
  match s.dev.graph gid with
  | none => s
  | some g =>
    let image := s.dev.images.find? (fun i => i.addr == g.image && g.image != 0)
    if m.kind ≠ 0 then (if g.state = 0 then s else match image with | some i => s.logMsg g i m | none => s)
    else if g.state = 0 then s.deliverResume g m.seg
    else
      match image with
      | some i =>
        match if i.log.length < 4096 ∧ i.ivory = false then (s.dev.bankOrigin g).bind (fun p => s.dev.bankPush p m.seg) else none with
        | some d => ({ s with dev := d } : State).logMsg g i { m with banked := true }
        | none => if g.state = 5 ∧ i.log.length < 4096 then (s.logMsg g i m).deliverResume g m.seg else s.logMsg g i m
      | none =>
        let p := s.dev.savedOrigin g
        match mget none s.dev.shadow p with
        | some v =>
          -- the tile has not swapped yet: the graph stands on its live side
          if v.graph ≠ gid then s.deliverResume g m.seg
          else
            match s.dev.bankPush p m.seg with
            | some d => { s with dev := d }
            | none => s.keepMsg g m
        | none => if s.dev.swaps.contains p then s.deliverResume g m.seg else s.keepMsg g m

/-- ARRIVAL_LOG_APPEND: A message for a non-live context goes to its shadow bank or arrival log (R388); `image` is the position of the message among those waiting. -/
def execArrivalLogAppend (image : Nat) (s : State) : Out :=
  .next (match s.dev.msgs[image]? with
    | none => s
    | some (gid, m) => ({ s with dev := { s.dev with msgs := s.dev.msgs.eraseIdx image } } : State).deliverMsg gid m)

/-- HELD_MESSAGE_REOFFER: A home offers a refused message again every 256 cycles (R388). -/
def execHeldMessageReoffer (s : State) : Out :=
  .next (match s.dev.heldMsgs with
    | [] => s
    | (gid, m, _) :: rest => ({ s with dev := { s.dev with heldMsgs := rest } } : State).deliverMsg gid m)

end Sys2Proof.Machine
end

