-- ==== Sys2Proof/Machine/Launch.lean ====
section
/-! DEFINITION. The placement unit (R309-R325): intake and checks of launch records, cancels and priority changes (R408, R412), placement, backfill, pre-emption for priority, the launch table (R312, R344), completion (R13) and the end of a context. -/
namespace Sys2Proof.Machine

/-! Reports -/

/-- A fault of the placement unit: a packet to the Slate core of device row 0 (R372). -/
def State.unitFault (s : State) (ctx cause kind : Nat) (va : Dbl) : State :=
  { s with dev := s.dev.sendPacket 0 (agentPacket s.dev 4 ctx 0 0 cause 0 va 0 (BitVec.ofNat 64 (kind + 256 * 3))) }

def unitWriter : Writer := { agent := 4, hart := 0, place := 0, unit := 0, seq := 0 }

/-- An 8-byte write into a launch record, with release at system scope (R310). -/
def State.writeRecord (s : State) (h : Held) (off v : Nat) : State :=
  match s.writeUnit h.via 0 0 (h.record + BitVec.ofNat 64 off) (full (natLe 8 v)) unitWriter with
  | (s1, .bytes _) => s1
  | (s1, .fault c _) => s1.unitFault h.via c 1 (h.record + BitVec.ofNat 64 off)
  | (s1, .wait) => s1

def State.writeState (s : State) (h : Held) (v : Nat) : State := s.writeRecord h 32 v

def Dev.page (d : Dev) (n : Nat) : Page := (mget none d.pages n).getD Page.reset
def Dev.setPage (d : Dev) (n : Nat) (p : Page) : Dev := { d with pages := mset none d.pages n (some p) }
def Dev.entry (d : Dev) (n : Nat) : LTab := (mget none d.ltab n).getD LTab.reset
def Dev.setEntry (d : Dev) (n : Nat) (e : LTab) : Dev := { d with ltab := mset none d.ltab n (some e) }

/-- The source of a post learns that its launch is final (R407, R409, R412): it is no longer outstanding or held; a page with IRQ raises its vector. -/
def Dev.sourceDone (d : Dev) (src srcN : Nat) (record : Dbl) (written : Bool) : Dev :=
  match src with
  | 0 => d.setApp srcN { d.app srcN with out := (d.app srcN).out.erase record }
  | 1 => if written && (d.page srcN).irq then { d with msix := d.msix ++ [srcN] } else d
  | 3 => d.setEntry srcN { d.entry srcN with held := false }
  | _ => d

/-- Write a final STATE (R310) and tell the source. -/
def State.finishLaunch (s : State) (h : Held) (v : Nat) : State :=
  let s1 := s.writeState h v
  { s1 with dev := s1.dev.sourceDone h.src h.srcN h.record true }

/-- A post of a record is decided: what an earlier post of it from this port met says nothing more (R407). -/
def Dev.decided (d : Dev) (p : Post) : Dev :=
  if p.src = 0 then d.setApp p.srcN { d.app p.srcN with unread := (d.app p.srcN).unread.filter (fun r => r != p.record) } else d

/-- A refusal with 0x14 or 0x15 is reported to the source only (R310, R409). -/
def Dev.reportRefusal (d : Dev) (p : Post) (code : Nat) : Dev :=
  let flag := p.record ||| (if code = 0x15 then 1 else 2)
  let d1 := d.sourceDone p.src p.srcN p.record false
  match p.src with
  | 0 =>
    let a := d1.app p.srcN
    d1.setApp p.srcN { a with lasterr := flag, unread := if code = 0x15 ∧ a.queue.all (fun c => c.op != 0 || c.record != p.record) then a.unread ++ [p.record] else a.unread }
  | 1 => d1.setPage p.srcN { d1.page p.srcN with lasterr := flag }
  | 3 => d1.setEntry p.srcN { d1.entry p.srcN with rfail := (d1.entry p.srcN).rfail || code == 0x15 }
  | _ => d1

/-! The intake (R310, R311) -/

/-- The launch that a record's first 32 bytes describe (R309). -/
def heldOf (p : Post) (bs : List Byte) (stamp : Dbl) (order : Nat) : Held :=
  let prio := numAt bs 26 1 % 32
  let cap := numAt bs 27 1 % 32
  { record := p.record, ctx := numAt bs 24 2 % 4096, entry := BitVec.ofNat 64 (numAt bs 0 8), arg := BitVec.ofNat 64 (numAt bs 8 8),
    binder := BitVec.ofNat 64 (numAt bs 16 8), prio := prio, cap := cap, whint := numAt bs 28 1 % 16,
    domsz := numAt bs 29 1, noage := bitOf (numAt bs 30 2) 0, stamp := stamp, level := prio, since := stamp, order := order,
    via := p.via, src := p.src, srcN := p.srcN }

/-- The field checks of R310 (0x12). -/
def Held.badField (h : Held) : Bool :=
  h.entry.toNat % 128 != 0 || h.binder.toNat % 64 != 0 || !([0, 1, 2, 4, 8].contains h.whint) || h.domsz == 0 ||
  decide (128 < h.domsz * Nat.max h.whint 1)

/-- The level to which a launch may age: the greater of CAP and PRIO (R315). -/
def Held.ceiling (h : Held) : Nat := Nat.max h.cap h.prio

def Held.same (h : Held) (record : Dbl) (via : Nat) : Bool := h.record == record && h.via == via

/-- The record is held, or its graph is placed or pre-empted (R311). -/
def Dev.heldAlready (d : Dev) (record : Dbl) (via : Nat) : Bool :=
  d.held.any (fun h => h.same record via) || d.graphs.any (fun g => g.launch.same record via)

/-- A context that a launch may name: live, with tables (R310, R327), and not stopped for its final round (R427). -/
def State.takesLaunch (s : State) (ctx : Nat) : Bool :=
  s.ctxLive ctx && descDbl (s.descriptor ctx) 0 != 0 && !s.dev.stopctx.contains ctx

/-- The outcome of the checks after readability, in the order of R310; 0x01 for acceptance. -/
def State.checkPost (s : State) (p : Post) (h : Held) : Nat :=
  if s.dev.heldAlready p.record p.via then 0x14
  else if (match p.ctx with | some c => c != h.ctx | none => false) then 0x11
  else if !s.takesLaunch h.ctx then 0x13
  else if h.badField then 0x12
  else if 4096 ≤ s.dev.held.length then 0x10
  else 0x01

/-- A post is read once and checked; a passing record gets STAMP, then STATE 0x01, and joins its level (R310). A record address that is not 64-byte aligned is taken as given (log 60). -/
def State.post (s : State) (p : Post) : State :=
  match ({ s with dev := s.dev.decided p } : State).readHomeAll p.via 0 0 p.record 32 with
  | (s1, .bytes bs) =>
    let h := heldOf p bs s1.dev.timebase s1.dev.nextOrder
    let code := s1.checkPost p h
    if code = 0x14 then { s1 with dev := s1.dev.reportRefusal p code }
    else if code ≠ 0x01 then s1.finishLaunch h code
    else
      let s2 := (s1.writeRecord h 40 h.stamp.toNat).writeState h 0x01
      { s2 with dev := { s2.dev with held := s2.dev.held ++ [h], nextOrder := s2.dev.nextOrder + 1 } }
  | (s1, _) => { s1 with dev := s1.dev.reportRefusal p 0x15 }

/-- A cancel (R325, R408): its result code. A launch outside the authority answers 4 although 1 or 2 fits it as well (DESIGN CHOICE, log 61). -/
def State.cancel (s : State) (p : Post) : State × Nat :=
  let barred (h : Held) : Bool := match p.ctx with | some c => c != h.ctx | none => false
  match s.dev.held.find? (fun h => h.same p.record p.via) with
  | some h =>
    if barred h then (s, 4)
    else
      let d := { s.dev.unreserve h.order with held := s.dev.held.filter (fun x => x.order != h.order) }
      (({ s with dev := d } : State).finishLaunch h 0x05, 0)
  | none =>
    match s.dev.graphs.find? (fun g => g.launch.same p.record p.via) with
    | some g => (s, if barred g.launch then 4 else 1)
    | none => (s, 3)

/-- A priority change (R316, R408): its result code. -/
def State.reprio (s : State) (p : Post) : State × Nat :=
  let barred (h : Held) : Bool := match p.ctx with | some c => c != h.ctx | none => false
  let moved (h : Held) : Held := { h with prio := p.prio, level := p.prio, since := s.dev.timebase }
  match s.dev.held.find? (fun h => h.same p.record p.via) with
  | some h =>
    if barred h then (s, 4)
    else ({ s with dev := { s.dev with held := s.dev.held.map (fun x => if x.order = h.order then moved x else x) } }, 0)
  | none =>
    match s.dev.graphs.find? (fun g => g.launch.same p.record p.via) with
    | some g =>
      if barred g.launch then (s, 4)
      else if g.resident then (s, 2)
      else ({ s with dev := s.dev.setGraph { g with launch := moved g.launch } }, 1)
    | none => (s, 3)

/-- The source receives a command's result (R408, R412). -/
def State.commandDone (s : State) (p : Post) (rd : BitVec 5) (code : Nat) : State :=
  match p.src with
  | 0 =>
    let a := s.dev.app p.srcN
    let x := if rd = 0 then a.x else mset 0 a.x rd.toNat (BitVec.ofNat 64 code)
    { s with dev := s.dev.setApp p.srcN { a with x := x, pc := a.pc + 4, wait := none } }
  | 1 => { s with dev := s.dev.setPage p.srcN { s.dev.page p.srcN with result := BitVec.ofNat 3 code } }
  | _ => s

/-- LAUNCH_POST: The placement unit reads and checks a posted launch record (R310), taking the head of its intake; cancels and priority changes pass the same intake (R408). Until PLACE is ready posts wait (R436). -/
def execLaunchPost (s : State) : Out :=
  .next (match s.dev.intake with
    | [] => s
    | p :: rest =>
      if !s.dev.ready.getLsbD 15 then s
      else
        let a := s.dev.app p.srcN
        let rd := match a.queue with | c :: _ => c.rd | [] => 0
        let d := { s.dev with intake := rest }
        let s1 : State := { s with dev := if p.src = 0 then d.setApp p.srcN { a with queue := a.queue.drop 1 } else d }
        match p.op with
        | 0 => s1.post p
        | 4 => (s1.cancel p).1.commandDone p rd (s1.cancel p).2
        | _ => (s1.reprio p).1.commandDone p rd (s1.reprio p).2)

/-! Launch pages (R412) -/

/-- Whether a page's doorbell posts: EN, and the placement unit ready (R412, R436). -/
def Dev.doorOpen (d : Dev) (n : Nat) : Bool := (d.page n).en && d.ready.getLsbD 15

def pagePost (n : Nat) (p : Page) (op : Nat) (record : Dbl) (prio : Nat) : Post :=
  { op := op, record := record, src := 1, srcN := n, ctx := some p.ctx.toNat, via := p.ctx.toNat, prio := prio }

/-- A write to a doorbell posts a launch record address (R412); with EN 0 it is dropped and LASTERR takes the address with bit 0 set. -/
def State.ringBell (s : State) (page : Nat) (addr : Dbl) : State :=
  let p := s.dev.page page
  if s.dev.doorOpen page then { s with dev := { s.dev with intake := s.dev.intake ++ [pagePost page p 0 addr 0] } }
  else { s with dev := s.dev.setPage page { p with lasterr := addr ||| 1 } }

/-- DOORBELL_WRITE: The host writes a doorbell (R412), which it cannot before its link is trained (R436). -/
def execDoorbellWrite (page : Nat) (addr : Dbl) (s : State) : Out := .next (if s.dev.ready.getLsbD 16 then s.ringBell page addr else s)

/-- LAUNCH_PAGE_CANCEL: A write to CANCEL cancels the launch at CMDADDR (R412). -/
def execLaunchPageCancel (page : Nat) (s : State) : Out :=
  let p := s.dev.page page
  .next { s with dev := { s.dev with intake := s.dev.intake ++ [pagePost page p 4 p.cmdaddr 0] } }

/-- LAUNCH_PAGE_PRIOSET: A write to PRIOSET changes the priority of the launch at CMDADDR (R412). -/
def execLaunchPagePrioset (page : Nat) (prio : BitVec 5) (s : State) : Out :=
  let p := s.dev.page page
  .next { s with dev := { s.dev with intake := s.dev.intake ++ [pagePost page p 6 p.cmdaddr prio.toNat] } }

/-- LASTERR_READ: Reading LASTERR returns and clears the latest refused record (R412). -/
def execLasterrRead (page : Nat) (s : State) : Out :=
  let p := s.dev.page page
  .next (({ s with dev := s.dev.setPage page { p with lasterr := 0 } } : State).answer (natLe 8 p.lasterr.toNat))

/-! The launch table (R312, R313, R344, R358) -/

def LTab.slotTime (e : LTab) (n : Nat) : Nat := e.start.toNat + n * e.period.toNat

/-- MISSED stops at 2^32 - 1 (R358). -/
def LTab.miss (e : LTab) (n : Nat) : LTab := { e with missed := BitVec.ofNat 32 (Nat.min (e.missed.toNat + n) (2 ^ 32 - 1)) }

/-- The latest slot that a time has reached, at least `e.slot` (R313). -/
def LTab.latest (e : LTab) (now : Nat) : Nat :=
  if e.period = 0 then e.slot else Nat.max e.slot ((now - e.start.toNat) / e.period.toNat)

/-- TIME_TRIGGER_SLOT: TIMEBASE reaches a slot and the entry posts or counts a miss (R312); slots passed over by a step count as missed (R313). -/
def execTimeTriggerSlot (entry : Nat) (s : State) : Out :=
  let e := s.dev.entry entry
  .next (if !e.en || (e.period == 0 && decide (1 ≤ e.slot)) then s
    else
      let now := Nat.max s.dev.timebase.toNat (e.slotTime e.slot)
      let n := e.latest now
      let e1 := { e.miss (n - e.slot) with slot := n + 1 }
      let d := { s.dev with timebase := BitVec.ofNat 64 now }
      if e.held then { s with dev := d.setEntry entry (e1.miss 1) }
      else
        let p : Post := { op := 0, record := e.record, src := 3, srcN := entry, ctx := some e.ctx.toNat, via := e.ctx.toNat, prio := 0 }
        { s with dev := { (d.setEntry entry { e1 with held := true }) with intake := d.intake ++ [p] } })

/-- The least slot at or above a time (R344). -/
def LTab.firstSlot (e : LTab) (now : Nat) : Nat :=
  if now ≤ e.start.toNat then 0
  else if e.period = 0 then 1
  else (now - e.start.toNat + e.period.toNat - 1) / e.period.toNat

/-- LAUNCH_TABLE_ENABLE: Setting EN fixes the first slot of a launch-table entry (R344). -/
def execLaunchTableEnable (entry : Nat) (s : State) : Out :=
  let e := s.dev.entry entry
  .next (if e.en then s
    else { s with dev := s.dev.setEntry entry { e with en := true, slot := e.firstSlot s.dev.timebase.toNat } })

/-- MISSED_READ: Reading MISSED returns and clears the missed-slot counter (R358). -/
def execMissedRead (entry : Nat) (s : State) : Out :=
  let e := s.dev.entry entry
  .next (({ s with dev := s.dev.setEntry entry { e with missed := 0 } } : State).answer (natLe 4 e.missed.toNat))

/-! Rectangles and cuts (R317, R318) -/

/-- Every rectangle of a cluster that suits a launch, free or not. -/
def Held.shapes (h : Held) (clu : Nat) : List Rect :=
  let w := Nat.max h.whint 1
  let q := h.domsz * w
  (upTo 16).flatMap (fun r => (upTo 8).flatMap (fun c => (upTo (16 - r)).flatMap (fun hh => (upTo (8 - c)).filterMap (fun cc =>
    let x : Rect := { clu := clu, row := r, col := c, rows := hh + 1, cols := cc + 1 }
    let area := x.rows * x.cols
    if w ≤ area ∧ area ≤ q ∧ x.suits w = true then some x else none))))

/-- Which of two rectangles of one cluster R317 prefers: larger area, sides that differ less, then the north-most and west-most origin. -/
def Rect.better (a b : Rect) : Bool :=
  let diff (r : Rect) : Nat := (r.rows - r.cols) + (r.cols - r.rows)
  let x := a.rows * a.cols
  let y := b.rows * b.cols
  if x ≠ y then decide (y < x)
  else if diff a ≠ diff b then decide (diff a < diff b)
  else if a.row ≠ b.row then decide (a.row < b.row)
  else decide (a.col < b.col)

/-- The best candidate; of two that R317 does not tell apart, one of h x c and one of c x h positions of equal area and origin, the first enumerated, which has fewer rows (DESIGN CHOICE, log 63). -/
def bestRect (l : List Rect) : Option Rect :=
  l.foldl (fun best r =>
    match best with
    | none => some r
    | some b => if r.better b then some r else some b) none

/-- The candidate of a cluster that R317 chooses, with the tiles of `extra` counted as free. -/
def Dev.candidateIn (d : Dev) (h : Held) (extra : List Nat) (clu : Nat) : Option Rect :=
  bestRect ((h.shapes clu).filter (fun r => r.places.all (fun p => d.freeTile p || extra.contains p)))

/-- The candidate that R317 chooses: of the clusters that hold one, that with the most free tiles. -/
def Dev.candidate (d : Dev) (h : Held) : Option Rect :=
  (upTo 8).foldl (fun best k =>
    if !d.openTo h.order k then best
    else
      match d.candidateIn h [] k, best with
      | none, b => b
      | some r, none => some r
      | some r, some b => if d.freeIn b.clu < d.freeIn k then some r else some b) none

def Held.cut (h : Held) (r : Rect) : List (Nat × Nat × Nat) :=
  if h.whint = 0 then cutFree r else cutEven r.rows r.cols h.whint

/-! Placing (R16, R315-R318) -/

/-- Place a launch on a rectangle: STATE 0x02, the cut, idle cores, and the root frame started on the origin core (R16, R318). -/
def State.placeLaunch (s : State) (h : Held) (r : Rect) : State :=
  let id := s.dev.nextGraph
  let g : Graph := { id := id, num := id, launch := h, clu := r.clu, row := r.row, col := r.col, rows := r.rows, cols := r.cols, cut := h.cut r,
                     absorbed := [], prio := h.level, placed := s.dev.timebase, state := 0, image := 0, round := 0, active := false,
                     retired := false, eligible := false, refs := [], gone := [], waits := [] }
  let s1 : State := { s with dev := { s.dev.unreserve h.order with graphs := s.dev.graphs ++ [g], nextGraph := id + 1,
                                                                   held := s.dev.held.filter (fun x => x.order != h.order) } }
  let s2 := r.places.foldl (fun s p => s.setDeque p { Deque.reset with ring := [] }) (s1.writeState h 0x02)
  let s3 := g.cut.foldl (fun s c =>
    let p := placeOf g.clu (g.row + c.1) (g.col + c.2.1)
    s.setHart p ((s.hart p).onPlacement id (ringNext g.ring p))) s2
  let o := s3.dev.origin g
  let f : Frame := { entry := h.entry, args := [h.arg], parent := 0, status := 0, resume := false }
  (s3.setHart o { s3.hart o with start := some f }).beginTask o

/-- What waits at the levels: a launch not yet placed, or a graph to restore (R315, R321). -/
inductive Item where
  | launch (h : Held)
  | restore (g : Graph)
  deriving DecidableEq, Repr

def Item.held (i : Item) : Held :=
  match i with
  | .launch h => h
  | .restore g => g.launch

/-- Level first, then STAMP, then the order of the intake (R315, R325). -/
def Item.before (a b : Item) : Bool :=
  let x := a.held
  let y := b.held
  if x.level ≠ y.level then decide (y.level < x.level)
  else if x.stamp ≠ y.stamp then decide (x.stamp.toNat < y.stamp.toNat)
  else decide (x.order < y.order)

def insertItem (l : List Item) (i : Item) : List Item :=
  match l with
  | [] => [i]
  | j :: js => if i.before j then i :: j :: js else j :: insertItem js i

/-- A graph that has been taken waits at its level for an ordinary placement decision (R321), which can place it once its image stands; a context in its final stop places nothing (R427). -/
def Dev.waiting (d : Dev) : List Graph := d.graphs.filter (fun g => g.state == 1 && !d.stopctx.contains g.launch.ctx)

def Dev.levels (d : Dev) : List Item :=
  ((d.held.filter (fun h => !d.stopctx.contains h.ctx)).map Item.launch ++ d.waiting.map Item.restore).foldl insertItem []

/-- The image from which a graph can be restored. -/
def State.restorable (s : State) (g : Graph) : Option Image :=
  match s.dev.images.find? (fun x => x.addr == g.image && g.image != 0) with
  | none => none
  | some x => if (!x.ivory && (s.dev.imageBad x).isSome) || !s.ctxLive x.ctx then none else s.formAt x

/-- Restore a graph by a placement decision (R321): it runs at the level at which it waited. -/
def State.placeImage (s : State) (x : Image) (at_ : Nat × Nat × Nat) : State :=
  if x.ivory then s.restoreIvory x at_ else s.restoreImage x at_

/-- Place one item if it has a candidate. -/
def State.tryPlace (s : State) (i : Item) : Option State :=
  match i with
  | .launch h => (s.dev.candidate h).map (fun r => s.placeLaunch h r)
  | .restore g =>
    match s.restorable g with
    | none => none
    | some x => (s.dev.chooseFixed x (fun k => s.dev.openTo g.launch.order k)).map (fun at_ => s.placeImage x at_)

/-! Pre-emption for priority (R320) -/

/-- Sublists of `k` elements. -/
def choose {α : Type} : Nat → List α → List (List α)
  | 0, _ => [[]]
  | _ + 1, [] => []
  | k + 1, x :: xs => (choose k xs).map (fun l => x :: l) ++ choose (k + 1) xs

/-- A graph that may be taken for a launch at level `p`: its shadow banks hold nothing that is still being streamed out (R320). -/
def Dev.takeable (d : Dev) (p : Nat) (g : Graph) : Bool :=
  g.state == 0 && decide (g.prio < p) && g.eligible &&
  g.places.all (fun x => !d.streaming x)

def insertNat (up : Bool) (l : List Nat) (n : Nat) : List Nat :=
  match l with
  | [] => [n]
  | m :: ms => if (up && decide (n ≤ m)) || (!up && decide (m ≤ n)) then n :: m :: ms else m :: insertNat up ms n

def sortDown (l : List Nat) : List Nat := l.foldl (insertNat false) []

/-- The first difference of two sequences: true when `a` is lower there, false when higher, `none` when they agree. -/
def lowerAt : List Nat → List Nat → Option Bool
  | a :: as, b :: bs => if a = b then lowerAt as bs else some (decide (a < b))
  | _, _ => none

/-- A choice of victims with the candidate it makes. -/
structure Victims where
  clu : Nat
  graphs : List Graph
  rect : Rect
  deriving DecidableEq, Repr

/-- Which of two sets of one size is preferred (R320): lower running priorities, more recent placement, lower cluster, better candidate. -/
def Victims.better (a b : Victims) : Bool :=
  match lowerAt (sortDown (a.graphs.map Graph.prio)) (sortDown (b.graphs.map Graph.prio)) with
  | some x => x
  | none =>
    match lowerAt (sortDown (a.graphs.map (fun g => g.placed.toNat))) (sortDown (b.graphs.map (fun g => g.placed.toNat))) with
    | some x => !x
    | none => if a.clu ≠ b.clu then decide (a.clu < b.clu) else a.rect.better b.rect

/-- The candidate of an item in a cluster once the tiles of `extra` are free (R317, R320). -/
def State.roomIn (s : State) (i : Item) (extra : List Nat) (clu : Nat) : Option Rect :=
  match i with
  | .launch h => s.dev.candidateIn h extra clu
  | .restore g =>
    match s.restorable g with
    | none => none
    | some x => ((positions.find? (fun a => a.1 == clu && x.suitsAt a && s.dev.canPlaceOn extra x a.1 a.2.1 a.2.2)).map (fun a =>
        { clu := clu, row := a.2.1, col := a.2.2, rows := x.rows, cols := x.cols }))

/-- The sets of `k` victims of a cluster that make room: any cluster but one that is reserved for another head (R319, R320). -/
def State.victimSets (s : State) (i : Item) (k clu : Nat) : List Victims :=
  let d := s.dev
  let h := i.held
  if d.takenBy h.order clu then []
  else
    (choose k (d.graphs.filter (fun g => g.clu == clu && d.takeable h.level g))).filterMap (fun gs =>
      match s.roomIn i (gs.flatMap Graph.places) clu with
      | some r => some { clu := clu, graphs := gs, rect := r }
      | none => none)

/-- The victims R320 chooses: the fewest, then by preference. -/
def State.victims (s : State) (i : Item) : Option Victims :=
  (upTo s.dev.graphs.length).findSome? (fun k =>
    ((upTo 8).flatMap (fun c => s.victimSets i (k + 1) c)).foldl (fun best v =>
      match best with
      | none => some v
      | some b => if v.better b then some v else some b) none)

/-- The shadow banks of some tiles lose the contexts that are preloaded there, whose images stand and take back what their harts have posted: a fresh placement swaps in the idle tile state (R389, log 57). -/
def State.clearPreload (s : State) (ps : List Nat) : State :=
  let d := s.dev
  let ids := (ps.filterMap (fun p => match mget none d.shadow p with | some v => if d.streaming p then none else some v.graph | none => none)).eraseDups
  let s1 := ids.foldl (fun s id =>
    match s.dev.graph id with
    | some g => s.refillImage g.image ((s.dev.shadow.filterMap Prod.snd).filter (fun v => v.graph == id)) []
    | none => s) s
  { s1 with dev := { s1.dev with shadow := d.shadow.filter (fun x => match x.2 with | some v => !ids.contains v.graph | none => true) } }

/-- Take one victim by shadow swap of its whole rectangle (R320, R321); `none` when the save pool has no room. -/
def State.takeVictim (s : State) (g : Graph) : Option State :=
  match s.takeSave (g.rows * g.cols) with
  | (_, none) => none
  | (s1, some dst) =>
    let h : Held := { g.launch with level := g.prio, since := s1.dev.timebase }
    let s2 := s1.clearPreload g.places
    some (g.places.foldl (fun s p => s.swapTile p) (s2.signalSwap { g with launch := h } 1 dst))

def takeAll : List Graph → State → Option State
  | [], s => some s
  | g :: gs, s =>
    match s.takeVictim g with
    | some s1 => takeAll gs s1
    | none => none

/-- Some cluster that is not reserved for another head holds a candidate for the item, its own reservation apart (R319, R320). -/
def State.hasCandidate (s : State) (i : Item) : Bool :=
  (upTo 8).any (fun k => !s.dev.takenBy i.held.order k && (s.roomIn i [] k).isSome)

/-- Pre-empt for the head, a launch or a graph to be restored, and place it there (R320, log 48): nothing is taken while a candidate stands in any cluster, be it outside the one reserved for the head. -/
def State.preempt (s : State) (i : Item) : Option State :=
  if !s.dev.plctl.getLsbD 48 || s.hasCandidate i then none
  else
    match s.victims i with
    | none => none
    | some v =>
      match takeAll v.graphs s with
      | none => none
      | some s1 =>
        match i with
        | .launch h => some (s1.placeLaunch h v.rect)
        | .restore g => (s.restorable g).map (fun x => s1.placeImage x (v.clu, v.rect.row, v.rect.col))

/-- PLACEMENT_DECISION: The placement unit places the head launch or a restore into a rectangle (R317); a head without a candidate pre-empts (R320) or is passed by later items that have one, until a cluster is reserved for it (R319). -/
def execPlacementDecision (s : State) : Out :=
  .next (if !s.dev.ready.getLsbD 15 then s
    else
      match s.dev.levels with
      | [] => s
      | i :: rest =>
        match s.tryPlace i with
        | some s1 => s1
        | none =>
          match s.preempt i with
          | some s1 => s1
          | none => if s.dev.reserved.any (fun r => r.1 == i.held.order) then s else (rest.findSome? (fun j => s.tryPlace j)).getD s)

/-- The most free positions among the aligned places of one core of width `w` in a cluster (R319). -/
def Dev.bestCore (d : Dev) (w clu : Nat) : Nat :=
  let hh := if 4 ≤ w then 2 else 1
  let cc := w / hh
  ((upTo (16 / hh)).flatMap (fun i => (upTo (8 / cc)).map (fun j =>
    ((rectPlaces clu (hh * i) (cc * j) hh cc).filter (fun p => d.freeTile p)).length))).foldl Nat.max 0

/-- The cluster that R319 reserves for an item, of those that no item holds yet. -/
def Dev.reserveFor (d : Dev) (order w : Nat) : Option Nat :=
  ((upTo 8).filter (fun k => !d.takenBy order k)).foldl (fun best k =>
    match best with
    | none => some k
    | some c =>
      let a := (d.bestCore w k, d.freeIn k)
      let b := (d.bestCore w c, d.freeIn c)
      if b.1 < a.1 ∨ (b.1 = a.1 ∧ b.2 < a.2) then some k else best) none

/-- BACKFILL_RESERVE: After BFWAIT at the head, a cluster is reserved for the launch (R319): once for each head, and not moved. -/
def execBackfillReserve (s : State) : Out :=
  .next (match s.dev.levels with
    | [] => s
    | i :: _ =>
      if s.dev.reserved.any (fun r => r.1 == i.held.order) || (s.tryPlace i).isSome then s
      else
        match s.dev.reserveFor i.held.order (Nat.max i.held.whint 1) with
        | some c => { s with dev := { s.dev with reserved := s.dev.reserved ++ [(i.held.order, c)] } }
        | none => s)

/-- LAUNCH_AGE_TICK: After AGEP a held launch gains one level (R315), up to the greater of CAP and PRIO; a graph that waits for restore ages alike (R321). `n` counts the held launches, then the waiting graphs. -/
def execLaunchAgeTick (n : Nat) (s : State) : Out :=
  let older (h : Held) : Held := if !h.noage && decide (h.level < h.ceiling) then { h with level := h.level + 1 } else h
  .next (if s.dev.plctl.toNat % 2 ^ 16 = 0 then s
    else
      match s.dev.held[n]? with
      | some h => { s with dev := { s.dev with held := s.dev.held.map (fun x => if x.order = h.order then older x else x) } }
      | none =>
        match (s.dev.graphs.filter (fun g => g.state == 1))[n - s.dev.held.length]? with
        | some g => { s with dev := s.dev.setGraph { g with launch := older g.launch } }
        | none => s)

/-- MINRES_EXPIRY: A resident graph reaches MINRES of residence and becomes eligible for priority pre-emption (R320). -/
def execMinresExpiry (graph : Nat) (s : State) : Out :=
  .next (match s.dev.graph graph with
    | some g => if g.state = 0 then { s with dev := s.dev.setGraph { g with eligible := true } } else s
    | none => s)

/-! The end of a graph (R13) -/

/-- Every task of a graph has ended and its posted stores have drained (R13). -/
def State.graphDone (s : State) (g : Graph) : Bool :=
  g.state == 0 && g.retired &&
  g.ring.all (fun n =>
    let h := s.hart n
    let q := s.deque n
    h.run == .idle && h.start.isNone && q.isEmpty && !q.transit && q.copy.isNone && q.reply != some true && !q.stopped && q.back.isEmpty &&
    h.posted.isEmpty)

/-- The rectangle is free: the graph's cores belong to no graph, its deques are as at reset, its frames on their way are gone. -/
def State.freeGraph (s : State) (g : Graph) : State :=
  let s1 := g.places.foldl (fun s p =>
    let s1 := s.setDeque p Deque.reset
    if (s1.hart p).graph = g.id then s1.setHart p { (s1.hart p).onPlacement 0 0 with posted := [] } else s1) s
  let d := s1.dev
  { s1 with dev := { d with graphs := d.graphs.filter (fun x => x.id != g.id), resumes := d.resumes.filter (fun x => x.2 != g.id),
                            msgs := d.msgs.filter (fun x => x.1 != g.id), heldMsgs := d.heldMsgs.filter (fun x => x.1 != g.id) } }

/-- Add 1 to the completion binder's word with release at system scope; a fault is the placement unit's (R13). -/
def State.addBinder (s : State) (g : Graph) : State :=
  let ctx := g.launch.ctx
  let va := g.launch.binder
  match s.readHome ctx 0 0 va 8 with
  | (s1, .bytes bs) =>
    match s1.writeUnit ctx 0 0 va (full (natLe 8 (leNat bs + 1))) unitWriter with
    | (s2, .bytes _) => s2
    | (s2, .fault c _) => s2.unitFault ctx c 2 va
    | (s2, .wait) => s2
  | (s1, .fault c _) => s1.unitFault ctx c 2 va
  | (s1, .wait) => s1

/-- GRAPH_COMPLETE: After drain the placement unit adds to the binder, writes STATE and frees the rectangle (R13); spare segments return first, and the graph waits while a fault of a deque engine holds them (R264). -/
def execGraphComplete (graph : Nat) (s : State) : Out :=
  .next (match s.dev.graph graph with
    | none => s
    | some g =>
      if !s.graphDone g then s
      else
        let s1 := g.places.foldl (fun s p => s.returnSpares g.launch.ctx p) s
        if g.places.any (fun p => (s1.deque p).stopped) then s1
        else ((s1.addBinder g).finishLaunch g.launch 0x03).freeGraph g)

/-- A hart of an ended context stops: its blocks, its replay entries and what it has still to release go (R376). -/
def Hart.ended (h : Hart) : Hart :=
  { h.discardAll with run := .idle, blocks := [], posted := [], notices := [], nodes := [], mout := [], busy := 0,
                      reserve := none, start := none, kicked := false, susp := none, leaving := false, thalt := false, marked := false, cause := 0,
                      packet := none, pending := [], violated := [], stepping := false, halting := false, ckpt := none, zeroes := 0 }

/-- Posted writes that have left a hart reach their targets; what stands in a replay queue is discarded (R376, R282). -/
def State.flushPosted (s : State) (hn : Nat) : Nat → State
  | 0 => s
  | k + 1 =>
    match (s.hart hn).posted with
    | [] => s
    | p :: _ =>
      let n := (s.hart hn).posted.length
      let s1 := if (p.status = 0 ∨ p.status = 7) ∧ p.what.drains = true then
          (match p.what with
           | .rel z a v => s.performRel hn 0 p z a v
           | _ => s.performItem hn 0 p)
        else s
      let s2 := if (s1.hart hn).posted.length = n then s1.setHart hn ((s1.hart hn).dropPosted 0) else s1
      s2.flushPosted hn k

/-- End every agent of a context at a tile: its harts, and the AGEs that run for it, whoever's core stands there. -/
def State.endTile (s : State) (ctx p : Nat) : State :=
  let stop (s : State) (n : Nat) : State :=
    if (s.hart n).ctxid.toNat = ctx then
      let s1 := s.flushPosted n (s.hart n).posted.length
      s1.setHart n (s1.hart n).ended
    else s
  let s1 := stop (stop s p) (1024 + p)
  if (s.hart p).ctxid.toNat = ctx then s1.clearTile p
  else (upTo 8).foldl (fun s a => if (s.age p a).state ≠ 0 ∧ (s.age p a).ctx = ctx then (s.unbindAge p a).setAge p a Age.reset else s) s1

/-- Tiles that a context may have state on. -/
def Dev.tilesOf (d : Dev) (ctx : Nat) : List Nat :=
  (d.harts.filterMap (fun x =>
    match x.2 with
    | some h => if h.ctxid.toNat = ctx ∧ (h.graph ≠ 0 ∨ h.run ≠ .idle ∨ h.posted ≠ []) then some (placeOfHart x.1) else none
    | none => none) ++
   d.mts.filterMap (fun x =>
    match x.2 with
    | some m => if (upTo 8).any (fun a => (m.age a).state != 0 && (m.age a).ctx == ctx) then some x.1 else none
    | none => none)).eraseDups

/-- What the homes and the tiles hold of an ended context goes: its lookaside entries, its cached blocks, its codebook (R195, R196, R341). -/
def Dev.forgetContext (d : Dev) (ctx : Nat) : Dev :=
  let d1 := d.mapHarts (fun h => { h with look := h.look.filter (fun t => t.ctx != ctx), bcache := h.bcache.filter (fun e => e.1 != ctx) })
  { d1 with books := d1.books.filter (fun b => b.1 != ctx), stopctx := if d1.migs.any (fun m => m.2.any (fun x => x.used && x.ctx == ctx)) then d1.stopctx else d1.stopctx.filter (fun c => c != ctx) }

/-- The banks of a context's replay entries, one for each entry or hold slot (R282). -/
def Dev.replayBanks (d : Dev) (ctx : Nat) : List Nat :=
  d.allHarts.flatMap (fun x =>
    if x.2.ctxid.toNat = ctx then (x.2.posted.filter (fun p => p.entry || p.status == 2)).filterMap (fun p => p.bank ctx) else [])

/-- End a context (R13, R376): every core, engine and AGE stops, its graphs go wherever they are held, and its launches report 0x04. -/
def State.endContext (s : State) (ctx : Nat) : State :=
  let s1 := (s.dev.tilesOf ctx).foldl (fun s p => s.endTile ctx p) s
  let gs := s1.dev.graphs.filter (fun g => g.launch.ctx == ctx)
  let s2 := gs.foldl (fun s g =>
    let s1 := s.finishLaunch g.launch 0x04
    let s1 := s1.countRefs ctx g.refs false
    let s2 := if g.resident then (g.places.foldl (fun s p => s.returnSpares ctx p) s1).freeGraph g
      else { s1 with dev := { s1.dev with graphs := s1.dev.graphs.filter (fun x => x.id != g.id) } }
    let d := s2.dev.unreserve g.launch.order
    { s2 with dev := { d with
        shadow := d.shadow.filter (fun x => match x.2 with | some v => v.graph != g.id | none => true),
        shadowOut := d.shadowOut.filter (fun x => x.2.1 != g.id),
        swaps := if g.places.any (fun p => d.shadowOut.any (fun x => x.1 == p && x.2.1 == g.id)) then d.swaps.filter (fun p => !g.places.contains p) else d.swaps,
        drain := if (d.drain.map Drain.graph) = some g.id then none else d.drain,
        images := d.images.filter (fun i => i.graph.id != g.id) } }) s1
  let hs := s2.dev.held.filter (fun h => h.ctx == ctx)
  let s3 := hs.foldl (fun s h =>
    let s1 := s.finishLaunch h 0x04
    { s1 with dev := { s1.dev.unreserve h.order with held := s1.dev.held.filter (fun x => x.order != h.order) } }) s2
  let s3 := ({ s3 with dev := s3.dev.dropKept ctx none } : State).countRefs ctx ((s3.dev.kept.filter (fun k => k.1 == ctx)).flatMap (fun k => k.2.2)) false
  -- entries and hold slots of the context are free again: what others hold moves up (R282)
  let s4 : State := { s3 with dev := s3.dev.forgetContext ctx }
  -- a pre-emption command that ran on one of its graphs ends: the context is not live (R404)
  let ran := s.dev.graphs.any (fun g => g.launch.ctx == ctx &&
    ((s.dev.drain.map Drain.graph) == some g.id || (g.state == 2 && s.dev.shadowOut.any (fun x => x.2.1 == g.id))))
  let s5 : State := if ran && s.dev.pestat.getLsbD 8 then { s4 with dev := s4.dev.peDone 11 none } else s4
  (s.dev.replayBanks ctx).foldl (fun s b => s.promoteHold b) s5

end Sys2Proof.Machine
end

