-- ==== Sys2Proof/Machine/Debug.lean ====
section
/-! DEFINITION. The debug window of a Slate core (R108, R109, R279, R376-R379, R475, R479): commands to cores and engine harts, token injection, register and port writes, trace records (R383). -/
namespace Sys2Proof.Machine

/-! Commands (R376) -/

def State.setLast (s : State) (n code : Nat) : State := s.setHart n { s.hart n with last := code }

/-- The core of a restored graph is about to run into withdrawn text (R350). -/
def State.recheckCode (s : State) (n : Nat) : State :=
  match s.dev.graph (s.hart n).graph with
  | some g => if isEngine n then s else s.checkCode g n
  | none => s

/-- After a freeze has ended: tokens that were held, registers and ports reach the held blocks, and a task that was leaving goes on, unless its code has been withdrawn (R350). -/
def State.afterResume (s : State) (n : Nat) : State :=
  let s1 := s.landLinks n
  (((s1.settle n none (s1.hart n)).portsChanged (placeOfHart n)).finishLeave n).recheckCode n

/-- A frozen hart that takes a command: all but one frozen by a machine check, of which only the end is accepted (R369), and one whose packet still waits for room, which stays stopped until then (R283); such a command is refused with status 2 (DESIGN CHOICE, log 60). -/
def State.takesCommand (s : State) (n : Nat) : Bool :=
  (s.hart n).run == .frozen && (s.hart n).cause != 0x7F && !s.dev.hartSending n

/-- Resume: held blocks and fetch go on (R376). -/
def State.resumeHart (s : State) (n : Nat) : State :=
  ({ s with dev := s.dev.resumeCore n } : State).afterResume n

/-- Re-execute: unbound held blocks go, the block cache drops the header and rows of the next block, the core resumes; refused while a bound block is held (R376). -/
def State.reexecuteHart (s : State) (n : Nat) : State :=
  let h := s.hart n
  if h.hasBound then s.setLast n 1
  else
    let a := h.next.toNat
    let keep (e : Nat × Nat × List Word) : Bool := !(e.1 == h.ctxid.toNat && decide (a ≤ e.2.1) && decide (e.2.1 < a + 640))
    let h1 := h.discardAll
    (s.setHart n { h1 with bcache := h1.bcache.filter keep }).resumeHart n

/-- DBG_RESUME: DBGCTL resume continues held blocks and fetch (R376). -/
def execDbgResume (hart : Nat) (s : State) : Out :=
  .next (if s.takesCommand hart then s.resumeHart hart else s.setLast hart 2)

/-- DBG_REEXECUTE: DBGCTL re-execute discards unbound held blocks and resumes (R376). -/
def execDbgReexecute (hart : Nat) (s : State) : Out :=
  .next (if s.takesCommand hart then s.reexecuteHart hart else s.setLast hart 2)

/-- DBG_END_CONTEXT: DBGCTL end stops and discards the whole context and reports it ended (R376); the command is taken from a frozen core. -/
def execDbgEndContext (hart : Nat) (s : State) : Out :=
  .next (if (s.hart hart).run = .frozen then s.endContext (s.hart hart).ctxid.toNat else s.setLast hart 2)

/-- DBG_HALT: DBGCTL halt stops a running core, freezing it with cause 0x74 (R376) once its bound blocks have committed. On a frozen core it has no effect and LAST reads 0; an idle core refuses it with status 2 (log 60). -/
def execDbgHalt (hart : Nat) (s : State) : Out :=
  let h := s.hart hart
  .next (match h.run with
    | .running =>
      let h1 : Hart := { h.discardUnbound with halting := true, last := 0 }
      let s1 := s.setHart hart h1
      if h1.blocks.isEmpty then { s1 with dev := s1.dev.takeFault hart none (plainFault 0x74 0xFFFF) false } else s1
    | .frozen => s.setLast hart 0
    | _ => s.setLast hart 2)

/-- DBG_STEP: DBGCTL step resumes until one more block commits (R376). -/
def execDbgStep (hart : Nat) (s : State) : Out :=
  .next (if s.takesCommand hart then
      let s1 := s.setHart hart { s.hart hart with stepping := true }
      ({ s1 with dev := s1.dev.resumeCore hart } : State).afterResume hart
    else s.setLast hart 2)

/-- The load of a held block that EMUL holds: its request and recorded fault stand (R379). -/
def Hart.heldLoad (h : Hart) (b : Block) (lsid : Nat) : Option Req :=
  b.reqs.find? (fun r => r.lsid == lsid && (match r.kind with | .load _ _ => true | _ => false) &&
    h.emulHeld && b.faults.any (fun f => f.word == 32 + r.idx && b.emulFault f))

/-- DBG_RESOLVE: DBGCTL resolve marks an emulated load's LSID resolved (R376). -/
def execDbgResolve (hart tag lsid : Nat) (s : State) : Out :=
  let h := s.hart hart
  .next (if !s.takesCommand hart then s.setLast hart 2
    else
      match h.block tag with
      | none => s.setLast hart 5
      | some b =>
        match h.heldLoad b lsid with
        | none => s.setLast hart 5
        | some r =>
          let b1 := (b.dropReq r.idx).resolveL r.idx (some lsid)
          s.setHart hart { h.putBlock { b1 with faults := b1.faults.filter (fun f => f.word != 32 + r.idx) } with last := 0 })

/-- DBG_THALT_WRITE: Writing THALT halts or releases token flow of a frozen core (R377); what the link interfaces have held then goes on. -/
def execDbgThaltWrite (hart : Nat) (on : Bool) (s : State) : Out :=
  let h := s.hart hart
  .next (if on && h.run != .frozen then s.setLast hart 2
    else
      let s1 := s.setHart hart { h with thalt := on, last := 0 }
      if on then s1
      else
        let s2 := s1.landLinks hart
        (s2.settle hart none (s2.hart hart)).portsChanged (placeOfHart hart))

/-- A target lies in the block: a valid write slot, or an operand of one of its instructions (R73, R379). -/
def Block.hasTarget (b : Block) (t : BitVec 9) : Bool := t != noTarget && !badSlotTarget b.hdr t && !badOperandTarget b.code t

/-- DBG_INJECT: An INJECT GO write delivers a token into a held block (R379). -/
def execDbgInject (hart : Nat) (ctl : Dbl) (s : State) : Out :=
  let h := s.hart hart
  let x := ctl.toNat
  let t : BitVec 9 := BitVec.ofNat 9 x
  .next (if !bitOf x 14 then s
    else if !h.thalt then s.setLast hart 6
    else if t = noTarget then s.setLast hart 3
    else
      match h.block (bitsOf x 11 9) with
      | none => s.setLast hart 5
      | some b =>
        if !b.hasTarget t then s.setLast hart 3
        else if (b.tok t.toNat).isSome then s.setLast hart 4
        else
          let v : Quad := if bitOf x 13 then h.inj1 ++ h.inj0 else h.inj0.setWidth 128
          let k : Token := { val := v, pair := bitOf x 13, null := bitOf x 12, mark := none }
          s.settle hart none { h.putBlock (b.deliver t k) with last := 0 })

/-- ENGINE_RESUME: ECMD 1 resumes a frozen engine hart (R376). -/
def execEngineResume (place : Nat) (s : State) : Out :=
  .next (if s.takesCommand (1024 + place) then s.resumeHart (1024 + place) else s)

/-- ENGINE_REEXECUTE: ECMD 2 re-executes a frozen engine hart's block (R376). -/
def execEngineReexecute (place : Nat) (s : State) : Out :=
  .next (if s.takesCommand (1024 + place) then s.reexecuteHart (1024 + place) else s)

/-- ENGINE_RETURN_IDLE: ECMD 3 returns an engine hart to idle (R376): its blocks go, its posted stores go on. One whose packet still waits for room stays stopped (R283). -/
def execEngineReturnIdle (place : Nat) (s : State) : Out :=
  let n := 1024 + place
  let h := s.hart n
  .next (if h.run = .frozen ∧ s.dev.hartSending n = false then
      let h1 : Hart := { h.discardAll with run := .idle, kicked := false, leaving := false, cause := 0, packet := none, thalt := false, marked := false, stepping := false, halting := false }
      s.setHart n h1
    else s)

/-! Writes into the port areas (R279, R479) -/

/-- A write into a control word: the ends of a neighbour binding agree or not by what both words then say; no credit moves. -/
def State.portControl (s : State) (p n x : Nat) : State :=
  let s1 := s.partLink p n
  (s1.setPort p n ((s1.port p n).control x)).joinLink p n false

/-- What a Slate write into the register or port areas asks of its core (R109): frozen, no bound block; then the write, and the mark. Between the swaps of its tiles a rectangle presents no core (R389). -/
def State.markedWrite (s : State) (n : Nat) (write : State → State) : State :=
  let h := s.hart n
  if h.run != .frozen || s.dev.torn (placeOfHart n) then s.setLast n 2
  else if h.hasBound then s.setLast n 1
  else
    let s1 := write s
    s1.setHart n { s1.hart n with marked := true, last := 0 }

/-- PORT_CONTROL_WRITE: A Slate write of a port control word reshapes the queue (R479); the core is that of the window's own XT. -/
def execPortControlWrite (place port : Nat) (value : Dbl) (s : State) : Out :=
  .next (s.markedWrite place fun s => s.portControl place port value.toNat)

/-! One write of the window (R475) -/

/-- Trace selector `e` as its two doubles (R382). -/
def trcWord (t : Option Trc) (hi : Bool) : Nat :=
  match t with
  | none => 0
  | some t => if hi then t.prod % 128 + 2 ^ 7 * t.rs.toNat + 2 ^ 8 * t.t1.toNat else t.en.toNat + t.addr.toNat / 128 * 128

def setTrcWord (t : Option Trc) (hi : Bool) (x : Nat) : Option Trc :=
  let t0 : Trc := t.getD { en := false, addr := 0, prod := 0, rs := false, t1 := false }
  some (if hi then { t0 with prod := x % 128, rs := bitOf x 7, t1 := bitOf x 8 }
    else { t0 with en := bitOf x 0, addr := BitVec.ofNat 64 (x / 128 * 128) })

/-- The XT whose window holds the control areas of the core at `p` (R376): its anchor. -/
def Dev.anchorAt (d : Dev) (p : Nat) : Nat := (d.coreOf p).getD p

/-- The control areas that only the anchor's window shows: DBGCTL, DBGSTAT and INJECT. TOKSEL, the token page and the trace selectors are each XT's own (R378, R382, log 44). -/
def controlArea (o : Nat) : Bool := o == 0xF000 || o == 0xF008 || (decide (0xF100 ≤ o) && decide (o < 0xF118))

/-- The window at `p` does not show what stands at `o`: a control area, in a window that is not its anchor's (R376). -/
def State.blind (s : State) (p o : Nat) : Bool := controlArea o && s.dev.anchorAt p != p

/-- The double that stands at an aligned offset of the window of the XT at `p`, where an area is live. R108 gives the registers of a frozen core alone: those of a running core show its committed values as they stand, and without a core the tile's own scalar registers stand there, and zeros in the v and m areas (DESIGN CHOICE, log 61). -/
def State.winWord (s : State) (p o : Nat) : Nat :=
  let h := s.hart p
  let e := s.hart (1024 + p)
  let m := s.mt p
  if s.blind p o then 0
  else if o < 0x2000 then
    match s.dev.coreOf p with
    | some n => if n ≠ p ∧ anchorOnly o = true then 0 else (s.dev.anchorWord n (s.hart n) o).getD 0
    | none => (s.dev.anchorWord p h o).getD 0
  else if o < 0xC000 then
    match s.dev.coreOf p with
    | some n => (s.hart n).sliceWord (sliceOf (s.hart n).cwidth.toNat n p) o
    | none => 0
  else if o < 0xC080 then (m.port ((o - 0xC000) / 8)).word
  else if o < 0xC800 then 0
  else if o < 0xD800 then (m.port ((o - 0xC800) / 256)).entryWord (o % 256 / 16) (o % 16 == 8)
  else if o = 0xD800 then m.syswin.toNat
  else if 0xDC00 ≤ o ∧ o < 0xE000 then m.areaWord (1024 * m.syswin.toNat + (o - 0xDC00))
  else if o = 0xE000 then m.ekick.toNat
  else if o = 0xE008 then m.eentry.toNat
  else if o = 0xE010 then m.ectx.toNat
  else if 0xE100 ≤ o ∧ o < 0xE300 then (mget 0 e.g ((o - 0xE100) / 8)).toNat
  else if o = 0xE300 then e.zWord
  else if o = 0xE308 then e.status.toNat
  else if o = 0xE310 then e.stklim.toNat
  else if o = 0xE318 then e.srstate.toNat
  else if 0xE320 ≤ o ∧ o < 0xE368 then e.stackWord ((o - 0xE320) / 8)
  else if o = 0xF000 then 8 * h.thalt.toNat + 16 * h.emul.toNat
  else if o = 0xF020 then h.toksel
  else if o = 0xF100 then h.inj0.toNat
  else if o = 0xF108 then h.inj1.toNat
  else if 0x10000 ≤ o ∧ o < 0x10040 then (mget 0 h.pcnt ((o - 0x10000) / 8)).toNat
  else if 0xF200 ≤ o ∧ o < 0xF300 then trcWord (mget none h.trc ((o - 0xF200) / 16)) (o % 16 == 8)
  else 0

/-- Store a whole double at an aligned offset of the window. R352 has a debug-window write change a performance counter, and no rule gives one an offset: the model names PC0-PC7 by offsets from 0x10000, beyond the window's 64 KiB (DESIGN CHOICE, log 61). EENTRY keeps the bits below its 128-byte alignment as written (DESIGN CHOICE, log 64). -/
def State.setWinWord (s : State) (p o x size : Nat) : State :=
  let h := s.hart p
  let n := 1024 + p
  let e := s.hart n
  let m := s.mt p
  let engine (g : Hart) : State := if e.run = .frozen then s.setHart n { g with marked := true } else s
  if s.blind p o then s
  else if o < 0x2000 then
    let n := (s.dev.coreOf p).getD p
    if (s.dev.anchorWord n (s.hart n) o).isNone || (n != p && anchorOnly o) then s
    else s.markedWrite n fun s => s.setHart n (s.dev.setAnchorWord n (s.hart n) o x)
  else if o < 0xC000 then
    match s.dev.coreOf p with
    | none => s.setLast p 2
    | some k => s.markedWrite k fun s => s.setHart k ((s.hart k).setSliceWord (sliceOf (s.hart k).cwidth.toNat k p) o x)
  else if o < 0xC080 then s.markedWrite p fun s => s.portControl p ((o - 0xC000) / 8) x
  else if o < 0xC800 then s
  else if o < 0xD800 then
    let k := (o - 0xC800) / 256
    s.markedWrite p fun s => s.setPort p k ((s.port p k).setEntryWord (o % 256 / 16) (o % 16 == 8) x)
  else if o = 0xD800 then s.setMt p { m with syswin := BitVec.ofNat 3 x }
  else if 0xDC00 ≤ o ∧ o < 0xE000 then s.setMt p (m.setAreaWord (1024 * m.syswin.toNat + (o - 0xDC00)) x)
  else if o = 0xE000 then (s.setMt p { m with ekick := BitVec.ofNat 64 x }).endKick p
  else if o = 0xE008 then s.setMt p { m with eentry := BitVec.ofNat 64 x }
  else if o = 0xE010 then (s.setMt p { m with ectx := BitVec.ofNat 12 x }).endKick p
  else if 0xE100 ≤ o ∧ o < 0xE300 then engine { e with g := mset 0 e.g ((o - 0xE100) / 8) (BitVec.ofNat 64 x) }
  else if o = 0xE300 then engine (e.setZWord x)
  else if o = 0xE308 then engine { e with status := BitVec.ofNat 5 x }
  else if o = 0xE310 then engine { e with stklim := BitVec.ofNat 64 (x / 16 * 16) }
  else if o = 0xE318 then engine { e with srstate := srValue x }
  else if 0xE320 ≤ o ∧ o < 0xE368 then engine (e.setStackWord ((o - 0xE320) / 8) x)
  else if o = 0xF000 then (if size = 8 then s.setHart p { h with emul := bitOf x 4 } else s)
  else if o = 0xF020 then s.setHart p { h with toksel := x % 64 }
  else if o = 0xF100 then s.setHart p { h with inj0 := BitVec.ofNat 64 x }
  else if o = 0xF108 then s.setHart p { h with inj1 := BitVec.ofNat 64 x }
  else if 0xF200 ≤ o ∧ o < 0xF300 then
    let k := (o - 0xF200) / 16
    s.setHart p { h with trc := mset none h.trc k (setTrcWord (mget none h.trc k) (o % 16 == 8) x) }
  else if 0x10000 ≤ o ∧ o < 0x10040 then s.setHart p { h with pcnt := mset 0 h.pcnt ((o - 0x10000) / 8) (BitVec.ofNat 64 x) }
  else s

/-- What a narrow write leaves of the double it lies in: of a port position beyond COUNT what a Slate core has written there, which no read shows (R475, R479). -/
def State.winHeld (s : State) (p o : Nat) : Nat :=
  if 0xC800 ≤ o ∧ o < 0xD800 then
    let q := s.port p ((o - 0xC800) / 256)
    let e := o % 256 / 16
    if q.q.length ≤ e then Port.entryWord { q with q := List.replicate e emptyEntry ++ [(mget none q.ghost e).getD emptyEntry] } e (o % 16 == 8)
    else s.winWord p o
  else s.winWord p o

/-- The bytes of an assigned double that no area assigns: those above the four zone registers (R108, R475). -/
def unassigned (offset : Nat) : Bool :=
  (decide (0x284 ≤ offset) && decide (offset < 0x288)) || (decide (0xE304 ≤ offset) && decide (offset < 0xE308))

/-- DBG_REGISTER_WRITE: A Slate write into a frozen core's register area marks the core (R109); also the other areas of the window that have no action of their own (R376, R475). The action bits of DBGCTL, ECMD, INJECT and the AGE control words are events of their own. -/
def execDbgRegisterWrite (place offset size : Nat) (value : Dbl) (s : State) : Out :=
  .next (if !([1, 2, 4, 8].contains size) || offset % size != 0 || decide (0x10040 ≤ offset) || unassigned offset then s
    else
      let o := offset / 8 * 8
      s.setWinWord place o (patchDbl (s.winHeld place o) (offset % 8) size value.toNat) size)

/-! Trace (R383, R438) -/

/-- A 32-byte record with its cycle stamp, and for a gap its last cycle. -/
def TraceRec.bytes (r : TraceRec) (cycle seq : Dbl) : List Byte :=
  natLe 1 r.typ ++ natLe 1 r.sel ++ natLe 2 r.place ++ natLe 1 (r.slot % 8 + 8 * r.null.toNat) ++ natLe 3 0 ++
  natLe 8 cycle.toNat ++ natLe 8 (if r.typ = 3 then seq.toNat else r.seq) ++ natLe 8 r.val.toNat

/-- The cycle count goes on by a free number of cycles. -/
def Dev.nextCycle (d : Dev) : Dev :=
  { d with cycle := d.cycle + 1 + ((Config.freeValue d.fresh).setWidth 32).setWidth 64, fresh := d.fresh + 1 }

/-- It goes on by some cycles or none: the cycle of the last of several copies that were lost. -/
def Dev.sameOrLater (d : Dev) : Dev := { d with cycle := d.cycle + ((Config.freeValue d.fresh).setWidth 32).setWidth 64, fresh := d.fresh + 1 }

/-- One record reaches the sink: a ring in device memory wraps before a record that would leave its TRCLEN bytes (R438); other sinks take it out of the model. Stamps rise from copy to copy, the halves of a PAIR share one, and a gap's two stamps enclose what was lost, one stamp for one copy (R383); how far they rise is free (log 38). -/
def State.sinkRecord (s : State) (r : TraceRec) : State :=
  let len := (mget 0 s.dev.regs 0x328).toNat
  let d := if r.typ = 2 then s.dev else s.dev.nextCycle
  let e := if r.typ = 3 ∧ 1 < r.val.toNat then d.sameOrLater else d
  if mget 0 s.dev.regs 0x318 = 1 ∧ 32 ≤ len then
    let pos := if s.dev.trcPos + 32 ≤ len then s.dev.trcPos else 0
    ({ s with dev := { e with trcPos := pos + 32 } } : State).putDev ((mget 0 s.dev.regs 0x320).toNat + pos) (r.bytes d.cycle e.cycle)
  else { s with dev := e }

/-- TRACE_GAP_RECORD: Once room returns, one gap record reports lost trace copies (R383): the path delivers what it holds to the sink, then the gap. -/
def execTraceGapRecord (place : Nat) (s : State) : Out :=
  let h := s.hart place
  let s1 := h.trace.foldl (fun s r => s.sinkRecord r) (s.setHart place { h with trace := [], traceLost := 0 })
  .next (if h.trace.isEmpty = true ∧ h.traceLost = 0 then s
    else if h.traceLost = 0 then s1
    else
      s1.sinkRecord { typ := 3, sel := 0, place := place, slot := 0, null := false, seq := 0, val := BitVec.ofNat 64 h.traceLost })

end Sys2Proof.Machine
end

