-- ==== Sys2Proof/Machine/Platform.lean ====
section
/-! DEFINITION. The device registers that have no action of their own (R410), power islands and the Vermilion alarm (R433-R435), readiness (R436), thermal action and time discipline (R437, R360), firmware and decode maps (R439, R342), the fatal dump and device reset (R440, R95). -/
namespace Sys2Proof.Machine

/-! Registers (R5, R6, R410) -/

def Dev.island (d : Dev) (n : Nat) : Island := (mget none d.islands n).getD Island.reset
def Dev.setIsland (d : Dev) (n : Nat) (i : Island) : Dev := { d with islands := mset none d.islands n (some i) }
def Dev.netRing (d : Dev) (port r : Nat) : Ring := (mget none d.rings (16 * port + r)).getD Ring.reset
def Dev.setNetRing (d : Dev) (port r : Nat) (x : Ring) : Dev := { d with rings := mset none d.rings (16 * port + r) (some x) }

/-- A launch-table word (R344): EN set to 1 is the step of its own, EN 0 disables. -/
def LTab.write (e : LTab) (k x : Nat) : LTab :=
  match k with
  | 0 => { e with start := BitVec.ofNat 64 x }
  | 1 => { e with period := BitVec.ofNat 64 x }
  | 2 => { e with record := BitVec.ofNat 64 x }
  | _ => { e with ctx := BitVec.ofNat 12 (bitsOf x 27 16), rfail := e.rfail && !bitOf x 2, en := e.en && bitOf x 0 }

/-- A watch descriptor word (R380): EN is set and cleared by steps of their own. -/
def Watch.write (w : Watch) (k x : Nat) : Watch :=
  match k with
  | 0 => { w with base := BitVec.ofNat 64 x }
  | 1 => { w with len := BitVec.ofNat 32 x, zone := BitVec.ofNat 8 (bitsOf x 39 32), vmatch := bitOf x 41, once := bitOf x 43 }
  | 2 => { w with value := BitVec.ofNat 64 x }
  | _ => { w with vmask := BitVec.ofNat 64 x }

/-- A work-ring word (R420): it takes effect when EN next turns on; EN 0 stops the ring. -/
def Ring.write (r : Ring) (k x : Nat) : Ring :=
  if k = 0 then { r with rhdr := BitVec.ofNat 64 (x / 128 * 128) }
  else if k = 1 then { r with rcfg := BitVec.ofNat 64 (x % 2 ^ 17), en := r.en && bitOf x 16 }
  else r

/-- A launch-page word (R412). -/
def Page.write (p : Page) (o x : Nat) : Page :=
  match o with
  | 0 => { p with ctx := BitVec.ofNat 12 x, en := bitOf x 12, irq := bitOf x 13 }
  | 0x18 => { p with cmdaddr := BitVec.ofNat 64 x }
  | _ => p

/-- A plain register of the placement and management units, kept by its offset: its writable bits, or `none`. -/
def plainMask (o : Nat) : Option Dbl :=
  if o = 0x8 then some 0xFFFFFFFFFFFC0000
  else if o = 0x10 then some 0xFFFFFFFFFFFFFFFF
  else if o = 0x18 then some 0x7FFFFF
  else if o = 0x60 then some 0x7F
  else if 0x100 ≤ o ∧ o < 0x238 ∧ o % 8 = 0 then some 0xFFFFFFFFFFFFFFFF
  else if o = 0x318 then some 0x3
  else if o = 0x320 ∨ o = 0x328 then some 0xFFFFFFFFFFFFFFFF
  else none

/-- Write the register at an offset of the device register space: RW fields are set, every other field keeps its value; a write that selects or moves the trace ring starts it anew (R438, log 36); a start bit whose action is a step of its own does nothing here. -/
def Dev.writeReg (d : Dev) (o x : Nat) : Dev :=
  if o % 8 ≠ 0 then d
  else if o = 0 then { d with plctl := BitVec.ofNat 64 (x % 2 ^ 49) }
  else if o = 0x40 then
    let op := x % 16
    let d1 := { d with pecmd := BitVec.ofNat 64 x &&& 0x0000FFFF07FFFFFF }
    if bitOf x 63 ∧ (op = 0 ∨ 6 < op) then (if d.pestat.getLsbD 8 then { d1 with pestat := 0x101 } else { d1 with pestat := 13 }) else d1
  else if o = 0x48 then { d with pearg := BitVec.ofNat 64 x }
  else if o = 0x68 then { d with mgarg := BitVec.ofNat 64 x }
  else if o = 0x308 then { d with valarm := BitVec.ofNat 64 (x % 2 ^ 32 + 2 ^ 32 * (d.valarm.getLsbD 32).toNat) }
  else if 0x1000 ≤ o ∧ o < 0x1800 then d.setIsland ((o - 0x1000) / 8) { d.island ((o - 0x1000) / 8) with point := BitVec.ofNat 2 x }
  else if 0x4000 ≤ o ∧ o < 0x5000 then
    let port := (o - 0x4000) / 0x200
    let r := (o - 0x4000) % 0x200 / 0x20
    d.setNetRing port r ((d.netRing port r).write (o % 0x20 / 8) x)
  else if 0x10000 ≤ o ∧ o < 0x10800 then
    let n := (o - 0x10000) / 32
    d.setEntry n ((d.entry n).write (o % 32 / 8) x)
  else if 0x100000 ≤ o ∧ o < 0x200000 then
    let k := (o - 0x100000) / 32
    let w := (d.watchAt (k / 8) (k % 8)).write (o % 32 / 8) x
    { d with watch := mset none d.watch k (if w = Watch.reset then none else some w) }
  else if 0x200000 ≤ o ∧ o < 0x220000 then
    (if o % 256 = 8 then { d with rplsel := mset 0 d.rplsel ((o - 0x200000) / 256) (BitVec.ofNat 64 x &&& 0xFFF1FFFF) } else d)
  else if 0x400000 ≤ o ∧ o < 0x440000 then
    let n := (o - 0x400000) / 4096
    d.setPage n ((d.page n).write (o % 4096) x)
  else
    match plainMask o with
    | some m =>
      let d1 := { d with regs := mset 0 d.regs o (BitVec.ofNat 64 x &&& m), trcPos := if 0x318 ≤ o then 0 else d.trcPos }
      if o = 0x60 ∧ bitOf x 63 = true ∧ (x % 16 = 0 ∨ 5 < x % 16) then
        { d1 with mgstat := if d.mgstat.getLsbD 8 then 0x101 else 9 }
      else d1
    | none => d

/-- A write by the external host (R410, R412): it reaches only the launch pages, where CTX and EN are read-only to it. -/
def Dev.hostWriteReg (d : Dev) (o x : Nat) : Dev :=
  if o < 0x400000 ∨ 0x440000 ≤ o then d
  else if o % 4096 = 0 then
    let n := (o - 0x400000) / 4096
    d.setPage n { d.page n with irq := bitOf x 13 }
  else d.writeReg o x

/-- REGISTER_WRITE: A write to a register with no behaviour of its own sets its fields (R5); one of the host reaches the launch pages alone (R410). -/
def execRegisterWrite (host : Bool) (offset : Nat) (value : Dbl) (s : State) : Out :=
  .next { s with dev := if host then s.dev.hostWriteReg offset value.toNat else s.dev.writeReg offset value.toNat }

/-! Islands and the alarm (R433-R437) -/

/-- ISLAND_POINT_CHANGE: An island's operating point change takes effect between cycles (R433). A capped island keeps its point (R435); until SENSORS is ready every island is at point 2 (R436). -/
def execIslandPointChange (n : Nat) (s : State) : Out :=
  let i := s.dev.island n
  .next (if 256 ≤ n ∨ i.capped = true then s
    else { s with dev := s.dev.setIsland n { i with actual := if s.dev.ready.getLsbD 22 then i.point else 2 } })

/-- POWER_SAMPLE: Every 10 us the Pewter core samples power and raises or clears the alarm (R434), counting the samples of R435. -/
def execPowerSample (watts : Nat) (s : State) : Out :=
  let d := s.dev
  let setw := d.valarm.toNat % 2 ^ 16
  let clrw := Nat.min (d.valarm.toNat / 2 ^ 16 % 2 ^ 16) (setw - 1)
  let active := d.valarm.getLsbD 32
  let low := if active && decide (watts < clrw) then d.lowSamples + 1 else 0
  let above := if active && decide (2200 ≤ watts) then d.overSamples + 1 else 0
  .next (if !d.ready.getLsbD 22 then s
    else if !active && decide (setw ≤ watts) then
      let over1 := if 2200 ≤ watts then 1 else 0
      let d1 := { d with valarm := d.valarm ||| 0x100000000, alarms := (d.alarms + 1) % 2 ^ 31, lowSamples := 0, overSamples := over1 }
      { s with dev := d1.logEvent 3 watts }
    else if active && decide (100 ≤ low) then
      { s with dev := { d with valarm := d.valarm &&& 0xFFFFFFFF, lowSamples := 0, overSamples := 0 } }
    else { s with dev := { d with lowSamples := low, overSamples := above } })

/-- VALARM_COUNT_READ: Reading COUNT returns and clears the alarm count (R434). -/
def execValarmCountRead (s : State) : Out :=
  .next (({ s with dev := { s.dev with alarms := 0 } } : State).answer (natLe 4 s.dev.alarms))

/-- ISLAND_CAP_STEP: Every 100 us under overload one more XT island is lowered a point (R435): that of device row `row`, which has the highest power. Once the alarm has cleared, the latest one lowered is raised again, and no island above its POINT (R437). -/
def execIslandCapStep (row : Nat) (s : State) : Out :=
  let d := s.dev
  .next (if d.valarm.getLsbD 32 then
      let i := d.island (2 * row)
      if d.overSamples < 20 ∨ 128 ≤ row ∨ i.actual = 3 then s
      else { s with dev := { (d.setIsland (2 * row) { i with actual := i.actual + 1, capped := true }) with cappedRows := d.cappedRows ++ [row] } }
    else
      match d.cappedRows.reverse with
      | [] => s
      | r :: rest =>
        let i := d.island (2 * r)
        let more := rest.contains r
        let j := if more then { i with actual := if i.actual.toNat ≤ i.point.toNat then i.actual else i.actual - 1 } else { i with actual := i.point, capped := false }
        { s with dev := { (d.setIsland (2 * r) j) with cappedRows := rest.reverse } })

/-- JUNCTION_OVERTEMP: A junction at 105 C sets its die's islands to point 3 (R437). A compute die holds two clusters: 32 device rows. The sensors are active once SENSORS is set (R436). -/
def execJunctionOvertemp (die : Nat) (s : State) : Out :=
  .next (if 4 ≤ die ∨ s.dev.ready.getLsbD 22 = false then s
    else
      let d := (upTo 64).foldl (fun d k => d.setIsland (64 * die + k) { d.island (64 * die + k) with point := 3, actual := 3 }) s.dev
      { s with dev := d.logEvent 5 die })

/-! Time (R360, R366, R437) -/

/-- PTP_MESSAGE: An IEEE 1588 message disciplines TIMEBASE by slewing or stepping (R360): within 1 ms only the rate changes, else TIMEBASE steps to the reference. -/
def execPtpMessage (ref : Dbl) (s : State) : Out :=
  let d := { s.dev with sync := 1 }
  let off := (ref.toNat - d.timebase.toNat) + (d.timebase.toNat - ref.toNat)
  .next (if off ≤ 1000000 then { s with dev := d }
    else { s with dev := { d with timebase := ref, steps := d.steps + 1, stepAt := ref } })

/-- PTP_HOLDOVER_TIMEOUT: Two seconds without messages puts SYNC into holdover (R437). -/
def execPtpHoldoverTimeout (s : State) : Out :=
  .next (if s.dev.sync = 1 then { s with dev := { s.dev with sync := 2 } } else s)

/-! Bring-up (R436, R439, R342) -/

/-- The version that a map carries: never zero (R477). -/
def mapVersion (image : Nat) : Word := if Config.imageVersion image = 0 then 1 else Config.imageVersion image

/-- Every logical core and engine hart is stopped (R342); a hart in a Sepia image is not one of the fabric. -/
def Dev.allStopped (d : Dev) : Bool :=
  d.harts.all (fun p => p.2.all (fun h => h.run != .running))

/-- What a decode map load asks of the device (R342, R404): every core stopped, no shadow bank that holds a context, and no Sepia image that it would strand: one of another version whose graph still waits for it. A shadow bank that holds a context has not been drained. -/
def Dev.mapFree (d : Dev) (version : Word) : Bool :=
  d.allStopped && d.shadow.all (fun p => p.2.isNone) &&
  d.images.all (fun i => i.ivory || i.dmapver == version || !(d.graphs.any (fun g => g.image == i.addr && !g.resident)))

/-- The staged decode map is that of the image that this reset activated (log 26). -/
def Dev.stagedMap (d : Dev) : Nat := d.running

/-- The Indigo ROM's check of the firmware slot at reset (R439). -/
def Dev.slotOk (d : Dev) : Bool :=
  match d.firmware with
  | some i => Config.signatureOk Config.synwenKey i
  | none => false

/-- The Indigo core writes all 4,096 entries of a map and sets DMAPVER (R342). -/
def Dev.loadMap (d : Dev) (image : Nat) : Dev := { d with dmap := (upTo 4096).map (Config.mapEntry image), dmapver := mapVersion image }

/-- What becoming ready brings with it: INDIGO runs the slot's image (R439), DMAP loads its map (R342), HOST shows whether the host runs CXL.cache on its link, which is the host's affair and a free value (R188, R414, log 63), FABRIC gives the node number. -/
def Dev.becomeReady (d : Dev) (bit : Nat) : Dev :=
  if bit = 12 then { d with running := d.firmware.getD 0, staged := false }
  else if bit = 13 ∧ d.dmapver = 0 then d.loadMap d.stagedMap
  else if bit = 16 ∧ d.ready.getLsbD 16 = false then { d with cxlCache := (Config.freeValue d.fresh).getLsbD 0, fresh := d.fresh + 1 }
  else if bit = 17 ∧ d.node = 0 then { d with node := 1 + (Config.freeValue d.fresh).toNat % 127, fresh := d.fresh + 1 }
  else d

/-- FUNCTION_READY: A function becomes usable at bring-up and its READY bit sets (R436). No bit beyond INDIGO is set before the firmware is verified, which INDIGO shows (R439): with no valid image in the slot it waits for the recovery loader's; PLACE only after DMAP, SLATE and an HBM bit; TIME once the time discipline has locked (R360, R366). A bit that is set stays (R436), so that INDIGO runs one image until the next reset (R439). The staged decode map is loaded with DMAP, once it verifies and under the conditions of every load (R342). -/
def execFunctionReady (bit : Nat) (s : State) : Out :=
  let d := s.dev
  let held := (decide (12 < bit) && !d.ready.getLsbD 12) || (bit == 12 && !d.slotOk)
  let early := bit == 15 && !(d.ready.getLsbD 13 && d.ready.getLsbD 14 && decide (d.ready.toNat % 2 ^ 12 ≠ 0)) || bit == 20 && d.sync != 1
  let noMap := bit == 13 && !(Config.signatureOk Config.synwenKey d.stagedMap && d.mapFree (mapVersion d.stagedMap))
  .next (if 23 ≤ bit ∨ d.ready.getLsbD bit = true ∨ held = true ∨ early = true ∨ noMap = true then s
    else { s with dev := { d.becomeReady bit with ready := d.ready ||| BitVec.ofNat 24 (2 ^ bit) } })

/-- DUMPV_CLEAR: Writing 1 to READY bit 23 clears DUMPV (R440). -/
def execDumpvClear (s : State) : Out :=
  .next { s with dev := { s.dev with ready := s.dev.ready &&& 0x7FFFFF, dump := s.dev.halted && s.dev.dump } }

/-- FIRMWARE_UPDATE: An update is written to the slot and verified for the next reset (R439): the first event of an update begins the write, and the next one with the same image ends it and verifies. A slot that is being written, or that fails verification, holds no valid image. The recovery loader's fetch of a fresh image is such an update before INDIGO is set (log 36). -/
def execFirmwareUpdate (image : Nat) (s : State) : Out :=
  let d := s.dev
  let ok := Config.signatureOk Config.synwenKey image
  .next { s with dev :=
    if d.writing = some image then ({ d with firmware := if ok then some image else none, writing := none, staged := ok } : Dev).logEvent 4 image
    else { d with firmware := none, writing := some image, staged := false } }

/-- DECODE_MAP_LOAD: The Indigo core verifies and loads a decode map at run time (R342, R404). -/
def execDecodeMapLoad (image : Nat) (s : State) : Out :=
  .next (if s.dev.mapFree (mapVersion image) = true ∧ Config.signatureOk Config.synwenKey image = true then
      { s with dev := s.dev.loadMap image }
    else s)

/-! Fatal events and reset (R369, R440, R95) -/

/-- The window of one bank's replay queue (R383). -/
def Dev.homeWord (d : Dev) (bank k : Nat) : Nat :=
  match k with
  | 0 => d.queued bank 1 + 2 ^ 8 * mget 0 d.hwm bank
  | 8 => (mget 0 d.rplsel bank).toNat
  | 0x18 =>
    (match d.rplEntries bank (mget 0 d.rplsel bank) with
     | some (_, is) => is.length
     | none => 0) + 2 ^ 8 * (!(mget [] d.rplrun bank).isEmpty).toNat
  | _ => 0

/-- The bytes of a log entry: TIMEBASE, the type and the detail (R437), which leaves 8 bytes for each of the first two. -/
def LogEntry.bytes (e : LogEntry) : List Byte := natLe 8 e.time.toNat ++ natLe 8 e.typ ++ (e.detail ++ List.replicate 48 0).take 48

/-- The bytes of the fatal dump (R440), in the order of the rule's list: the Ochre queues, each with its row and length, the windows of the 512 banks, READY, VALARM, the log tail. -/
def Dev.dumpBytes (d : Dev) : List Byte :=
  natLe 8 d.slateq.length ++ d.slateq.flatMap (fun p => natLe 8 p.1 ++ natLe 8 p.2.length ++ p.2.flatMap Packet.bytes) ++
  (upTo 512).flatMap (fun b => [0, 8, 0x10, 0x18].flatMap (fun k => natLe 8 (d.homeWord b k))) ++
  natLe 8 d.ready.toNat ++ natLe 8 (d.valarm.toNat + 2 ^ 33 * d.alarms) ++ natLe 8 d.log.length ++ d.log.flatMap LogEntry.bytes

/-- The Pewter core stops the device and writes the fatal dump into the reserved area; a second event overwrites the first (R440). -/
def State.fatal (s : State) : State :=
  let s1 := s.putDev Config.reservedBase s.dev.dumpBytes
  { s1 with dev := { s1.dev.logEvent 6 0 with dump := true, halted := true } }

/-- A sparse map of free values under the numbers below `k`. -/
def freeMap {w : Nat} (n k : Nat) : SMap (BitVec w) := (upTo k).foldl (fun m i => mset 0 m i ((Config.freeValue (n + i)).setWidth w)) []

/-- The scalar state that the anchor's tile holds is undefined: free values in the g- and z-registers, the return stack and the system registers, of those that each can hold (R103, R105). -/
def Hart.scrambleScalar (h : Hart) (n : Nat) : Hart :=
  let f (i : Nat) : Dbl := Config.freeValue (n + i)
  { h with g := freeMap n 64, z := freeMap (n + 64) 4, status := (f 68).setWidth 5, stklim := f 69, srstate := (f 70).setWidth 32, taskid := (f 71).setWidth 32
           rstk := (upTo ((f 122).toNat % 9)).map (fun i => f (72 + i)), rhid := freeMap (n + 123) 8, spilled := (f 131).setWidth 32
           mrows := BitVec.ofNat 6 ((f 132).toNat % 33), mcols := BitVec.ofNat 9 ((f 133).toNat % (32 * h.cwidth.toNat + 1)), vec := { h.vec with tag := freeMap (n + 80) 32, vl := BitVec.ofNat 13 ((f 112).toNat % 4097), vtype := (f 113).setWidth 4 }
           mtag := (upTo 8).foldl (fun m k => mset 1 m k (if (f (114 + k)).getLsbD 0 then 0x0A else 0x01)) [], next := f 134, seq := (f 135).toNat
           mscale := (upTo 16).foldl (fun m k => mset scaleOne m k ((f (136 + k)).setWidth 32)) [] }

/-- So are the performance counters of its XT. -/
def Hart.scrambleCounters (h : Hart) (n : Nat) : Hart := { h with pcnt := freeMap n 8, pcfg := freeMap (n + 8) 8 }

/-- So are the lanes and columns of its slice `k`, and the tokens of the blocks in flight, of which the spec does not say which nodes hold them. -/
def Hart.scrambleSlice (h : Hart) (n k : Nat) : Hart :=
  let f (i : Nat) : Word := (Config.freeValue (n + i)).setWidth 32
  { h with vec := { h.vec with v := (upTo 2048).foldl (fun m i => mset 0 m (512 * (i / 64) + 64 * k + i % 64) (f i)) h.vec.v }
           m := (upTo 8192).foldl (fun m i => mset 0 m (mKey (i / 1024) (i % 1024 / 32) (32 * k + i % 32)) (f (2048 + i))) h.m
           blocks := h.blocks.mapIdx (fun j b => { b with toks := b.toks.mapIdx (fun i x =>
             (x.1, { x.2 with val := Config.freeValue (n + 10240 + 2048 * j + 2 * i) ++ Config.freeValue (n + 10241 + 2048 * j + 2 * i) })) }) }

/-- What its L1D, lookaside and block cache hold is free as well: any of the lines and entries may have gone, and those that stand hold free bytes and attributes. -/
def Hart.scrambleArrays (h : Hart) (n : Nat) : Hart :=
  let f (i : Nat) : Dbl := Config.freeValue (n + i)
  let kept {α : Type} (k : Nat) (l : List α) : List α := (List.zip (upTo l.length) l).filterMap (fun x => if (f (k + x.1)).getLsbD 0 then some x.2 else none)
  let byte (k i : Nat) : Byte := (f (k + i)).setWidth 8
  { h with l1d := (kept 0x1000 h.l1d).mapIdx (fun j l => if l.home.isSome then l else { l with data := l.data.mapIdx (fun i _ => byte (0x10000 + 64 * j) i), dirty := f (0x4000 + 2 * j) ++ f (0x4001 + 2 * j), bad := (f (0x8000 + j)).setWidth 2 })
           look := (kept 0x2000 h.look).mapIdx (fun j t => { t with attr := { t.attr with r := (f (0xA000 + j)).getLsbD 0, w := (f (0xA000 + j)).getLsbD 1, x := (f (0xA000 + j)).getLsbD 2, e := (f (0xA000 + j)).getLsbD 3 } })
           bcache := (kept 0x3000 h.bcache).mapIdx (fun j e => (e.1, e.2.1, e.2.2.mapIdx (fun i _ => (f (0x100000 + 64 * j + i)).setWidth 32))) }

/-- A port, an AGE and a deque of which nothing is known: free values in what they hold. -/
def Port.scrambled (q : Port) (n : Nat) : Port :=
  let f (i : Nat) : Dbl := Config.freeValue (n + i)
  let e (i : Nat) : Entry := { val := f i, null := (f (32 + i)).getLsbD 0, nmode := (f (32 + i)).getLsbD 1, tag := (f (16 + i)).setWidth 4, scl := [], epoch := none }
  { q with q := (upTo ((f 55).toNat % 17)).map e
           bind := BitVec.ofNat 2 ((f 48).toNat % 3), age := (f 49).setWidth 3, dx := (f 50).setWidth 8, dy := (f 51).setWidth 8
           pport := (f 52).setWidth 4, credit := BitVec.ofNat 5 ((f 53).toNat % 17), key := (f 54).setWidth 16 }

def Age.scrambled (g : Age) (n : Nat) : Age :=
  let f (i : Nat) : Dbl := Config.freeValue (n + i)
  { g with record := (upTo 120).map (fun i => (f i).setWidth 8), idx := g.idx.mapIdx (fun i _ => (f (128 + i)).toNat % 2 ^ 32)
           pass := (f 134).setWidth 32, run := (f 135).setWidth 32, spos := (f 136).setWidth 32, done := (f 137).setWidth 32
           port := (f 138).setWidth 4, state := (f 139).toNat % 4 }

def Deque.scrambled (q : Deque) (n : Nat) : Deque :=
  let f (i : Nat) : Dbl := Config.freeValue (n + i)
  { q with tidx := (f 0).setWidth 32, bidx := (f 1).setWidth 32, ovfhead := f 2, ovftail := f 3, ovfcnt := (f 4).setWidth 32, idle := (f 5).getLsbD 0
           black := (f 6).getLsbD 0, token := (f 7).getLsbD 0, tblack := (f 8).getLsbD 0, spillf := (f 9).getLsbD 0, spare := freeMap (n + 10) 4
           ring := (upTo 64).foldl (fun r i => mset [] r i ((upTo 8).map (fun j => f (16 + 8 * i + j)))) [] }

/-- What stands in one tile is undefined after a machine check (precision M): free values in its scratchpad, its ports, AGEs, deque, EKICK, EENTRY, ECTX and performance counters, in what it holds of the core whose shape it lies in, and in its engine hart. -/
def State.scramble (s : State) (p core : Nat) : State :=
  let n := s.dev.fresh
  let m := s.mt p
  let h := s.hart core
  let h1 := ((if core = p then h.scrambleScalar n else h).scrambleSlice (n + 256) (sliceOf h.cwidth.toNat core p)).scrambleArrays (n + 0x100000)
  let e := s.hart (1024 + p)
  let bytes := (upTo 0x7E000).map (fun i => ((Config.freeValue (n + 0x20000 + i)).setWidth 8 : Byte))
  let m1 : Mt :=
    { m with scratch := setBytes m.scratch 0 bytes, deque := m.deque.scrambled (n + 0x18000)
             ports := (upTo 16).foldl (fun l k => mset none l k (some ((m.port k).scrambled (n + 0x1A000 + 64 * k)))) m.ports
             ages := (upTo 8).foldl (fun l k => mset none l k (some ((m.age k).scrambled (n + 0x1C000 + 256 * k)))) m.ages
             areas := (upTo 8).foldl (fun l k => mset none l k (some ((m.age k).scrambled (n + 0x1D000 + 256 * k)))) m.areas
             ekick := Config.freeValue (n + 0x1E000), eentry := Config.freeValue (n + 0x1E001), ectx := (Config.freeValue (n + 0x1E002)).setWidth 12 }
  let s0 := s.setHart core h1
  let s1 := ((s0.setHart p ((s0.hart p).scrambleCounters (n + 0x1E010))).setHart (1024 + p) (((e.scrambleScalar (n + 0x10000)).scrambleSlice (n + 0x10100) 0).scrambleArrays (n + 0x400000))).setMt p m1
  { s1 with dev := { s1.dev with fresh := n + 0x700000 } }

/-- MACHINE_CHECK: A unit fails its checks and the Pewter core writes the fatal dump (R440): the logical core in whose shape the tile lies freezes with every block in flight, cause 0x7F and a syndrome that is a free value; its packet goes by its anchor's row (R369, R372). -/
def execMachineCheck (place unit : Nat) (s : State) : Out :=
  let core := (s.dev.coreOf place).getD place
  let s1 := s.scramble place core
  let f : FaultRec := { plainFault 0x7F 0xFFFF with d0 := BitVec.ofNat 64 unit, d1 := Config.freeValue s1.dev.fresh }
  let d := { s1.dev with fresh := s1.dev.fresh + 1 }
  .next ({ s1 with dev := (d.takeFault core none f true).logEvent 2 place } : State).fatal

/-- WATCHDOG_EXPIRY: The Pewter watchdog expires and the fatal dump is written (R440). -/
def execWatchdogExpiry (s : State) : Out := .next s.fatal

/-- DEVICE_RESET: Device reset clears core state and starts bring-up (R95). The log, the firmware slot and the installed keys stay (R437, R439, R347): an update that was being written leaves no valid image, and INDIGO activates a staged one. A dump of before shows as DUMPV (R440). The memories keep their bytes. -/
def execDeviceReset (s : State) : Out :=
  let d := s.dev
  .next { s with dev := { Dev.reset with
      log := d.log, firmware := d.firmware, sram := d.sram, running := d.running, staged := d.staged, keys := d.keys, tilerev := d.tilerev, scanver := d.scanver, fresh := d.fresh, turn := d.turn,
      uncorr := d.uncorr, corrected := d.corrected, dump := d.dump, ready := if d.dump then 0x800000 else 0,
      mts := d.mts.map (fun p => (p.1, p.2.map (fun m => { Mt.reset with scratch := m.scratch, errs := m.errs }))) } }

end Sys2Proof.Machine
end

