-- ==== Sys2Proof/Machine/Fabric.lean ====
section
/-! DEFINITION. Agents outside the tiles: the host through its apertures (R413), peers over CXL.mem (R418), the network ports and their work rings (R419, R420). -/
namespace Sys2Proof.Machine

/-! Physical accesses -/

/-- Pages of a context that a dirty session or a watchpoint follows (R338, R380). -/
def State.followed (s : State) (ctx : Nat) : List Nat :=
  ((s.sessions ctx).flatMap (fun (x : Nat × Nat × Nat × Nat) => (upTo x.2.2.1).map (fun i => x.2.1 / 4096 + i)) ++
   (upTo 8).flatMap (fun n =>
    let w := s.dev.watchAt ctx n
    if w.en && w.armed && w.zone == 0 && decide (0 < w.len.toNat) then
      (upTo ((w.base.toNat + w.len.toNat - 1) / 4096 - w.base.toNat / 4096 + 1)).map (fun i => w.base.toNat / 4096 + i)
    else [])).eraseDups

/-- The followed pages that map the frame of a physical address (R339, R381). -/
def State.aliases (s : State) (pa : Nat) : List (Nat × Nat) :=
  (upTo 4096).flatMap (fun ctx =>
    if !s.ctxLive ctx then []
    else (s.followed ctx).filterMap (fun page =>
      match s.walk ctx 0 (4096 * page) with
      | .leaf f _ _ _ => if f / 4096 = pa / 4096 then some (ctx, page) else none
      | .none _ => none))

/-- The home bank of a frame that is reached by its physical address: that of a page whose translation names it; where no home holds one, that of its own number (DESIGN CHOICE, log 60). -/
def Dev.frameBank (d : Dev) (frame : Nat) : Nat :=
  match d.tlb.find? (fun t => t.zone == 0 && t.frame == frame) with
  | some t => bankOf t.ctx t.zone t.page
  | none => bankOf 0 0 frame

/-- A write that reaches device memory by its physical address, performed at the frame's home: masked bytes, error granules, the dirty bits and watchpoints of the pages that map it. -/
def State.physWrite (s : State) (pa : Nat) (bs : List Byte) (w : Writer) : State :=
  let pages := s.aliases pa
  let s0 := s.writeLoc (.dev pa) (full bs)
  let s1 : State := { s0 with dev := s0.dev.dropCopies none (.dev pa) bs.length }
  pages.foldl (fun s x =>
    let s1 := s.armPage x.1 x.2
    s1.watchWrite x.1 0 (BitVec.ofNat 64 (4096 * x.2 + pa % 4096)) (full bs) (leNat (bytesAt s1.mem (pa - pa % 8) 8)) w) s1

def extWriter (agent unit : Nat) : Writer := { agent := agent, hart := 0, place := 0, unit := unit, seq := 0 }

/-! Accesses of external agents through a context's tables -/

/-- Report an external agent's fault to the Slate core of row `row`, that of the home (R372, R374): access kind 10; a host's requester ID is a free value. -/
def State.extFaultAt (s : State) (row agent unit ctx cause pa size : Nat) (va : Dbl) : State :=
  let id := if agent = 5 then (Config.freeValue s.dev.fresh).toNat % 2 ^ 32 else 0
  let d1 := if pa = 2 ^ 64 then accessDetail 10 size pa + BitVec.ofNat 64 (2 ^ 16 * id) else BitVec.ofNat 64 (10 + 2 ^ 8 * Nat.log2 size + 2 ^ 16 * id)
  let p := { agentPacket s.dev agent ctx 0 unit cause 0 va (BitVec.ofNat 64 pa) d1 with late := true }
  let d := if agent = 5 then { s.dev with fresh := s.dev.fresh + 1 } else s.dev
  { s with dev := d.sendPacket row p }

/-- That of an access by a context's own address: the home is that of its page. -/
def State.extFault (s : State) (agent unit ctx cause pa size : Nat) (va : Dbl) : State :=
  s.extFaultAt (homeRow ctx 0 (va.toNat / 4096)) agent unit ctx cause pa size va

/-- The target of an external agent's request at its home (R199): translation, the E check of a host or peer, the permissions it needs, and uncorrectable data that it consumes; a failure is reported. -/
def State.extTarget (s : State) (agent unit ctx : Nat) (va : Dbl) (n : Nat) (rd wr consumes : Bool) : State × Target :=
  match s.xlate ctx 0 va.toNat rd wr with
  | (s1, .wait) => (s1, .wait)
  | (s1, .fault c) => (s1.extFault agent unit ctx c (walkAddr c) n va, .fault c (walkAddr c))
  | (s1, .ok l a) =>
    if agent != 8 && !a.e then (s1.extFault agent unit ctx 0x16 l.addr n va, .fault 0x16 l.addr)
    else if (rd && !a.r) || (wr && !a.w) then (s1.extFault agent unit ctx 0x13 l.addr n va, .fault 0x13 l.addr)
    else if consumes && l.uncorr s1.dev n then (s1.extFault agent unit ctx 0x17 l.addr n va, .fault 0x17 l.addr)
    else (s1, .at l a)

/-- The host or a peer that has read device memory may keep the lines in its cache (R417): whether it does is its own affair, a free value (log 32). -/
def State.mayHold (s : State) (agent pa n : Nat) : State :=
  if (agent ≠ 5 ∧ agent ≠ 6) ∨ n = 0 then s
  else
    let lines := (upTo ((pa + n - 1) / 64 - pa / 64 + 1)).map (fun i => pa / 64 + i)
    let d := s.dev
    let d1 : Dev := { d with fresh := d.fresh + 1 }
    { s with dev := if (Config.freeValue d.fresh).getLsbD 0 then { (d1.shareLine (.dev pa) n) with bisnp := (d.bisnp ++ lines).eraseDups } else d1 }

/-- One read or write of an external agent at its home (R199). -/
def State.extRequest (s : State) (agent unit ctx : Nat) (va : Dbl) (write : Bool) (bs : List Byte) : State × Access :=
  match s.extTarget agent unit ctx va bs.length (!write) write (!write || maskedWrite (full bs)) with
  | (s1, .wait) => (s1, .wait)
  | (s1, .fault c pa) => (s1, .fault c pa)
  | (s1, .at l _) =>
    if !write then
      ((match l with
        | .dev pa => s1.mayHold agent pa bs.length
        | _ => s1), .bytes (s1.readLoc l bs.length))
    else if l.snoopedBy s1.dev bs.length then (s1, .wait)
    else (s1.homeWrite ctx 0 va l (full bs) (extWriter agent unit), .bytes bs)

/-- A range as requests of single lines, in order; the first failure is answered and stops it. The bytes read, or written, are answered. -/
def State.extRange (s : State) (agent unit ctx : Nat) (va : Dbl) (write : Bool) (bs : List Byte) : State × Access :=
  (piecesOf va.toNat bs.length).foldl (fun acc p =>
    match acc with
    | (s, .bytes done) =>
      match s.extRequest agent unit ctx (BitVec.ofNat 64 p.1) write ((bs.drop done.length).take p.2) with
      | (s1, .bytes cs) => (s1, .bytes (done ++ cs))
      | r => r
    | r => r) (s, .bytes [])

/-- The bytes that an outside atomic acts on: a compare-and-swap (operation 9) brings the compare value and then the new one. -/
def extSize (op : Nat) (data : List Byte) : Nat := if op = 9 then data.length / 2 else data.length

/-- How many bytes of memory an outside access covers. -/
def accessSize (asks : Asks) (data : List Byte) : Nat :=
  match asks with
  | .atomic op => extSize op data
  | _ => data.length

/-- A PCIe or CXL AtomicOp, or an AMO of a RISC-V core: of 4, 8 or 16 bytes, naturally aligned (R226, R412). -/
def extAtomicOk (op addr : Nat) (data : List Byte) : Bool :=
  let n := extSize op data
  decide (op ≤ 9) && [4, 8, 16].contains n && decide (addr % n = 0) && decide (data.length = if op = 9 then 2 * n else n)

/-- The bytes that an outside atomic leaves, or `none` when its compare fails; operations as R243 numbers them. -/
def extNew (op : Nat) (data old : List Byte) : Option (List Byte) :=
  let n := extSize op data
  if op = 9 then (if old = data.take n then some (data.drop n) else none)
  else (atomicNew op n (leNat old) (BitVec.ofNat 128 (leNat data))).map (natLe n)

/-- An atomic that a peer sends is one of the device's own kinds (R242, R243, R418): AFADD among them, of 4 or 8 bytes. -/
def peerAtomicOk (op addr : Nat) (data : List Byte) : Bool :=
  if op = 10 then [4, 8].contains data.length && decide (addr % data.length = 0) else extAtomicOk op addr data

/-- What a peer's atomic leaves: of a 16-byte ACAS the low halves are compared and the version half goes up by one (R242). -/
def peerNew (op : Nat) (data old : List Byte) : Option (List Byte) :=
  if op = 9 ∧ data.length = 32 then
    (if old.take 8 = data.take 8 then some ((data.drop 16).take 8 ++ natLe 8 (leNat (old.drop 8) + 1)) else none)
  else extNew op data old

/-- An atomic of the host is performed at the device home, in the location's write order (R225): it answers the old bytes. -/
def State.extAtomic (s : State) (agent unit ctx : Nat) (va : Dbl) (op : Nat) (data : List Byte) : State × Access :=
  let n := extSize op data
  if !extAtomicOk op va.toNat data then (s, .bytes [])
  else
    match s.extTarget agent unit ctx va n true false true with
    | (s1, .wait) => (s1, .wait)
    | (s1, .fault c pa) => (s1, .fault c pa)
    | (s1, .at l a) =>
      let old := s1.readLoc l n
      match extNew op data old with
      | none => (s1, .bytes old)
      | some new =>
        if !a.w then (s1.extFault agent unit ctx 0x13 l.addr n va, .fault 0x13 l.addr)
        else if l.snoopedBy s1.dev n then (s1, .wait)
        else ((s1.homeWrite ctx 0 va l (full new) (extWriter agent unit)).pooled ctx 0 va op n (extWriter agent unit), .bytes old)

/-- An access by physical address: of a peer (R418) or of a RISC-V core (R229), counted at the frame's home (R198). Uncorrectable data that it consumes is reported at the frame's home, with no in-zone address, which such an access has not (R372, R373), and answered with nothing (R203). -/
def State.physAccess (s0 : State) (agent unit pa : Nat) (asks : Asks) (data : List Byte) : State × Access :=
  let s := s0.countAccess (s0.dev.frameBank (pa / 4096)) (.dev pa)
  let n := accessSize asks data
  let consumes := asks != .write || maskedWrite (full data)
  let old := bytesAt s.mem pa n
  let put (bs ans : List Byte) : State × Access :=
    if s.dev.snoopedRange pa n then (s, .wait) else (s.physWrite pa bs (extWriter agent unit), .bytes ans)
  if consumes && s.dev.uncorrAt pa n then (s.extFaultAt (s.dev.frameBank (pa / 4096) / 4) agent unit 0 0x17 pa n 0, .fault 0x17 pa)
  else
    match asks with
    | .read => (s.mayHold agent pa n, .bytes old)
    | .write => put data []
    | .atomic op =>
      if !(if agent = 6 then peerAtomicOk op pa data else extAtomicOk op pa data) then (s, .bytes [])
      else
        match if agent = 6 then peerNew op data old else extNew op data old with
        | some new => put new old
        | none => (s, .bytes old)

/-- An access has been answered: its bytes, or nothing; one that still waits leaves everything as it was. -/
def answered (s : State) (r : State × Access) : State :=
  match r with
  | (_, .wait) => s
  | (s1, .bytes bs) => { s1 with dev := { s1.dev with answer := bs } }
  | (s1, .fault _ _) => { s1 with dev := { s1.dev with answer := [] } }

/-- PEER_ACCESS: An incoming CXL.mem access through one of the eight fabric ports (R417), an atomic among them, is performed at the frame's home (R225, R418); one to a reserved frame, or beyond device memory, is completed with an error (log 58), and none arrives before the ports are trained (R436). -/
def execPeerAccess (portPa : Nat × Nat) (asks : Asks) (data : List Byte) (s : State) : Out :=
  let pa := portPa.2
  .next (answered s (if Config.reservedBase < pa + accessSize asks data ∨ s.dev.ready.getLsbD 17 = false then (s, .fault 0x1C pa) else s.physAccess 6 (portPa.1 % 8) pa asks data))

/-- HOST_APERTURE_ACCESS: A host access through an aperture, an atomic among them, is translated and performed at its home (R225, R413); a page that is not enabled completes it with Unsupported Request, and none arrives before the host link is trained (R436). A host operation wider than 8 bytes may tear: it may also come as accesses of its 8-byte granules (R226, log 58). -/
def execHostApertureAccess (aperture offset : Nat) (asks : Asks) (data : List Byte) (s : State) : Out :=
  let p := s.dev.page aperture
  let va : Dbl := BitVec.ofNat 64 (offset % 2 ^ 40)
  .next (answered s (if 64 ≤ aperture ∨ p.en = false ∨ s.dev.ready.getLsbD 16 = false then (s, .fault 0 0)
    else
      match asks with
      | .atomic op => s.extAtomic 5 0 p.ctx.toNat va op data
      | _ => s.extRange 5 0 p.ctx.toNat va (asks == .write) data))

/-! Work rings (R419, R420) -/

/-- A fault of a port access stops its ring at the entry (R420); the packet has been sent. -/
def State.stopRing (s : State) (port ring : Nat) : State :=
  { s with dev := s.dev.setNetRing port ring { s.dev.netRing port ring with stopped := true } }

/-- A write of a port into ring memory with its checks; `true` when it was performed. -/
def State.portWrite (s : State) (port ring ctx : Nat) (va : Dbl) (bs : List Byte) : State × Bool :=
  match s.extRange 7 port ctx va true bs with
  | (s1, .bytes _) => (s1, true)
  | (s1, .fault _ _) => (s1.stopRing port ring, false)
  | (_, .wait) => (s, false)

/-- The port reads HEAD from the ring's header, with the checks of its every access (R420). -/
def State.readHead (s : State) (port ring : Nat) : State :=
  let r := s.dev.netRing port ring
  match s.extRange 7 port r.ctx (r.addr + 64) false (List.replicate 8 0) with
  | (_, .wait) => s
  | (s1, .fault _ _) => s1.stopRing port ring
  | (s1, .bytes bs) => { s1 with dev := s1.dev.setNetRing port ring { r with head := BitVec.ofNat 64 (leNat bs), headless := false } }

/-- What is sent for an entry of ring `ring` (16 times its port plus its number), by the port that its bytes 2-3 name (R419): the data that has been read, or the request of an RMA read. -/
def netMsg (ring : Nat) (e data : List Byte) : NetMsg :=
  { op := numAt e 0 1, service := numAt e 1 1, port := numAt e 2 2 % 8, ring := ring, peer := numAt e 8 8, remote := numAt e 24 8,
    key := numAt e 32 8, len := numAt e 4 4, data := data }

/-- The request of an RMA read whose entry is dropped goes, so that an equal entry later sends its own. -/
def Dev.dropRead (d : Dev) (port ring : Nat) : Dev :=
  match (d.netRing port ring).entry with
  | some e => if numAt e 0 1 = 3 then { d with wire := d.wire.erase (netMsg (16 * port + ring) e []) } else d
  | none => d

/-- The migration engine's own ring of a session slot, number 16 + slot of the port that its entries name (R419): once the network ports are up its oldest entry is taken and sent (log 46). -/
def State.sendPost (s : State) (port ring : Nat) : State :=
  match s.dev.posts.find? (fun m => m.port == port && m.ring == 112 + ring) with
  | some m => if s.dev.ready.getLsbD 18 then { s with dev := { s.dev with posts := s.dev.posts.erase m, wire := s.dev.wire ++ [m] } } else s
  | none => s

/-- RING_ENABLE: EN turning on configures a network work ring (R420): RHDR and RCFG as written take effect, LOG2N below 4 is read as 4, and the port goes on from the header's HEAD, which it reads now or, after a fault or a wait, before it takes an entry. An entry that was being performed when EN was cleared is dropped, the request of an RMA read with it (DESIGN CHOICE, log 61). -/
def execRingEnable (port ring : Nat) (s : State) : Out :=
  let r := s.dev.netRing port ring
  let x := r.rcfg.toNat
  let r1 : Ring := { r with addr := r.rhdr, ctx := bitsOf x 11 0, log2n := Nat.max 4 (bitsOf x 15 12), en := true, head := 0,
                            headless := true, stopped := false, entry := none, got := 0 }
  .next (if r.en then s
    else ({ s with dev := (s.dev.dropRead port ring).setNetRing port ring r1 } : State).readHead port ring)

/-- RING_ENTRY_TAKE: TAIL passing HEAD makes the port acquire and take a work entry (R420), with an acquire at system scope; HEAD is written once the entry has been read. A ring whose HEAD is still unknown reads it first. -/
def execRingEntryTake (port ring : Nat) (s : State) : Out :=
  let r := s.dev.netRing port ring
  .next (if r.en = false ∨ r.stopped = true ∨ r.entry.isSome = true ∨ s.dev.ready.getLsbD 18 = false ∨ s.dev.stopctx.contains r.ctx = true then s
    else if r.headless then s.readHead port ring
    else
      match s.extRange 7 port r.ctx r.addr false (List.replicate 8 0) with
      | (_, .wait) => s
      | (s1, .fault _ _) => s1.stopRing port ring
      | (s1, .bytes bs0) =>
        if (BitVec.ofNat 64 (leNat bs0) : Dbl) = r.head then s1
        else
          let a := r.addr + 128 + BitVec.ofNat 64 (64 * (r.head.toNat % 2 ^ r.log2n))
          match s1.extRequest 7 port r.ctx a false (List.replicate 64 0) with
          | (_, .wait) => s
          | (s2, .fault _ _) => s2.stopRing port ring
          | (s2, .bytes bs) =>
            match s2.portWrite port ring r.ctx (r.addr + 64) (natLe 8 (r.head.toNat + 1)) with
            | (s3, true) => { s3 with dev := s3.dev.setNetRing port ring { r with head := r.head + 1, entry := some bs, got := 0 } }
            | (s3, false) => s3)

/-- The local bytes that an entry reads: a send or an RMA write (R419). -/
def entryReads (e : List Byte) : Bool := numAt e 0 1 == 1 || numAt e 0 1 == 2

/-- NETWORK_ENTRY_COMPLETE: A work entry completes and the port RELs its completion binder (R419) with the entry's index + 1. Local data is read through the homes with the E check and leaves for the peer that the entry names; an RMA read sends its request first and completes once all its data has been written here. An entry of an operation that R419 does not list completes with no data (DESIGN CHOICE, log 61). Ring 16 + k is that of the migration engine's slot k. -/
def execNetworkEntryComplete (port ring : Nat) (s : State) : Out :=
  let r := s.dev.netRing port ring
  .next (if 16 ≤ ring then s.sendPost port ring else match r.entry with
    | none => s
    | some e =>
      if r.stopped ∨ r.en = false then s
      else
        let len := if entryReads e then numAt e 4 4 else 0
        let asked := s.dev.wire.any (fun m => m == netMsg (16 * port + ring) e [])
        if numAt e 0 1 = 3 ∧ asked = false then { s with dev := { s.dev with wire := s.dev.wire ++ [netMsg (16 * port + ring) e []] } }
        else if numAt e 0 1 = 3 ∧ r.got < numAt e 4 4 then s
        else
        match s.extRange 7 port r.ctx (BitVec.ofNat 64 (numAt e 16 8)) false (List.replicate len 0) with
        | (_, .wait) => s
        | (s1, .fault _ _) => s1.stopRing port ring
        | (s1, .bytes bs) =>
          match s1.portWrite port ring r.ctx (BitVec.ofNat 64 (numAt e 40 8)) (natLe 8 r.head.toNat) with
          | (s2, true) =>
            let d := s2.dev.setNetRing port ring { s2.dev.netRing port ring with entry := none, got := 0 }
            { s2 with dev := { d with
                wire := if numAt e 0 1 = 3 then d.wire.erase (netMsg (16 * port + ring) e []) else d.wire ++ [netMsg (16 * port + ring) e bs] } }
          | (s2, false) => s2)

/-- The ring, 16 times its port plus its number, whose RMA read the data belongs to that port `port` has received (R419): its entry names that port, the data lies in the entry's local range, and under ROD it is the next in order. -/
def Dev.readRing (d : Dev) (port ctx : Nat) (va : Dbl) (n : Nat) : Option Nat :=
  (upTo 128).find? (fun k =>
    let r := d.netRing (k / 16) (k % 16)
    match r.entry with
    | none => false
    | some e =>
      let lo := numAt e 16 8
      numAt e 2 2 % 8 == port % 8 && r.en && !r.stopped && r.ctx == ctx && numAt e 0 1 == 3 && decide (lo ≤ va.toNat) && decide (va.toNat + n ≤ lo + numAt e 4 4) &&
      (numAt e 1 1 != 1 || va.toNat == lo + r.got))

/-- The packet is the next of its stream (R419): one of an entry sent under ROD bears the stream of its sender's ring and its position there; one sent under RUD bears none. -/
def Dev.inTurn (d : Dev) (order : Option (Nat × Nat)) : Bool :=
  match order with
  | some (k, n) => mget 0 d.rodNext k == n
  | none => true

/-- A packet of a stream has been written. -/
def Dev.turnDone (d : Dev) (order : Option (Nat × Nat)) : Dev :=
  match order with
  | some (k, n) => { d with rodNext := mset 0 d.rodNext k (n + 1) }
  | none => d

/-- NETWORK_PACKET_RECEIVE: A received packet's data is written through the homes (R419), as an agent of kind 7 with the E check; under ROD in the order of its stream: the packet bears the stream and its number there, and its data. Data of an RMA read counts towards its entry, and a fault of its write stops the ring there (R420). -/
def execNetworkPacketReceive (port ctx : Nat) (va : Dbl) (packet : Option (Nat × Nat) × List Byte) (s : State) : Out :=
  let (order, data) := packet
  .next (if s.dev.ready.getLsbD 18 && s.dev.inTurn order then
      let passed (s : State) : State := { s with dev := s.dev.turnDone order }
      match s.dev.readRing port ctx va data.length, s.extRange 7 port ctx va true data with
      | _, (_, .wait) => s
      | none, (s1, _) => passed s1
      | some k, (s1, .fault _ _) => s1.stopRing (k / 16) (k % 16)
      | some k, (s1, .bytes _) =>
        let r := s1.dev.netRing (k / 16) (k % 16)
        passed { s1 with dev := s1.dev.setNetRing (k / 16) (k % 16) { r with got := r.got + data.length } }
    else s)

/-- RING_RESUME: A Slate core resumes a network work ring stopped at its faulting entry (R420). -/
def execRingResume (port ring : Nat) (s : State) : Out :=
  .next { s with dev := s.dev.setNetRing port ring { s.dev.netRing port ring with stopped := false } }

end Sys2Proof.Machine
end

