-- ==== Sys2Proof/Machine/Float.lean ====
section
/-! DEFINITION. Scalar floating point (op 0x32 to 0x3B; R46-R55, R131-R135). Operands are read from the low bits of their tokens, flushed under R51; results sit in the low bits, zero above (R110). They read STATUS and SRSTATE as they stand once every older block has committed (R40), so they fire in the oldest block. -/
namespace Sys2Proof.Machine

/-- The format codes of xop 4:3 (R79). -/
def fmtTag (f : BitVec 2) : Nat :=
  match f.toNat with
  | 0 => tagF32
  | 1 => tagF64
  | 2 => tagBF16
  | _ => tagF16

/-- A floating operand's encoding (R110). -/
def fpBits (t : Nat) (x : Dbl) : Nat := x.toNat % 2 ^ tagBits t

/-- A floating result token (R110). -/
def fpTok (x : Nat) : Token := tokOf (BitVec.ofNat 64 x)

/-- A rounding operation: a block in which it rounds stochastically steps SRSTATE at commit (R55). -/
def fpRound (s : State) (pr : BitVec 2) (operands mode : Nat) (t0 t1 : BitVec 9)
    (k : NEnv → Token → Token → Token) : Out :=
  .next (s.fire (scalarForm pr operands true) (onBlock fun h b l r =>
    let n := h.nenv s.dev.focus.idx
    let nul := (decide (1 ≤ operands) && l.null) || (decide (2 ≤ operands) && r.null)
    let b1 := b.deliverAll [t0, t1] (if nul then tokNull else k n l r)
    { b1 with sr := b.sr || (!nul && drawsSr n mode) }))

/-- The two-operand arithmetic form: one rounding of the exact result (R131). -/
def fpBin (s : State) (f : BitVec 2) (m : BitVec 3) (t0 t1 : BitVec 9) (pr : BitVec 2)
    (op : NEnv → Nat → Ex → Ex → Ex) : Out :=
  fpRound s pr 2 m.toNat t0 t1 fun n l r =>
    let t := fmtTag f
    fpTok (roundTo n t m.toNat false 0 (op n m.toNat (operand n t (fpBits t l.lo)) (operand n t (fpBits t r.lo))))

/-- The minimum and maximum form: encodings, no rounding (R132). -/
def fpPick (s : State) (f : BitVec 2) (t0 t1 : BitVec 9) (pr : BitVec 2) (op : NEnv → Nat → Nat → Nat → Nat) : Out :=
  .next (s.fireScalar pr 2 true t0 t1 fun h _ l r =>
    let t := fmtTag f
    let n := h.nenv 0
    fpTok (op n t (flushBits n t (fpBits t l.lo)) (flushBits n t (fpBits t r.lo))))

/-- The bit form: no flush, no canonical NaN (R134). -/
def fpBitsUn (s : State) (f : BitVec 2) (t0 t1 : BitVec 9) (pr : BitVec 2) (op : Nat → Nat → Nat) : Out :=
  .next (s.fireScalar pr 1 false t0 t1 fun _ _ l _ => fpTok (op (fmtTag f) (fpBits (fmtTag f) l.lo)))

/-- Source format of an FCVT pair, or an integer source: width and signedness (R80). -/
inductive CvtEnd where
  | float (t : Nat)
  | int (w : Nat) (signed : Bool)
  deriving DecidableEq, Repr

def cvtInt (k : Nat) : CvtEnd :=
  match k with
  | 0 => .int 32 true
  | 1 => .int 32 false
  | 2 => .int 64 true
  | _ => .int 64 false

/-- The pairs of R80. -/
def cvtPair (x : Nat) : CvtEnd × CvtEnd :=
  match x with
  | 0 => (.float tagF32, .float tagF64)
  | 1 => (.float tagF32, .float tagBF16)
  | 2 => (.float tagF32, .float tagF16)
  | 3 => (.float tagF64, .float tagF32)
  | 4 => (.float tagF64, .float tagBF16)
  | 5 => (.float tagF64, .float tagF16)
  | 6 => (.float tagBF16, .float tagF32)
  | 7 => (.float tagBF16, .float tagF64)
  | 8 => (.float tagBF16, .float tagF16)
  | 9 => (.float tagF16, .float tagF32)
  | 10 => (.float tagF16, .float tagF64)
  | 11 => (.float tagF16, .float tagBF16)
  | 12 | 13 | 14 | 15 => (.float tagF32, cvtInt (x - 12))
  | 16 | 17 | 18 | 19 => (.float tagF64, cvtInt (x - 16))
  | 20 | 21 | 22 | 23 => (cvtInt (x - 20), .float tagF32)
  | _ => (cvtInt (x - 24), .float tagF64)

/-- An FCVT source's exact value (R135). -/
def cvtSource (n : NEnv) (e : CvtEnd) (x : Dbl) : Ex :=
  match e with
  | .float t => operand n t (fpBits t x)
  | .int w true => Ex.ofInt (sval w x.toNat)
  | .int w false => Ex.ofInt (x.toNat % 2 ^ w)

/-- An FCVT result (R110, R135): I32 sign-extended, U32 zero-extended. -/
def cvtResult (n : NEnv) (e : CvtEnd) (mode : Nat) (sat : Bool) (v : Ex) : Dbl :=
  match e with
  | .float t => BitVec.ofNat 64 (roundTo n t mode sat 0 v)
  | .int w signed => BitVec.ofNat 64 (wrap 64 (roundToInt n signed w mode 0 v))

/-- FADD: Floating addition, rounded once (R131). -/
def execFadd (f : BitVec 2) (r : BitVec 3) (t0 : BitVec 9) (t1 : BitVec 9) (pr : BitVec 2) (s : State) : Out :=
  fpBin s f r t0 t1 pr exAdd

/-- FSUB: Floating subtraction, rounded once (R131). -/
def execFsub (f : BitVec 2) (r : BitVec 3) (t0 : BitVec 9) (t1 : BitVec 9) (pr : BitVec 2) (s : State) : Out :=
  fpBin s f r t0 t1 pr (fun n m a b => exAdd n m a b.negate)

/-- FMUL: Floating multiplication, rounded once (R131). -/
def execFmul (f : BitVec 2) (r : BitVec 3) (t0 : BitVec 9) (t1 : BitVec 9) (pr : BitVec 2) (s : State) : Out :=
  fpBin s f r t0 t1 pr (fun _ _ a b => exMul a b)

/-- FMA: Fused multiply-add, rounded once (R131). -/
def execFma (f : BitVec 2) (r : BitVec 3) (t0 : BitVec 9) (t1 : BitVec 9) (pr : BitVec 2) (s : State) : Out :=
  fpRound s pr 2 r.toNat t0 t1 fun n l c =>
    let t := fmtTag f
    fpTok (roundTo n t r.toNat false 0 (exFma n r.toNat (operand n t (fpBits t l.lo)) (operand n t (fpBits t l.hi))
      (operand n t (fpBits t c.lo))))

/-- FDIV: Floating division, rounded once (R131). -/
def execFdiv (f : BitVec 2) (r : BitVec 3) (t0 : BitVec 9) (t1 : BitVec 9) (pr : BitVec 2) (s : State) : Out :=
  fpBin s f r t0 t1 pr (fun _ _ a b => exDiv a b)

/-- FSQRT: Floating square root, rounded once (R131). -/
def execFsqrt (f : BitVec 2) (r : BitVec 3) (t0 : BitVec 9) (t1 : BitVec 9) (pr : BitVec 2) (s : State) : Out :=
  fpRound s pr 1 r.toNat t0 t1 fun n l _ =>
    fpTok (roundTo n (fmtTag f) r.toNat false 0 (exSqrt (operand n (fmtTag f) (fpBits (fmtTag f) l.lo))))

/-- FMIN: Floating minimum, NaN-propagating (R132). -/
def execFmin (f : BitVec 2) (t0 : BitVec 9) (t1 : BitVec 9) (pr : BitVec 2) (s : State) : Out :=
  fpPick s f t0 t1 pr (fun n t a b => fminmax n t false a b)

/-- FMAX: Floating maximum, NaN-propagating (R132). -/
def execFmax (f : BitVec 2) (t0 : BitVec 9) (t1 : BitVec 9) (pr : BitVec 2) (s : State) : Out :=
  fpPick s f t0 t1 pr (fun n t a b => fminmax n t true a b)

/-- FMINNUM: Floating minimum preferring the non-NaN operand (R132). -/
def execFminnum (f : BitVec 2) (t0 : BitVec 9) (t1 : BitVec 9) (pr : BitVec 2) (s : State) : Out :=
  fpPick s f t0 t1 pr (fun n t a b => fminmaxNum n t false a b)

/-- FMAXNUM: Floating maximum preferring the non-NaN operand (R132). -/
def execFmaxnum (f : BitVec 2) (t0 : BitVec 9) (t1 : BitVec 9) (pr : BitVec 2) (s : State) : Out :=
  fpPick s f t0 t1 pr (fun n t a b => fminmaxNum n t true a b)

/-- FCMP: Floating compare under a condition, sending 1 or 0 (R133). -/
def execFcmp (f : BitVec 2) (c : BitVec 3) (t0 : BitVec 9) (t1 : BitVec 9) (pr : BitVec 2) (s : State) : Out :=
  .next (s.fireScalar pr 2 true t0 t1 fun h _ l r =>
    let n := h.nenv 0
    tokOf (boolDbl (fcmpHolds c.toNat (operand n (fmtTag f) (fpBits (fmtTag f) l.lo)) (operand n (fmtTag f) (fpBits (fmtTag f) r.lo)))))

/-- FCVT: Convert between floating and integer formats as the selected pair gives (R135). -/
def execFcvt (x : BitVec 5) (t0 : BitVec 9) (sat : BitVec 1) (r : BitVec 3) (pr : BitVec 2) (s : State) : Out :=
  fpRound s pr 1 r.toNat t0 noTarget fun n l _ =>
    tokOf (cvtResult n (cvtPair x.toNat).2 r.toNat (sat = 1) (cvtSource n (cvtPair x.toNat).1 l.lo))

/-- FABS: Clear the sign bit (R134). -/
def execFabs (f : BitVec 2) (t0 : BitVec 9) (t1 : BitVec 9) (pr : BitVec 2) (s : State) : Out :=
  fpBitsUn s f t0 t1 pr (fun t x => x % signBit t)

/-- FNEG: Invert the sign bit (R134). -/
def execFneg (f : BitVec 2) (t0 : BitVec 9) (t1 : BitVec 9) (pr : BitVec 2) (s : State) : Out :=
  fpBitsUn s f t0 t1 pr (fun t x => x ^^^ signBit t)

/-- FCLASS: Classify a floating value into a one-hot token (R134). -/
def execFclass (f : BitVec 2) (t0 : BitVec 9) (t1 : BitVec 9) (pr : BitVec 2) (s : State) : Out :=
  fpBitsUn s f t0 t1 pr fclassOf

/-- FCOPYSIGN: Copy the sign bit of b onto a (R134). -/
def execFcopysign (f : BitVec 2) (t0 : BitVec 9) (t1 : BitVec 9) (pr : BitVec 2) (s : State) : Out :=
  .next (s.fireScalar pr 2 false t0 t1 fun _ _ l r =>
    let t := fmtTag f
    fpTok (fpBits t l.lo % signBit t + fpBits t r.lo / signBit t * signBit t))

end Sys2Proof.Machine
end

