-- ==== Sys2Proof/Machine/Int.lean ====
section
/-! DEFINITION. Integer arithmetic and comparison (op 0x10 to 0x28, 0x30, 0x31; R56, R126-R130). Each instruction computes a W-bit result of W-bit operands, W = 32 for .w and 64 for .d, and sends it sign-extended to 64 bits (R56, R110). -/
namespace Sys2Proof.Machine

/-- W of the width bit (R126). -/
def widthOf (w : BitVec 1) : Nat := if w = 1 then 64 else 32

/-- The result token: SignExtend(r, W, 64) (R56, R126). -/
def intTok (w : BitVec 1) (x : Nat) : Token := tokOf (BitVec.ofNat 64 (sext64 (widthOf w) x))

/-- A left operand as a W-bit string. -/
def intA (w : BitVec 1) (k : Token) : Nat := k.lo.toNat % 2 ^ widthOf w

/-- The two-operand form. -/
def intBin (s : State) (w : BitVec 1) (t0 t1 : BitVec 9) (pr : BitVec 2) (f : Nat → Nat → Nat → Nat) : Out :=
  .next (s.fireScalar pr 2 false t0 t1 fun _ _ l r => intTok w (f (widthOf w) (intA w l) (intA w r)))

/-- The one-operand form. -/
def intUn (s : State) (w : BitVec 1) (t0 t1 : BitVec 9) (pr : BitVec 2) (f : Nat → Nat → Nat) : Out :=
  .next (s.fireScalar pr 1 false t0 t1 fun _ _ l _ => intTok w (f (widthOf w) (intA w l)))

/-- The immediate form: b is imm9 sign-extended to W bits (R126). -/
def intImm (s : State) (w : BitVec 1) (t0 i : BitVec 9) (pr : BitVec 2) (f : Nat → Nat → Nat → Nat) : Out :=
  .next (s.fireScalar pr 1 false t0 noTarget fun _ _ l _ =>
    intTok w (f (widthOf w) (intA w l) ((simm i).toNat % 2 ^ widthOf w)))

/-- The shift-immediate form: n is the low bits of imm9 (R129). -/
def intSh (s : State) (w : BitVec 1) (t0 i : BitVec 9) (pr : BitVec 2) (f : Nat → Nat → Nat → Nat) : Out :=
  .next (s.fireScalar pr 1 false t0 noTarget fun _ _ l _ => intTok w (f (widthOf w) (intA w l) (i.toNat % widthOf w)))

def opAdd (w a b : Nat) : Nat := (a + b) % 2 ^ w
def opSub (w a b : Nat) : Nat := (a + 2 ^ w - b) % 2 ^ w
def opMul (w a b : Nat) : Nat := a * b % 2 ^ w

/-- High W bits of a product of integers (R126). -/
def opMulHigh (w : Nat) (x y : Int) : Nat := wrap w (x * y / (2 : Int) ^ w)

/-- Quotient rounded toward zero with the corners of R126. -/
def opDiv (w a b : Nat) : Nat :=
  if b = 0 then 2 ^ w - 1 else wrap w (Int.tdiv (sval w a) (sval w b))
def opDivn (w a b : Nat) : Nat := if b = 0 then 2 ^ w - 1 else a / b
def opRem (w a b : Nat) : Nat := if b = 0 then a else wrap w (Int.tmod (sval w a) (sval w b))
def opRemn (a b : Nat) : Nat := if b = 0 then a else a % b

def opNot (w a : Nat) : Nat := 2 ^ w - 1 - a

def opShl (w a n : Nat) : Nat := a * 2 ^ n % 2 ^ w
def opShr (a n : Nat) : Nat := a / 2 ^ n
def opShra (w a n : Nat) : Nat := wrap w (sval w a / (2 : Int) ^ n)
def opRol (w a n : Nat) : Nat := (a * 2 ^ n + a / 2 ^ (w - n)) % 2 ^ w

/-- Leading zeros: W for zero (R127). -/
def opClz (w a : Nat) : Nat := if a = 0 then w else w - 1 - Nat.log2 a

/-- Trailing zeros: W for zero (R127). -/
def opCtz (w a : Nat) : Nat := ((upTo w).find? (fun i => bitOf a i)).getD w

def opPopc (w a : Nat) : Nat := ((upTo w).filter (fun i => bitOf a i)).length

def opBrev (w a : Nat) : Nat := (upTo w).foldl (fun x i => 2 * x + a / 2 ^ i % 2) 0

def opBswp (w a : Nat) : Nat := leNat ((natLe (w / 8) a).reverse)

def opAbs (w a : Nat) : Nat := wrap w (sval w a).natAbs

/-- Sign extension from bit `n - 1` to W bits (R127). -/
def opSext (w n a : Nat) : Nat := wrap w (sval n a)

/-- The clipped bit field of BFX, BFXS and BFI (R128): position and width. -/
def fieldOf (w : Nat) (r : Token) : Nat × Nat :=
  let pos := bitsOf r.lo.toNat 7 0
  let wid := bitsOf r.lo.toNat 15 8
  if w ≤ pos then (pos, 0) else (pos, if w < pos + wid then w - pos else wid)

def opBfx (w a : Nat) (r : Token) : Nat :=
  let (pos, wid) := fieldOf w r
  a / 2 ^ pos % 2 ^ wid

def opBfxs (w a : Nat) (r : Token) : Nat :=
  let (pos, wid) := fieldOf w r
  if wid = 0 then 0 else wrap w (sval wid (a / 2 ^ pos % 2 ^ wid))

/-- BFI: the low half of the PAIR is the base, the high half the value to insert (R128). -/
def opBfi (w : Nat) (l r : Token) : Nat :=
  let (pos, wid) := fieldOf w r
  let base := l.lo.toNat % 2 ^ w
  let ins := l.hi.toNat % 2 ^ w
  base - bitsOf base (pos + wid - 1) pos * (if wid = 0 then 0 else 2 ^ pos) + ins % 2 ^ wid * 2 ^ pos

/-- ADD: Integer addition modulo 2^W (R126). -/
def execAdd (w : BitVec 1) (t0 : BitVec 9) (t1 : BitVec 9) (pr : BitVec 2) (s : State) : Out :=
  intBin s w t0 t1 pr opAdd

/-- SUB: Integer subtraction modulo 2^W (R126). -/
def execSub (w : BitVec 1) (t0 : BitVec 9) (t1 : BitVec 9) (pr : BitVec 2) (s : State) : Out :=
  intBin s w t0 t1 pr opSub

/-- MUL: Low W bits of the integer product (R126). -/
def execMul (w : BitVec 1) (t0 : BitVec 9) (t1 : BitVec 9) (pr : BitVec 2) (s : State) : Out :=
  intBin s w t0 t1 pr opMul

/-- MULH: High W bits of the signed product (R126). -/
def execMulh (w : BitVec 1) (t0 : BitVec 9) (t1 : BitVec 9) (pr : BitVec 2) (s : State) : Out :=
  intBin s w t0 t1 pr (fun w a b => opMulHigh w (sval w a) (sval w b))

/-- MULHN: High W bits of the unsigned product (R126). -/
def execMulhn (w : BitVec 1) (t0 : BitVec 9) (t1 : BitVec 9) (pr : BitVec 2) (s : State) : Out :=
  intBin s w t0 t1 pr (fun w a b => opMulHigh w a b)

/-- MULHSN: High W bits of the signed-by-unsigned product (R126). -/
def execMulhsn (w : BitVec 1) (t0 : BitVec 9) (t1 : BitVec 9) (pr : BitVec 2) (s : State) : Out :=
  intBin s w t0 t1 pr (fun w a b => opMulHigh w (sval w a) b)

/-- DIV: Signed division rounded toward zero, under the edge rules of R56 (R126). -/
def execDiv (w : BitVec 1) (t0 : BitVec 9) (t1 : BitVec 9) (pr : BitVec 2) (s : State) : Out :=
  intBin s w t0 t1 pr opDiv

/-- DIVN: Unsigned division (R126). -/
def execDivn (w : BitVec 1) (t0 : BitVec 9) (t1 : BitVec 9) (pr : BitVec 2) (s : State) : Out :=
  intBin s w t0 t1 pr opDivn

/-- REM: Signed remainder (R126). -/
def execRem (w : BitVec 1) (t0 : BitVec 9) (t1 : BitVec 9) (pr : BitVec 2) (s : State) : Out :=
  intBin s w t0 t1 pr opRem

/-- REMN: Unsigned remainder (R126). -/
def execRemn (w : BitVec 1) (t0 : BitVec 9) (t1 : BitVec 9) (pr : BitVec 2) (s : State) : Out :=
  intBin s w t0 t1 pr (fun _ a b => opRemn a b)

/-- MIN: Signed minimum (R126). -/
def execMin (w : BitVec 1) (t0 : BitVec 9) (t1 : BitVec 9) (pr : BitVec 2) (s : State) : Out :=
  intBin s w t0 t1 pr (fun w a b => if sval w a ≤ sval w b then a else b)

/-- MAX: Signed maximum (R126). -/
def execMax (w : BitVec 1) (t0 : BitVec 9) (t1 : BitVec 9) (pr : BitVec 2) (s : State) : Out :=
  intBin s w t0 t1 pr (fun w a b => if sval w a ≤ sval w b then b else a)

/-- MINN: Unsigned minimum (R126). -/
def execMinn (w : BitVec 1) (t0 : BitVec 9) (t1 : BitVec 9) (pr : BitVec 2) (s : State) : Out :=
  intBin s w t0 t1 pr (fun _ a b => if a ≤ b then a else b)

/-- MAXN: Unsigned maximum (R126). -/
def execMaxn (w : BitVec 1) (t0 : BitVec 9) (t1 : BitVec 9) (pr : BitVec 2) (s : State) : Out :=
  intBin s w t0 t1 pr (fun _ a b => if a ≤ b then b else a)

/-- AND: Bitwise and (R126). -/
def execAnd (w : BitVec 1) (t0 : BitVec 9) (t1 : BitVec 9) (pr : BitVec 2) (s : State) : Out :=
  intBin s w t0 t1 pr (fun _ a b => a &&& b)

/-- OR: Bitwise or (R126). -/
def execOr (w : BitVec 1) (t0 : BitVec 9) (t1 : BitVec 9) (pr : BitVec 2) (s : State) : Out :=
  intBin s w t0 t1 pr (fun _ a b => a ||| b)

/-- XOR: Bitwise exclusive or (R126). -/
def execXor (w : BitVec 1) (t0 : BitVec 9) (t1 : BitVec 9) (pr : BitVec 2) (s : State) : Out :=
  intBin s w t0 t1 pr (fun _ a b => a ^^^ b)

/-- ANDN: a and not b (R126). -/
def execAndn (w : BitVec 1) (t0 : BitVec 9) (t1 : BitVec 9) (pr : BitVec 2) (s : State) : Out :=
  intBin s w t0 t1 pr (fun w a b => a &&& opNot w b)

/-- ORN: a or not b (R126). -/
def execOrn (w : BitVec 1) (t0 : BitVec 9) (t1 : BitVec 9) (pr : BitVec 2) (s : State) : Out :=
  intBin s w t0 t1 pr (fun w a b => a ||| opNot w b)

/-- XNOR: not (a xor b) (R126). -/
def execXnor (w : BitVec 1) (t0 : BitVec 9) (t1 : BitVec 9) (pr : BitVec 2) (s : State) : Out :=
  intBin s w t0 t1 pr (fun w a b => opNot w (a ^^^ b))

/-- SHL: Shift left by b mod W (R126). -/
def execShl (w : BitVec 1) (t0 : BitVec 9) (t1 : BitVec 9) (pr : BitVec 2) (s : State) : Out :=
  intBin s w t0 t1 pr (fun w a b => opShl w a (b % w))

/-- SHR: Logical shift right by b mod W (R126). -/
def execShr (w : BitVec 1) (t0 : BitVec 9) (t1 : BitVec 9) (pr : BitVec 2) (s : State) : Out :=
  intBin s w t0 t1 pr (fun w a b => opShr a (b % w))

/-- SHRA: Arithmetic shift right by b mod W (R126). -/
def execShra (w : BitVec 1) (t0 : BitVec 9) (t1 : BitVec 9) (pr : BitVec 2) (s : State) : Out :=
  intBin s w t0 t1 pr (fun w a b => opShra w a (b % w))

/-- ROL: Rotate left by b mod W (R126). -/
def execRol (w : BitVec 1) (t0 : BitVec 9) (t1 : BitVec 9) (pr : BitVec 2) (s : State) : Out :=
  intBin s w t0 t1 pr (fun w a b => opRol w a (b % w))

/-- ROR: Rotate right by b mod W (R126). -/
def execRor (w : BitVec 1) (t0 : BitVec 9) (t1 : BitVec 9) (pr : BitVec 2) (s : State) : Out :=
  intBin s w t0 t1 pr (fun w a b => opRol w a ((w - b % w) % w))

/-- CLZ: Count leading zero bits (R127). -/
def execClz (w : BitVec 1) (t0 : BitVec 9) (t1 : BitVec 9) (pr : BitVec 2) (s : State) : Out :=
  intUn s w t0 t1 pr opClz

/-- CTZ: Count trailing zero bits (R127). -/
def execCtz (w : BitVec 1) (t0 : BitVec 9) (t1 : BitVec 9) (pr : BitVec 2) (s : State) : Out :=
  intUn s w t0 t1 pr opCtz

/-- POPC: Count one bits (R127). -/
def execPopc (w : BitVec 1) (t0 : BitVec 9) (t1 : BitVec 9) (pr : BitVec 2) (s : State) : Out :=
  intUn s w t0 t1 pr opPopc

/-- BREV: Reverse the bit order (R127). -/
def execBrev (w : BitVec 1) (t0 : BitVec 9) (t1 : BitVec 9) (pr : BitVec 2) (s : State) : Out :=
  intUn s w t0 t1 pr opBrev

/-- BSWP: Reverse the byte order (R127). -/
def execBswp (w : BitVec 1) (t0 : BitVec 9) (t1 : BitVec 9) (pr : BitVec 2) (s : State) : Out :=
  intUn s w t0 t1 pr opBswp

/-- NEG: Integer negation modulo 2^W (R127). -/
def execNeg (w : BitVec 1) (t0 : BitVec 9) (t1 : BitVec 9) (pr : BitVec 2) (s : State) : Out :=
  intUn s w t0 t1 pr (fun w a => opSub w 0 a)

/-- ABS: Integer absolute value (R127). -/
def execAbs (w : BitVec 1) (t0 : BitVec 9) (t1 : BitVec 9) (pr : BitVec 2) (s : State) : Out :=
  intUn s w t0 t1 pr opAbs

/-- NOT: Invert every bit (R127). -/
def execNot (w : BitVec 1) (t0 : BitVec 9) (t1 : BitVec 9) (pr : BitVec 2) (s : State) : Out :=
  intUn s w t0 t1 pr opNot

/-- SEXTB: Sign-extend from bit 7 (R127). -/
def execSextb (w : BitVec 1) (t0 : BitVec 9) (t1 : BitVec 9) (pr : BitVec 2) (s : State) : Out :=
  intUn s w t0 t1 pr (fun w a => opSext w 8 a)

/-- SEXTH: Sign-extend from bit 15 (R127). -/
def execSexth (w : BitVec 1) (t0 : BitVec 9) (t1 : BitVec 9) (pr : BitVec 2) (s : State) : Out :=
  intUn s w t0 t1 pr (fun w a => opSext w 16 a)

/-- SEXTW: Sign-extend from bit 31 (64-bit form only) (R127). -/
def execSextw (t0 : BitVec 9) (t1 : BitVec 9) (pr : BitVec 2) (s : State) : Out :=
  intUn s 1 t0 t1 pr (fun w a => opSext w 32 a)

/-- ZEXTB: Zero-extend from bit 7 (R127). -/
def execZextb (w : BitVec 1) (t0 : BitVec 9) (t1 : BitVec 9) (pr : BitVec 2) (s : State) : Out :=
  intUn s w t0 t1 pr (fun _ a => a % 2 ^ 8)

/-- ZEXTH: Zero-extend from bit 15 (R127). -/
def execZexth (w : BitVec 1) (t0 : BitVec 9) (t1 : BitVec 9) (pr : BitVec 2) (s : State) : Out :=
  intUn s w t0 t1 pr (fun _ a => a % 2 ^ 16)

/-- ZEXTW: Zero-extend from bit 31 (64-bit form only) (R127). -/
def execZextw (t0 : BitVec 9) (t1 : BitVec 9) (pr : BitVec 2) (s : State) : Out :=
  intUn s 1 t0 t1 pr (fun _ a => a % 2 ^ 32)

/-- BFX: Extract an unsigned bit field (R128). -/
def execBfx (w : BitVec 1) (t0 : BitVec 9) (t1 : BitVec 9) (pr : BitVec 2) (s : State) : Out :=
  .next (s.fireScalar pr 2 false t0 t1 fun _ _ l r => intTok w (opBfx (widthOf w) (intA w l) r))

/-- BFXS: Extract a sign-extended bit field (R128). -/
def execBfxs (w : BitVec 1) (t0 : BitVec 9) (t1 : BitVec 9) (pr : BitVec 2) (s : State) : Out :=
  .next (s.fireScalar pr 2 false t0 t1 fun _ _ l r => intTok w (opBfxs (widthOf w) (intA w l) r))

/-- BFI: Insert a bit field from a PAIR of base and value (R128). -/
def execBfi (w : BitVec 1) (t0 : BitVec 9) (t1 : BitVec 9) (pr : BitVec 2) (s : State) : Out :=
  .next (s.fireScalar pr 2 false t0 t1 fun _ _ l r => intTok w (opBfi (widthOf w) l r))

/-- LEA: a + (b << scale) modulo 2^W (R126). -/
def execLea (w : BitVec 1) (c : BitVec 2) (t0 : BitVec 9) (t1 : BitVec 9) (pr : BitVec 2) (s : State) : Out :=
  intBin s w t0 t1 pr (fun w a b => (a + b * 2 ^ c.toNat) % 2 ^ w)

/-- ADDI: Add a sign-extended 9-bit immediate (R129). -/
def execAddi (w : BitVec 1) (t0 : BitVec 9) (i : BitVec 9) (pr : BitVec 2) (s : State) : Out :=
  intImm s w t0 i pr opAdd

/-- MULI: Multiply by a sign-extended immediate (R129). -/
def execMuli (w : BitVec 1) (t0 : BitVec 9) (i : BitVec 9) (pr : BitVec 2) (s : State) : Out :=
  intImm s w t0 i pr opMul

/-- ANDI: Bitwise and with a sign-extended immediate (R129). -/
def execAndi (w : BitVec 1) (t0 : BitVec 9) (i : BitVec 9) (pr : BitVec 2) (s : State) : Out :=
  intImm s w t0 i pr (fun _ a b => a &&& b)

/-- ORI: Bitwise or with a sign-extended immediate (R129). -/
def execOri (w : BitVec 1) (t0 : BitVec 9) (i : BitVec 9) (pr : BitVec 2) (s : State) : Out :=
  intImm s w t0 i pr (fun _ a b => a ||| b)

/-- XORI: Bitwise exclusive or with a sign-extended immediate (R129). -/
def execXori (w : BitVec 1) (t0 : BitVec 9) (i : BitVec 9) (pr : BitVec 2) (s : State) : Out :=
  intImm s w t0 i pr (fun _ a b => a ^^^ b)

/-- SHLI: Shift left by an immediate amount (R129). -/
def execShli (w : BitVec 1) (t0 : BitVec 9) (i : BitVec 9) (pr : BitVec 2) (s : State) : Out :=
  intSh s w t0 i pr opShl

/-- SHRI: Logical shift right by an immediate amount (R129). -/
def execShri (w : BitVec 1) (t0 : BitVec 9) (i : BitVec 9) (pr : BitVec 2) (s : State) : Out :=
  intSh s w t0 i pr (fun _ a n => opShr a n)

/-- SHRAI: Arithmetic shift right by an immediate amount (R129). -/
def execShrai (w : BitVec 1) (t0 : BitVec 9) (i : BitVec 9) (pr : BitVec 2) (s : State) : Out :=
  intSh s w t0 i pr opShra

/-- ROTI: Rotate left by an immediate amount (R129). -/
def execRoti (w : BitVec 1) (t0 : BitVec 9) (i : BitVec 9) (pr : BitVec 2) (s : State) : Out :=
  intSh s w t0 i pr opRol

/-- TCMP: Compare two tokens under a condition and send 1 or 0 (R130). -/
def execTcmp (w : BitVec 1) (c : BitVec 4) (t0 : BitVec 9) (t1 : BitVec 9) (pr : BitVec 2) (s : State) : Out :=
  .next (s.fireScalar pr 2 false t0 t1 fun _ _ l r =>
    tokOf (boolDbl (tcmpHolds (widthOf w) c.toNat (intA w l) (intA w r))))

/-- TCMPI: Compare a token with an immediate under a condition and send 1 or 0 (R130). -/
def execTcmpi (w : BitVec 1) (c : BitVec 4) (t0 : BitVec 9) (i : BitVec 9) (pr : BitVec 2) (s : State) : Out :=
  .next (s.fireScalar pr 1 false t0 noTarget fun _ _ l _ =>
    tokOf (boolDbl (tcmpHolds (widthOf w) c.toNat (intA w l) ((simm i).toNat % 2 ^ widthOf w))))

end Sys2Proof.Machine
end

