-- ==== Sys2Proof/Machine/Migrate.lean ====
section
/-! DEFINITION. Live migration (R422-R432): sessions, the commands of MGCMD, rounds over the dirty bitmap (R340, R426), the final stop (R427), the target (R428-R430), aborts and link failures (R431). -/
namespace Sys2Proof.Machine

/-! Sessions (R422) -/

def Dev.mig (d : Dev) (n : Nat) : Mig := (mget none d.migs n).getD Mig.reset
def Dev.setMig (d : Dev) (n : Nat) (m : Mig) : Dev := { d with migs := mset none d.migs n (some m) }
def State.setMig (s : State) (n : Nat) (m : Mig) : State := { s with dev := s.dev.setMig n m }

/-- Write a field of a session's descriptor in device memory. -/
def State.note (s : State) (slot off n v : Nat) : State :=
  s.putDev ((s.dev.mig slot).desc + off) (natLe n v)

/-- Read a field of a session's descriptor. -/
def State.noted (s : State) (slot off n : Nat) : Nat := leNat (bytesAt s.mem ((s.dev.mig slot).desc + off) n)

/-- Count 1 in a 4-byte field. -/
def State.bump (s : State) (slot off n : Nat) : State := s.note slot off n (s.noted slot off n + 1)

/-- Set the session's STATE. -/
def State.mgState (s : State) (slot v : Nat) : State := (s.setMig slot { s.dev.mig slot with state := v }).note slot 48 1 v

def State.mgResult (s : State) (slot v : Nat) : State := s.note slot 49 1 v

/-- The status of a command (R423). -/
def State.mgDone (s : State) (status : Nat) : State := { s with dev := { s.dev with mgstat := BitVec.ofNat 9 status } }

/-- A write of MGCMD with GO (R423): one issued while BUSY is set is refused with status 1. -/
def State.mgCommand (s : State) (op slot : Nat) (run : State → State) : State :=
  let s1 : State := { s with dev := { s.dev with regs := mset 0 s.dev.regs 0x60 (BitVec.ofNat 64 (op + 16 * (slot % 8))) } }
  if s.dev.mgstat.getLsbD 8 then { s1 with dev := { s1.dev with mgstat := 0x101 } }
  else if 8 ≤ slot then s1.mgDone 9
  else run s1

/-- The dirty-bitmap session of a context (R338): the descriptor's address, the bitmap's, the number of the first tracked page, the pages. -/
structure Track where
  desc : Nat
  bitmap : Nat
  first : Nat
  pages : Nat
  deriving DecidableEq, Repr

def State.track (s : State) (ctx dsess : Nat) : Track :=
  let b := descDbl (s.descriptor ctx) 24 + 64 * dsess
  { desc := b, bitmap := s.phys64 b, first := s.phys64 (b + 8) / 4096, pages := s.phys64 (b + 16) % 2 ^ 32 }

def Track.dbls (t : Track) : Nat := (t.pages + 63) / 64

def Track.va (t : Track) (p : Nat) : Dbl := BitVec.ofNat 64 (4096 * (t.first + p))

/-- A session as its descriptor in reserved memory describes it (R422); MAXROUNDS 0 is read as 1. -/
def State.readMig (s : State) (desc : Nat) (source : Bool) : Mig :=
  let f (off n : Nat) : Nat := leNat (bytesAt s.mem (desc + off) n)
  { Mig.reset with used := true, source := source, desc := desc, ctx := f 4 2 % 4096, dsess := f 6 1 % 4, key := f 7 1 % 16, sid := f 0 4, peer := f 8 8, port := f 16 1 % 8,
                   maxrounds := Nat.max 1 (f 18 2), stoppages := f 20 4, deadline := BitVec.ofNat 64 (f 24 8), drainlim := f 32 2 }

/-- Open the slot: the engine's bytes of the descriptor start at zero, STATE at 1. -/
def State.openMig (s : State) (slot : Nat) (m : Mig) : State :=
  let s1 := s.setMig slot { m with state := 1 }
  (s1.putDev (m.desc + 48) (1 :: List.replicate 47 0)).mgDone 0

/-! Messages (R424, R425) -/

/-- The key agreed last under a handle for a direction, from the source or to it; a session opens only with a handle that has one (R423, R425). -/
def Dev.keyOf (d : Dev) (handle : Nat) (fromSource : Bool) : BitVec 256 :=
  Config.sessionKey (((d.keyHandles.find? (fun k => k.1 == handle)).map Prod.snd).getD 0) fromSource

/-- An agreed key stands under the handle. -/
def Dev.holdsKey (d : Dev) (handle : Nat) : Bool := d.keyHandles.any (fun k => k.1 == handle)

/-- The 32-byte header of a message (R424). -/
def mgHeader (sid typ seq round len arg : Nat) : List Byte :=
  natLe 4 sid ++ natLe 1 typ ++ natLe 3 0 ++ natLe 8 seq ++ natLe 4 round ++ natLe 4 len ++ natLe 8 arg

/-- The IV of a message (R425): SID, then SEQ. -/
def mgIv (sid seq : Nat) : List Byte := natLe 4 sid ++ natLe 8 seq

/-- The RUD send work entry of a message, which the engine posts to a ring of its own (R419, R424; log 46): header in the clear, payload encrypted, tag. -/
def Dev.mgWire (d : Dev) (m : Mig) (slot typ seq round arg : Nat) (payload : List Byte) : NetMsg :=
  let h := mgHeader m.sid typ seq round payload.length arg
  let data := h ++ Config.sealed (d.keyOf m.key m.source) (mgIv m.sid seq) h payload
  { op := 1, service := 0, port := m.port, ring := 128 + slot, peer := m.peer, remote := 0, key := 0, len := data.length, data := data }

/-- The session ends: STATE 6 with a RESULT. -/
def State.endMig (s : State) (slot result : Nat) : State := (s.mgState slot 6).mgResult slot result

/-- Post a message with the next sequence number; `none` when SEQ would reach 2^64 (R425). -/
def State.mgSend (s : State) (slot typ round arg : Nat) (data : List Byte) : Option State :=
  let m := s.dev.mig slot
  let k := m.seq + 1
  if 2 ^ 64 ≤ k then none
  else
    let s1 := s.setMig slot { m with seq := k }
    let s2 : State := { s1 with dev := { s1.dev with posts := s1.dev.posts ++ [s1.dev.mgWire m slot typ k round arg data] } }
    some (if m.source then s2.note slot 56 8 k else s2)

/-! Stopping the context and letting it go on (R427, R431) -/

/-- Graphs of a context. -/
def Dev.graphsOf (d : Dev) (ctx : Nat) : List Graph := d.graphs.filter (fun g => g.launch.ctx == ctx)

/-- The image that a saved graph stands in. -/
def Dev.imageFor (d : Dev) (g : Graph) : Option Image := if g.image = 0 then none else d.images.find? (fun i => i.addr == g.image)

/-- Step 1: the placement unit takes and places no launch of the context, its launch pages close, bits of pages that an interrupted round 0 has not reached are set, and the round ends (log 46). -/
def State.beginStop (s : State) (slot : Nat) : State :=
  let m := s.dev.mig slot
  let offs := (upTo 64).filter (fun n => (s.dev.page n).en && (s.dev.page n).ctx.toNat == m.ctx)
  let d := offs.foldl (fun d n => d.setPage n { d.page n with en := false }) s.dev
  let s1 : State := { s with dev := { d with stopctx := d.stopctx ++ [m.ctx] } }
  let t := s.track m.ctx m.dsess
  let rest := (upTo t.pages).filter (fun p => m.round == 0 && decide (64 * m.pos ≤ p))
  let s2 : State := rest.foldl (fun (s : State) p =>
    s.putDev (t.bitmap + p / 8) [byteAt s.mem (t.bitmap + p / 8) ||| BitVec.ofNat 8 (2 ^ (p % 8))]) s1
  (s2.setMig slot { m with pagesOff := offs }).mgState slot 2

/-- Restore one saved graph of the context where it stood (OP 5); else elsewhere, else it waits for a placement decision, as one that was queued goes on doing. -/
def State.backInPlace (s : State) (g : Graph) : State :=
  match (s.dev.imageFor g).bind s.formAt with
  | none => s
  | some i =>
    if s.dev.standing i then s
    else
      let spot := if s.dev.canPlace i g.clu g.row g.col then some (g.clu, g.row, g.col) else if g.state = 1 then none else s.dev.chooseOpen i
      -- a Sepia image of another TILEREV, DMAPVER or scan map cannot be restored (R87, R394): it stays as it is
      if !i.ivory && (s.dev.imageBad i).isSome then s
      else
        match spot with
        | some p => if i.ivory then s.restoreIvory i p else s.restoreImage i p
        | none => { s with dev := s.dev.setGraph { g with state := 1 } }

/-- The context runs on at the source: its drain ends, its images are restored, launches are placed again, its pages open. -/
def State.runOn (s : State) (slot : Nat) : State :=
  let m := s.dev.mig slot
  let s1 := match m.draining, s.dev.drain with
    | some g, some x => if x.graph = g then s.freeDrain x 3 none else s
    | _, _ => s
  let s2 := (s1.dev.graphsOf m.ctx).foldl (fun s g => s.backInPlace g) s1
  let d := m.pagesOff.foldl (fun d n => if (d.page n).ctx.toNat = m.ctx then d.setPage n { d.page n with en := true } else d) s2.dev
  ({ s2 with dev := { d with stopctx := d.stopctx.erase m.ctx } } : State).setMig slot { m with pagesOff := [], draining := none }

/-- The target discards its pages and records (R431): the records' frames return to the save pool. -/
def State.discardMig (s : State) (slot : Nat) : State :=
  let m := s.dev.mig slot
  let s1 := m.recs.foldl (fun (s : State) r =>
    let s1 := s.giveSave r.addr
    { s1 with dev := { s1.dev with images := s1.dev.images.filter (fun x => x.addr.toNat != r.addr) } }) s
  s1.setMig slot { m with recs := [], vers := [], got := [], counts := [], final := none, stopped := none }

/-- End a session before GO (R431): at the source the context goes on, at the target pages and records go; `tell` sends ABORT with the status. -/
def State.abortMig (s : State) (slot result : Nat) (tell : Bool) : State :=
  let m := s.dev.mig slot
  let s1 := if tell then (s.mgSend slot 7 0 0 [BitVec.ofNat 8 result]).getD s else s
  let s2 := if m.source then (if m.state = 1 then s1 else s1.runOn slot) else s1.discardMig slot
  s2.endMig slot result

/-- Send, or abort with status 10 when the sequence numbers are exhausted (R425). -/
def State.mgSendOr (s : State) (slot typ round arg : Nat) (data : List Byte) : State :=
  match s.mgSend slot typ round arg data with
  | some s1 => s1
  | none => s.abortMig slot 10 false

/-! Rounds (R340, R426) -/

/-- Step 1 of a harvest for one core: its lookaside entries of the pages go, its dirty nibbles of them are written back at once. -/
def State.disarmCore (s : State) (ctx lo n hn : Nat) : State :=
  let h := s.hart hn
  let page (p : Nat) : Bool := decide (lo ≤ p) && decide (p < lo + n)
  let hit (l : Line) : Bool := l.ctx == ctx && l.zone == 0 && l.dirty != 0 && page (l.line / 64)
  let s1 := s.setHart hn { h with l1d := h.l1d.map (fun l => if hit l then { l with dirty := 0 } else l),
                                  look := h.look.filter (fun t => !(t.ctx == ctx && t.zone == 0 && page t.page)) }
  (h.l1d.filter hit).foldl (fun s l => s.flushLine ctx hn false l) s1

/-- Harvest double `k` of the bitmap (R340): its value as read, and cleared. -/
def State.harvest (s : State) (ctx : Nat) (t : Track) (k : Nat) : State × Nat :=
  let lo := t.first + 64 * k
  let s1 := s.dev.allHarts.foldl (fun s p => s.disarmCore ctx lo 64 p.1) s
  let s2 : State := { s1 with dev := { s1.dev with armed := s1.dev.armed.filter (fun p => !(p.1 == ctx && decide (lo ≤ p.2) && decide (p.2 < lo + 64))) } }
  (s2.setPhys64 (t.bitmap + 8 * k) 0, s2.phys64 (t.bitmap + 8 * k))

/-- Send one page, read through the homes; a page that cannot be read is reported and not sent (log 46). -/
def State.sendPage (s : State) (slot : Nat) (t : Track) (p : Nat) : State :=
  let m := s.dev.mig slot
  match s.readHomeAll m.ctx 0 0 (t.va p) 4096 with
  | (s1, .bytes bs) =>
    match s1.mgSend slot 1 m.round p bs with
    | some s2 => (s2.bump slot 64 8).setMig slot { s2.dev.mig slot with count := m.count + 1 }
    | none => s1.abortMig slot 10 false
  | (s1, .fault c pa) => s1.extFault 8 0 m.ctx c pa 64 (t.va p)
  | (_, .wait) => s

/-- The engine comes to the next double of the round: round 0 sends every page, a later round those that the harvest found. -/
def State.roundStep (s : State) (slot : Nat) : State :=
  let m := s.dev.mig slot
  let t := s.track m.ctx m.dsess
  let r := if m.round = 0 then (s, 2 ^ 64 - 1) else s.harvest m.ctx t m.pos
  let ps := (upTo 64).filter (fun i => bitOf r.2 i && decide (64 * m.pos + i < t.pages))
  ps.foldl (fun s i => if (s.dev.mig slot).state = m.state then s.sendPage slot t (64 * m.pos + i) else s)
    (r.1.setMig slot { r.1.dev.mig slot with pos := m.pos + 1 })

/-- The round has come to its end: ROUNDEND counts its pages. -/
def State.endRound (s : State) (slot : Nat) : State :=
  let m := s.dev.mig slot
  let s1 := s.mgSendOr slot 2 m.round 0 (natLe 8 m.count)
  s1.note slot 72 4 m.count

/-- The next round begins. -/
def State.nextRound (s : State) (slot : Nat) : State :=
  let m := s.dev.mig slot
  (s.setMig slot { m with round := m.round + 1, pos := 0, count := 0 }).note slot 52 4 (m.round + 1)

/-- Pre-copy ends at once (R426): a round under way is closed, and the next is the final one. -/
def State.stopNow (s : State) (slot : Nat) : State :=
  let m := s.dev.mig slot
  let s1 := s.beginStop slot
  if m.pos = 0 ∧ m.count = 0 ∧ 0 < m.round then s1
  else
    let s2 := s1.endRound slot
    if (s2.dev.mig slot).state = 2 then s2.nextRound slot else s2

/-- MG_ROUND: The engine harvests bitmaps and sends a round's dirty pages and ROUNDEND (R426), one double of the bitmap at a time; the round that sends at most STOPPAGES, or round MAXROUNDS - 1, ends pre-copy. -/
def execMgRound (slot : Nat) (s : State) : Out :=
  let m := s.dev.mig slot
  .next (if !m.used || !m.source || m.state != 1 then s
    else if m.pos < (s.track m.ctx m.dsess).dbls then s.roundStep slot
    else
      let s1 := s.endRound slot
      if (s1.dev.mig slot).state ≠ 1 then s1
      else if m.count ≤ m.stoppages ∨ m.maxrounds ≤ m.round + 1 then (s1.nextRound slot).beginStop slot
      else s1.nextRound slot)

/-- MG_DEADLINE: TIMEBASE reaches DEADLINE and the final stop begins (R426). -/
def execMgDeadline (slot : Nat) (s : State) : Out :=
  let m := s.dev.mig slot
  .next (if !m.used || !m.source || m.state != 1 || m.deadline == 0 then s
    else
      let now := if s.dev.timebase.toNat < m.deadline.toNat then m.deadline else s.dev.timebase
      ({ s with dev := { s.dev with timebase := now } } : State).stopNow slot)

/-! Commands (R423) -/

/-- A session whose link has failed goes on over the link that its descriptor now names (R431): RESULT 0, what it holds kept, its sequence numbers going on. -/
def State.reopenMig (s : State) (slot : Nat) (m : Mig) : State :=
  (s.setMig slot { s.dev.mig slot with failed := false, peer := m.peer, port := m.port, key := m.key }).mgResult slot 0

/-- MG_OPEN_SOURCE: MGCMD OP 1 opens a source session and starts round 0 (R426): the slot is free and DSESS not enabled (3), the context live (2), the key handle good (4); the bitmap is cleared, the dirty session enabled, and size code 6 invalidated. On a slot whose link has failed after GO it opens the session again, and GO is sent again (R431, log 46). -/
def execMgOpenSource (slot : Nat) (s : State) : Out :=
  .next (s.mgCommand 1 slot fun s =>
    let m := s.readMig s.dev.mgarg.toNat true
    let t := s.track m.ctx m.dsess
    let ctl := byteAt s.mem (t.desc + 20)
    let o := s.dev.mig slot
    if o.used && o.source && o.gone && o.failed then ((s.reopenMig slot m).mgSendOr slot 6 0 0 []).mgDone 0
    else if o.used then s.mgDone 3
    else if !s.ctxLive m.ctx then s.mgDone 2
    else if bitOf ctl.toNat 0 then s.mgDone 3
    else if !s.dev.holdsKey m.key then s.mgDone 4
    else
      let s1 := (s.putDev t.bitmap (List.replicate (8 * t.dbls) 0)).putDev (t.desc + 20) [(ctl ||| 1) &&& 3]
      ({ s1 with dev := s1.dev.invalidate { req := 0, ctx := m.ctx, zone := 0, size := 6, va := 0 } } : State).openMig slot m)

/-- Every page of the tracked range has a leaf in the context's zone 0x00 tables. -/
def State.rangeMapped (s : State) (ctx : Nat) (t : Track) : Bool :=
  (upTo t.pages).all (fun p =>
    match s.walk ctx 0 (t.va p).toNat with
    | .leaf _ _ _ _ => true
    | .none _ => false)

/-- MG_OPEN_TARGET: MGCMD OP 2 opens a target session (R428): the context is live and its zone 0x00 tables map the tracked range (2). On a slot whose link has failed before GO came it opens the session again (R431). -/
def execMgOpenTarget (slot : Nat) (s : State) : Out :=
  .next (s.mgCommand 2 slot fun s =>
    let m := s.readMig s.dev.mgarg.toNat false
    let o := s.dev.mig slot
    if o.used && !o.source && !o.gone && o.failed then (s.reopenMig slot m).mgDone 0
    else if o.used then s.mgDone 3
    else if !s.ctxLive m.ctx || !s.rangeMapped m.ctx (s.track m.ctx m.dsess) then s.mgDone 2
    else if !s.dev.holdsKey m.key then s.mgDone 4
    else s.openMig slot m)

/-- MG_ABORT: MGCMD OP 4 aborts a session (R431): at the source before GO, later it is refused with status 9; at the target at any time before it is closed: it discards its pages and records, and what GO has placed of the context ends, so that the context runs nowhere (log 46). Without a session the status is 9. -/
def execMgAbort (slot : Nat) (s : State) : Out :=
  .next (s.mgCommand 4 slot fun s =>
    let m := s.dev.mig slot
    if !m.used || decide (6 ≤ m.state) || (m.source && (m.gone || decide (5 ≤ m.state))) then s.mgDone 9
    else if m.gone then (((s.endContext m.ctx).discardMig slot).endMig slot 0).mgDone 0
    else (s.abortMig slot 0 true).mgDone 0)

/-- MG_CLOSE: MGCMD OP 5 closes a session slot (R423): STATE 7; a session that has neither been committed nor aborted is refused with status 9 (log 46). The source of a committed one takes no launch of the context from then on (R427). -/
def execMgClose (slot : Nat) (s : State) : Out :=
  .next (s.mgCommand 5 slot fun s =>
    let m := s.dev.mig slot
    if !m.used || decide (m.state < 5) then s.mgDone 9
    else
      let s1 := s.mgState slot 7
      ({ s1 with dev := { s1.dev with migs := mset none s1.dev.migs slot none, stopctx := if m.source && !m.gone then s1.dev.stopctx.filter (fun c => c != m.ctx) else s1.dev.stopctx } } : State).mgDone 0)

/-- MG_KEY_EXCHANGE: The Indigo cores agree a session secret and derive keys (R425): both directions' keys stand under the handle, those of a former exchange no longer. Which keys they are is not known here. -/
def execMgKeyExchange (_slot handle : Nat) (s : State) : Out :=
  let k := handle % 16
  .next ({ s with dev := { s.dev with keyHandles := s.dev.keyHandles.filter (fun x => x.1 != k) ++ [(k, s.dev.fresh)] } } : State).freshened

/-! The final stop (R427) -/

/-- A drain or a save of the stop has failed: every image is restored, RESULT 7 with the pre-emption status, step 1 is undone. -/
def State.stopFailed (s : State) (slot status : Nat) : State :=
  (((s.runOn slot).endMig slot 7).note slot 50 1 status)

/-- A preloaded shadow copy of a graph goes; its image stands and takes back what the copy has still to drain (R427). -/
def State.dropPreload (s : State) (g : Graph) : State :=
  if s.dev.shadowOut.any (fun x => x.2.1 == g.id) then s else s.clearPreload (s.dev.shadowPlaces g.id)

/-- Step 3 for one graph: a Sepia image if it is resident or in a shadow bank, then an Ivory record. Each call does what can be done now. -/
def State.stopGraph (s : State) (slot : Nat) (g : Graph) : State :=
  let m := s.dev.mig slot
  if g.state = 0 then
    (if g.places.any (fun p => s.dev.swaps.contains p) then s
     else
      match s.clockStop g with
      | some (s1, _) => s1
      | none => s.stopFailed slot 12)
  else
    match s.dev.imageFor g with
    | none => s
    | some i =>
      let s1 := s.dropPreload g
      if s1.dev.pestat.getLsbD 8 || s1.dev.drain.isSome then s
      else
        match s1.dev.imageBad i, s1.dev.chooseOpen i with
        | some st, _ => s1.stopFailed slot st
        | none, none => s1.stopFailed slot 10
        | none, some p =>
          match s1.startDrain i p m.drainlim with
          | some s2 => s2.setMig slot { s2.dev.mig slot with draining := some g.id }
          | none => s1.stopFailed slot 12

/-- A graph has been brought to an Ivory record. -/
def Dev.recorded (d : Dev) (g : Graph) : Bool :=
  match d.imageFor g with
  | some i => i.ivory && g.state != 0 && g.state != 5
  | none => false

/-- An entry of FINAL as bytes (R424). -/
def finalBytes (e : FinalEntry) : List Byte :=
  natLe 8 e.record.toNat ++ natLe 1 e.kind ++ natLe 1 e.prio ++ natLe 2 e.index ++ natLe 4 0

/-- The launches of the context (R424): the held ones in their order, then the graphs in the order of their records. -/
def Dev.finalEntries (d : Dev) (ctx : Nat) : List FinalEntry :=
  ((d.held.filter (fun h => h.ctx == ctx)).map (fun h => { record := h.record, kind := 0, prio := h.prio, index := 0 : FinalEntry })) ++
  (List.zip (upTo (d.graphsOf ctx).length) (d.graphsOf ctx)).map (fun x => { record := x.2.launch.record, kind := 1, prio := x.2.prio, index := x.1 : FinalEntry })

/-- One record as IVORY messages of up to 64 KiB (R424). -/
def State.sendRecord (s : State) (slot index addr : Nat) : State :=
  let total := leNat (s.savedBytes addr 24 8)
  let live (s : State) : Bool := (s.dev.mig slot).state == 2
  let s1 := (upTo ((total + 65535) / 65536)).foldl (fun (s : State) j =>
    if live s then s.mgSendOr slot 3 0 (index * 2 ^ 40 + 65536 * j) (s.savedBytes addr (65536 * j) (Nat.min 65536 (total - 65536 * j))) else s) s
  if live s1 then s1.note slot 84 4 (index + 1) else s1

/-- Step 5: the records as IVORY messages, then FINAL; STATE becomes 3. -/
def State.sendFinal (s : State) (slot : Nat) : State :=
  let m := s.dev.mig slot
  let gs := s.dev.graphsOf m.ctx
  let es := s.dev.finalEntries m.ctx
  let live (s : State) : Bool := (s.dev.mig slot).state == 2
  let s1 := (List.zip (upTo gs.length) gs).foldl (fun s x =>
    if live s then s.sendRecord slot x.1 x.2.image.toNat else s) s
  let s2 := if live s1 then s1.mgSendOr slot 4 0 0 (natLe 8 gs.length ++ es.flatMap finalBytes) else s1
  if live s2 then s2.mgState slot 3 else s2

/-- The stop goes on by one step: work entries in progress, drains, the final harvest, the records. -/
def State.stopStep (s : State) (slot : Nat) : State :=
  let m := s.dev.mig slot
  if s.dev.rings.any (fun r => match r.2 with | some x => x.en && x.ctx == m.ctx && x.entry.isSome | none => false) then s
  else
    match m.draining with
    | some gid =>
      match s.dev.graph gid with
      | none => s.setMig slot { m with draining := none }
      | some g =>
        if (s.dev.drain.map Drain.graph) = some gid then s
        else if s.dev.recorded g then s.setMig slot { m with draining := none }
        else (s.setMig slot { m with draining := none }).stopFailed slot (s.dev.pestat.toNat % 256)
    | none =>
      match (s.dev.graphsOf m.ctx).find? (fun g => !s.dev.recorded g) with
      | some g => s.stopGraph slot g
      | none =>
        if m.pos < (s.track m.ctx m.dsess).dbls then s.roundStep slot
        else
          let s1 := s.endRound slot
          if (s1.dev.mig slot).state = 2 then s1.sendFinal slot else s1

/-- MG_FINAL_STOP: MGCMD OP 3 or the end of pre-copy stops, drains and sends the context (R427). As a command it begins the stop of a session in pre-copy, with the status of an abort that this has brought, and is refused with status 9 in any other state; else the stop of a session in STATE 2 goes on by one step. -/
def execMgFinalStop (slotCmd : Nat × Bool) (s : State) : Out :=
  let slot := slotCmd.1
  .next (if slotCmd.2 then
      s.mgCommand 3 slot fun s =>
        let m := s.dev.mig slot
        if m.used && m.source && m.state == 1 then
          let s1 := s.stopNow slot
          s1.mgDone (if (s1.dev.mig slot).state = 6 then s1.noted slot 49 1 else 0)
        else s.mgDone 9
    else
      let m := s.dev.mig slot
      if m.used && m.source && m.state == 2 then s.stopStep slot else s)

/-! Receiving (R425, R428-R430) -/

/-- A message arrives (R425): one that fails its tag is dropped, counted and aborts the session with status 5, after GO at the target alone, which discards what GO has placed (R431, log 46); one whose SEQ has been accepted is dropped and counted; else SEQ is accepted and `run` acts. -/
def State.receive (s : State) (slot seq : Nat) (source auth : Bool) (run : State → State) : State :=
  let m := s.dev.mig slot
  if !m.used || m.source != source || decide (6 ≤ m.state) || m.stopped.isSome then s
  else if !auth then
    let s1 := s.bump slot 80 4
    if !m.gone then s1.abortMig slot 5 true else if source then s1 else ((s1.endContext m.ctx).discardMig slot).endMig slot 5
  else if m.seen.contains seq then s.bump slot 80 4
  else
    let s1 := s.setMig slot { m with seen := m.seen ++ [seq] }
    run (if source then s1 else s1.note slot 56 8 (Nat.max (s.noted slot 56 8) seq))

/-- Every byte of a record has come: its parts, the header's among them, make up TOTLEN (R399, R430). -/
def State.recComplete (s : State) (r : MgRec) : Bool :=
  r.got.any (fun p => p.1 == 0 && decide (32 ≤ p.2)) && (r.got.map Prod.snd).foldl (· + ·) 0 == leNat (s.savedBytes r.addr 24 8)

/-- The target holds every record of FINAL, complete, as many pages of each round as its ROUNDEND counts, and every message before FINAL (R430). -/
def State.complete (s : State) (m : Mig) : Bool :=
  match m.final with
  | none => false
  | some f =>
    (upTo f.records).all (fun i => m.recs.any (fun r => r.index == i && s.recComplete r)) &&
    m.counts.all (fun c => mget 0 m.got c.1 == c.2) &&
    (upTo f.seq).all (fun q => q == 0 || m.seen.contains q) && m.stopped.isNone

/-- READY is sent once, when all is held (R430). -/
def State.tryReady (s : State) (slot : Nat) : State :=
  let m := s.dev.mig slot
  if m.used && !m.source && m.state == 1 && s.complete m then
    match s.mgSend slot 5 0 0 [] with
    | some s1 => s1.mgState slot 4
    | none => s.abortMig slot 10 false
  else s

/-- A page of a round has been applied or dropped. -/
def State.gotPage (s : State) (slot round : Nat) : State :=
  let m := s.dev.mig slot
  s.setMig slot { m with got := mset 0 m.got round (mget 0 m.got round + 1) }

/-- A PAGE that is to be written: it is newer than what has been applied, and its frame is not executable (R428, R429). -/
def State.writesPage (s : State) (slot page round : Nat) : Bool :=
  let m := s.dev.mig slot
  decide (mget 0 m.vers page < round + 1) &&
  (match s.walk m.ctx 0 ((s.track m.ctx m.dsess).va page).toNat with
   | .leaf pa _ _ _ => !s.dev.frameExec pa
   | .none _ => true)

/-- The write of a page, as an agent of kind 8. -/
def State.writePage (s : State) (slot page : Nat) (data : List Byte) : State × Access :=
  let m := s.dev.mig slot
  s.extRange 8 0 m.ctx ((s.track m.ctx m.dsess).va page) true (data.take 4096)

/-- Apply a PAGE (R428, R429): dropped at or below the applied round, counted in SKIPX when the frame is executable, else written; a fault stops the application. -/
def State.applyPage (s : State) (slot page round : Nat) (data : List Byte) : State :=
  let m := s.dev.mig slot
  if round + 1 ≤ mget 0 m.vers page then s.gotPage slot round
  else if !s.writesPage slot page round then (s.bump slot 76 4).gotPage slot round
  else
    match s.writePage slot page data with
    | (s1, .bytes _) =>
      let s2 := (s1.bump slot 64 8).gotPage slot round
      s2.setMig slot { s2.dev.mig slot with vers := mset 0 m.vers page (round + 1) }
    | (s1, .fault _ _) => s1.setMig slot { s1.dev.mig slot with stopped := some (page, round, data) }
    | (_, .wait) => s

/-- The page's write waits for a snoop of its line (R417): it is applied once the snoop is answered. -/
def State.pageWaits (s : State) (slot page round : Nat) (data : List Byte) : Bool :=
  s.writesPage slot page round && (match (s.writePage slot page data).2 with | .wait => true | _ => false)

/-- MG_PAGE_RECEIVE: The target applies or drops a received PAGE by its round (R428). -/
def execMgPageReceive (slot seq page round : Nat) (auth : Bool) (data : List Byte) (s : State) : Out :=
  .next (if auth && (s.dev.mig slot).used && !(s.dev.mig slot).seen.contains seq && s.pageWaits slot page round data then s
    else s.receive slot seq false auth fun s => (s.applyPage slot page round data).tryReady slot)

/-- MG_ROUNDEND_RECEIVE: The target records a round's PAGE count (R430). -/
def execMgRoundendReceive (slot seq round count : Nat) (auth : Bool) (s : State) : Out :=
  .next (s.receive slot seq false auth fun s =>
    let m := s.dev.mig slot
    ((s.setMig slot { m with counts := m.counts ++ [(round, count)] }).note slot 52 4 (Nat.max (s.noted slot 52 4) round)).tryReady slot)

/-- A frame more for the record at `addr`, where the pool has one that is ready (R385, R436). -/
def State.growSave (s : State) (addr : Nat) : Option State :=
  match s.takeSave 1, s.dev.saves.find? (fun x => x.1 == addr) with
  | (s1, some f), some (_, fs) => some { s1 with dev := { s1.dev with saves := s.dev.saves.map (fun x => if x.1 = addr then (addr, fs ++ [f.toNat]) else x) } }
  | _, _ => none

/-- Frames for the first `n` bytes of a record; `none` without room. -/
def State.recordRoom (s : State) (addr n : Nat) : Option State :=
  let have_ := match s.dev.saves.find? (fun x => x.1 == addr) with | some x => x.2.length | none => 0
  (upTo ((n + 2 ^ 21 - 1) / 2 ^ 21 - have_)).foldl (fun o _ => o.bind (fun s => s.growSave addr)) (some s)

/-- The record of an index, its first frame taken if none of its parts has come. -/
def State.recordAt (s : State) (slot index : Nat) : Option (State × MgRec) :=
  match (s.dev.mig slot).recs.find? (fun r => r.index == index) with
  | some r => some (s, r)
  | none =>
    match s.takeSave 1 with
    | (s1, some f) => some (s1, { index := index, addr := f.toNat, got := [] })
    | (_, none) => none

/-- Store part of a record in frames of the save pool (R430); `none` while the pool has no room. -/
def State.storePart (s : State) (slot index offset : Nat) (data : List Byte) : Option State :=
  match s.recordAt slot index with
  | none => none
  | some (s1, r) =>
    (s1.recordRoom r.addr (offset + data.length)).map (fun s2 =>
      let k : MgRec := { r with got := r.got ++ [(offset, data.length)] }
      let m := s2.dev.mig slot
      let s3 := (s2.putSaved r.addr offset data).setMig slot { m with recs := m.recs.filter (fun x => x.index != index) ++ [k] }
      if s3.recComplete k then s3.bump slot 84 4 else s3)

/-- MG_IVORY_RECEIVE: The target stores part of an Ivory record (R430): up to 64 KiB from a byte offset of the record, in frames of its save pool; without room a new message waits. -/
def execMgIvoryReceive (slot seq : Nat) (part : Nat × Nat) (auth : Bool) (data : List Byte) (s : State) : Out :=
  let (index, offset) := part
  let m := s.dev.mig slot
  .next (if auth && m.used && !m.seen.contains seq && (s.storePart slot index offset data).isNone then s
    else s.receive slot seq false auth fun s => ((s.storePart slot index offset data).getD s).tryReady slot)

/-- MG_FINAL_RECEIVE: The target records FINAL and sends READY once complete (R430). -/
def execMgFinalReceive (slot seq records : Nat) (entries : List (Dbl × Nat × Nat × Nat)) (auth : Bool) (s : State) : Out :=
  .next (s.receive slot seq false auth fun s =>
    let es := entries.map (fun e => { record := e.1, kind := e.2.1, prio := e.2.2.1, index := e.2.2.2 : FinalEntry })
    (s.setMig slot { s.dev.mig slot with final := some { seq := seq, records := records, entries := es } }).tryReady slot)

/-- MG_READY_RECEIVE: The source marks launches migrated, commits and sends GO (R430). What its kept records refer to stays counted until they are restored or the context ends (R349). -/
def execMgReadyReceive (slot seq : Nat) (auth : Bool) (s : State) : Out :=
  .next (s.receive slot seq true auth fun s =>
    let m := s.dev.mig slot
    if m.state ≠ 3 then s
    else
      let hs := s.dev.held.filter (fun h => h.ctx == m.ctx)
      let gs := s.dev.graphsOf m.ctx
      let s1 : State := { s with dev := { s.dev with
        held := s.dev.held.filter (fun h => h.ctx != m.ctx),
        reserved := s.dev.reserved.filter (fun r => !(hs.any (fun h => h.order == r.1) || gs.any (fun g => g.launch.order == r.1))) } }
      let s2 := (hs ++ gs.map Graph.launch).foldl (fun s h => s.finishLaunch h 0x06) s1
      let d := s2.dev
      let s3 : State := { s2 with dev := { d with
        kept := d.kept ++ gs.map (fun g => (m.ctx, g.image, g.refs)),
        graphs := d.graphs.filter (fun g => g.launch.ctx != m.ctx),
        resumes := d.resumes.filter (fun x => !gs.any (fun g => g.id == x.2)),
        msgs := d.msgs.filter (fun x => !gs.any (fun g => g.id == x.1)), heldMsgs := d.heldMsgs.filter (fun x => !gs.any (fun g => g.id == x.1)) } }
      match (s3.mgState slot 5).mgSend slot 6 0 0 [] with
      | some s4 => s4.setMig slot { s4.dev.mig slot with gone := true }
      | none => s.abortMig slot 10 false)

/-- The launch of a record of FINAL, read from the target's memory, at its carried priority; of one that cannot be read only the address and the priority are known, and the fault is reported. -/
def State.carriedLaunch (s : State) (ctx : Nat) (e : FinalEntry) : State × Held :=
  let p : Post := { op := 0, record := e.record, src := 4, srcN := 0, ctx := some ctx, via := ctx, prio := e.prio }
  let made (bs : List Byte) : Held := { heldOf p bs s.dev.timebase s.dev.nextOrder with ctx := ctx, prio := e.prio, level := e.prio }
  match s.readHomeAll ctx 0 0 e.record 48 with
  | (s1, .bytes bs) =>
    ({ s1 with dev := { s1.dev with nextOrder := s1.dev.nextOrder + 1 } }, { made bs with stamp := BitVec.ofNat 64 (numAt bs 40 8) })
  | (s1, .fault c _) => ({ (s1.unitFault ctx c 0 e.record) with dev := { (s1.unitFault ctx c 0 e.record).dev with nextOrder := s1.dev.nextOrder + 1 } }, made [])
  | (s1, .wait) => ({ s1 with dev := { s1.dev with nextOrder := s1.dev.nextOrder + 1 } }, made [])

/-- Steps 1, 2 and 4 of GO for one record: its CTXID rewritten, restored with ANY under a graph number of the target, running at the carried priority; a record that cannot be restored sets RESULT 8, and stays in the save pool. -/
def State.goRecord (s : State) (slot : Nat) (r : MgRec) : State :=
  let m := s.dev.mig slot
  let s0 := s.putSaved r.addr 32 (natLe 2 m.ctx)
  let failed (s : State) (st : Nat) : State := (s.mgResult slot 8).note slot 50 1 st
  match s0.readRecord r.addr with
  | .inl st => failed s0 st
  | .inr i =>
    let e := (m.final.map FinalMsg.entries).getD [] |>.find? (fun e => e.kind == 1 && e.index == r.index)
    let l := match e with
      | some e => s0.carriedLaunch m.ctx e
      | none => (s0, i.graph.launch)
    let k0 := i.rebind m.ctx l.1.dev.nextGraph
    let k : Image := { k0 with graph := { k0.graph with launch := l.2 } }
    let s1 : State := { l.1 with dev := { l.1.dev.putImage { k with tiles := [], book := [] } with nextGraph := k.graph.id + 1 } }
    if !s1.ctxLive m.ctx then failed s1 11
    else
      match s1.dev.chooseOpen k with
      | none => failed { s1 with dev := { s1.dev with graphs := s1.dev.graphs ++ [{ k.graph with image := k.addr, state := 2 }] } } 10
      | some p => s1.restoreIvory k p

/-- Step 3 of GO: a held launch is accepted with its carried priority and a fresh STAMP; a record that cannot be read is reported. -/
def State.acceptHeld (s : State) (ctx : Nat) (e : FinalEntry) : State :=
  let p : Post := { op := 0, record := e.record, src := 4, srcN := 0, ctx := some ctx, via := ctx, prio := e.prio }
  match s.readHomeAll ctx 0 0 e.record 32 with
  | (s1, .bytes bs) =>
    let h0 := heldOf p bs s1.dev.timebase s1.dev.nextOrder
    let h : Held := { h0 with ctx := ctx, prio := e.prio, level := e.prio }
    let s2 := (s1.writeRecord h 40 h.stamp.toNat).writeState h 0x01
    { s2 with dev := { s2.dev with held := s2.dev.held ++ [h], nextOrder := s2.dev.nextOrder + 1 } }
  | (s1, .fault c _) => s1.unitFault ctx c 0 e.record
  | (_, .wait) => s

/-- MG_GO_RECEIVE: The target rewrites CTXID, restores records and accepts launches (R430). -/
def execMgGoReceive (slot seq : Nat) (auth : Bool) (s : State) : Out :=
  .next (s.receive slot seq false auth fun s =>
    let m := s.dev.mig slot
    if m.state ≠ 4 then s
    else
      let s1 := m.recs.foldl (fun s r => s.goRecord slot r) s
      let held : List FinalEntry := match m.final with
        | some f => f.entries.filter (fun e => e.kind == 0)
        | none => []
      let s2 := held.foldl (fun (s : State) e => s.acceptHeld m.ctx e) s1
      (s2.setMig slot { s2.dev.mig slot with gone := true }).mgState slot 5)

/-- MG_ABORT_RECEIVE: An ABORT message ends the session as its state gives (R431): before GO the receiver aborts with RESULT 6; after GO at the source the records stay and the context runs nowhere; a target that has taken GO runs on. -/
def execMgAbortReceive (slot seq _status : Nat) (auth : Bool) (s : State) : Out :=
  let m := s.dev.mig slot
  let src := m.source
  .next (s.receive slot seq src auth fun s =>
    if m.gone then (if src then s.endMig slot 6 else s) else s.abortMig slot 6 false)

/-- MG_LINK_FAILURE: A link failure ends the session with status 11 (R431): before GO the source goes on; after GO the context runs where GO has arrived, and a target without GO waits for OP 4 or a reopened session. -/
def execMgLinkFailure (slot : Nat) (s : State) : Out :=
  let m := s.dev.mig slot
  .next (if !m.used || decide (6 ≤ m.state) then s
    else if m.source && !m.gone then s.abortMig slot 11 false
    else (s.setMig slot { m with failed := true }).mgResult slot 11)

/-- MIGRATION_ENGINE_RESUME: A Slate core resumes the target migration engine, which applies again a message whose write faulted (R428). -/
def execMigrationEngineResume (slot : Nat) (s : State) : Out :=
  let m := s.dev.mig slot
  .next (match m.stopped with
    | none => s
    | some (page, round, data) =>
      if s.dev.sending 8 0 0 || ({ s with dev := s.dev.setMig slot { m with stopped := none } } : State).pageWaits slot page round data then s
      else ((s.setMig slot { m with stopped := none }).applyPage slot page round data).tryReady slot)

end Sys2Proof.Machine
end

