-- ==== Sys2Proof/Machine/Store.lean ====
section
/-! DEFINITION. Stores, STN4, STV and REL (op 0x48 to 0x4D, 0x4F, 0x5D; R232-R241, R247): they are held in their block until it commits (R212). -/
namespace Sys2Proof.Machine

/-- A store at fire: one masked byte range held in the block, or its fault (R235, R238). -/
def scalarStore (s : State) (l : BitVec 5) (z o pr : BitVec 2) (off : Dbl) (data : Token → List (Byte × Byte)) : Out :=
  let c := s.dev.focus
  .next (s.fireMem { pr := pr, operands := 2, oldest := false, lsid := some l.toNat, vsid := none } z noTarget
    fun zone h b a r =>
      let va := a.lo + off
      let bs := data r
      holdStores s c.hart h b c.idx l.toNat
        [{ zone := zone, va := va, size := bs.length, good := inLine va bs.length, rd := false, wr := true, stack := true }]
        [{ idx := c.idx, lsid := l.toNat, ord := 2 ^ o.toNat - 1, zone := zone, va := va, data := bs, rel := false }])

/-- The low bytes of a token (R238). -/
def tokBytes (n : Nat) (k : Token) : List (Byte × Byte) := full (natLe n k.val.toNat)

/-- The nibble that STN4 writes (R239). -/
def nibbleData (hi : Bool) (k : Token) : List (Byte × Byte) :=
  let x := k.val.toNat % 16
  if hi then [(BitVec.ofNat 8 (16 * x), 0xF0)] else [(BitVec.ofNat 8 x, 0x0F)]

/-- The masked bytes of element `i` in unit stride: elements narrower than a byte write their own bits (R205, R241, R478). -/
def packedElem (base : Dbl) (w i x : Nat) : Dbl × List (Byte × Byte) :=
  let bit := i * w
  let lo := bit % 8
  let n := (lo + w + 7) / 8
  (base + BitVec.ofNat 64 (bit / 8),
    List.zip (natLe n (x * 2 ^ lo)) (natLe n ((2 ^ w - 1) * 2 ^ lo)))

/-- The stores of an STV, element by element in increasing index (R240, R241). -/
def vecStores (c : Vec) (cw x data form : Nat) (base stride : Dbl) : List (Dbl × List (Byte × Byte)) :=
  let w := memBits c.vtype.toNat
  let t := if c.vtype.toNat = tagNone then tagI32 else c.vtype.toNat
  (upTo (memCount c cw form)).map (fun i =>
    let y := c.elem data t i
    if form = 0 then packedElem base w i y
    else (elemAddr c x form base stride i, full (natLe (w / 8) y)))

/-- Cut one masked range at the end of its line (R193); an element of 6 bits stays one bit-masked write (R478). -/
def cutLine (va : Dbl) (bs : List (Byte × Byte)) : List (Dbl × List (Byte × Byte)) :=
  let k := 64 - va.toNat % 64
  if bs.length ≤ k || bitGrain bs then [(va, bs)] else [(va, bs.take k), (va + BitVec.ofNat 64 k, bs.drop k)]

/-- STV at fire, in the oldest block and in VSID order: its element stores are held in the block. -/
def vecStore (s : State) (l v d : BitVec 5) (z o pr : BitVec 2) (form : Nat) : Out :=
  let c := s.dev.focus
  .next (s.fireMem { pr := pr, operands := 1, oldest := true, lsid := some l.toNat, vsid := some v.toNat } z noTarget
    fun zone h b a _ =>
      let e : VEnv := { n := h.nenv c.idx, cw := h.cwidth.toNat, book := [] }
      let x := b.ctxOf h
      let xr := (d.toNat + 1) % 32
      match firstClash (vecChecks e x xr form d.toNat true) with
      | some k => h.putBlock (b.fault 0x40 c.idx k 0)
      | none =>
        let ts := (vecStores x e.cw xr d.toNat form a.lo a.hi).flatMap (fun p => cutLine p.1 p.2)
        holdStores s c.hart h (b.resolveV c.idx (some v.toNat)) c.idx l.toNat
          (vecProbes x e.cw xr form zone a.lo a.hi true)
          (ts.map (fun p => { idx := c.idx, lsid := l.toNat, ord := 2 ^ o.toNat - 1, zone := zone, va := p.1, data := p.2, rel := false })))

/-- STB: Store a byte at commit (R238). -/
def execStb (l : BitVec 5) (z : BitVec 2) (o : BitVec 2) (i : BitVec 14) (pr : BitVec 2) (s : State) : Out :=
  scalarStore s l z o pr (offS i) (tokBytes 1)

/-- STH: Store a half at commit (R238). -/
def execSth (l : BitVec 5) (z : BitVec 2) (o : BitVec 2) (i : BitVec 14) (pr : BitVec 2) (s : State) : Out :=
  scalarStore s l z o pr (offS i) (tokBytes 2)

/-- STW: Store a word at commit (R238). -/
def execStw (l : BitVec 5) (z : BitVec 2) (o : BitVec 2) (i : BitVec 14) (pr : BitVec 2) (s : State) : Out :=
  scalarStore s l z o pr (offS i) (tokBytes 4)

/-- STD: Store a double at commit (R238). -/
def execStd (l : BitVec 5) (z : BitVec 2) (o : BitVec 2) (i : BitVec 14) (pr : BitVec 2) (s : State) : Out :=
  scalarStore s l z o pr (offS i) (tokBytes 8)

/-- STQ: Store a quad from a PAIR at commit (R238). -/
def execStq (l : BitVec 5) (z : BitVec 2) (o : BitVec 2) (i : BitVec 14) (pr : BitVec 2) (s : State) : Out :=
  scalarStore s l z o pr (offS i) (tokBytes 16)

/-- STN4: Store one nibble as a masked write (R239). -/
def execStn4 (l : BitVec 5) (z : BitVec 2) (o : BitVec 2) (i : BitVec 13) (n : BitVec 1) (pr : BitVec 2) (s : State) : Out :=
  scalarStore s l z o pr (simm i) (nibbleData (n == 1))

/-- STV: Unit-stride vector store (R240). -/
def execStv (l : BitVec 5) (v : BitVec 5) (d : BitVec 5) (z : BitVec 2) (o : BitVec 2) (pr : BitVec 2) (s : State) : Out :=
  vecStore s l v d z o pr 0

/-- STV_STR: Strided vector store (R240). -/
def execStvStr (l : BitVec 5) (v : BitVec 5) (d : BitVec 5) (z : BitVec 2) (o : BitVec 2) (pr : BitVec 2) (s : State) : Out :=
  vecStore s l v d z o pr 1

/-- STV_IDX: Indexed (scatter) vector store (R240). -/
def execStvIdx (l : BitVec 5) (v : BitVec 5) (d : BitVec 5) (z : BitVec 2) (o : BitVec 2) (pr : BitVec 2) (s : State) : Out :=
  vecStore s l v d z o pr 2

/-- REL: Release on a binder: drain, write back regions, write WORD after commit (R218). -/
def execRel (l : BitVec 5) (z : BitVec 2) (o : BitVec 2) (i : BitVec 14) (pr : BitVec 2) (s : State) : Out :=
  let c := s.dev.focus
  .next (s.fireMem { pr := pr, operands := 2, oldest := false, lsid := some l.toNat, vsid := none } z noTarget
    fun zone h b x r =>
      let va := x.lo + offS i
      holdStores s c.hart h b c.idx l.toNat
        [{ zone := zone, va := va, size := 64, good := aligned va 64, rd := true, wr := true, stack := true }]
        [{ idx := c.idx, lsid := l.toNat, ord := 2 ^ o.toNat - 1, zone := zone, va := va, data := full (natLe 8 r.lo.toNat), rel := true }])

end Sys2Proof.Machine
end

