-- ==== Sys2Proof/Machine/Window.lean ====
section
/-! DEFINITION. What software of the device's own RISC-V cores reads and writes: the device registers (R410) with the actions that writes start and the fields that reads clear (R5), physical memory (R229), and the debug windows (R108, R376, R378). -/
namespace Sys2Proof.Machine

/-! Device registers (R410) -/

/-- The state that an action started by a register write leaves. -/
def startedBy (s : State) (o : Out) : State :=
  match o with
  | .next t => t
  | _ => s

/-- An 8-byte write to the register at offset `o` (R410): its fields are set, and a start bit starts its action. -/
def State.regWrite (s : State) (o : Nat) (v : Dbl) : State :=
  let x := v.toNat
  let plain : State := { s with dev := s.dev.writeReg o x }
  if o % 8 ≠ 0 then s
  else if o = 0x18 then startedBy s (execTinvInvalidate v s)
  else if o = 0x40 ∧ bitOf x 63 = true then
    (match x % 16 with
     | 1 => startedBy s (execPeSwapOut v s)
     | 2 => startedBy s (execPePreloadShadow v s)
     | 3 => startedBy s (execPeClockStop v s)
     | 4 => startedBy s (execPeDrainIvory v s)
     | 5 => startedBy s (execPeRestoreSepia v s)
     | 6 => startedBy s (execPeRestoreIvory v s)
     | _ => plain)
  else if o = 0x60 ∧ bitOf x 63 = true then
    (match x % 16 with
     | 1 => startedBy s (execMgOpenSource (bitsOf x 6 4) s)
     | 2 => startedBy s (execMgOpenTarget (bitsOf x 6 4) s)
     | 3 => startedBy s (execMgFinalStop (bitsOf x 6 4, true) s)
     | 4 => startedBy s (execMgAbort (bitsOf x 6 4) s)
     | 5 => startedBy s (execMgClose (bitsOf x 6 4) s)
     | _ => plain)
  else if o = 0x300 then (if bitOf x 23 then startedBy s (execDumpvClear s) else s)
  else if 0x4000 ≤ o ∧ o < 0x5000 then
    (if o % 0x20 = 8 ∧ bitOf x 16 = true then startedBy plain (execRingEnable ((o - 0x4000) / 0x200) ((o - 0x4000) % 0x200 / 0x20) plain) else plain)
  else if 0x10000 ≤ o ∧ o < 0x10800 then
    (if o % 32 = 24 ∧ bitOf x 0 = true then startedBy plain (execLaunchTableEnable ((o - 0x10000) / 32) plain) else plain)
  else if 0x100000 ≤ o ∧ o < 0x200000 then
    let k := (o - 0x100000) / 32
    if o % 32 ≠ 8 then plain
    else if bitOf x 40 then startedBy plain (execWatchArm (k / 8) (k % 8) plain)
    else startedBy plain (execWatchDisarm (k / 8) (k % 8) plain)
  else if 0x200000 ≤ o ∧ o < 0x220000 ∧ o % 256 = 16 then
    (match x with
     | 1 => startedBy s (execRplcmdReplay ((o - 0x200000) / 256) s)
     | 2 => startedBy s (execRplcmdDiscard ((o - 0x200000) / 256) s)
     | _ => s)
  else if 0x400000 ≤ o ∧ o < 0x440000 then
    let n := (o - 0x400000) / 4096
    match o % 4096 with
    | 0x008 => s.ringBell n v
    | 0x020 => if bitOf x 0 then startedBy s (execLaunchPageCancel n s) else s
    | 0x028 => startedBy s (execLaunchPagePrioset n (BitVec.ofNat 5 x) s)
    | _ => plain
  else plain

def LTab.word (e : LTab) (k : Nat) : Nat :=
  match k with
  | 0 => e.start.toNat
  | 1 => e.period.toNat
  | 2 => e.record.toNat
  | _ => e.en.toNat + 2 * e.held.toNat + 4 * e.rfail.toNat + 2 ^ 16 * e.ctx.toNat + 2 ^ 32 * e.missed.toNat

def Watch.word (w : Watch) (k : Nat) : Nat :=
  match k with
  | 0 => w.base.toNat
  | 1 => w.len.toNat + 2 ^ 32 * w.zone.toNat + 2 ^ 40 * w.en.toNat + 2 ^ 41 * w.vmatch.toNat + 2 ^ 42 * w.armed.toNat + 2 ^ 43 * w.once.toNat
  | 2 => w.value.toNat
  | _ => w.vmask.toNat

def Page.word (p : Page) (o : Nat) : Nat :=
  match o with
  | 0x000 => p.ctx.toNat + 2 ^ 12 * p.en.toNat + 2 ^ 13 * p.irq.toNat
  | 0x010 => p.lasterr.toNat
  | 0x018 => p.cmdaddr.toNat
  | 0x030 => p.result.toNat
  | _ => 0

def Ring.word (r : Ring) (k : Nat) : Nat := if k = 0 then r.rhdr.toNat else if k = 1 then r.rcfg.toNat % 2 ^ 16 + 2 ^ 16 * r.en.toNat else 0

/-- The register at offset `o` as a read shows it; write-only and unassigned words read zero (R5). -/
def Dev.readReg (d : Dev) (o : Nat) : Nat :=
  if o % 8 ≠ 0 then 0
  else if o = 0 then d.plctl.toNat
  else if o = 0x20 then (d.inval.any (fun i => i.req == 2048)).toNat
  else if o = 0x40 then d.pecmd.toNat
  else if o = 0x48 then d.pearg.toNat
  else if o = 0x50 then d.pestat.toNat
  else if o = 0x68 then d.mgarg.toNat
  else if o = 0x70 then d.mgstat.toNat
  else if o = 0x300 then d.ready.toNat
  else if o = 0x308 then d.valarm.toNat + 2 ^ 33 * d.alarms
  else if 0x1000 ≤ o ∧ o < 0x1800 then
    let i := d.island ((o - 0x1000) / 8)
    i.point.toNat + 2 ^ 8 * i.capped.toNat + 2 ^ 9 * i.actual.toNat
  else if 0x4000 ≤ o ∧ o < 0x5000 then (d.netRing ((o - 0x4000) / 0x200) ((o - 0x4000) % 0x200 / 0x20)).word (o % 0x20 / 8)
  else if 0x10000 ≤ o ∧ o < 0x10800 then (d.entry ((o - 0x10000) / 32)).word (o % 32 / 8)
  else if 0x100000 ≤ o ∧ o < 0x200000 then
    let k := (o - 0x100000) / 32
    (d.watchAt (k / 8) (k % 8)).word (o % 32 / 8)
  else if 0x200000 ≤ o ∧ o < 0x220000 then d.homeWord ((o - 0x200000) / 256) (o % 256)
  else if 0x400000 ≤ o ∧ o < 0x440000 then (d.page ((o - 0x400000) / 4096)).word (o % 4096)
  else
    match plainMask o with
    | some _ => (mget 0 d.regs o).toNat
    | none => 0

/-- A read of a device register: its value, and what the read clears (R5). -/
def State.regRead (s : State) (o : Nat) : State × Nat :=
  let v := s.dev.readReg o
  if o = 0x308 then (startedBy s (execValarmCountRead s), v)
  else if 0x10000 ≤ o ∧ o < 0x10800 ∧ o % 32 = 24 then (startedBy s (execMissedRead ((o - 0x10000) / 32) s), v)
  else if 0x200000 ≤ o ∧ o < 0x220000 ∧ o % 256 = 0 then (startedBy s (execReplayHwmRead ((o - 0x200000) / 256) s), v)
  else if 0x400000 ≤ o ∧ o < 0x440000 ∧ o % 4096 = 16 then (startedBy s (execLasterrRead ((o - 0x400000) / 4096) s), v)
  else (s, v)

/-! Reads of the debug window -/

/-- DBGSTAT (R376). -/
def Hart.dbgstat (h : Hart) : Nat :=
  (match h.run with
   | .running => 0
   | .frozen => 1
   | .ending => 2
   | .idle => 3) +
  4 * h.hasBound.toNat + 8 * h.marked.toNat + 16 * (h.last % 16) + 2 ^ 8 * ((h.blocks.map (fun b => 2 ^ (b.tag % 8))).foldl (· + ·) 0) +
  2 ^ 16 * (h.cause % 128)

/-- ESTAT (R376): a hart whose EKICK is 0 is disabled (R303). -/
def State.estat (s : State) (p : Nat) : Nat :=
  let e := s.hart (1024 + p)
  (match e.run with
   | .idle => if (s.mt p).ekick = 0 then 0 else 1
   | .frozen => 3
   | _ => 2) + 2 ^ 8 * (e.cause % 128)

/-- The tokens that wait in the buffer of node `k` of an XT: those for instruction i stand in node i mod 16, those for write slots in node 0 (the mapping is the core's own, R20). An instruction that has fired has consumed its own. -/
def Hart.bufferTokens (h : Hart) (k : Nat) : List (Nat × Nat × Token) :=
  let waits (b : Block) (t : Nat) : Bool := decide (t < 512) && (t % 4 == 3 || !b.fired.contains (t / 4))
  h.blocks.flatMap (fun b => ((b.toks ++ b.links.map (fun x => (x.2.1.toNat, x.2.2))).filter (fun t =>
    waits b t.1 && (if t.1 % 4 = 3 then 0 else t.1 / 4 % 16) == k)).map (fun t => (b.tag, t.1, t.2)))

/-- A double of the token page (R378): entry 32 bytes, VALID at bit 15 of its third double. -/
def Hart.tokenWord (h : Hart) (o : Nat) : Nat :=
  match (h.bufferTokens (h.toksel % 16))[32 * (h.toksel / 16 % 4) + o / 32]? with
  | none => 0
  | some (tag, target, k) =>
    match o % 32 / 8 with
    | 0 => k.lo.toNat
    | 1 => if k.pair then k.hi.toNat else 0
    | 2 => target + 2 ^ 9 * tag + 2 ^ 12 * k.null.toNat + 2 ^ 13 * k.pair.toNat + 2 ^ 15
    | _ => 0

/-- The double of the window at an aligned offset as a read shows it. -/
def State.winReadWord (s : State) (p o : Nat) : Nat :=
  let h := s.hart p
  if s.blind p o then 0
  else if o = 0xE018 then s.estat p
  else if 0xE400 ≤ o ∧ o < 0xE440 then (s.age p ((o - 0xE400) / 8)).state
  else if o = 0xF008 then h.dbgstat
  else if 0xF400 ≤ o ∧ o < 0xF800 then (if (s.hart (s.dev.anchorAt p)).thalt then h.tokenWord (o - 0xF400) else 0)
  else s.winWord p o

/-- A Slate core reads `size` bytes of the window of the XT at `p` (R475): a misaligned read gives zero; a read of the token page while THALT is 0 sets LAST to 6 (R378), TIMEBASE reads higher each time (R360), and reads change nothing else. -/
def State.windowRead (s : State) (p offset size : Nat) : State × Nat :=
  if !([1, 2, 4, 8].contains size) || offset % size != 0 || decide (0x10000 ≤ offset) then (s, 0)
  else
    let n := s.dev.anchorAt p
    let s1 := if 0xF400 ≤ offset ∧ offset < 0xF800 ∧ (s.hart n).thalt = false then s.setLast n 6
      else if offset / 8 * 8 = 0x250 then s.ticked else s
    (s1, bitsOf (s1.winReadWord p (offset / 8 * 8)) (8 * (offset % 8 + size) - 1) (8 * (offset % 8)))

/-- A Slate core writes `size` bytes of the window (R475): a whole write of an action word acts, any other write changes the bytes it covers. -/
def State.windowWrite (s : State) (p offset size : Nat) (v : Dbl) : State :=
  let x := v.toNat
  if s.blind p (offset / 8 * 8) then s
  else if size = 8 ∧ offset = 0xF000 then
    let s1 := startedBy s (execDbgRegisterWrite p 0xF000 8 v s)
    let s2 := if bitOf x 3 != (s1.hart p).thalt || bitOf x 3 then startedBy s1 (execDbgThaltWrite p (bitOf x 3) s1) else s1
    (match x % 8 with
     | 1 => startedBy s2 (execDbgResume p s2)
     | 2 => startedBy s2 (execDbgReexecute p s2)
     | 3 => startedBy s2 (execDbgEndContext p s2)
     | 4 => startedBy s2 (execDbgHalt p s2)
     | 5 => startedBy s2 (execDbgStep p s2)
     | 6 => startedBy s2 (execDbgResolve p (bitsOf x 12 10) (bitsOf x 9 5) s2)
     | _ => s2)
  else if offset = 0xF110 ∨ offset = 0xE020 ∨ (0xE400 ≤ offset ∧ offset < 0xE440) then
    (if size ≠ 8 ∨ offset % 8 ≠ 0 then s
     else if offset = 0xF110 then startedBy s (execDbgInject p v s)
     else if offset = 0xE020 then
       (match x with
        | 1 => startedBy s (execEngineResume p s)
        | 2 => startedBy s (execEngineReexecute p s)
        | 3 => startedBy s (execEngineReturnIdle p s)
        | _ => s)
     else
       let a := (offset - 0xE400) / 8
       let s1 := if bitOf x 8 then startedBy s (execAgeResume p a s) else s
       if bitOf x 9 then startedBy s1 (execAgeStop p a s1) else s1)
  else startedBy s (execDbgRegisterWrite p offset size v s)

/-! The cores' accesses -/

/-- An access to the device register space (R410): 8 bytes wide and naturally aligned; any other reads zero and is ignored on write. An atomic reads, and writes what it computes. -/
def State.registerAccess (s : State) (put : State → Dbl → State) (o : Nat) (asks : Asks) (data : List Byte) : State :=
  let n := accessSize asks data
  if n ≠ 8 ∨ o % 8 ≠ 0 then (if asks = .write then s else s.answer (natLe n 0))
  else
    let r := s.regRead o
    match asks with
    | .write => put s (BitVec.ofNat 64 (leNat data))
    | .read => r.1.answer (natLe 8 r.2)
    | .atomic op =>
      match (if extAtomicOk op o data then extNew op data (natLe 8 r.2) else none) with
      | some new => (put r.1 (BitVec.ofNat 64 (leNat new))).answer (natLe 8 r.2)
      | none => r.1.answer (natLe 8 r.2)

/-- A write of the external host: CTX and EN are read-only to it (R412). -/
def State.hostRegWrite (s : State) (o : Nat) (v : Dbl) : State :=
  if o % 4096 = 0 then { s with dev := s.dev.hostWriteReg o v.toNat } else s.regWrite o v

/-- An access to a debug window (R108, R475). -/
def State.windowAccess (s : State) (o : Nat) (write : Bool) (data : List Byte) : State :=
  let p := o / 0x10000
  let k := o % 0x10000
  if write then s.windowWrite p k data.length (BitVec.ofNat 64 (leNat data))
  else (s.windowRead p k data.length).1.answer (natLe data.length (s.windowRead p k data.length).2)

/-- An access of a Slate core to its SRAM (R421). -/
def State.sramAccess (s : State) (o : Nat) (asks : Asks) (data : List Byte) : State :=
  let old := bytesAt s.dev.sram o (accessSize asks data)
  let put (bs : List Byte) : State := { s with dev := { s.dev with sram := setBytes s.dev.sram o bs } }
  match asks with
  | .read => s.answer old
  | .write => put data
  | .atomic op =>
    match (if extAtomicOk op o data then extNew op data old else none) with
    | some new => (put new).answer old
    | none => s.answer old

/-- RISC_V_CORE_ACCESS: A load, store or AMO of a Slate, application or Pewter core reaches device memory or a mailbox at its home (R229), a device register (R410), or, from a Slate core (agent 9), a debug window or its SRAM (R108, R421). `agent` is the AGENT code of the core, plus 16 times the row of a Slate core, which reaches its own SRAM alone. With `agent` 5 it is an access of the external host through BAR2, which reaches the launch pages alone (R410): device memory the host reaches through its apertures (R413). Neither the host before its link is trained nor an application core before it is released reaches anything (R436). A read's bytes stand in the answer. Any other address reads zero and ignores writes (log 58). -/
def execRiscVCoreAccess (agent pa : Nat) (asks : Asks) (data : List Byte) (s : State) : Out :=
  .next (if (agent = 5 ∧ s.dev.ready.getLsbD 16 = false) ∨ (agent % 16 = 10 ∧ s.dev.ready.getLsbD 19 = false) then answered s (s, .fault 0x1C pa)
    else if agent ≠ 5 ∧ pa + accessSize asks data ≤ Config.deviceTop then answered s (s.physAccess (agent % 16) 0 pa asks data)
    else if (if agent = 5 then Config.regBase + 0x400000 else Config.regBase) ≤ pa ∧ pa < Config.regBase + 0x440000 then
      let o := pa - Config.regBase
      s.registerAccess (fun s v => if agent = 5 then s.hostRegWrite o v else s.regWrite o v) o asks data
    else if agent % 16 = 9 ∧ Config.windowBase ≤ pa ∧ pa < Config.windowBase + 0x4000000 then s.windowAccess (pa - Config.windowBase) (asks == .write) data
    else if agent % 16 = 9 ∧ Config.sramBase + 0x40000 * (agent / 16 % 128) ≤ pa ∧ pa + accessSize asks data ≤ Config.sramBase + 0x40000 * (agent / 16 % 128 + 1) then s.sramAccess (pa - Config.sramBase) asks data
    else if asks = .write then s else s.answer (natLe data.length 0))

end Sys2Proof.Machine
end

