-- ==== Sys2Proof/Machine/WlIsa.lean ====
section
/-! DEFINITION. The wl instructions of the application cores (R405-R408): the focus names the core. A wait stands in the core until the instruction, executed again, completes; the effect of the words of the RISC-V architecture itself is a free value in all that they can write (log 9). -/
namespace Sys2Proof.Machine

/-! The core -/

/-- Register x0 reads zero. -/
def App.reg (a : App) (r : BitVec 5) : Dbl := if r = 0 then 0 else mget 0 a.x r.toNat

/-- A write of x0 is discarded. -/
def App.setReg (a : App) (r : BitVec 5) (v : Dbl) : App := if r = 0 then a else { a with x := mset 0 a.x r.toNat v }

/-- The core raises a RISC-V exception with its cause and mtval; the instruction has no other effect. -/
def State.wlTrap (s : State) (core cause : Nat) (tval : Dbl) : State :=
  { s with dev := s.dev.setApp core { s.dev.app core with exc := some (cause, tval), wait := none } }

/-- A custom-0 word that is no wl instruction (R406: funct3 7, a nonzero funct7, a nonzero unused rs2) raises the illegal-instruction exception. -/
def State.illegalWl (s : State) (core : Nat) : State :=
  ({ s with dev := { s.dev with fresh := s.dev.fresh + 1 } } : State).wlTrap core 2 (Config.freeValue s.dev.fresh)

/-- The instruction completes: rd is written, the pc passes its word (log 9), the wait ends. -/
def State.wlRet (s : State) (core : Nat) (rd : BitVec 5) (v : Dbl) : State :=
  { s with dev := s.dev.setApp core { (s.dev.app core).setReg rd v with pc := (s.dev.app core).pc + 4, wait := none } }

def State.wlHold (s : State) (core : Nat) (w : WlWait) : State :=
  { s with dev := s.dev.setApp core { s.dev.app core with wait := some w } }

/-- The wait of an instruction of this form. -/
def wlWaiting (kind : Nat) (rd rs1 rs2 : BitVec 5) (recs : List Dbl) (deadline : Dbl) (queued : Bool) : WlWait :=
  { kind := kind, rd := rd, rs1 := rs1, rs2 := rs2, recs := recs, deadline := deadline, queued := queued }

/-- A wl.fence or wl.wait, in whose wait interrupts are taken (R407). -/
def WlWait.interruptible (w : WlWait) : Bool := w.kind == 1 || w.kind == 3

/-- The interrupted instruction is to restart: its wait ends, and no register is written. -/
def State.wlInterrupt (s : State) (core : Nat) : State :=
  { s with dev := s.dev.setApp core { s.dev.app core with wait := none } }

/-- Execute a wl instruction (R406): before the application cores are released nothing executes (R436); with wlctx.EN 0 it raises the illegal-instruction exception, whose mtval is a free value; while the core waits in another instruction nothing executes, but that an interrupt may have been taken in a wl.fence or wl.wait, which restarts afterwards (R407): the word then runs, of the handler, and the wait is gone. -/
def State.wl (s : State) (kind : Nat) (rd rs1 rs2 : BitVec 5) (f : State → Nat → App → State) : State :=
  let core := s.dev.focus.hart
  let a := s.dev.app core
  if !s.dev.ready.getLsbD 19 then s
  else if !a.wlctx.getLsbD 13 then s.illegalWl core
  else
    match a.wait with
    | some w =>
      if w.kind = kind ∧ w.rd = rd ∧ w.rs1 = rs1 ∧ w.rs2 = rs2 then f s core a
      else if w.interruptible then f (s.wlInterrupt core) core { a with wait := none }
      else s
    | none => f s core a

def App.ctx (a : App) : Nat := a.wlctx.toNat % 4096

/-- STATE of a launch record, read at its home through the tables of the port's context. -/
def State.wlState (s : State) (a : App) (record : Dbl) : State × Access := s.readHome a.ctx 0 0 (record + 32) 1

/-- STATE of each record, read in turn. -/
def State.wlReads (s : State) (a : App) (recs : List Dbl) : State × List (Dbl × Access) :=
  recs.foldl (fun acc r => ((acc.1.wlState a r).1, acc.2 ++ [(r, (acc.1.wlState a r).2)])) (s, [])

/-- STATE as a number; a record that has not been read gives none. -/
def Access.number : Access → Option Nat
  | .bytes bs => some (leNat bs)
  | _ => none

def Access.failed : Access → Bool
  | .fault _ _ => true
  | _ => false

/-- The post of a command of the port (R409): bound to CTX unless ANY is 1. -/
def wlPost (a : App) (core op : Nat) (record : Dbl) (prio : Nat) : Post :=
  { op := op, record := record, src := 0, srcN := core, ctx := if a.wlctx.getLsbD 12 then none else some a.ctx, via := a.ctx, prio := prio }

/-- Queue a command in the port (R284): it passes the placement unit's intake in order. -/
def State.wlQueue (s : State) (core op : Nat) (rd : BitVec 5) (record : Dbl) (prio : Nat) : State :=
  let a := s.dev.app core
  let c : Cmd := { op := op, rd := rd, record := record, prio := prio }
  { s with dev := { (s.dev.setApp core { a with queue := a.queue ++ [c] }) with intake := s.dev.intake ++ [wlPost a core op record prio] } }

def App.portFull (a : App) : Bool := decide (64 ≤ a.queue.length)

/-! wlctx (R405) -/

/-- A CSR instruction that names wlctx: funct3, rd, the rs1 field; opcode, funct3 and CSR field as the RISC-V manuals lay them out (log 58). -/
def wlctxWord (w : Word) : Option (Nat × BitVec 5 × BitVec 5) :=
  let x := w.toNat
  if x % 128 = 0x73 ∧ bitsOf x 31 20 = 0x5C0 ∧ bitsOf x 14 12 % 4 ≠ 0 then
    some (bitsOf x 14 12, BitVec.ofNat 5 (bitsOf x 11 7), BitVec.ofNat 5 (bitsOf x 19 15))
  else none

/-- CSRRW, CSRRS, CSRRC and their immediate forms on wlctx: rd receives it, and its fields take the new value, reserved bits zero (R5, R6); from U-mode the access is illegal (R405). In a wl.fence or wl.wait it is a handler's, as in `State.wl`. -/
def State.wlctxAccess (s : State) (core f3 : Nat) (rd rs1 : BitVec 5) : State :=
  let a := s.dev.app core
  if a.wait.any (fun w => !w.interruptible) then s
  else if a.user then s.illegalWl core
  else
    let x : Dbl := if 4 ≤ f3 then BitVec.ofNat 64 rs1.toNat else a.reg rs1
    let v : BitVec 14 := x.setWidth 14
    let new := match f3 % 4 with
      | 1 => v
      | 2 => a.wlctx ||| v
      | _ => a.wlctx &&& ~~~v
    ({ s with dev := s.dev.setApp core { a with wlctx := new } } : State).wlRet core rd (a.wlctx.setWidth 64)

/-! The words of the RISC-V architecture itself (R405, R421, log 9) -/

/-- The core is left with these registers, x0 zero and wlctx apart: before its release nothing executes (R436), nor while it waits in a wl word that no interrupt reaches; one that an interrupt reaches is to restart (R407). -/
def State.riscVLeaves (s : State) (core : Nat) (r : RiscV) : State :=
  let a := s.dev.app core
  if !s.dev.ready.getLsbD 19 || a.wait.any (fun w => !w.interruptible) then s
  else
    let canon (m : SMap Dbl) : SMap Dbl := m.foldl (fun m p => mset 0 m p.1 p.2) []
    { s with dev := s.dev.setApp core { a with
        user := r.user, x := mset 0 (canon r.x) 0 0, pc := r.pc, f := canon r.f,
        v := r.v.foldl (fun m p => mset 0 m p.1 p.2) [], csr := mset 0 (canon r.csr) 0x5C0 0, wait := none } }

/-- Registers of an application core that hold free values: of counter `n`, place 0 the mode, 1-31 the x-registers, 32 the pc, from 64 the f-registers, from 4096 the CSRs, from 8192 the bytes of the vector registers. -/
def freeRiscV (n : Nat) : RiscV :=
  let from' (base count : Nat) : SMap Dbl := (List.range count).map (fun i => (i, Config.riscVValue n (base + i)))
  { user := (Config.riscVValue n 0).getLsbD 0, x := from' 0 32, pc := Config.riscVValue n 32, f := from' 64 32,
    csr := from' 4096 4096,
    v := (List.range (32 * Config.vlenb)).map (fun i => (i, (Config.riscVValue n (8192 + i)).setWidth 8)) }

/-- A RISC-V word that is neither a wl word nor a CSR instruction on wlctx executes: R405 says that the core implements it, and what it leaves in the core's own registers is free. What it reads or writes in memory is a step of its own (`execRiscVCoreAccess`). -/
def State.riscVWord (s : State) (core : Nat) : State :=
  ({ s with dev := { s.dev with fresh := s.dev.fresh + 1 } } : State).riscVLeaves core (freeRiscV s.dev.fresh)

def Dev.slate (d : Dev) (row : Nat) : Slate :=
  match mget none d.slates row with
  | some c => c
  | none => Slate.reset

/-- The firmware of a row's Slate core, which runs in M-mode, leaves it with these registers (R421); its accesses are steps of their own (`execRiscVCoreAccess`). -/
def State.slateLeaves (s : State) (row : Nat) (r : Slate) : State :=
  let canon (m : SMap Dbl) : SMap Dbl := m.foldl (fun m p => mset 0 m p.1 p.2) []
  { s with dev := { s.dev with slates := mset none s.dev.slates (row % 128) (some { x := mset 0 (canon r.x) 0 0, pc := r.pc, csr := canon r.csr }) } }

/-! The instructions -/

/-- WL_LAUNCH: Fence at device scope and queue a launch post on the command port (R407). Accesses of the core are performed in order, so that the fence has nothing left to do (log 9). -/
def execWlLaunch (rs1 rd : BitVec 5) (s : State) : Out :=
  .next (s.wl 0 rd rs1 0 fun s core a =>
    let record := a.reg rs1
    if record.toNat % 64 ≠ 0 then s.wlTrap core 6 record
    else if a.portFull || decide (256 ≤ a.out.length) then s.wlHold core (wlWaiting 0 rd rs1 0 [] 0 false)
    else
      let s1 := s.wlQueue core 0 rd record 0
      let b := s1.dev.app core
      ({ s1 with dev := s1.dev.setApp core { b with out := b.out ++ [record], unread := b.unread.filter (fun r => r != record) } } : State).wlRet core rd 0)

/-- A launch that a fence names is final (R407): STATE at or above 0x03, or its latest post was refused with 0x15; a launch named as outstanding is done once it is not. -/
def App.wlDone (a : App) (all : Bool) (r : Dbl × Access) : Bool :=
  a.unread.contains r.1 || (all && !a.out.contains r.1) || r.2.number.any (fun v => decide (3 ≤ v))

/-- A named launch that counts as not completed. -/
def App.wlIncomplete (a : App) (r : Dbl × Access) : Bool := a.unread.contains r.1 || r.2.number != some 3

/-- WL_FENCE: Wait until named launches are final, then acquire (R407); rd receives how many are not completed. A record of rs1 that cannot be read raises the load access-fault exception. -/
def execWlFence (rs1 rd : BitVec 5) (s : State) : Out :=
  .next (s.wl 1 rd rs1 0 fun s core a =>
    let all := a.reg rs1 == 0
    let recs := match a.wait with
      | some w => w.recs
      | none => if all then a.out else [a.reg rs1]
    let x := s.wlReads a recs
    match x.2.find? (fun r => !a.wlDone all r && r.2.failed) with
    | some r => x.1.wlTrap core 5 (r.1 + 32)
    | none =>
      if x.2.all (fun r => a.wlDone all r) then
        x.1.wlRet core rd (BitVec.ofNat 64 (x.2.filter (fun r => a.wlIncomplete r)).length)
      else x.1.wlHold core (wlWaiting 1 rd rs1 0 recs 0 false))

/-- WL_POLL: Read a launch record's STATE with acquire (R407). -/
def execWlPoll (rs1 rd : BitVec 5) (s : State) : Out :=
  .next (s.wl 2 rd rs1 0 fun s core a =>
    match s.wlState a (a.reg rs1) with
    | (s1, .bytes bs) => s1.wlRet core rd (BitVec.ofNat 64 (leNat bs))
    | (s1, .fault _ _) => s1.wlTrap core 5 (a.reg rs1 + 32)
    | (_, .wait) => s)

/-- STATE of a record that wl.wait names cannot be read: after a refusal with 0x15 the wait ends, with a free value; else it traps. -/
def State.wlUnread (s : State) (core : Nat) (a : App) (rd : BitVec 5) (record : Dbl) : State :=
  if a.unread.contains record then
    ({ s with dev := { s.dev with fresh := s.dev.fresh + 1 } } : State).wlRet core rd (Config.freeValue s.dev.fresh &&& 0xFF)
  else s.wlTrap core 5 (record + 32)

/-- WL_WAIT: Wait for a final STATE or a deadline (R407). A record whose latest post was refused with 0x15 ends the wait at once, and an unreadable STATE is then a free value. -/
def execWlWait (rs2 rs1 rd : BitVec 5) (s : State) : Out :=
  .next (s.wl 3 rd rs1 rs2 fun s core a =>
    let record := a.reg rs1
    let deadline := a.reg rs2
    match s.wlState a record with
    | (s1, .bytes bs) =>
      if 3 ≤ leNat bs || a.unread.contains record || (deadline != 0 && decide (deadline.toNat ≤ s.dev.timebase.toNat)) then
        s1.wlRet core rd (BitVec.ofNat 64 (leNat bs))
      else s1.wlHold core (wlWaiting 3 rd rs1 rs2 [record] deadline false)
    | (s1, .fault _ _) =>
      s1.wlUnread core a rd record
    | (_, .wait) => s)

/-- A command that returns a result: queued in the port, the core waits for it (R408). -/
def State.wlCommand (s : State) (core : Nat) (a : App) (op : Nat) (rd rs1 rs2 : BitVec 5) (prio : Nat) : State :=
  match a.wait with
  | some w =>
    if w.queued then s
    else if a.portFull then s
    else (s.wlQueue core op rd (a.reg rs1) prio).wlHold core (wlWaiting op rd rs1 rs2 [a.reg rs1] 0 true)
  | none =>
    if a.portFull then s.wlHold core (wlWaiting op rd rs1 rs2 [] 0 false)
    else (s.wlQueue core op rd (a.reg rs1) prio).wlHold core (wlWaiting op rd rs1 rs2 [a.reg rs1] 0 true)

/-- WL_CANCEL: Ask the placement unit to cancel a launch (R408). -/
def execWlCancel (rs1 rd : BitVec 5) (s : State) : Out :=
  .next (s.wl 4 rd rs1 0 fun s core a => s.wlCommand core a 4 rd rs1 0 0)

/-- The item that wl.status returns (R408). -/
def State.wlItem (s : State) (a : App) (sel : Nat) : Dbl :=
  if sel = 0 then BitVec.ofNat 64 (a.queue.length % 128 + 2 ^ 16 * (a.out.length % 512))
  else if sel = 1 then a.lasterr
  else if sel = 2 then BitVec.ofNat 64 s.dev.held.length
  else 0

/-- WL_STATUS: Return a command-port status item (R408). Item 1 is RC: the read clears it (R5). -/
def execWlStatus (rs1 rd : BitVec 5) (s : State) : Out :=
  .next (s.wl 5 rd rs1 0 fun s core a =>
    let sel := (a.reg rs1).toNat
    let s1 : State := { s with dev := s.dev.setApp core { a with lasterr := if sel = 1 then 0 else a.lasterr } }
    s1.wlRet core rd (s.wlItem a sel))

/-- WL_PRIO: Change the priority of a launch (R408): PRIO becomes rs2[4:0]. -/
def execWlPrio (rs2 rs1 rd : BitVec 5) (s : State) : Out :=
  .next (s.wl 6 rd rs1 rs2 fun s core a => s.wlCommand core a 6 rd rs1 rs2 ((a.reg rs2).toNat % 32))

/-- WL_WAIT_DEADLINE: TIMEBASE reaches the rs2 deadline of a pending wl.wait, which returns STATE as it stands (R407). -/
def execWlWaitDeadline (core : Nat) (s : State) : Out :=
  let a := s.dev.app core
  .next (match a.wait with
    | none => s
    | some w =>
      if w.kind ≠ 3 ∨ w.deadline = 0 then s
      else
        let s0 : State := { s with dev := { s.dev with timebase := if s.dev.timebase.toNat < w.deadline.toNat then w.deadline else s.dev.timebase } }
        match s0.wlState a (a.reg w.rs1) with
        | (s1, .bytes bs) => s1.wlRet core w.rd (BitVec.ofNat 64 (leNat bs))
        | (s1, .fault _ _) => s1.wlUnread core a w.rd (a.reg w.rs1)
        | (_, .wait) => s0)

end Sys2Proof.Machine
end

