-- ==== Sys2Proof/Machine/Dispatch.lean ====
section
/-! DEFINITION. One arm per instruction, step or event: the call of its meaning. -/
namespace Sys2Proof.Machine

def exec (i : Instr) (s : State) : Host.Outcome State Fault Refusal :=
  match i with
  | .br x0 x1 x2 => Sys2Proof.Machine.execBr x0 x1 x2 s
  | .call x0 x1 x2 => Sys2Proof.Machine.execCall x0 x1 x2 s
  | .bri x0 => Sys2Proof.Machine.execBri x0 s
  | .calli x0 => Sys2Proof.Machine.execCalli x0 s
  | .ret x0 => Sys2Proof.Machine.execRet x0 s
  | .scall x0 => Sys2Proof.Machine.execScall x0 s
  | .brk x0 => Sys2Proof.Machine.execBrk x0 s
  | .trap x0 => Sys2Proof.Machine.execTrap x0 s
  | .mov x0 x1 x2 => Sys2Proof.Machine.execMov x0 x1 x2 s
  | .null x0 x1 x2 => Sys2Proof.Machine.execNull x0 x1 x2 s
  | .pair x0 x1 x2 => Sys2Proof.Machine.execPair x0 x1 x2 s
  | .plo x0 x1 x2 => Sys2Proof.Machine.execPlo x0 x1 x2 s
  | .phi x0 x1 x2 => Sys2Proof.Machine.execPhi x0 x1 x2 s
  | .const x0 x1 x2 => Sys2Proof.Machine.execConst x0 x1 x2 s
  | .app x0 x1 x2 => Sys2Proof.Machine.execApp x0 x1 x2 s
  | .rdsys x0 x1 x2 => Sys2Proof.Machine.execRdsys x0 x1 x2 s
  | .wrsys x0 x1 x2 => Sys2Proof.Machine.execWrsys x0 x1 x2 s
  | .add x0 x1 x2 x3 => Sys2Proof.Machine.execAdd x0 x1 x2 x3 s
  | .sub x0 x1 x2 x3 => Sys2Proof.Machine.execSub x0 x1 x2 x3 s
  | .mul x0 x1 x2 x3 => Sys2Proof.Machine.execMul x0 x1 x2 x3 s
  | .mulh x0 x1 x2 x3 => Sys2Proof.Machine.execMulh x0 x1 x2 x3 s
  | .mulhn x0 x1 x2 x3 => Sys2Proof.Machine.execMulhn x0 x1 x2 x3 s
  | .mulhsn x0 x1 x2 x3 => Sys2Proof.Machine.execMulhsn x0 x1 x2 x3 s
  | .div x0 x1 x2 x3 => Sys2Proof.Machine.execDiv x0 x1 x2 x3 s
  | .divn x0 x1 x2 x3 => Sys2Proof.Machine.execDivn x0 x1 x2 x3 s
  | .rem x0 x1 x2 x3 => Sys2Proof.Machine.execRem x0 x1 x2 x3 s
  | .remn x0 x1 x2 x3 => Sys2Proof.Machine.execRemn x0 x1 x2 x3 s
  | .min x0 x1 x2 x3 => Sys2Proof.Machine.execMin x0 x1 x2 x3 s
  | .max x0 x1 x2 x3 => Sys2Proof.Machine.execMax x0 x1 x2 x3 s
  | .minn x0 x1 x2 x3 => Sys2Proof.Machine.execMinn x0 x1 x2 x3 s
  | .maxn x0 x1 x2 x3 => Sys2Proof.Machine.execMaxn x0 x1 x2 x3 s
  | .and x0 x1 x2 x3 => Sys2Proof.Machine.execAnd x0 x1 x2 x3 s
  | .or x0 x1 x2 x3 => Sys2Proof.Machine.execOr x0 x1 x2 x3 s
  | .xor x0 x1 x2 x3 => Sys2Proof.Machine.execXor x0 x1 x2 x3 s
  | .andn x0 x1 x2 x3 => Sys2Proof.Machine.execAndn x0 x1 x2 x3 s
  | .orn x0 x1 x2 x3 => Sys2Proof.Machine.execOrn x0 x1 x2 x3 s
  | .xnor x0 x1 x2 x3 => Sys2Proof.Machine.execXnor x0 x1 x2 x3 s
  | .shl x0 x1 x2 x3 => Sys2Proof.Machine.execShl x0 x1 x2 x3 s
  | .shr x0 x1 x2 x3 => Sys2Proof.Machine.execShr x0 x1 x2 x3 s
  | .shra x0 x1 x2 x3 => Sys2Proof.Machine.execShra x0 x1 x2 x3 s
  | .rol x0 x1 x2 x3 => Sys2Proof.Machine.execRol x0 x1 x2 x3 s
  | .ror x0 x1 x2 x3 => Sys2Proof.Machine.execRor x0 x1 x2 x3 s
  | .clz x0 x1 x2 x3 => Sys2Proof.Machine.execClz x0 x1 x2 x3 s
  | .ctz x0 x1 x2 x3 => Sys2Proof.Machine.execCtz x0 x1 x2 x3 s
  | .popc x0 x1 x2 x3 => Sys2Proof.Machine.execPopc x0 x1 x2 x3 s
  | .brev x0 x1 x2 x3 => Sys2Proof.Machine.execBrev x0 x1 x2 x3 s
  | .bswp x0 x1 x2 x3 => Sys2Proof.Machine.execBswp x0 x1 x2 x3 s
  | .neg x0 x1 x2 x3 => Sys2Proof.Machine.execNeg x0 x1 x2 x3 s
  | .abs x0 x1 x2 x3 => Sys2Proof.Machine.execAbs x0 x1 x2 x3 s
  | .not x0 x1 x2 x3 => Sys2Proof.Machine.execNot x0 x1 x2 x3 s
  | .sextb x0 x1 x2 x3 => Sys2Proof.Machine.execSextb x0 x1 x2 x3 s
  | .sexth x0 x1 x2 x3 => Sys2Proof.Machine.execSexth x0 x1 x2 x3 s
  | .sextw x0 x1 x2 => Sys2Proof.Machine.execSextw x0 x1 x2 s
  | .zextb x0 x1 x2 x3 => Sys2Proof.Machine.execZextb x0 x1 x2 x3 s
  | .zexth x0 x1 x2 x3 => Sys2Proof.Machine.execZexth x0 x1 x2 x3 s
  | .zextw x0 x1 x2 => Sys2Proof.Machine.execZextw x0 x1 x2 s
  | .bfx x0 x1 x2 x3 => Sys2Proof.Machine.execBfx x0 x1 x2 x3 s
  | .bfxs x0 x1 x2 x3 => Sys2Proof.Machine.execBfxs x0 x1 x2 x3 s
  | .bfi x0 x1 x2 x3 => Sys2Proof.Machine.execBfi x0 x1 x2 x3 s
  | .lea x0 x1 x2 x3 x4 => Sys2Proof.Machine.execLea x0 x1 x2 x3 x4 s
  | .addi x0 x1 x2 x3 => Sys2Proof.Machine.execAddi x0 x1 x2 x3 s
  | .muli x0 x1 x2 x3 => Sys2Proof.Machine.execMuli x0 x1 x2 x3 s
  | .andi x0 x1 x2 x3 => Sys2Proof.Machine.execAndi x0 x1 x2 x3 s
  | .ori x0 x1 x2 x3 => Sys2Proof.Machine.execOri x0 x1 x2 x3 s
  | .xori x0 x1 x2 x3 => Sys2Proof.Machine.execXori x0 x1 x2 x3 s
  | .shli x0 x1 x2 x3 => Sys2Proof.Machine.execShli x0 x1 x2 x3 s
  | .shri x0 x1 x2 x3 => Sys2Proof.Machine.execShri x0 x1 x2 x3 s
  | .shrai x0 x1 x2 x3 => Sys2Proof.Machine.execShrai x0 x1 x2 x3 s
  | .roti x0 x1 x2 x3 => Sys2Proof.Machine.execRoti x0 x1 x2 x3 s
  | .tcmp x0 x1 x2 x3 x4 => Sys2Proof.Machine.execTcmp x0 x1 x2 x3 x4 s
  | .tcmpi x0 x1 x2 x3 x4 => Sys2Proof.Machine.execTcmpi x0 x1 x2 x3 x4 s
  | .fadd x0 x1 x2 x3 x4 => Sys2Proof.Machine.execFadd x0 x1 x2 x3 x4 s
  | .fsub x0 x1 x2 x3 x4 => Sys2Proof.Machine.execFsub x0 x1 x2 x3 x4 s
  | .fmul x0 x1 x2 x3 x4 => Sys2Proof.Machine.execFmul x0 x1 x2 x3 x4 s
  | .fma x0 x1 x2 x3 x4 => Sys2Proof.Machine.execFma x0 x1 x2 x3 x4 s
  | .fdiv x0 x1 x2 x3 x4 => Sys2Proof.Machine.execFdiv x0 x1 x2 x3 x4 s
  | .fsqrt x0 x1 x2 x3 x4 => Sys2Proof.Machine.execFsqrt x0 x1 x2 x3 x4 s
  | .fmin x0 x1 x2 x3 => Sys2Proof.Machine.execFmin x0 x1 x2 x3 s
  | .fmax x0 x1 x2 x3 => Sys2Proof.Machine.execFmax x0 x1 x2 x3 s
  | .fminnum x0 x1 x2 x3 => Sys2Proof.Machine.execFminnum x0 x1 x2 x3 s
  | .fmaxnum x0 x1 x2 x3 => Sys2Proof.Machine.execFmaxnum x0 x1 x2 x3 s
  | .fcmp x0 x1 x2 x3 x4 => Sys2Proof.Machine.execFcmp x0 x1 x2 x3 x4 s
  | .fcvt x0 x1 x2 x3 x4 => Sys2Proof.Machine.execFcvt x0 x1 x2 x3 x4 s
  | .fabs x0 x1 x2 x3 => Sys2Proof.Machine.execFabs x0 x1 x2 x3 s
  | .fneg x0 x1 x2 x3 => Sys2Proof.Machine.execFneg x0 x1 x2 x3 s
  | .fclass x0 x1 x2 x3 => Sys2Proof.Machine.execFclass x0 x1 x2 x3 s
  | .fcopysign x0 x1 x2 x3 => Sys2Proof.Machine.execFcopysign x0 x1 x2 x3 s
  | .ldb x0 x1 x2 x3 x4 x5 => Sys2Proof.Machine.execLdb x0 x1 x2 x3 x4 x5 s
  | .ldbs x0 x1 x2 x3 x4 x5 => Sys2Proof.Machine.execLdbs x0 x1 x2 x3 x4 x5 s
  | .ldh x0 x1 x2 x3 x4 x5 => Sys2Proof.Machine.execLdh x0 x1 x2 x3 x4 x5 s
  | .ldhs x0 x1 x2 x3 x4 x5 => Sys2Proof.Machine.execLdhs x0 x1 x2 x3 x4 x5 s
  | .ldw x0 x1 x2 x3 x4 x5 => Sys2Proof.Machine.execLdw x0 x1 x2 x3 x4 x5 s
  | .ldws x0 x1 x2 x3 x4 x5 => Sys2Proof.Machine.execLdws x0 x1 x2 x3 x4 x5 s
  | .ldd x0 x1 x2 x3 x4 x5 => Sys2Proof.Machine.execLdd x0 x1 x2 x3 x4 x5 s
  | .ldq x0 x1 x2 x3 x4 x5 => Sys2Proof.Machine.execLdq x0 x1 x2 x3 x4 x5 s
  | .stb x0 x1 x2 x3 x4 => Sys2Proof.Machine.execStb x0 x1 x2 x3 x4 s
  | .sth x0 x1 x2 x3 x4 => Sys2Proof.Machine.execSth x0 x1 x2 x3 x4 s
  | .stw x0 x1 x2 x3 x4 => Sys2Proof.Machine.execStw x0 x1 x2 x3 x4 s
  | .std x0 x1 x2 x3 x4 => Sys2Proof.Machine.execStd x0 x1 x2 x3 x4 s
  | .stq x0 x1 x2 x3 x4 => Sys2Proof.Machine.execStq x0 x1 x2 x3 x4 s
  | .stn4 x0 x1 x2 x3 x4 x5 => Sys2Proof.Machine.execStn4 x0 x1 x2 x3 x4 x5 s
  | .ldv x0 x1 x2 x3 x4 x5 => Sys2Proof.Machine.execLdv x0 x1 x2 x3 x4 x5 s
  | .ldvStr x0 x1 x2 x3 x4 x5 => Sys2Proof.Machine.execLdvStr x0 x1 x2 x3 x4 x5 s
  | .ldvIdx x0 x1 x2 x3 x4 x5 => Sys2Proof.Machine.execLdvIdx x0 x1 x2 x3 x4 x5 s
  | .stv x0 x1 x2 x3 x4 x5 => Sys2Proof.Machine.execStv x0 x1 x2 x3 x4 x5 s
  | .stvStr x0 x1 x2 x3 x4 x5 => Sys2Proof.Machine.execStvStr x0 x1 x2 x3 x4 x5 s
  | .stvIdx x0 x1 x2 x3 x4 x5 => Sys2Proof.Machine.execStvIdx x0 x1 x2 x3 x4 x5 s
  | .aadd x0 x1 x2 x3 x4 x5 x6 => Sys2Proof.Machine.execAadd x0 x1 x2 x3 x4 x5 x6 s
  | .aand x0 x1 x2 x3 x4 x5 x6 => Sys2Proof.Machine.execAand x0 x1 x2 x3 x4 x5 x6 s
  | .aor x0 x1 x2 x3 x4 x5 x6 => Sys2Proof.Machine.execAor x0 x1 x2 x3 x4 x5 x6 s
  | .axor x0 x1 x2 x3 x4 x5 x6 => Sys2Proof.Machine.execAxor x0 x1 x2 x3 x4 x5 x6 s
  | .amin x0 x1 x2 x3 x4 x5 x6 => Sys2Proof.Machine.execAmin x0 x1 x2 x3 x4 x5 x6 s
  | .amax x0 x1 x2 x3 x4 x5 x6 => Sys2Proof.Machine.execAmax x0 x1 x2 x3 x4 x5 x6 s
  | .aminn x0 x1 x2 x3 x4 x5 x6 => Sys2Proof.Machine.execAminn x0 x1 x2 x3 x4 x5 x6 s
  | .amaxn x0 x1 x2 x3 x4 x5 x6 => Sys2Proof.Machine.execAmaxn x0 x1 x2 x3 x4 x5 x6 s
  | .aswp x0 x1 x2 x3 x4 x5 x6 => Sys2Proof.Machine.execAswp x0 x1 x2 x3 x4 x5 x6 s
  | .acas x0 x1 x2 x3 x4 x5 x6 => Sys2Proof.Machine.execAcas x0 x1 x2 x3 x4 x5 x6 s
  | .afadd x0 x1 x2 x3 x4 x5 x6 => Sys2Proof.Machine.execAfadd x0 x1 x2 x3 x4 x5 x6 s
  | .fenceFull x0 x1 => Sys2Proof.Machine.execFenceFull x0 x1 s
  | .fenceAcq x0 x1 => Sys2Proof.Machine.execFenceAcq x0 x1 s
  | .fenceRel x0 x1 => Sys2Proof.Machine.execFenceRel x0 x1 s
  | .fenceSs x0 x1 => Sys2Proof.Machine.execFenceSs x0 x1 s
  | .acq x0 x1 x2 x3 x4 x5 => Sys2Proof.Machine.execAcq x0 x1 x2 x3 x4 x5 s
  | .rel x0 x1 x2 x3 x4 => Sys2Proof.Machine.execRel x0 x1 x2 x3 x4 s
  | .wbr x0 x1 => Sys2Proof.Machine.execWbr x0 x1 s
  | .invr x0 x1 => Sys2Proof.Machine.execInvr x0 x1 s
  | .pref x0 x1 => Sys2Proof.Machine.execPref x0 x1 s
  | .ibar x0 => Sys2Proof.Machine.execIbar x0 s
  | .lncfg x0 => Sys2Proof.Machine.execLncfg x0 s
  | .vsetl x0 x1 x2 x3 => Sys2Proof.Machine.execVsetl x0 x1 x2 x3 s
  | .vgetl x0 x1 x2 x3 => Sys2Proof.Machine.execVgetl x0 x1 x2 x3 s
  | .vbcast x0 x1 x2 => Sys2Proof.Machine.execVbcast x0 x1 x2 s
  | .vidx x0 x1 x2 => Sys2Proof.Machine.execVidx x0 x1 x2 s
  | .vextr x0 x1 x2 x3 => Sys2Proof.Machine.execVextr x0 x1 x2 x3 s
  | .vadd x0 x1 x2 x3 x4 => Sys2Proof.Machine.execVadd x0 x1 x2 x3 x4 s
  | .vsub x0 x1 x2 x3 x4 => Sys2Proof.Machine.execVsub x0 x1 x2 x3 x4 s
  | .vrsub x0 x1 x2 x3 x4 => Sys2Proof.Machine.execVrsub x0 x1 x2 x3 x4 s
  | .vmul x0 x1 x2 x3 x4 => Sys2Proof.Machine.execVmul x0 x1 x2 x3 x4 s
  | .vdiv x0 x1 x2 x3 x4 => Sys2Proof.Machine.execVdiv x0 x1 x2 x3 x4 s
  | .vmin x0 x1 x2 x3 x4 => Sys2Proof.Machine.execVmin x0 x1 x2 x3 x4 s
  | .vmax x0 x1 x2 x3 x4 => Sys2Proof.Machine.execVmax x0 x1 x2 x3 x4 s
  | .vabsd x0 x1 x2 x3 x4 => Sys2Proof.Machine.execVabsd x0 x1 x2 x3 x4 s
  | .vfma x0 x1 x2 x3 x4 => Sys2Proof.Machine.execVfma x0 x1 x2 x3 x4 s
  | .vfms x0 x1 x2 x3 x4 => Sys2Proof.Machine.execVfms x0 x1 x2 x3 x4 s
  | .vfnma x0 x1 x2 x3 x4 => Sys2Proof.Machine.execVfnma x0 x1 x2 x3 x4 s
  | .vfnms x0 x1 x2 x3 x4 => Sys2Proof.Machine.execVfnms x0 x1 x2 x3 x4 s
  | .vdoti8 x0 x1 x2 x3 x4 => Sys2Proof.Machine.execVdoti8 x0 x1 x2 x3 x4 s
  | .vdoti4 x0 x1 x2 x3 x4 => Sys2Proof.Machine.execVdoti4 x0 x1 x2 x3 x4 s
  | .vand x0 x1 x2 x3 x4 => Sys2Proof.Machine.execVand x0 x1 x2 x3 x4 s
  | .vor x0 x1 x2 x3 x4 => Sys2Proof.Machine.execVor x0 x1 x2 x3 x4 s
  | .vxor x0 x1 x2 x3 x4 => Sys2Proof.Machine.execVxor x0 x1 x2 x3 x4 s
  | .vandn x0 x1 x2 x3 x4 => Sys2Proof.Machine.execVandn x0 x1 x2 x3 x4 s
  | .vshl x0 x1 x2 x3 x4 => Sys2Proof.Machine.execVshl x0 x1 x2 x3 x4 s
  | .vshr x0 x1 x2 x3 x4 => Sys2Proof.Machine.execVshr x0 x1 x2 x3 x4 s
  | .vshra x0 x1 x2 x3 x4 => Sys2Proof.Machine.execVshra x0 x1 x2 x3 x4 s
  | .vnot x0 x1 x2 x3 => Sys2Proof.Machine.execVnot x0 x1 x2 x3 s
  | .vcmp x0 x1 x2 x3 x4 x5 => Sys2Proof.Machine.execVcmp x0 x1 x2 x3 x4 x5 s
  | .vmov x0 x1 x2 x3 => Sys2Proof.Machine.execVmov x0 x1 x2 x3 s
  | .vsel x0 x1 x2 x3 x4 => Sys2Proof.Machine.execVsel x0 x1 x2 x3 x4 s
  | .vcmpct x0 x1 x2 x3 x4 => Sys2Proof.Machine.execVcmpct x0 x1 x2 x3 x4 s
  | .vpermx x0 x1 x2 x3 x4 => Sys2Proof.Machine.execVpermx x0 x1 x2 x3 x4 s
  | .vslideup x0 x1 x2 x3 x4 => Sys2Proof.Machine.execVslideup x0 x1 x2 x3 x4 s
  | .vslidedn x0 x1 x2 x3 x4 => Sys2Proof.Machine.execVslidedn x0 x1 x2 x3 x4 s
  | .vzip x0 x1 x2 x3 x4 => Sys2Proof.Machine.execVzip x0 x1 x2 x3 x4 s
  | .vunzip x0 x1 x2 x3 x4 => Sys2Proof.Machine.execVunzip x0 x1 x2 x3 x4 s
  | .rsum x0 x1 x2 x3 => Sys2Proof.Machine.execRsum x0 x1 x2 x3 s
  | .rmax x0 x1 x2 x3 => Sys2Proof.Machine.execRmax x0 x1 x2 x3 s
  | .rmin x0 x1 x2 x3 => Sys2Proof.Machine.execRmin x0 x1 x2 x3 s
  | .rsumw x0 x1 x2 x3 => Sys2Proof.Machine.execRsumw x0 x1 x2 x3 s
  | .rcount x0 x1 x2 x3 => Sys2Proof.Machine.execRcount x0 x1 x2 x3 s
  | .rfirst x0 x1 x2 x3 => Sys2Proof.Machine.execRfirst x0 x1 x2 x3 s
  | .vscanSum x0 x1 x2 x3 => Sys2Proof.Machine.execVscanSum x0 x1 x2 x3 s
  | .vscanMax x0 x1 x2 x3 => Sys2Proof.Machine.execVscanMax x0 x1 x2 x3 s
  | .vscanMin x0 x1 x2 x3 => Sys2Proof.Machine.execVscanMin x0 x1 x2 x3 s
  | .vscanSegsum x0 x1 x2 x3 x4 => Sys2Proof.Machine.execVscanSegsum x0 x1 x2 x3 x4 s
  | .exp2 x0 x1 x2 x3 => Sys2Proof.Machine.execExp2 x0 x1 x2 x3 s
  | .log2 x0 x1 x2 x3 => Sys2Proof.Machine.execLog2 x0 x1 x2 x3 s
  | .rcp x0 x1 x2 x3 => Sys2Proof.Machine.execRcp x0 x1 x2 x3 s
  | .rsq x0 x1 x2 x3 => Sys2Proof.Machine.execRsq x0 x1 x2 x3 s
  | .sqrt x0 x1 x2 x3 => Sys2Proof.Machine.execSqrt x0 x1 x2 x3 s
  | .tanh x0 x1 x2 x3 => Sys2Proof.Machine.execTanh x0 x1 x2 x3 s
  | .sigm x0 x1 x2 x3 => Sys2Proof.Machine.execSigm x0 x1 x2 x3 s
  | .erf x0 x1 x2 x3 => Sys2Proof.Machine.execErf x0 x1 x2 x3 s
  | .vcvt x0 x1 x2 x3 x4 x5 => Sys2Proof.Machine.execVcvt x0 x1 x2 x3 x4 x5 s
  | .vdeq x0 x1 x2 x3 x4 => Sys2Proof.Machine.execVdeq x0 x1 x2 x3 x4 s
  | .vscl x0 x1 x2 x3 x4 => Sys2Proof.Machine.execVscl x0 x1 x2 x3 x4 s
  | .vqnt x0 x1 x2 x3 x4 => Sys2Proof.Machine.execVqnt x0 x1 x2 x3 x4 s
  | .vamax x0 x1 x2 x3 => Sys2Proof.Machine.execVamax x0 x1 x2 x3 s
  | .pack x0 x1 x2 x3 x4 => Sys2Proof.Machine.execPack x0 x1 x2 x3 x4 s
  | .unpklo x0 x1 x2 x3 => Sys2Proof.Machine.execUnpklo x0 x1 x2 x3 s
  | .unpkhi x0 x1 x2 x3 => Sys2Proof.Machine.execUnpkhi x0 x1 x2 x3 s
  | .gettag x0 x1 x2 x3 => Sys2Proof.Machine.execGettag x0 x1 x2 x3 s
  | .settag x0 x1 x2 => Sys2Proof.Machine.execSettag x0 x1 x2 s
  | .clrtag x0 x1 x2 => Sys2Proof.Machine.execClrtag x0 x1 x2 s
  | .mshape x0 x1 => Sys2Proof.Machine.execMshape x0 x1 s
  | .mzero x0 x1 => Sys2Proof.Machine.execMzero x0 x1 s
  | .mwait x0 x1 x2 => Sys2Proof.Machine.execMwait x0 x1 x2 s
  | .mstat x0 x1 => Sys2Proof.Machine.execMstat x0 x1 s
  | .mtscl x0 x1 => Sys2Proof.Machine.execMtscl x0 x1 s
  | .mma x0 x1 x2 x3 x4 x5 => Sys2Proof.Machine.execMma x0 x1 x2 x3 x4 x5 s
  | .mmas x0 x1 x2 x3 x4 x5 => Sys2Proof.Machine.execMmas x0 x1 x2 x3 x4 x5 s
  | .mmav x0 x1 x2 x3 x4 => Sys2Proof.Machine.execMmav x0 x1 x2 x3 x4 s
  | .mmavSub x0 x1 x2 x3 x4 => Sys2Proof.Machine.execMmavSub x0 x1 x2 x3 x4 s
  | .mldv x0 x1 x2 x3 x4 => Sys2Proof.Machine.execMldv x0 x1 x2 x3 x4 s
  | .mrdv x0 x1 x2 x3 x4 => Sys2Proof.Machine.execMrdv x0 x1 x2 x3 x4 s
  | .msto x0 x1 x2 x3 x4 x5 x6 => Sys2Proof.Machine.execMsto x0 x1 x2 x3 x4 x5 x6 s
  | .maddm x0 x1 x2 x3 x4 => Sys2Proof.Machine.execMaddm x0 x1 x2 x3 x4 s
  | .mtrn x0 x1 x2 x3 => Sys2Proof.Machine.execMtrn x0 x1 x2 x3 s
  | .mcopy x0 x1 x2 x3 => Sys2Proof.Machine.execMcopy x0 x1 x2 x3 s
  | .spawn x0 => Sys2Proof.Machine.execSpawn x0 s
  | .spawna x0 => Sys2Proof.Machine.execSpawna x0 s
  | .join x0 => Sys2Proof.Machine.execJoin x0 s
  | .taskend x0 => Sys2Proof.Machine.execTaskend x0 s
  | .yield x0 => Sys2Proof.Machine.execYield x0 s
  | .taskid x0 x1 x2 => Sys2Proof.Machine.execTaskid x0 x1 x2 s
  | .width x0 => Sys2Proof.Machine.execWidth x0 s
  | .launch x0 => Sys2Proof.Machine.execLaunch x0 s
  | .domwait x0 x1 => Sys2Proof.Machine.execDomwait x0 x1 s
  | .chcfg x0 x1 => Sys2Proof.Machine.execChcfg x0 x1 s
  | .chcfgAge x0 x1 => Sys2Proof.Machine.execChcfgAge x0 x1 s
  | .chlen x0 x1 x2 => Sys2Proof.Machine.execChlen x0 x1 x2 s
  | .chclr x0 x1 x2 => Sys2Proof.Machine.execChclr x0 x1 x2 s
  | .waitc x0 x1 x2 => Sys2Proof.Machine.execWaitc x0 x1 x2 s
  | .waitcAge x0 x1 x2 => Sys2Proof.Machine.execWaitcAge x0 x1 x2 s
  | .waitcJoin x0 x1 => Sys2Proof.Machine.execWaitcJoin x0 x1 s
  | .rdc x0 x1 x2 => Sys2Proof.Machine.execRdc x0 x1 x2 s
  | .jadd x0 x1 => Sys2Proof.Machine.execJadd x0 x1 s
  | .pcfg x0 x1 => Sys2Proof.Machine.execPcfg x0 x1 s
  | .time x0 x1 x2 => Sys2Proof.Machine.execTime x0 x1 x2 s
  | .cbld x0 x1 => Sys2Proof.Machine.execCbld x0 x1 s
  | .alinv x0 x1 x2 => Sys2Proof.Machine.execAlinv x0 x1 x2 s
  | .attr x0 x1 x2 => Sys2Proof.Machine.execAttr x0 x1 x2 s
  | .dmapq x0 x1 x2 => Sys2Proof.Machine.execDmapq x0 x1 x2 s
  | .wlLaunch x0 x1 => Sys2Proof.Machine.execWlLaunch x0 x1 s
  | .wlFence x0 x1 => Sys2Proof.Machine.execWlFence x0 x1 s
  | .wlPoll x0 x1 => Sys2Proof.Machine.execWlPoll x0 x1 s
  | .wlWait x0 x1 x2 => Sys2Proof.Machine.execWlWait x0 x1 x2 s
  | .wlCancel x0 x1 => Sys2Proof.Machine.execWlCancel x0 x1 s
  | .wlStatus x0 x1 => Sys2Proof.Machine.execWlStatus x0 x1 s
  | .wlPrio x0 x1 x2 => Sys2Proof.Machine.execWlPrio x0 x1 x2 s
  | .blockFetch x0 x1 => Sys2Proof.Machine.execBlockFetch x0 x1 s
  | .returnStackSpill x0 => Sys2Proof.Machine.execReturnStackSpill x0 s
  | .blockCommit x0 => Sys2Proof.Machine.execBlockCommit x0 s
  | .faultTake x0 => Sys2Proof.Machine.execFaultTake x0 s
  | .ochrePacketEnqueue x0 => Sys2Proof.Machine.execOchrePacketEnqueue x0 s
  | .ochrePacketRead x0 => Sys2Proof.Machine.execOchrePacketRead x0 s
  | .loadReply x0 x1 x2 => Sys2Proof.Machine.execLoadReply x0 x1 x2 s
  | .atomicPerform x0 x1 x2 => Sys2Proof.Machine.execAtomicPerform x0 x1 x2 s
  | .hostAtomicCasRetry x0 x1 x2 x3 => Sys2Proof.Machine.execHostAtomicCasRetry x0 x1 x2 x3 s
  | .postedStorePerform x0 x1 => Sys2Proof.Machine.execPostedStorePerform x0 x1 s
  | .relItemPerform x0 x1 => Sys2Proof.Machine.execRelItemPerform x0 x1 s
  | .storeRetryReoffer x0 x1 => Sys2Proof.Machine.execStoreRetryReoffer x0 x1 s
  | .replayEntryPerform x0 => Sys2Proof.Machine.execReplayEntryPerform x0 s
  | .rplcmdReplay x0 => Sys2Proof.Machine.execRplcmdReplay x0 s
  | .rplcmdDiscard x0 => Sys2Proof.Machine.execRplcmdDiscard x0 s
  | .replayHwmRead x0 => Sys2Proof.Machine.execReplayHwmRead x0 s
  | .pageWalkComplete x0 x1 x2 => Sys2Proof.Machine.execPageWalkComplete x0 x1 x2 s
  | .l1dEviction x0 x1 x2 => Sys2Proof.Machine.execL1dEviction x0 x1 x2 s
  | .invalidationComplete => Sys2Proof.Machine.execInvalidationComplete s
  | .pageMove x0 x1 x2 => Sys2Proof.Machine.execPageMove x0 x1 x2 s
  | .widenReserve x0 => Sys2Proof.Machine.execWidenReserve x0 s
  | .widenRedistribute x0 => Sys2Proof.Machine.execWidenRedistribute x0 s
  | .tensorIssue x0 x1 x2 => Sys2Proof.Machine.execTensorIssue x0 x1 x2 s
  | .mmaEntryConsume x0 x1 => Sys2Proof.Machine.execMmaEntryConsume x0 x1 s
  | .tensorOpComplete x0 x1 => Sys2Proof.Machine.execTensorOpComplete x0 x1 s
  | .mstoEntryPush x0 x1 => Sys2Proof.Machine.execMstoEntryPush x0 x1 s
  | .matrixNodeModeChange x0 x1 => Sys2Proof.Machine.execMatrixNodeModeChange x0 x1 s
  | .portEntryDeliver x0 x1 => Sys2Proof.Machine.execPortEntryDeliver x0 x1 s
  | .portCreditReturn x0 x1 => Sys2Proof.Machine.execPortCreditReturn x0 x1 s
  | .ageRecordFetch x0 x1 => Sys2Proof.Machine.execAgeRecordFetch x0 x1 s
  | .ageElementDeliver x0 x1 => Sys2Proof.Machine.execAgeElementDeliver x0 x1 s
  | .ageElementWrite x0 x1 => Sys2Proof.Machine.execAgeElementWrite x0 x1 s
  | .ownerPop x0 => Sys2Proof.Machine.execOwnerPop x0 s
  | .theftRequest x0 => Sys2Proof.Machine.execTheftRequest x0 s
  | .theftCopyComplete x0 => Sys2Proof.Machine.execTheftCopyComplete x0 s
  | .theftReply x0 => Sys2Proof.Machine.execTheftReply x0 s
  | .theftLapWaitExpiry x0 => Sys2Proof.Machine.execTheftLapWaitExpiry x0 s
  | .poolTakeRetry x0 => Sys2Proof.Machine.execPoolTakeRetry x0 s
  | .joinWordRead x0 => Sys2Proof.Machine.execJoinWordRead x0 s
  | .joinSuspend x0 => Sys2Proof.Machine.execJoinSuspend x0 s
  | .jcountDecrement => Sys2Proof.Machine.execJcountDecrement s
  | .resumeFrameHandoff => Sys2Proof.Machine.execResumeFrameHandoff s
  | .graphComplete x0 => Sys2Proof.Machine.execGraphComplete x0 s
  | .quiescenceTokenForward x0 => Sys2Proof.Machine.execQuiescenceTokenForward x0 s
  | .engineKickStart x0 => Sys2Proof.Machine.execEngineKickStart x0 s
  | .launchPost => Sys2Proof.Machine.execLaunchPost s
  | .placementDecision => Sys2Proof.Machine.execPlacementDecision s
  | .launchAgeTick x0 => Sys2Proof.Machine.execLaunchAgeTick x0 s
  | .backfillReserve => Sys2Proof.Machine.execBackfillReserve s
  | .timeTriggerSlot x0 => Sys2Proof.Machine.execTimeTriggerSlot x0 s
  | .launchTableEnable x0 => Sys2Proof.Machine.execLaunchTableEnable x0 s
  | .missedRead x0 => Sys2Proof.Machine.execMissedRead x0 s
  | .doorbellWrite x0 x1 => Sys2Proof.Machine.execDoorbellWrite x0 x1 s
  | .launchPageCancel x0 => Sys2Proof.Machine.execLaunchPageCancel x0 s
  | .launchPagePrioset x0 x1 => Sys2Proof.Machine.execLaunchPagePrioset x0 x1 s
  | .lasterrRead x0 => Sys2Proof.Machine.execLasterrRead x0 s
  | .tinvInvalidate x0 => Sys2Proof.Machine.execTinvInvalidate x0 s
  | .peSwapOut x0 => Sys2Proof.Machine.execPeSwapOut x0 s
  | .pePreloadShadow x0 => Sys2Proof.Machine.execPePreloadShadow x0 s
  | .peClockStop x0 => Sys2Proof.Machine.execPeClockStop x0 s
  | .peDrainIvory x0 => Sys2Proof.Machine.execPeDrainIvory x0 s
  | .peRestoreSepia x0 => Sys2Proof.Machine.execPeRestoreSepia x0 s
  | .peRestoreIvory x0 => Sys2Proof.Machine.execPeRestoreIvory x0 s
  | .shadowSwap x0 => Sys2Proof.Machine.execShadowSwap x0 s
  | .streamerWriteOut x0 => Sys2Proof.Machine.execStreamerWriteOut x0 s
  | .scratchPageExchange x0 x1 => Sys2Proof.Machine.execScratchPageExchange x0 x1 s
  | .arrivalLogAppend x0 => Sys2Proof.Machine.execArrivalLogAppend x0 s
  | .heldMessageReoffer => Sys2Proof.Machine.execHeldMessageReoffer s
  | .drainComplete => Sys2Proof.Machine.execDrainComplete s
  | .drainLimitExpiry => Sys2Proof.Machine.execDrainLimitExpiry s
  | .dbgResume x0 => Sys2Proof.Machine.execDbgResume x0 s
  | .dbgReexecute x0 => Sys2Proof.Machine.execDbgReexecute x0 s
  | .dbgEndContext x0 => Sys2Proof.Machine.execDbgEndContext x0 s
  | .dbgHalt x0 => Sys2Proof.Machine.execDbgHalt x0 s
  | .dbgStep x0 => Sys2Proof.Machine.execDbgStep x0 s
  | .dbgResolve x0 x1 x2 => Sys2Proof.Machine.execDbgResolve x0 x1 x2 s
  | .dbgThaltWrite x0 x1 => Sys2Proof.Machine.execDbgThaltWrite x0 x1 s
  | .dbgInject x0 x1 => Sys2Proof.Machine.execDbgInject x0 x1 s
  | .dbgRegisterWrite x0 x1 x2 x3 => Sys2Proof.Machine.execDbgRegisterWrite x0 x1 x2 x3 s
  | .portControlWrite x0 x1 x2 => Sys2Proof.Machine.execPortControlWrite x0 x1 x2 s
  | .engineResume x0 => Sys2Proof.Machine.execEngineResume x0 s
  | .engineReexecute x0 => Sys2Proof.Machine.execEngineReexecute x0 s
  | .engineReturnIdle x0 => Sys2Proof.Machine.execEngineReturnIdle x0 s
  | .ageResume x0 x1 => Sys2Proof.Machine.execAgeResume x0 x1 s
  | .ageStop x0 x1 => Sys2Proof.Machine.execAgeStop x0 x1 s
  | .watchArm x0 x1 => Sys2Proof.Machine.execWatchArm x0 x1 s
  | .watchDisarm x0 x1 => Sys2Proof.Machine.execWatchDisarm x0 x1 s
  | .traceGapRecord x0 => Sys2Proof.Machine.execTraceGapRecord x0 s
  | .registerWrite x0 x1 x2 => Sys2Proof.Machine.execRegisterWrite x0 x1 x2 s
  | .islandPointChange x0 => Sys2Proof.Machine.execIslandPointChange x0 s
  | .powerSample x0 => Sys2Proof.Machine.execPowerSample x0 s
  | .valarmCountRead => Sys2Proof.Machine.execValarmCountRead s
  | .islandCapStep x0 => Sys2Proof.Machine.execIslandCapStep x0 s
  | .junctionOvertemp x0 => Sys2Proof.Machine.execJunctionOvertemp x0 s
  | .ptpMessage x0 => Sys2Proof.Machine.execPtpMessage x0 s
  | .ptpHoldoverTimeout => Sys2Proof.Machine.execPtpHoldoverTimeout s
  | .functionReady x0 => Sys2Proof.Machine.execFunctionReady x0 s
  | .dumpvClear => Sys2Proof.Machine.execDumpvClear s
  | .deviceReset => Sys2Proof.Machine.execDeviceReset s
  | .machineCheck x0 x1 => Sys2Proof.Machine.execMachineCheck x0 x1 s
  | .watchdogExpiry => Sys2Proof.Machine.execWatchdogExpiry s
  | .firmwareUpdate x0 => Sys2Proof.Machine.execFirmwareUpdate x0 s
  | .decodeMapLoad x0 => Sys2Proof.Machine.execDecodeMapLoad x0 s
  | .keyInstall x0 => Sys2Proof.Machine.execKeyInstall x0 s
  | .objectLoad x0 x1 x2 x3 => Sys2Proof.Machine.execObjectLoad x0 x1 x2 x3 s
  | .objectUnload x0 x1 x2 => Sys2Proof.Machine.execObjectUnload x0 x1 x2 s
  | .atsTranslationCompletion x0 x1 x2 x3 => Sys2Proof.Machine.execAtsTranslationCompletion x0 x1 x2 x3 s
  | .priResponse x0 x1 x2 => Sys2Proof.Machine.execPriResponse x0 x1 x2 s
  | .atsInvalidation x0 x1 x2 => Sys2Proof.Machine.execAtsInvalidation x0 x1 x2 s
  | .completionTimeout x0 x1 x2 => Sys2Proof.Machine.execCompletionTimeout x0 x1 x2 s
  | .hostApertureAccess x0 x1 x2 x3 => Sys2Proof.Machine.execHostApertureAccess x0 x1 x2 x3 s
  | .peerAccess x0 x1 x2 => Sys2Proof.Machine.execPeerAccess x0 x1 x2 s
  | .backInvalidateResponse x0 => Sys2Proof.Machine.execBackInvalidateResponse x0 s
  | .ringEnable x0 x1 => Sys2Proof.Machine.execRingEnable x0 x1 s
  | .ringEntryTake x0 x1 => Sys2Proof.Machine.execRingEntryTake x0 x1 s
  | .networkEntryComplete x0 x1 => Sys2Proof.Machine.execNetworkEntryComplete x0 x1 s
  | .networkPacketReceive x0 x1 x2 x3 => Sys2Proof.Machine.execNetworkPacketReceive x0 x1 x2 x3 s
  | .mgOpenSource x0 => Sys2Proof.Machine.execMgOpenSource x0 s
  | .mgOpenTarget x0 => Sys2Proof.Machine.execMgOpenTarget x0 s
  | .mgFinalStop x0 => Sys2Proof.Machine.execMgFinalStop x0 s
  | .mgAbort x0 => Sys2Proof.Machine.execMgAbort x0 s
  | .mgClose x0 => Sys2Proof.Machine.execMgClose x0 s
  | .mgKeyExchange x0 x1 => Sys2Proof.Machine.execMgKeyExchange x0 x1 s
  | .mgRound x0 => Sys2Proof.Machine.execMgRound x0 s
  | .mgDeadline x0 => Sys2Proof.Machine.execMgDeadline x0 s
  | .mgPageReceive x0 x1 x2 x3 x4 x5 => Sys2Proof.Machine.execMgPageReceive x0 x1 x2 x3 x4 x5 s
  | .mgRoundendReceive x0 x1 x2 x3 x4 => Sys2Proof.Machine.execMgRoundendReceive x0 x1 x2 x3 x4 s
  | .mgIvoryReceive x0 x1 x2 x3 x4 => Sys2Proof.Machine.execMgIvoryReceive x0 x1 x2 x3 x4 s
  | .mgFinalReceive x0 x1 x2 x3 x4 => Sys2Proof.Machine.execMgFinalReceive x0 x1 x2 x3 x4 s
  | .mgReadyReceive x0 x1 x2 => Sys2Proof.Machine.execMgReadyReceive x0 x1 x2 s
  | .mgGoReceive x0 x1 x2 => Sys2Proof.Machine.execMgGoReceive x0 x1 x2 s
  | .mgAbortReceive x0 x1 x2 x3 => Sys2Proof.Machine.execMgAbortReceive x0 x1 x2 x3 s
  | .mgLinkFailure x0 => Sys2Proof.Machine.execMgLinkFailure x0 s
  | .riscVCoreAccess x0 x1 x2 x3 => Sys2Proof.Machine.execRiscVCoreAccess x0 x1 x2 x3 s
  | .minresExpiry x0 => Sys2Proof.Machine.execMinresExpiry x0 s
  | .wlWaitDeadline x0 => Sys2Proof.Machine.execWlWaitDeadline x0 s
  | .dequeSpillResume x0 => Sys2Proof.Machine.execDequeSpillResume x0 s
  | .ringResume x0 x1 => Sys2Proof.Machine.execRingResume x0 x1 s
  | .migrationEngineResume x0 => Sys2Proof.Machine.execMigrationEngineResume x0 s
  | .cxlCacheSnoop x0 x1 => Sys2Proof.Machine.execCxlCacheSnoop x0 x1 s
  | .memorySoftError x0 x1 => Sys2Proof.Machine.execMemorySoftError x0 x1 s

end Sys2Proof.Machine
end

