-- ==== Sys2Proof/Machine/Sched.lean ====
section
/-! DEFINITION. What can move (log 4): the instruction a choice names, the steps that the device itself may take, in groups, and placing one instruction to run. -/
namespace Sys2Proof.Machine

/-- The instruction at index `idx` of the block with slot number `tag` on a hart (R67). -/
def blockInstr (s : State) (hart tag idx : Nat) : Option Instr :=
  match (s.hart hart).block tag with
  | some b =>
    match b.code[idx]? with
    | some w => decodeWord w
    | none => none
  | none => none

def setFocus (s : State) (hart tag idx : Nat) : State := { s with dev := { s.dev with focus := ⟨hart, tag, idx⟩ } }

/-! The steps of the device, in groups -/

/-- A step that the device takes without anything from outside: an instruction fires, a waiting wl instruction is executed again, a block is fetched, or an event of the same name takes place. -/
inductive Own where
  | fire (hart tag idx : Nat)
  | wl (core : Nat) (word : Word)
  | blockFetch (hart : Nat)
  | faultTake (hart : Nat)
  | loadReply (hart tag idx : Nat)
  | atomicPerform (hart tag idx : Nat)
  | tensorIssue (hart tag idx : Nat)
  | postedStorePerform (hart n : Nat)
  | relItemPerform (hart n : Nat)
  | storeRetryReoffer (hart n : Nat)
  | returnStackSpill (hart : Nat)
  | joinWordRead (hart : Nat)
  | joinSuspend (hart : Nat)
  | blockCommit (hart : Nat)
  | mmaEntryConsume (hart node : Nat)
  | tensorOpComplete (hart node : Nat)
  | mstoEntryPush (hart node : Nat)
  | matrixNodeModeChange (hart node : Nat)
  | widenReserve (hart : Nat)
  | widenRedistribute (hart : Nat)
  | theftCopyComplete (hart : Nat)
  | theftReply (hart : Nat)
  | ownerPop (hart : Nat)
  | theftLapWaitExpiry (hart : Nat)
  | theftRequest (hart : Nat)
  | quiescenceTokenForward (hart : Nat)
  | shadowSwap (place : Nat)
  | poolTakeRetry (place : Nat)
  | engineKickStart (place : Nat)
  | portEntryDeliver (place port : Nat)
  | portCreditReturn (place port : Nat)
  | ageRecordFetch (place age : Nat)
  | ageElementDeliver (place age : Nat)
  | ageElementWrite (place age : Nat)
  | scratchPageExchange (place page : Nat)
  | streamerWriteOut (place : Nat)
  | traceGapRecord (place : Nat)
  | ochrePacketEnqueue (row : Nat)
  | invalidationComplete
  | atsInvalidation (pasid : Nat) (va : Dbl) (pages : Nat)
  | jcountDecrement
  | resumeFrameHandoff
  | replayEntryPerform (bank : Nat)
  | launchPost
  | placementDecision
  | graphComplete (graph : Nat)
  | arrivalLogAppend (image : Nat)
  | heldMessageReoffer
  | drainComplete
  | ringEntryTake (port ring : Nat)
  | networkEntryComplete (port ring : Nat)
  | mgRound (slot : Nat)
  | mgFinalStop (slot : Nat)
  | islandPointChange (n : Nat)
  | functionReady (bit : Nat)
  deriving DecidableEq, Repr

/-- What may happen next on a hart: its fault, its pending accesses and posted items, firing, commit, tensor work, fetch, and the search for work. Firing is offered in R323's order; an agenda may name another instruction that is ready, which stands for operands of the first that have not arrived (DEDUCED, log 65). -/
def hartChoices (n : Nat) (h : Hart) : List Own :=
  [.faultTake n, .widenReserve n, .widenRedistribute n] ++
  h.blocks.flatMap (fun b => b.reqs.flatMap (fun r =>
    [.loadReply n b.tag r.idx, .atomicPerform n b.tag r.idx, .tensorIssue n b.tag r.idx])) ++
  (upTo h.posted.length).flatMap (fun i =>
    [.postedStorePerform n i, .relItemPerform n i, .storeRetryReoffer n i]) ++
  h.blocks.flatMap (fun b => ((upTo b.code.length).filter (fun i => !b.fired.contains i)).map (fun i => .fire n b.tag i)) ++
  [.returnStackSpill n, .joinWordRead n, .joinSuspend n, .blockCommit n] ++
  (if h.nodes.isEmpty then [] else (upTo 4).flatMap (fun k => [.mmaEntryConsume n k, .tensorOpComplete n k])) ++
  h.mout.map (fun o => .mstoEntryPush n o.node) ++ (upTo 4).map (fun k => .matrixNodeModeChange n k) ++
  [.blockFetch n, .theftCopyComplete n,
   .theftReply n, .ownerPop n, .theftLapWaitExpiry n, .theftRequest n,
   .quiescenceTokenForward n]

/-- What may happen next at a memory tile: swaps and streaming, the engine's start, its deque engine, ports and AGEs. -/
def tileChoices (p : Nat) : List Own :=
  [.shadowSwap p, .poolTakeRetry p, .engineKickStart p] ++
  (upTo 16).flatMap (fun k => [.portEntryDeliver p k, .portCreditReturn p k]) ++
  (upTo 8).flatMap (fun a => [.ageRecordFetch p a, .ageElementDeliver p a, .ageElementWrite p a]) ++
  (upTo 126).map (fun k => .scratchPageExchange p k) ++ [.streamerWriteOut p, .traceGapRecord p]

/-- The word of the wl instruction that an application core waits in (R406). -/
def WlWait.word (w : WlWait) : Word :=
  BitVec.ofNat 32 (11 + 2 ^ 7 * w.rd.toNat + 2 ^ 12 * w.kind + 2 ^ 15 * w.rs1.toNat + 2 ^ 20 * w.rs2.toNat)

/-- What may happen next outside the tiles: homes, replay, messages, the placement unit, migration, rings, waiting application cores, bring-up. -/
def deviceChoices (d : Dev) : List (List Own) :=
  [ d.senders.map (fun x => .ochrePacketEnqueue x.1),
    d.rplrun.map (fun x => .replayEntryPerform x.1), .invalidationComplete :: d.atsInval.map (fun x => .atsInvalidation x.1 x.2.1 x.2.2), [.jcountDecrement], [.resumeFrameHandoff],
    [.launchPost], [.placementDecision],
    d.graphs.map (fun g => .graphComplete g.id),
    [.arrivalLogAppend 0, .heldMessageReoffer], [.drainComplete],
    d.rings.flatMap (fun r => [.ringEntryTake (r.1 / 16) (r.1 % 16), .networkEntryComplete (r.1 / 16) (r.1 % 16)]) ++
      d.posts.map (fun m => .networkEntryComplete m.port (m.ring - 112)),
    d.migs.flatMap (fun m =>
      match m.2 with
      | some x => if x.state = 1 then [.mgRound m.1] else if x.state = 2 then [.mgFinalStop m.1] else []
      | none => []),
    d.apps.filterMap (fun a =>
      match a.2 with
      | some x => x.wait.map (fun w => .wl a.1 w.word)
      | none => none),
    (d.islands.map (fun i => .islandPointChange i.1)),
    (upTo 23).map (fun b => .functionReady b) ]

/-- Every group: the harts, the memory tiles, the rest of the device. -/
def choiceGroups (s : State) : List (List Own) :=
  s.dev.allHarts.map (fun p => hartChoices p.1 p.2) ++ s.dev.mts.map (fun p => tileChoices p.1) ++ deviceChoices s.dev

/-- The groups from number `k` on, then those before it. -/
def rotate {α : Type} (l : List α) (k : Nat) : List α :=
  l.drop (k % Nat.max l.length 1) ++ l.take (k % Nat.max l.length 1)

/-! Placing one instruction -/

/-- A zero token at each operand the instruction reads, and at its predicate a value that lets it fire (R73, R75). -/
def placedTokens (i : Instr) : List (Nat × Token) :=
  let ops := (upTo (operandCount i)).map (fun k => (k, tokOf 0))
  let p := predField i
  if p = 1 then ops ++ [(2, tokOf 1)] else if p = 2 then ops ++ [(2, tokOf 0)] else ops

/-- A running hart whose one block in flight holds the word at index 0, with its operand tokens there. -/
def placedHart (w : Word) (i : Instr) : Hart :=
  let b : Block :=
    { emptyBlock with code := [w], toks := placedTokens i }
  { Hart.reset with cwidth := 1, run := .running, blocks := [b] }

/-- Place one instruction as the next choice: a block word on the core at PLACE 0, or a custom-0 word on application core 0. -/
def placeWord (s : State) (w : Word) : State :=
  match decodeWord w with
  | some i => { s.setHart 0 (placedHart w i) with agenda := [.fire 0 0 0] }
  | none => { s with agenda := [.app 0 w], dev := { s.dev with ready := s.dev.ready ||| 0x80000 } }

end Sys2Proof.Machine
end

