-- ==== Sys2Proof/Machine/Run.lean ====
section
/-! DEFINITION. Running one choice: an instruction of a block fires, an application core executes a custom-0 word, or a step or input of the device takes place; and which choice is next. -/
namespace Sys2Proof.Machine

/-- Run one choice of a device that has not stopped. An instruction of a block is decoded from the block's own words (R67, R77); a slot that holds no instruction does nothing; a custom-0 word that is no wl instruction is illegal (R406); a CSR instruction reads and writes wlctx (R405); any other word of the RISC-V architecture leaves free values in the core (log 9); none of them runs before the application cores are released (R436). The home of host or peer memory evaluates the binder waits there at its own stores too (R217, R219). -/
def runLive (c : Choice) (s : State) : Out :=
  match c with
  | .fire hart tag idx =>
    match blockInstr s hart tag idx with
    | some i => exec i (setFocus s hart tag idx)
    | none => .next s
  | .app core w =>
    match decodeWl w with
    | .ok i => exec i (setFocus s core 0 0)
    | .no _ =>
      if !s.dev.ready.getLsbD 19 then .next s
      else if w.toNat % 128 = 11 then .next (s.illegalWl core)
      else
        match wlctxWord w with
        | some (f3, rd, rs1) => .next (s.wlctxAccess core f3 rd rs1)
        | none => .next (s.riscVWord core)
  | .event i => exec i s
  | .riscV core r => .next (s.riscVLeaves core r)
  | .slate row r => .next (s.slateLeaves row r)
  | .decay bank frame n => .next (s.decayCount bank frame n)
  | .hostStore pa bs => .next (({ s with host := setBytes s.host pa bs } : State).wake (.host pa) bs.length)
  | .peerStore node pa bs => .next (({ s with peer := setBytes s.peer (peerKey node pa) bs } : State).wake (.peer (peerKey node pa)) bs.length)

/-- The one choice that acts on a device stopped by a fatal event (R440): its reset. -/
def Choice.afterFatal (c : Choice) : Bool :=
  match c with
  | .event .deviceReset => true
  | _ => false

/-- Run one choice; a device stopped by a fatal event takes only its reset (R440). -/
def runChoice (c : Choice) (s : State) : Out := if s.dev.halted && !c.afterFatal then .next s else runLive c s

/-- Run a step of the device's own: the meaning of the instruction or event it names. -/
def runOwn (o : Own) (s : State) : Out :=
  match o with
  | .fire hart tag idx => runLive (.fire hart tag idx) s
  | .wl core w => runLive (.app core w) s
  | .blockFetch hart => execBlockFetch hart none s
  | .faultTake hart => execFaultTake hart s
  | .loadReply hart tag idx => execLoadReply hart tag idx s
  | .atomicPerform hart tag idx => execAtomicPerform hart tag idx s
  | .tensorIssue hart tag idx => execTensorIssue hart tag idx s
  | .postedStorePerform hart n => execPostedStorePerform hart n s
  | .relItemPerform hart n => execRelItemPerform hart n s
  | .storeRetryReoffer hart n => execStoreRetryReoffer hart n s
  | .returnStackSpill hart => execReturnStackSpill hart s
  | .joinWordRead hart => execJoinWordRead hart s
  | .joinSuspend hart => execJoinSuspend hart s
  | .blockCommit hart => execBlockCommit hart s
  | .mmaEntryConsume hart node => execMmaEntryConsume hart node s
  | .tensorOpComplete hart node => execTensorOpComplete hart node s
  | .mstoEntryPush hart node => execMstoEntryPush hart node s
  | .matrixNodeModeChange hart node => execMatrixNodeModeChange hart node s
  | .replayEntryPerform bank => execReplayEntryPerform bank s
  | .widenReserve hart => execWidenReserve hart s
  | .widenRedistribute hart => execWidenRedistribute hart s
  | .theftCopyComplete hart => execTheftCopyComplete hart s
  | .theftReply hart => execTheftReply hart s
  | .ownerPop hart => execOwnerPop hart s
  | .theftLapWaitExpiry hart => execTheftLapWaitExpiry hart s
  | .theftRequest hart => execTheftRequest hart s
  | .quiescenceTokenForward hart => execQuiescenceTokenForward hart s
  | .shadowSwap place => execShadowSwap place s
  | .poolTakeRetry place => execPoolTakeRetry place s
  | .engineKickStart place => execEngineKickStart place s
  | .portEntryDeliver place port => execPortEntryDeliver place port s
  | .portCreditReturn place port => execPortCreditReturn place port s
  | .ageRecordFetch place age => execAgeRecordFetch place age s
  | .ageElementDeliver place age => execAgeElementDeliver place age s
  | .ageElementWrite place age => execAgeElementWrite place age s
  | .scratchPageExchange place page => execScratchPageExchange place page s
  | .streamerWriteOut place => execStreamerWriteOut place s
  | .traceGapRecord place => execTraceGapRecord place s
  | .ochrePacketEnqueue row => execOchrePacketEnqueue row s
  | .invalidationComplete => execInvalidationComplete s
  | .atsInvalidation pasid va pages => execAtsInvalidation pasid va pages s
  | .jcountDecrement => execJcountDecrement s
  | .resumeFrameHandoff => execResumeFrameHandoff s
  | .launchPost => execLaunchPost s
  | .placementDecision => execPlacementDecision s
  | .graphComplete graph => execGraphComplete graph s
  | .arrivalLogAppend image => execArrivalLogAppend image s
  | .heldMessageReoffer => execHeldMessageReoffer s
  | .drainComplete => execDrainComplete s
  | .ringEntryTake port ring => execRingEntryTake port ring s
  | .networkEntryComplete port ring => execNetworkEntryComplete port ring s
  | .mgRound slot => execMgRound slot s
  | .mgFinalStop slot => execMgFinalStop (slot, false) s
  | .islandPointChange n => execIslandPointChange n s
  | .functionReady bit => execFunctionReady bit s

/-- The step changes something beyond the focus. -/
def State.changedBy (s : State) (o : Own) : Bool :=
  match runOwn o s with
  | .next t => decide (({ t with dev := { t.dev with focus := s.dev.focus } } : State) ≠ s)
  | _ => true

/-- The device's own next step: of the groups in rotation the first step that changes something, with the number of the group after it (log 4); none once a fatal event has stopped it. -/
def defaultStep (s : State) : Option (Nat × Own) :=
  if s.dev.halted then none
  else
    let gs := choiceGroups s
    (rotate (gs.zip (List.range gs.length)) s.dev.turn).findSome? (fun g => (g.1.find? (fun o => s.changedBy o)).map (fun o => (g.2 + 1, o)))

end Sys2Proof.Machine
end

