-- ==== Sys2Proof/Machine/Step.lean ====
section
/-! DEFINITION. One step of the machine, and placing an instruction where the next step runs it. -/
namespace Sys2Proof.Machine

/-- One step: the head of the agenda runs, or with an empty agenda the device's own next step (log 4); where nothing can move, nothing changes. -/
def step (s : State) : Host.Outcome State Fault Refusal :=
  match s.agenda with
  | c :: cs => runChoice c { s with agenda := cs }
  | [] =>
    match defaultStep s with
    | some (k, o) => runOwn o { s with dev := { s.dev with turn := k } }
    | none => .next s

/-- `s` with the word `w` as the one instruction of a block in flight, ready to fire (log 10). -/
def State.withFetchWord (s : State) (_nbits w : Nat) : State := placeWord s (BitVec.ofNat 32 w)

end Sys2Proof.Machine
end

