-- ==== Sys2Proof/Safety.lean ====
section
/-! DEFINITION. The words of the claims: when an instruction of a block can fire, what its firing leaves, and what a safe run is. -/
namespace Sys2Proof.Machine

/-- The custom-0 words of the application cores (R406). -/
def isWl (i : Instr) : Bool :=
  match i with
  | .wlLaunch _ _ | .wlFence _ _ | .wlPoll _ _ | .wlWait _ _ _ | .wlCancel _ _ | .wlStatus _ _ | .wlPrio _ _ _ => true
  | _ => false

/-- The words of the dataflow blocks (R77, R79). -/
def isWelit (i : Instr) : Bool := !i.fields.isEmpty && !isWl i

/-- What instruction `i` asks before it fires, from the opcode table's columns (R75, R76, R78, R79); `oldest` where it acts only in the oldest block. -/
def formOf (i : Instr) (oldest : Bool) : Form :=
  { pr := predField i, operands := operandCount i, oldest := oldest, lsid := lsidOf i, vsid := vsidOf i, need := vecNeed i }

/-- The instruction of block `b` that stands in the focus can fire with the operands `l` and `r` (R23, R24, R28, R45, R75, R139, R369, R480): its core runs, or is frozen with its blocks held, and token flow is not halted; its block is mapped and alive and has no fault to be taken first, it has not fired, its predicate (if any) matches, its operands are there, its turn has come, and what it reads of the vector context is known. An operand it does not have stands as a null token. -/
structure Fires (s : State) (f : Form) (b : Block) (l r : Token) : Prop where
  block : (s.hart s.dev.focus.hart).block s.dev.focus.tag = some b
  running : (s.hart s.dev.focus.hart).run = .running ∨ (s.hart s.dev.focus.hart).run = .frozen
  free : (s.hart s.dev.focus.hart).thalt = false
  alive : b.dead = false
  once : b.fired.contains s.dev.focus.idx = false
  unspeculated : b.nospec = true → (s.hart s.dev.focus.hart).isOldest s.dev.focus.tag = true
  unfaulted : (s.hart s.dev.focus.hart).run = .running → (s.hart s.dev.focus.hart).isOldest s.dev.focus.tag = true → b.faults = []
  oldest : f.oldest = true → (s.hart s.dev.focus.hart).isOldest s.dev.focus.tag = true
  turn : f.vsid.all (b.turnFor f.need) = true
  context : f.vsid.isSome = true → (s.hart s.dev.focus.hart).vecKnown b f.need = true
  predicate : f.pr = 0 ∨
    ∃ k, b.tok (4 * s.dev.focus.idx + 2) = some k ∧ k.null = false ∧ (k.val.getLsbD 0 = true ↔ f.pr = 1)
  left : if f.operands = 0 then l = tokNull else b.tok (4 * s.dev.focus.idx) = some l
  right : if f.operands ≤ 1 then r = tokNull else b.tok (4 * s.dev.focus.idx + 1) = some r
  marked : fromPort b s.dev.focus.idx f = true → (s.hart s.dev.focus.hart).isOldest s.dev.focus.tag = true
  format : nmodeFault (s.hart s.dev.focus.hart) b s.dev.focus.idx f = none

/-- The predicate of the instruction that stands in the focus does not match (R24, R75), and all else that its firing asks is there; it takes no operand, so only its predicate token is looked at (log 49). -/
structure Nullified (s : State) (f : Form) (b : Block) : Prop where
  block : (s.hart s.dev.focus.hart).block s.dev.focus.tag = some b
  running : (s.hart s.dev.focus.hart).run = .running ∨ (s.hart s.dev.focus.hart).run = .frozen
  free : (s.hart s.dev.focus.hart).thalt = false
  alive : b.dead = false
  once : b.fired.contains s.dev.focus.idx = false
  unspeculated : b.nospec = true → (s.hart s.dev.focus.hart).isOldest s.dev.focus.tag = true
  unfaulted : (s.hart s.dev.focus.hart).run = .running → (s.hart s.dev.focus.hart).isOldest s.dev.focus.tag = true → b.faults = []
  turn : f.vsid.all (b.turnFor f.need) = true
  predicate : f.pr ≠ 0 ∧
    ∃ k, b.tok (4 * s.dev.focus.idx + 2) = some k ∧ (k.null = true ∨ ¬(k.val.getLsbD 0 = true ↔ f.pr = 1))
  marked : fromPort b s.dev.focus.idx { f with operands := 0 } = true → (s.hart s.dev.focus.hart).isOldest s.dev.focus.tag = true
  format : nmodeFault (s.hart s.dev.focus.hart) b s.dev.focus.idx { f with operands := 0 } = none

/-- What a firing leaves (R23, R24): its block is marked, one fired instruction is counted, `g` has its effect on the core, what has resolved goes forward, and the trace takes its copies. -/
def State.fired (s : State) (b : Block) (g : Hart → Block → Hart) : State :=
  let c := s.dev.focus
  let h := s.hart c.hart
  let b1 := { b with fired := b.fired ++ [c.idx] }
  s.setHart c.hart (h.traced (g ((h.count 5 1).putBlock b1) b1).forward (some (c.tag, c.idx)))

/-- A firing whose effect is on its block alone. -/
def State.firedBlock (s : State) (b : Block) (g : Block → Block) : State := s.fired b fun h b1 => h.putBlock (g b1)

/-- A nullified firing, which resolves and sends nothing and is not counted as fired (R24, R359). -/
def State.nullifiedBlock (s : State) (b : Block) (g : Block → Block) : State :=
  let c := s.dev.focus
  let h := s.hart c.hart
  let b1 := { b with fired := b.fired ++ [c.idx] }
  s.setHart c.hart (h.traced ((h.putBlock b1).putBlock (g b1)).forward (some (c.tag, c.idx)))

/-- A firing that sends one token. -/
def State.sends (s : State) (b : Block) (ts : List (BitVec 9)) (k : Token) : State := s.firedBlock b fun b1 => b1.deliverAll ts k

/-- What an instruction of a block may not change when it fires: the committed state of its core, all but the blocks in flight, the performance counters, the trace copies and the counts of violations. -/
def committed (h : Hart) : Hart := { h with blocks := [], pcnt := [], trace := [], traceLost := 0, violated := [] }

/-! The commit (R25) -/

/-- What is looked at after a commit: the committed state, but for the MSTO snapshots, which it lets push (R182). -/
def pastCommit (h : Hart) : Hart := { committed h with mout := [] }

/-- The oldest block `b` of a hart can commit and leaves by `br` (R25, R117, R281), and the commit is followed by no freeze, no port change that waits, and no lapse of a widening (R32, R120, R174, R376, R381). -/
structure Commits (s : State) (hart idx : Nat) (b : Block) (br : Branch) : Prop where
  ready : s.committing hart = some (b, idx, br)
  noticed : (s.hart hart).commitNotice b br = none
  spilled : needsSpill (s.hart hart) b br = false
  unbroken : b.breaks = []
  unwatched : (s.hart hart).pending = []
  unhalted : (s.hart hart).halting = false
  unstepped : (s.hart hart).stepping = false
  staying : (s.hart hart).leaving = false
  unreserved : (s.hart hart).reserve = none
  portsFree : (s.mt (placeOfHart hart)).waiting = []

/-- The registers with the block's write slots, its vector context, and SRSTATE stepped once where something of it drew stochastically and no WRSYS of it writes SRSTATE (R24, R55, R97, R139). -/
def Hart.withBlock (h : Hart) (b : Block) : Hart :=
  let c := h.commitRegs b
  { c with vec := b.vecOver c.vec,
           srstate := if b.sr && !b.wroteSys 8 then BitVec.ofNat 32 (sstep c.srstate.toNat) else c.srstate }

/-- The block has left: the next-block address, SEQ one higher, the block remembered as the last one, its checkpoint gone (R115, R164, R357). -/
def Hart.leftBy (x : Hart) (b : Block) (next : Dbl) : Hart :=
  { x with next := next, seq := x.seq + 1, came := (b.tag, b.addr, b.seq), ckpt := none }

/-- An item joins those that the hart has released, numbered and named by the block that commits (R210, R357, R373). -/
def Hart.posting (x : Hart) (cls ord : Nat) (what : PWhat) (status : Nat) : Hart :=
  { x with posted := x.posted ++ [{ cls := cls, ord := ord, what := what, status := status, seq := x.seq, cause := 0, src := x.source }] }

/-- The commit leaves the hart as `x`, the slot of the block free, every other hart as it was. -/
def CommitsAs (s t : State) (hart : Nat) (b : Block) (x : Hart) : Prop :=
  pastCommit (t.hart hart) = pastCommit x ∧ (t.hart hart).block b.tag = none ∧
  ∀ n, n ≠ hart → pastCommit (t.hart n) = pastCommit (s.hart n)

/-- No byte of device, host or peer memory changes. -/
def SameBytes (s t : State) : Prop := t.mem = s.mem ∧ t.host = s.host ∧ t.peer = s.peer

/-- Null operands give a null result (R111). -/
def orNull (operands : Nat) (l r k : Token) : Token :=
  if (1 ≤ operands ∧ l.null = true) ∨ (2 ≤ operands ∧ r.null = true) then tokNull else k

/-- Instruction `i`, wherever it can fire, answers the next state in which it has fired and sent the token `k` of the core and of the left and right operand to its targets, a null one for a null operand. -/
def Sends (i : Instr) (oldest : Bool) (k : Hart → Token → Token → Token) : Prop :=
  ∀ (s : State) (b : Block) (l r : Token), Fires s (formOf i oldest) b l r →
    exec i s = .next (s.sends b (targetsOf i) (orNull (operandCount i) l r (k (s.hart s.dev.focus.hart) l r)))

/-- The left 32 or 64 bits of an operand (R56, R126). -/
def opd (w : BitVec 1) (k : Token) : BitVec (widthOf w) := k.val.setWidth (widthOf w)

/-- A W-bit result in its 64-bit token (R56). -/
def res {w : BitVec 1} (x : BitVec (widthOf w)) : Token := tokOf (x.signExtend 64)

/-- What a vector instruction of the focus, in block `b`, reads beside its context (R139, R142): its block's codebook is the one the block has met first (R341). -/
def State.vecEnv (s : State) (b : Block) : VEnv :=
  let h := s.hart s.dev.focus.hart
  { n := h.nenv s.dev.focus.idx, cw := h.cwidth.toNat, book := s.bookOf s.dev.focus.hart b }

/-- A vector instruction resolves its VSID, leaves the context and sends its token, if it has one (R139); its block keeps the codebook it reads (R341). -/
def State.vecFired (s : State) (b : Block) (i : Instr) (q : Vec × Option Token × Bool) : State :=
  s.firedBlock b fun b1 =>
    let b2 := ({ b1 with vec := some q.1, sr := b1.sr || q.2.2, book := some (s.bookOf s.dev.focus.hart b) }).resolveV s.dev.focus.idx (vsidOf i)
    match q.2.1 with
    | some k => b2.deliverAll (targetsOf i) k
    | none => b2

/-- Vector instruction `i`, wherever it can fire and the tag checks `ok` hold, answers the next state in which it has made context, token and rounding mark of `g`; a null left token leaves the context and sends a null token (R141). -/
def VecActs (i : Instr) (ok : VEnv → Vec → Prop) (g : VEnv → Vec → Token → Vec × Option Token × Bool) : Prop :=
  ∀ (s : State) (b : Block) (l r : Token), Fires s (formOf i true) b l r →
    let x := b.ctxOf (s.hart s.dev.focus.hart)
    (operandCount i = 1 ∧ l.null = true →
      exec i s = .next (s.firedBlock b fun b1 => (b1.resolveV s.dev.focus.idx (vsidOf i)).deliverAll (targetsOf i) tokNull)) ∧
    (¬(operandCount i = 1 ∧ l.null = true) → ok (s.vecEnv b) x → exec i s = .next (s.vecFired b i (g (s.vecEnv b) x l)))

/-- Vector instruction `i`, wherever it can fire and the tag checks `ok` fail, records a format-mismatch fault and changes no register (R42, R141). -/
def VecClashes (i : Instr) (ok : VEnv → Vec → Prop) : Prop :=
  ∀ (s : State) (b : Block) (l r : Token), Fires s (formOf i true) b l r → ¬(operandCount i = 1 ∧ l.null = true) →
    ¬ok (s.vecEnv b) (b.ctxOf (s.hart s.dev.focus.hart)) →
    ∃ d, exec i s = .next (s.firedBlock b fun b1 => b1.fault 0x40 s.dev.focus.idx d 0)

end Sys2Proof.Machine
end

