-- ==== Sys2Proof/Certificates/Slice0/Obligations.lean ====
section
/-! DEFINITION. The statements for the provers. -/
open Sys2Proof Sys2Proof.Machine


/-! Integer instructions -/

/-- R126: each two-operand integer instruction sends the sign-extended W-bit result of its operation on the low W bits of its operands; a null operand gives a null token (R111). -/
def Obligations.IntegerTwoOperandResults : Prop :=
  ∀ (w : BitVec 1) (t0 t1 : BitVec 9) (pr : BitVec 2),
    let n := widthOf w
    Sends (.add w t0 t1 pr) false (fun _ l r => res (opd w l + opd w r)) ∧
    Sends (.sub w t0 t1 pr) false (fun _ l r => res (opd w l - opd w r)) ∧
    Sends (.mul w t0 t1 pr) false (fun _ l r => res (opd w l * opd w r)) ∧
    Sends (.mulh w t0 t1 pr) false (fun _ l r => res (w := w) (BitVec.ofInt n ((opd w l).toInt * (opd w r).toInt / 2 ^ n))) ∧
    Sends (.mulhn w t0 t1 pr) false (fun _ l r => res (w := w) (BitVec.ofNat n ((opd w l).toNat * (opd w r).toNat / 2 ^ n))) ∧
    Sends (.mulhsn w t0 t1 pr) false (fun _ l r => res (w := w) (BitVec.ofInt n ((opd w l).toInt * (opd w r).toNat / 2 ^ n))) ∧
    Sends (.min w t0 t1 pr) false (fun _ l r => res (if (opd w l).toInt ≤ (opd w r).toInt then opd w l else opd w r)) ∧
    Sends (.max w t0 t1 pr) false (fun _ l r => res (if (opd w l).toInt ≤ (opd w r).toInt then opd w r else opd w l)) ∧
    Sends (.minn w t0 t1 pr) false (fun _ l r => res (if opd w l ≤ opd w r then opd w l else opd w r)) ∧
    Sends (.maxn w t0 t1 pr) false (fun _ l r => res (if opd w l ≤ opd w r then opd w r else opd w l)) ∧
    Sends (.and w t0 t1 pr) false (fun _ l r => res (opd w l &&& opd w r)) ∧
    Sends (.or w t0 t1 pr) false (fun _ l r => res (opd w l ||| opd w r)) ∧
    Sends (.xor w t0 t1 pr) false (fun _ l r => res (opd w l ^^^ opd w r)) ∧
    Sends (.andn w t0 t1 pr) false (fun _ l r => res (opd w l &&& ~~~opd w r)) ∧
    Sends (.orn w t0 t1 pr) false (fun _ l r => res (opd w l ||| ~~~opd w r)) ∧
    Sends (.xnor w t0 t1 pr) false (fun _ l r => res (~~~(opd w l ^^^ opd w r))) ∧
    (∀ c : BitVec 2, Sends (.lea w c t0 t1 pr) false (fun _ l r => res (opd w l + (opd w r <<< c.toNat))))

/-- R126 and R56: division and remainder, with their results for a divisor of zero; the quotient of the least value by minus one wraps to the least value. -/
def Obligations.IntegerDivision : Prop :=
  ∀ (w : BitVec 1) (t0 t1 : BitVec 9) (pr : BitVec 2),
    let n := widthOf w
    Sends (.div w t0 t1 pr) false (fun _ l r =>
      res (w := w) (if opd w r = 0 then BitVec.allOnes n else BitVec.ofInt n ((opd w l).toInt.tdiv (opd w r).toInt))) ∧
    Sends (.divn w t0 t1 pr) false (fun _ l r =>
      res (w := w) (if opd w r = 0 then BitVec.allOnes n else opd w l / opd w r)) ∧
    Sends (.rem w t0 t1 pr) false (fun _ l r =>
      res (w := w) (if opd w r = 0 then opd w l else BitVec.ofInt n ((opd w l).toInt.tmod (opd w r).toInt))) ∧
    Sends (.remn w t0 t1 pr) false (fun _ l r =>
      res (w := w) (if opd w r = 0 then opd w l else opd w l % opd w r))

/-- R126, R129: shifts and rotates take their amount modulo W, from the right operand or from the immediate. -/
def Obligations.IntegerShiftsAndRotates : Prop :=
  ∀ (w : BitVec 1) (t0 t1 i : BitVec 9) (pr : BitVec 2),
    let n := widthOf w
    Sends (.shl w t0 t1 pr) false (fun _ l r => res (opd w l <<< ((opd w r).toNat % n))) ∧
    Sends (.shr w t0 t1 pr) false (fun _ l r => res (opd w l >>> ((opd w r).toNat % n))) ∧
    Sends (.shra w t0 t1 pr) false (fun _ l r => res ((opd w l).sshiftRight ((opd w r).toNat % n))) ∧
    Sends (.rol w t0 t1 pr) false (fun _ l r => res ((opd w l).rotateLeft (opd w r).toNat)) ∧
    Sends (.ror w t0 t1 pr) false (fun _ l r => res ((opd w l).rotateRight (opd w r).toNat)) ∧
    (i.toNat < n →
      Sends (.shli w t0 i pr) false (fun _ l _ => res (opd w l <<< i.toNat)) ∧
      Sends (.shri w t0 i pr) false (fun _ l _ => res (opd w l >>> i.toNat)) ∧
      Sends (.shrai w t0 i pr) false (fun _ l _ => res ((opd w l).sshiftRight i.toNat)) ∧
      Sends (.roti w t0 i pr) false (fun _ l _ => res ((opd w l).rotateLeft i.toNat)))

/-- R127: the one-operand integer instructions. -/
def Obligations.IntegerOneOperandResults : Prop :=
  ∀ (w : BitVec 1) (t0 t1 : BitVec 9) (pr : BitVec 2),
    let n := widthOf w
    Sends (.clz w t0 t1 pr) false (fun _ l _ =>
      res (w := w) (BitVec.ofNat n ((List.range n).takeWhile fun k => !(opd w l).getMsbD k).length)) ∧
    Sends (.ctz w t0 t1 pr) false (fun _ l _ =>
      res (w := w) (BitVec.ofNat n ((List.range n).takeWhile fun k => !(opd w l).getLsbD k).length)) ∧
    Sends (.popc w t0 t1 pr) false (fun _ l _ =>
      res (w := w) (BitVec.ofNat n ((List.range n).filter fun k => (opd w l).getLsbD k).length)) ∧
    Sends (.brev w t0 t1 pr) false (fun _ l _ => res (opd w l).reverse) ∧
    Sends (.bswp w t0 t1 pr) false (fun _ l _ =>
      res (w := w) (BitVec.ofNat n (leNat (natLe (n / 8) (opd w l).toNat).reverse))) ∧
    Sends (.neg w t0 t1 pr) false (fun _ l _ => res (-opd w l)) ∧
    Sends (.abs w t0 t1 pr) false (fun _ l _ => res (if (opd w l).toInt < 0 then -opd w l else opd w l)) ∧
    Sends (.not w t0 t1 pr) false (fun _ l _ => res (~~~opd w l)) ∧
    Sends (.sextb w t0 t1 pr) false (fun _ l _ => tokOf ((l.val.setWidth 8).signExtend 64)) ∧
    Sends (.sexth w t0 t1 pr) false (fun _ l _ => tokOf ((l.val.setWidth 16).signExtend 64)) ∧
    Sends (.sextw t0 t1 pr) false (fun _ l _ => tokOf ((l.val.setWidth 32).signExtend 64)) ∧
    Sends (.zextb w t0 t1 pr) false (fun _ l _ => tokOf ((l.val.setWidth 8).setWidth 64)) ∧
    Sends (.zexth w t0 t1 pr) false (fun _ l _ => tokOf ((l.val.setWidth 16).setWidth 64)) ∧
    Sends (.zextw t0 t1 pr) false (fun _ l _ => tokOf ((l.val.setWidth 32).setWidth 64))

/-- R128: position and width of the field that a right token names, clipped to the operand. -/
def clippedField (n : Nat) (r : Token) : Nat × Nat :=
  let pos := (r.val.setWidth 8).toNat
  let wid := ((r.val >>> 8).setWidth 8).toNat
  (pos, if n ≤ pos then 0 else Nat.min wid (n - pos))

/-- R128: BFX and BFXS take the clipped field, zero- or sign-extended, an empty field giving zero; BFI replaces the field of the low half of its PAIR by the low bits of the high half. -/
def Obligations.BitFields : Prop :=
  ∀ (w : BitVec 1) (t0 t1 : BitVec 9) (pr : BitVec 2),
    let n := widthOf w
    Sends (.bfx w t0 t1 pr) false (fun _ l r =>
      let f := clippedField n r
      res (w := w) ((((opd w l) >>> f.1).setWidth f.2).setWidth n)) ∧
    Sends (.bfxs w t0 t1 pr) false (fun _ l r =>
      let f := clippedField n r
      res (w := w) ((((opd w l) >>> f.1).setWidth f.2).signExtend n)) ∧
    Sends (.bfi w t0 t1 pr) false (fun _ l r =>
      let f := clippedField n r
      let field : BitVec n := ((BitVec.allOnes f.2).setWidth n) <<< f.1
      let ins : BitVec n := ((l.val >>> 64).setWidth n) <<< f.1
      res (w := w) ((opd w l &&& ~~~field) ||| (ins &&& field)))

/-- R129: the immediate forms take the immediate sign-extended to W bits. -/
def Obligations.IntegerImmediates : Prop :=
  ∀ (w : BitVec 1) (t0 i : BitVec 9) (pr : BitVec 2),
    let m : BitVec (widthOf w) := i.signExtend (widthOf w)
    Sends (.addi w t0 i pr) false (fun _ l _ => res (opd w l + m)) ∧
    Sends (.muli w t0 i pr) false (fun _ l _ => res (opd w l * m)) ∧
    Sends (.andi w t0 i pr) false (fun _ l _ => res (opd w l &&& m)) ∧
    Sends (.ori w t0 i pr) false (fun _ l _ => res (opd w l ||| m)) ∧
    Sends (.xori w t0 i pr) false (fun _ l _ => res (opd w l ^^^ m))

/-- R130: the ten conditions: EQ, NE, signed LT, LE, GT, GE, unsigned LT, LE, GT, GE. -/
def condition {n : Nat} (c : Nat) (x y : BitVec n) : Bool :=
  match c with
  | 0 => x == y
  | 1 => x != y
  | 2 => x.slt y
  | 3 => x.sle y
  | 4 => y.slt x
  | 5 => y.sle x
  | 6 => x.ult y
  | 7 => x.ule y
  | 8 => y.ult x
  | _ => y.ule x

/-- R130: TCMP is op 0x30 in the G format and TCMPI op 0x31 in the I format; for conditions 0 to 9 they send 1 where the condition holds of the W-bit strings, else 0; conditions 10 to 15 are no instructions. -/
def Obligations.IntegerCompares : Prop :=
  ∀ (w : BitVec 1) (c : BitVec 4) (t0 t1 i : BitVec 9) (pr : BitVec 2),
    (encode (.tcmp w c t0 t1 pr)).toNat =
      0x30 * 2 ^ 25 + w.toNat * 2 ^ 24 + c.toNat * 2 ^ 20 + t0.toNat * 2 ^ 11 + t1.toNat * 2 ^ 2 + pr.toNat ∧
    (encode (.tcmpi w c t0 i pr)).toNat =
      0x31 * 2 ^ 25 + w.toNat * 2 ^ 24 + c.toNat * 2 ^ 20 + t0.toNat * 2 ^ 11 + i.toNat * 2 ^ 2 + pr.toNat ∧
    (c.toNat < 10 →
      Sends (.tcmp w c t0 t1 pr) false (fun _ l r => tokOf (if condition c.toNat (opd w l) (opd w r) then 1 else 0)) ∧
      Sends (.tcmpi w c t0 i pr) false (fun _ l _ =>
        tokOf (if condition c.toNat (opd w l) (i.signExtend (widthOf w)) then 1 else 0))) ∧
    (10 ≤ c.toNat → decodeWord (encode (.tcmp w c t0 t1 pr)) = none ∧ decodeWord (encode (.tcmpi w c t0 i pr)) = none)

/-! Tokens and system registers -/

/-- R123, R124: MOV and PLO pass the left token on, PHI its high half, NULL a null token; PAIR joins its operands, the left in bits 63:0; CONST sends its sign-extended immediate, APP shifts its immediate in. -/
def Obligations.TokenMoves : Prop :=
  ∀ (t0 t1 : BitVec 9) (i : BitVec 14) (pr : BitVec 2),
    Sends (.mov t0 t1 pr) false (fun _ l _ => { l with mark := none }) ∧
    Sends (.null t0 t1 pr) false (fun _ _ _ => tokNull) ∧
    Sends (.plo t0 t1 pr) false (fun _ l _ => tokOf (l.val.setWidth 64)) ∧
    Sends (.phi t0 t1 pr) false (fun _ l _ => tokOf ((l.val >>> 64).setWidth 64)) ∧
    Sends (.const i t0 pr) false (fun _ _ _ => tokOf (i.signExtend 64)) ∧
    Sends (.app i t0 pr) false (fun _ l _ => tokOf (BitVec.ofNat 64 (l.lo.toNat * 2 ^ 14 + i.toNat))) ∧
    ∀ (s : State) (b : Block) (l r : Token), Fires s (formOf (.pair t0 t1 pr) false) b l r →
      exec (.pair t0 t1 pr) s = .next (s.sends b [t0, t1]
        (if l.null = true ∨ r.null = true then { tokNull with pair := true } else tokPair (r.lo ++ l.lo)))

/-- R104, R105, R136, R304: RDSYS sends the register that its selector names as it stands, TIMEBASE later than any reading before (R360; by how much is free, log 8); an engine hart holds STATUS, CTXID, STKLIM and SRSTATE, and the others that a tile holds read zero on it. -/
def Obligations.SystemRegisterReads : Prop :=
  ∀ (t0 : BitVec 9) (sel : BitVec 4) (pr : BitVec 2) (s : State) (b : Block) (l r : Token),
    Fires s (formOf (.rdsys t0 sel pr) true) b l r →
    let h := s.hart s.dev.focus.hart
    let core (v : Dbl) : Dbl := if isEngine s.dev.focus.hart then 0 else v
    let u : State := if sel = 10 then s.ticked else s
    let v : Dbl := match sel.toNat with
      | 0 => h.status.setWidth 64
      | 1 => core (h.vec.vl.setWidth 64)
      | 2 => core (h.vec.vtype.setWidth 64)
      | 3 => h.stklim
      | 4 => core (h.taskid.setWidth 64)
      | 5 => h.ctxid.setWidth 64
      | 6 => core (h.place.setWidth 64)
      | 7 => core (h.cwidth.setWidth 64)
      | 8 => h.srstate.setWidth 64
      | 9 => core (mstatWord h)
      | 10 => u.dev.timebase
      | 11 => s.dev.dmapver.setWidth 64
      | 12 => s.dev.tilerev.setWidth 64
      | _ => 0
    exec (.rdsys t0 sel pr) s = .next (u.sends b [t0] (tokOf v))

/-- R105, R137: WRSYS holds the write for the commit of its block and sends the value the register will have: only the writable fields of STATUS, VTYPE, STKLIM and SRSTATE change, and SRSTATE never holds zero. A null token writes nothing; a second WRSYS of one register in a block, whatever its token, is a token conflict. -/
def Obligations.SystemRegisterWrites : Prop :=
  ∀ (t0 : BitVec 9) (sel : BitVec 4) (pr : BitVec 2) (s : State) (b : Block) (l r : Token),
    Fires s (formOf (.wrsys t0 sel pr) true) b l r →
    let h := s.hart s.dev.focus.hart
    let v : Dbl := match sel.toNat with
      | 0 => l.lo &&& 0x1F
      | 2 => if isEngine s.dev.focus.hart then 0 else l.lo &&& 0xF
      | 3 => l.lo &&& 0xFFFFFFFFFFFFFFF0
      | 8 => if l.lo.setWidth 32 = (0 : Word) then 0x9E3779B9 else (l.lo.setWidth 32 : Word).setWidth 64
      | n => s.dev.sysreg s.dev.focus.hart h n
    exec (.wrsys t0 sel pr) s = .next (
      if b.wroteSys sel.toNat = true ∨ b.nullSys sel.toNat = true then s.firedBlock b (fun b1 => b1.fault 0x03 s.dev.focus.idx 0 0)
      else if l.null = true then s.firedBlock b (fun b1 => (b1.addEff s.dev.focus.idx (.wrsysNull sel.toNat)).deliver t0 tokNull)
      else s.firedBlock b (fun b1 => (b1.addEff s.dev.focus.idx (.wrsys sel.toNat v)).deliver t0 (tokOf v)))

/-! Branches -/

/-- R26, R114 to R122: what each branch-class instruction leaves in its block for the commit, the faults that its operands can raise, and the token conflict of a second one. With both operands of a CALLI bad the target is the one reported, and a null token is reported as 0 (both log 50). -/
def Obligations.BranchesHoldTheirExit : Prop :=
  ∀ (off : BitVec 21) (ht pr : BitVec 2) (s : State) (b : Block) (l r : Token),
    let idx := s.dev.focus.idx
    let h := s.hart s.dev.focus.hart
    let rel : Dbl := b.addr + off.signExtend 64 * 128
    let exits (br : Branch) : State := s.firedBlock b (fun b1 => (b1.takeExit idx).setBranch idx br)
    let faults (c : Nat) (d : Dbl) : State := s.firedBlock b (fun b1 => (b1.takeExit idx).fault c idx d 0)
    let good (k : Token) : Bool := !k.null && k.lo.toNat % 128 == 0
    let shown (k : Token) : Dbl := if k.null then 0 else k.lo
    let noRoom : Bool := h.spilled == 0xFFFFFFFF || (decide (8 ≤ h.rstk.length) && h.stklim.toNat / 16 == 0)
    let push (t ra : Token) : State :=
      if !good t then faults 0x05 (shown t) else if !good ra then faults 0x05 (shown ra)
      else if noRoom then faults 0x06 (depthWord h.rstk.length h.spilled) else exits (.call t.lo ra.lo)
    (Fires s (formOf (.br off ht pr) false) b l r → exec (.br off ht pr) s = .next (exits (.goto rel))) ∧
    (Fires s (formOf (.bri pr) false) b l r →
      exec (.bri pr) s = .next (if good l then exits (.goto l.lo) else faults 0x05 (shown l))) ∧
    (Fires s (formOf (.call off ht pr) true) b l r → exec (.call off ht pr) s = .next (push (tokOf rel) l)) ∧
    (Fires s (formOf (.calli pr) true) b l r → exec (.calli pr) s = .next (push l r)) ∧
    (Fires s (formOf (.scall pr) false) b l r → exec (.scall pr) s = .next (
      if l.null then faults 0x05 0
      else exits (.scall (b.addr + 128 + 128 * BitVec.ofNat 64 ((hdrRows b.hdr + 1) / 2)) l.lo))) ∧
    (Fires s (formOf (.brk pr) false) b l r →
      exec (.brk pr) s = .next (s.firedBlock b (fun b1 => { b1 with breaks := b1.breaks ++ [idx] }))) ∧
    (Fires s (formOf (.trap pr) false) b l r →
      exec (.trap pr) s = .next (s.firedBlock b (fun b1 => if l.null then b1 else b1.fault 0x72 idx l.lo 0))) ∧
    (Fires s (formOf (.ret pr) true) b l r → exec (.ret pr) s = .next (
      match h.rstk.getLast? with
      | some a => if a.toNat % 128 = 0 then exits (.ret a false) else faults 0x05 a
      | none =>
        if h.spilled = 0 then faults 0x06 0
        else s.firedBlock b (fun b1 => (b1.takeExit idx).addReq
          { idx := idx, lsid := 0, ord := 0, zone := 0, va := spillSlot h (h.spilled.toNat - 1), t0 := noTarget, kind := .refill }))) ∧
    -- one exit to a block: a second branch-class instruction that fires is a token conflict, whatever has become of the first
    (∀ (b1 : Block) (br : Branch) (j : Nat) (i : Instr), j ∈ b1.fired → j ≠ idx → decodeWord (b1.code.getD j 0) = some i → isBranch i = true →
      predVerdict (predField i) b1 j = .go → (b1.takeExit idx).setBranch idx br = b1.fault 0x03 idx 0 0)

/-! Scalar floating point -/

/-- R46 to R55, R131, R135: the rounding instructions round the exact result of their flushed operands once; a block in which one of them drew stochastically steps SRSTATE at its commit. -/
def Obligations.FloatRoundedResults : Prop :=
  ∀ (f : BitVec 2) (m : BitVec 3) (x : BitVec 5) (sat : BitVec 1) (t0 t1 : BitVec 9) (pr : BitVec 2)
    (s : State) (b : Block) (l r : Token),
    let idx := s.dev.focus.idx
    let n := (s.hart s.dev.focus.hart).nenv idx
    let t := fmtTag f
    let v (y : Dbl) : Ex := operand n t (y.toNat % 2 ^ tagBits t)
    let rounded (i : Instr) (k : Dbl) : State :=
      let nul : Bool := l.null || (operandCount i == 2 && r.null)
      s.firedBlock b (fun b1 =>
        { b1.deliverAll (targetsOf i) (if nul then tokNull else tokOf k) with sr := b1.sr || (!nul && drawsSr n m.toNat) })
    let float (i : Instr) (y : Ex) : State := rounded i (BitVec.ofNat 64 (roundTo n t m.toNat false 0 y))
    (Fires s (formOf (.fadd f m t0 t1 pr) true) b l r →
      exec (.fadd f m t0 t1 pr) s = .next (float (.fadd f m t0 t1 pr) (exAdd n m.toNat (v l.lo) (v r.lo)))) ∧
    (Fires s (formOf (.fsub f m t0 t1 pr) true) b l r →
      exec (.fsub f m t0 t1 pr) s = .next (float (.fsub f m t0 t1 pr) (exAdd n m.toNat (v l.lo) (v r.lo).negate))) ∧
    (Fires s (formOf (.fmul f m t0 t1 pr) true) b l r →
      exec (.fmul f m t0 t1 pr) s = .next (float (.fmul f m t0 t1 pr) (exMul (v l.lo) (v r.lo)))) ∧
    (Fires s (formOf (.fdiv f m t0 t1 pr) true) b l r →
      exec (.fdiv f m t0 t1 pr) s = .next (float (.fdiv f m t0 t1 pr) (exDiv (v l.lo) (v r.lo)))) ∧
    (Fires s (formOf (.fma f m t0 t1 pr) true) b l r →
      exec (.fma f m t0 t1 pr) s = .next (float (.fma f m t0 t1 pr) (exFma n m.toNat (v l.lo) (v l.hi) (v r.lo)))) ∧
    (Fires s (formOf (.fsqrt f m t0 t1 pr) true) b l r →
      exec (.fsqrt f m t0 t1 pr) s = .next (float (.fsqrt f m t0 t1 pr) (exSqrt (v l.lo)))) ∧
    (Fires s (formOf (.fcvt x t0 sat m pr) true) b l r →
      exec (.fcvt x t0 sat m pr) s = .next (rounded (.fcvt x t0 sat m pr)
        (cvtResult n (cvtPair x.toNat).2 m.toNat (sat = 1) (cvtSource n (cvtPair x.toNat).1 l.lo))))

/-- R132, R133, R134: minimum and maximum propagate NaN or prefer the number, on flushed operands; FCMP sends 1 or 0; the sign instructions and FCLASS act on the bits as they stand. -/
def Obligations.FloatChoicesComparesAndSigns : Prop :=
  ∀ (f : BitVec 2) (c : BitVec 3) (t0 t1 : BitVec 9) (pr : BitVec 2),
    let t := fmtTag f
    let bits (y : Dbl) : Nat := y.toNat % 2 ^ tagBits t
    let pick (g : NEnv → Nat → Nat → Nat) (h : Hart) (l r : Token) : Token :=
      let n := h.nenv 0
      tokOf (BitVec.ofNat 64 (g n (flushBits n t (bits l.lo)) (flushBits n t (bits r.lo))))
    let sign : Nat := 2 ^ (tagBits t - 1)
    Sends (.fmin f t0 t1 pr) true (pick fun n => fminmax n t false) ∧
    Sends (.fmax f t0 t1 pr) true (pick fun n => fminmax n t true) ∧
    Sends (.fminnum f t0 t1 pr) true (pick fun n => fminmaxNum n t false) ∧
    Sends (.fmaxnum f t0 t1 pr) true (pick fun n => fminmaxNum n t true) ∧
    Sends (.fcmp f c t0 t1 pr) true (fun h l r =>
      tokOf (if fcmpHolds c.toNat (operand (h.nenv 0) t (bits l.lo)) (operand (h.nenv 0) t (bits r.lo)) then 1 else 0)) ∧
    Sends (.fabs f t0 t1 pr) false (fun _ l _ => tokOf (BitVec.ofNat 64 (bits l.lo % sign))) ∧
    Sends (.fneg f t0 t1 pr) false (fun _ l _ => tokOf (BitVec.ofNat 64 ((bits l.lo + sign) % 2 ^ tagBits t))) ∧
    Sends (.fclass f t0 t1 pr) false (fun _ l _ => tokOf (BitVec.ofNat 64 (fclassOf t (bits l.lo)))) ∧
    Sends (.fcopysign f t0 t1 pr) false (fun _ l r =>
      tokOf (BitVec.ofNat 64 (bits l.lo % sign + bits r.lo / sign * sign)))

/-! Memory instructions -/

/-- R193, R196, R232 to R235: what an access of a hart finds at fire: no fault. -/
def clear (s : State) (ps : List Probe) : Prop :=
  fireCauses s.dev s.dev.focus.hart (s.hart s.dev.focus.hart) ps = none

/-- R232, R233, R237, R240: a load that meets no fault at fire leaves its request in its block: its LSID, class mask, zone and address, with the L-format offset times the size; a null address resolves its identifiers and sends a null token. An LDV needs no oldest block: it fires once its VSID's turn has come and its context is decided (R139). -/
def Obligations.LoadsLeaveTheirRequest : Prop :=
  ∀ (lsid t5 d : BitVec 5) (t0 : BitVec 9) (z o pr : BitVec 2) (off : BitVec 5) (s : State) (b : Block) (l r : Token) (zone : Nat),
    let c := s.dev.focus
    (s.hart c.hart).zoneFor c.tag z.toNat = some zone →
    let scalar (i : Instr) (size : Nat) (signed : Bool) : Prop :=
      let va : Dbl := l.lo + off.signExtend 64 * BitVec.ofNat 64 size
      Fires s (formOf i false) b l r →
      (l.null = true ∨ clear s [{ zone := zone, va := va, size := size, good := decide (va.toNat % 64 + size ≤ 64), rd := true, wr := false, stack := true }]) →
      exec i s = .next (s.firedBlock b fun b1 =>
        if l.null then (b1.resolveL c.idx (some lsid.toNat)).deliver t0 tokNull
        else b1.addReq { idx := c.idx, lsid := lsid.toNat, ord := 2 ^ o.toNat - 1, zone := zone, va := va, t0 := t0, kind := .load size signed })
    let vector (i : Instr) (form : Nat) : Prop :=
      let e : VEnv := { n := (s.hart c.hart).nenv c.idx, cw := (s.hart c.hart).cwidth.toNat, book := [] }
      let x := b.ctxOf (s.hart c.hart)
      Fires s (formOf i false) b l r →
      (l.null = true ∨ firstClash (vecChecks e x d.toNat form d.toNat false) = none ∧
        clear s (vecProbes x e.cw d.toNat form zone l.lo l.hi false)) →
      exec i s = .next (s.firedBlock b fun b1 =>
        if l.null then ((b1.resolveL c.idx (some lsid.toNat)).resolveV c.idx (some t5.toNat))
        else b1.addReq { idx := c.idx, lsid := lsid.toNat, ord := 2 ^ o.toNat - 1, zone := zone, va := l.lo, t0 := noTarget, kind := .vload d.toNat form t5.toNat l.hi [] })
    scalar (.ldb lsid t0 z o off pr) 1 false ∧ scalar (.ldbs lsid t0 z o off pr) 1 true ∧
    scalar (.ldh lsid t0 z o off pr) 2 false ∧ scalar (.ldhs lsid t0 z o off pr) 2 true ∧
    scalar (.ldw lsid t0 z o off pr) 4 false ∧ scalar (.ldws lsid t0 z o off pr) 4 true ∧
    scalar (.ldd lsid t0 z o off pr) 8 false ∧ scalar (.ldq lsid t0 z o off pr) 16 false ∧
    vector (.ldv lsid t5 d z o pr) 0 ∧ vector (.ldvStr lsid t5 d z o pr) 1 ∧ vector (.ldvIdx lsid t5 d z o pr) 2

/-- R212, R213, R238, R239, R241, R247: a store that meets no fault at fire is held in its block until the commit, with its masked bytes, and resolves its LSID; the oldest younger block that has read any of its bytes, by whatever name (R208), is discarded with every block behind it. Memory itself does not change. -/
def Obligations.StoresAreHeldInTheirBlock : Prop :=
  ∀ (lsid : BitVec 5) (z o pr : BitVec 2) (off : BitVec 14) (off13 : BitVec 13) (hi : BitVec 1)
    (s : State) (b : Block) (l r : Token) (zone : Nat),
    let c := s.dev.focus
    (s.hart c.hart).zoneFor c.tag z.toNat = some zone →
    let held (va : Dbl) (bs : List (Byte × Byte)) (rel : Bool) (n : Nat) : State :=
      s.fired b fun h b1 =>
        if l.null || r.null then h.putBlock (b1.resolveL c.idx (some lsid.toNat))
        else (h.putBlock ((({ b1 with stores := b1.stores ++ [{ idx := c.idx, lsid := lsid.toNat, ord := 2 ^ o.toNat - 1, zone := zone, va := va, data := bs, rel := rel }] } : Block)).resolveL c.idx (some lsid.toNat))).violate (s.namesOf c.hart) b1.tag zone va n
    let scalar (i : Instr) (va : Dbl) (bs : List (Byte × Byte)) : Prop :=
      Fires s (formOf i false) b l r →
      (l.null = true ∨ r.null = true ∨ clear s [{ zone := zone, va := va, size := bs.length, good := decide (va.toNat % 64 + bs.length ≤ 64), rd := false, wr := true, stack := true }]) →
      exec i s = .next (held va bs false bs.length)
    let whole (n : Nat) : List (Byte × Byte) := (natLe n r.val.toNat).map (fun x => (x, 0xFF))
    let va : Dbl := l.lo + off.signExtend 64
    scalar (.stb lsid z o off pr) va (whole 1) ∧ scalar (.sth lsid z o off pr) va (whole 2) ∧
    scalar (.stw lsid z o off pr) va (whole 4) ∧ scalar (.std lsid z o off pr) va (whole 8) ∧
    scalar (.stq lsid z o off pr) va (whole 16) ∧
    scalar (.stn4 lsid z o off13 hi pr) (l.lo + off13.signExtend 64)
      (if hi = 1 then [(BitVec.ofNat 8 (16 * (r.val.toNat % 16)), 0xF0)] else [(BitVec.ofNat 8 (r.val.toNat % 16), 0x0F)]) ∧
    (Fires s (formOf (.rel lsid z o off pr) false) b l r →
      (l.null = true ∨ r.null = true ∨ clear s [{ zone := zone, va := va, size := 64, good := decide (va.toNat % 64 = 0), rd := true, wr := true, stack := true }]) →
      exec (.rel lsid z o off pr) s = .next (held va ((natLe 8 r.lo.toNat).map (fun x => (x, 0xFF))) true 8))

/-- R240, R241: a vector store that meets no clash and no fault at fire holds its element stores in increasing element order, each cut at the end of its line, and resolves its identifiers. -/
def Obligations.VectorStoresAreHeldInElementOrder : Prop :=
  ∀ (lsid v d : BitVec 5) (z o pr : BitVec 2) (s : State) (b : Block) (l r : Token) (zone : Nat),
    let c := s.dev.focus
    let e : VEnv := { n := (s.hart c.hart).nenv c.idx, cw := (s.hart c.hart).cwidth.toNat, book := [] }
    let x := b.ctxOf (s.hart c.hart)
    let index := (d.toNat + 1) % 32
    (s.hart c.hart).zoneFor c.tag z.toNat = some zone →
    let stored (i : Instr) (form : Nat) : Prop :=
      let ts : List St := ((vecStores x e.cw index d.toNat form l.lo l.hi).flatMap (fun p => cutLine p.1 p.2)).map (fun p =>
        { idx := c.idx, lsid := lsid.toNat, ord := 2 ^ o.toNat - 1, zone := zone, va := p.1, data := p.2, rel := false })
      Fires s (formOf i true) b l r →
      (l.null = true ∨ firstClash (vecChecks e x index form d.toNat true) = none ∧
        clear s (vecProbes x e.cw index form zone l.lo l.hi true)) →
      exec i s = .next (s.fired b fun h b1 =>
        if l.null then h.putBlock ((b1.resolveL c.idx (some lsid.toNat)).resolveV c.idx (some v.toNat))
        else
          let b2 := b1.resolveV c.idx (some v.toNat)
          ts.foldl (fun h t => h.violate (s.namesOf c.hart) b1.tag zone t.va t.data.length)
            (h.putBlock (({ b2 with stores := b2.stores ++ ts } : Block).resolveL c.idx (some lsid.toNat))))
    stored (.stv lsid v d z o pr) 0 ∧ stored (.stvStr lsid v d z o pr) 1 ∧ stored (.stvIdx lsid v d z o pr) 2

/-- R219, R234, R242: an atomic or ACQ that meets no fault at fire leaves its request in its block; an atomic is aligned to its size and needs read permission, and write permission but for ACAS, whose write is decided at the home; in zone 0xF0 an ACAS needs it too (R414). -/
def Obligations.AtomicsLeaveTheirRequest : Prop :=
  ∀ (lsid : BitVec 5) (t0 : BitVec 9) (z o w pr : BitVec 2) (sc : BitVec 3) (s : State) (b : Block) (l r : Token) (zone : Nat),
    let c := s.dev.focus
    (s.hart c.hart).zoneFor c.tag z.toNat = some zone →
    let leaves (i : Instr) (size : Nat) (wr stack : Bool) (kind : ReqKind) : Prop :=
      let nul : Bool := l.null || (operandCount i == 2 && r.null)
      Fires s (formOf i false) b l r →
      (nul = true ∨ clear s [{ zone := zone, va := l.lo, size := size, good := decide (l.lo.toNat % size = 0), rd := true, wr := wr, stack := stack }]) →
      exec i s = .next (s.firedBlock b fun b1 =>
        if nul then (b1.resolveL c.idx (some lsid.toNat)).deliver t0 tokNull
        else b1.addReq { idx := c.idx, lsid := lsid.toNat, ord := 2 ^ o.toNat - 1, zone := zone, va := l.lo, t0 := t0, kind := kind })
    let n := 2 ^ (w.toNat + 2)
    let op (k : Nat) : ReqKind := .atomic k n sc.toNat r.val
    leaves (.aadd lsid t0 z o sc w pr) n true true (op 0) ∧ leaves (.aand lsid t0 z o sc w pr) n true true (op 1) ∧
    leaves (.aor lsid t0 z o sc w pr) n true true (op 2) ∧ leaves (.axor lsid t0 z o sc w pr) n true true (op 3) ∧
    leaves (.amin lsid t0 z o sc w pr) n true true (op 4) ∧ leaves (.amax lsid t0 z o sc w pr) n true true (op 5) ∧
    leaves (.aminn lsid t0 z o sc w pr) n true true (op 6) ∧ leaves (.amaxn lsid t0 z o sc w pr) n true true (op 7) ∧
    leaves (.aswp lsid t0 z o sc w pr) n true true (op 8) ∧ leaves (.acas lsid t0 z o sc w pr) n (zoneOf zone == .host) true (op 9) ∧
    leaves (.afadd lsid t0 z o sc w pr) n true true (op 10) ∧
    leaves (.acq lsid t0 z o sc pr) 64 false true (.acq sc.toNat none)

/-- R216, R248 to R253: fences, cache controls, IBAR and LNCFG have no effect before the commit of their block and are held for it; PREF may do nothing and does nothing. The detail of the zone-invalid fault of WBR and INVR has kind 0 and size 0 (log 60). -/
def Obligations.FencesAndCacheControlsAwaitCommit : Prop :=
  ∀ (z pr : BitVec 2) (sc : BitVec 3) (s : State) (b : Block) (l r : Token) (zone : Nat),
    let c := s.dev.focus
    let holds (i : Instr) (e : Eff) : Prop :=
      Fires s (formOf i false) b l r → exec i s = .next (s.firedBlock b fun b1 => b1.addEff c.idx e)
    let zoned (i : Instr) (zs : Nat) (k : Block → Block) : Prop :=
      Fires s (formOf i false) b l r → (s.hart c.hart).zoneFor c.tag zs = some zone →
      exec i s = .next (s.firedBlock b fun b1 => if l.null || r.null then b1 else k b1)
    let bad (cause : Nat) (b1 : Block) : Block := b1.addFault { plainFault cause (32 + c.idx) with zone := zone, va := l.lo }
    let badRec (cause : Nat) (b1 : Block) : Block :=
      b1.addFault { plainFault cause (32 + c.idx) with zone := zone, va := l.lo, d1 := BitVec.ofNat 64 (5 + 256 * Nat.log2 128) }
    holds (.fenceFull sc pr) (.fence 0 sc.toNat) ∧ holds (.fenceAcq sc pr) (.fence 1 sc.toNat) ∧
    holds (.fenceRel sc pr) (.fence 2 sc.toNat) ∧ holds (.fenceSs sc pr) (.fence 3 sc.toNat) ∧
    holds (.ibar pr) .ibar ∧
    (Fires s (formOf (.pref z pr) false) b l r → exec (.pref z pr) s = .next (s.firedBlock b id)) ∧
    zoned (.wbr z pr) z.toNat (fun b1 => if zoneOf zone = .invalid then bad 0x10 b1 else b1.addEff c.idx (.cache false zone l.lo r.lo)) ∧
    zoned (.invr z pr) z.toNat (fun b1 => if zoneOf zone = .invalid then bad 0x10 b1 else b1.addEff c.idx (.cache true zone l.lo r.lo)) ∧
    zoned (.lncfg pr) (bitsOf r.lo.toNat 9 8) (fun b1 =>
      let e : Eff := .lncfg (bitsOf r.lo.toNat 3 0) (bitsOf r.lo.toNat 6 4) zone l.lo
      if portClash b e then b1.fault 0x03 c.idx 0 0
      else if zoneOf zone = .invalid then badRec 0x10 b1
      else if zone ≠ 0 ∧ ¬(zone = 0xFE ∧ l.lo.toNat + 128 ≤ 0x7E000) then badRec 0x11 b1
      else if l.lo.toNat % 128 ≠ 0 then badRec 0x12 b1
      else b1.addEff c.idx e)

/-- R26, R233, R235, R374: a load, store, atomic, ACQ or REL that meets a fault at fire records the lowest code with its access kind and size, resolves no LSID and leaves no request. ACQ counts as a load and REL as a store, of 64 bytes each; of an LDV or STV whose tags agree, the first of its pieces that meets the lowest code is named (log 60). Every operand that the form has is no null token. -/
def Obligations.AccessFaultsAreRecordedAtFire : Prop :=
  ∀ (lsid off v d : BitVec 5) (t0 : BitVec 9) (z o w pr : BitVec 2) (sc : BitVec 3) (disp : BitVec 14) (off13 : BitVec 13) (hi : BitVec 1)
    (s : State) (b : Block) (l r : Token) (zone cause : Nat) (p : Probe),
    let c := s.dev.focus
    let recd (kind : Nat) (q : Probe) : FaultRec :=
      { cause := cause, word := 32 + c.idx, lsid := some lsid.toNat, zone := zone, va := q.va, late := false, d0 := 0, d1 := BitVec.ofNat 64 (kind + 256 * Nat.log2 q.size), seq := none }
    (s.hart c.hart).zoneFor c.tag z.toNat = some zone → l.null = false →
    let acts (i : Instr) (old : Bool) : Prop :=
      if operandCount i ≤ 1 then Fires s (formOf i old) b l tokNull else r.null = false ∧ Fires s (formOf i old) b l r
    let faults (i : Instr) (kind : Nat) (q : Probe) : Prop :=
      acts i false →
      fireCauses s.dev c.hart (s.hart c.hart) [q] = some (cause, p) →
      exec i s = .next (s.firedBlock b fun b1 => b1.addFault (recd kind q))
    let load (i : Instr) (n : Nat) : Prop :=
      let va : Dbl := l.lo + off.signExtend 64 * BitVec.ofNat 64 n
      faults i 0 { zone := zone, va := va, size := n, good := decide (va.toNat % 64 + n ≤ 64), rd := true, wr := false, stack := true }
    let store (i : Instr) (n : Nat) : Prop :=
      let va : Dbl := l.lo + disp.signExtend 64
      faults i 1 { zone := zone, va := va, size := n, good := decide (va.toNat % 64 + n ≤ 64), rd := false, wr := true, stack := true }
    let n := 2 ^ (w.toNat + 2)
    let atom (i : Instr) (wr : Bool) : Prop :=
      faults i 2 { zone := zone, va := l.lo, size := n, good := decide (l.lo.toNat % n = 0), rd := true, wr := wr, stack := true }
    let e : VEnv := { n := (s.hart c.hart).nenv c.idx, cw := (s.hart c.hart).cwidth.toNat, book := [] }
    let x := b.ctxOf (s.hart c.hart)
    let vector (i : Instr) (index form : Nat) (st : Bool) : Prop :=
      acts i st →
      firstClash (vecChecks e x index form d.toNat st) = none →
      fireCauses s.dev c.hart (s.hart c.hart) (vecProbes x e.cw index form zone l.lo l.hi st) = some (cause, p) →
      exec i s = .next (s.firedBlock b fun b1 =>
        (if st then b1.resolveV c.idx (some v.toNat) else b1).addFault (recd st.toNat p))
    let rva : Dbl := l.lo + disp.signExtend 64
    let nib : Dbl := l.lo + off13.signExtend 64
    load (.ldb lsid t0 z o off pr) 1 ∧ load (.ldh lsid t0 z o off pr) 2 ∧ load (.ldw lsid t0 z o off pr) 4 ∧
    load (.ldbs lsid t0 z o off pr) 1 ∧ load (.ldhs lsid t0 z o off pr) 2 ∧ load (.ldws lsid t0 z o off pr) 4 ∧
    load (.ldd lsid t0 z o off pr) 8 ∧ load (.ldq lsid t0 z o off pr) 16 ∧
    vector (.ldv lsid v d z o pr) d.toNat 0 false ∧ vector (.ldvStr lsid v d z o pr) d.toNat 1 false ∧
    vector (.ldvIdx lsid v d z o pr) d.toNat 2 false ∧
    vector (.stv lsid v d z o pr) ((d.toNat + 1) % 32) 0 true ∧ vector (.stvStr lsid v d z o pr) ((d.toNat + 1) % 32) 1 true ∧
    vector (.stvIdx lsid v d z o pr) ((d.toNat + 1) % 32) 2 true ∧
    faults (.stn4 lsid z o off13 hi pr) 1 { zone := zone, va := nib, size := 1, good := decide (nib.toNat % 64 + 1 ≤ 64), rd := false, wr := true, stack := true } ∧
    faults (.rel lsid z o disp pr) 1 { zone := zone, va := rva, size := 64, good := decide (rva.toNat % 64 = 0), rd := true, wr := true, stack := true } ∧
    faults (.acq lsid t0 z o sc pr) 0 { zone := zone, va := l.lo, size := 64, good := decide (l.lo.toNat % 64 = 0), rd := true, wr := false, stack := true } ∧
    store (.stb lsid z o disp pr) 1 ∧ store (.sth lsid z o disp pr) 2 ∧ store (.stw lsid z o disp pr) 4 ∧
    store (.std lsid z o disp pr) 8 ∧ store (.stq lsid z o disp pr) 16 ∧
    atom (.aadd lsid t0 z o sc w pr) true ∧ atom (.aand lsid t0 z o sc w pr) true ∧ atom (.aor lsid t0 z o sc w pr) true ∧
    atom (.axor lsid t0 z o sc w pr) true ∧ atom (.amin lsid t0 z o sc w pr) true ∧ atom (.amax lsid t0 z o sc w pr) true ∧
    atom (.aminn lsid t0 z o sc w pr) true ∧ atom (.amaxn lsid t0 z o sc w pr) true ∧ atom (.aswp lsid t0 z o sc w pr) true ∧
    atom (.afadd lsid t0 z o sc w pr) true ∧ atom (.acas lsid t0 z o sc w pr) (zoneOf zone == .host)

/-! Vector instructions -/

/-- The registers carry VTYPE, and VTYPE is among `ts` (R141). -/
def carries (ts : List Nat) (rs : List (BitVec 5)) (x : Vec) : Prop :=
  x.vtype.toNat ∈ ts ∧ ∀ r ∈ rs, x.tagOf r.toNat = x.vtype.toNat

/-- R145: the two-operand arithmetic, element by element on N elements: integers wrap at their width, floating elements round once. -/
def Obligations.VectorArithmetic : Prop :=
  ∀ (v d a b : BitVec 5) (pr : BitVec 2),
    let each (i : Instr) (ff : NEnv → Ex → Ex → Ex) (fi : Int → Int → Int) : Prop :=
      VecActs i (fun _ x => carries arithTags [a, b] x) fun e x _ =>
        let t := x.vtype.toNat
        let n := lenN x e.cw t
        (x.write d.toNat t ((upTo n).map fun k =>
          let p := x.elem a.toNat t k
          let q := x.elem b.toNat t k
          if isIntTag t then wrap (tagBits t) (fi (sval (tagBits t) p) (sval (tagBits t) q))
          else roundTo e.n t 6 false k (ff e.n (operand e.n t p) (operand e.n t q))), none, srUsed e t n)
    let pick (i : Instr) (mx : Bool) : Prop :=
      VecActs i (fun _ x => carries arithTags [a, b] x) fun e x _ =>
        let t := x.vtype.toNat
        (x.write d.toNat t ((upTo (lenN x e.cw t)).map fun k =>
          let p := x.elem a.toNat t k
          let q := x.elem b.toNat t k
          if isIntTag t then
            wrap (tagBits t) (if sval (tagBits t) p ≤ sval (tagBits t) q ↔ mx = false then sval (tagBits t) p else sval (tagBits t) q)
          else fminmax e.n t mx (flushBits e.n t p) (flushBits e.n t q)), none, false)
    each (.vadd v d a b pr) (fun n p q => exAdd n 6 p q) (fun p q => p + q) ∧
    each (.vsub v d a b pr) (fun n p q => exAdd n 6 p q.negate) (fun p q => p - q) ∧
    each (.vrsub v d a b pr) (fun n p q => exAdd n 6 q p.negate) (fun p q => q - p) ∧
    each (.vmul v d a b pr) (fun _ p q => exMul p q) (fun p q => p * q) ∧
    each (.vdiv v d a b pr) (fun _ p q => exDiv p q) (fun p q => if q = 0 then -1 else p.tdiv q) ∧
    each (.vabsd v d a b pr) (fun n p q => (exAdd n 6 p q.negate).abs) (fun p q => (p - q).natAbs) ∧
    pick (.vmin v d a b pr) false ∧ pick (.vmax v d a b pr) true

/-- R146, R147: the fused forms round product plus addend once into vd; the dot products add the products of a lane's elements below VL to the 32-bit lane of vd. -/
def Obligations.VectorFusedAndDotProducts : Prop :=
  ∀ (v d a b : BitVec 5) (pr : BitVec 2),
    let fused (i : Instr) (np na : Bool) : Prop :=
      VecActs i (fun _ x => carries wideFloatTags [a, b, d] x) fun e x _ =>
        let t := x.vtype.toNat
        let n := lenN x e.cw t
        let val (r : BitVec 5) (k : Nat) : Ex := operand e.n t (x.elem r.toNat t k)
        (x.write d.toNat t ((upTo n).map fun k =>
          let p := exMul (val a k) (val b k)
          roundTo e.n t 6 false k (exAdd e.n 6 (if np then p.negate else p) (if na then (val d k).negate else val d k))),
         none, srUsed e t n)
    let dot (i : Instr) (t : Nat) : Prop :=
      VecActs i (fun _ x => carries [t] [a, b] x ∧ x.tagOf d.toNat = tagI32) fun e x _ =>
        let k := lanesOf t
        let n := lenN x e.cw t
        (x.write d.toNat tagI32 ((upTo ((n + k - 1) / k)).map fun j =>
          wrap 32 (sval 32 (x.lane d.toNat j) + (((upTo k).filter fun q => decide (j * k + q < n)).map fun q =>
            sval (tagBits t) (x.elem a.toNat t (j * k + q)) * sval (tagBits t) (x.elem b.toNat t (j * k + q))).sum)), none, false)
    fused (.vfma v d a b pr) false false ∧ fused (.vfms v d a b pr) false true ∧
    fused (.vfnma v d a b pr) true false ∧ fused (.vfnms v d a b pr) true true ∧
    dot (.vdoti8 v d a b pr) tagI8 ∧ dot (.vdoti4 v d a b pr) tagI4

/-- R148, R149: bitwise operations on integers under VTYPE or on masks, shifts by the low bits of b, and compares that write a mask. -/
def Obligations.VectorLogicShiftsAndCompares : Prop :=
  ∀ (v d a b : BitVec 5) (c : BitVec 3) (pr : BitVec 2),
    let logic (i : Instr) (b : BitVec 5) (f : Nat → Nat → Nat → Nat) : Prop :=
      VecActs i (fun _ x => x.tagOf a.toNat ∈ logicTags ∧ x.tagOf b.toNat = x.tagOf a.toNat ∧
          (x.tagOf a.toNat ≠ tagMask → x.tagOf a.toNat = x.vtype.toNat)) fun e x _ =>
        let t := x.tagOf a.toNat
        (x.write d.toNat t ((upTo (if t = tagMask then lenM x e.cw x.vtype.toNat else lenN x e.cw t)).map fun k =>
          f (tagBits t) (x.elem a.toNat t k) (x.elem b.toNat t k)), none, false)
    let shift (i : Instr) (f : (w : Nat) → BitVec w → Nat → BitVec w) : Prop :=
      VecActs i (fun _ x => carries [tagI32, tagI16, tagI8] [a, b] x) fun e x _ =>
        let t := x.vtype.toNat
        let w := tagBits t
        (x.write d.toNat t ((upTo (lenN x e.cw t)).map fun k =>
          (f w (BitVec.ofNat w (x.elem a.toNat t k)) (x.elem b.toNat t k % w)).toNat), none, false)
    logic (.vand v d a b pr) b (fun _ p q => p &&& q) ∧ logic (.vor v d a b pr) b (fun _ p q => p ||| q) ∧
    logic (.vxor v d a b pr) b (fun _ p q => p ^^^ q) ∧ logic (.vandn v d a b pr) b (fun w p q => p &&& (2 ^ w - 1 - q)) ∧
    logic (.vnot v d a pr) a (fun w p _ => 2 ^ w - 1 - p) ∧
    shift (.vshl v d a b pr) (fun _ p n => p <<< n) ∧ shift (.vshr v d a b pr) (fun _ p n => p >>> n) ∧
    shift (.vshra v d a b pr) (fun _ p n => p.sshiftRight n) ∧
    VecActs (.vcmp v d a b c pr) (fun _ x => carries arithTags [a, b] x) fun e x _ =>
      let t := x.vtype.toNat
      (x.write d.toNat tagMask ((upTo (lenM x e.cw t)).map fun k =>
        let p := x.elem a.toNat t k
        let q := x.elem b.toNat t k
        if (if isIntTag t then vcmpInt c.toNat (tagBits t) p q else vcmpFloat c.toNat (operand e.n t p) (operand e.n t q))
        then 0xFFFFFFFF else 0), none, false)

/-- R150: the permutes move whole elements under the tag of va. -/
def Obligations.VectorPermutes : Prop :=
  ∀ (v d a b n : BitVec 5) (pr : BitVec 2),
    let moves (i : Instr) (ok : Vec → Prop) (f : VEnv → Vec → (Nat → Nat) → (Nat → Nat) → List Nat) : Prop :=
      VecActs i (fun _ x => ok x) fun e x _ =>
        let t := x.tagOf a.toNat
        (x.write d.toNat t (f e x (x.elem a.toNat t) (x.elem b.toNat t)), none, false)
    let same (x : Vec) : Prop := x.tagOf b.toNat = x.tagOf a.toNat
    VecActs (.vmov v d a pr) (fun _ _ => True) (fun e x _ =>
      (((upTo (64 * e.cw)).foldl (fun q i => q.setLane d.toNat i (x.lane a.toNat i)) x).setTag d.toNat (x.tagOf a.toNat), none, false)) ∧
    moves (.vsel v d a b pr) (fun x => x.tagOf d.toNat = tagMask ∧ same x) (fun e x p q =>
      (upTo (lenM x e.cw (x.tagOf a.toNat))).map fun i => if x.lane d.toNat i ≠ 0 then p i else q i) ∧
    moves (.vcmpct v d a b pr) (fun x => x.tagOf b.toNat = tagMask) (fun e x p _ =>
      let m := lenM x e.cw (x.tagOf a.toNat)
      let kept := (upTo m).filter fun i => decide (x.lane b.toNat i ≠ 0)
      kept.map p ++ List.replicate (m - kept.length) 0) ∧
    moves (.vpermx v d a b pr) (fun x => x.tagOf b.toNat = tagI32) (fun e x p _ =>
      (upTo (lenM x e.cw (x.tagOf a.toNat))).map fun i =>
        let k := sval 32 (x.lane b.toNat i)
        if 0 ≤ k ∧ k < cap e.cw (x.tagOf a.toNat) then p k.toNat else 0) ∧
    moves (.vslideup v d a n pr) (fun _ => True) (fun e x p _ =>
      (upTo (lenN x e.cw (x.tagOf a.toNat))).map fun i => if n.toNat ≤ i then p (i - n.toNat) else 0) ∧
    moves (.vslidedn v d a n pr) (fun _ => True) (fun e x p _ =>
      let m := lenN x e.cw (x.tagOf a.toNat)
      (upTo m).map fun i => if i + n.toNat < m then p (i + n.toNat) else 0) ∧
    moves (.vzip v d a b pr) same (fun e x p q =>
      (upTo (lenN x e.cw (x.tagOf a.toNat))).map fun i => if i % 2 = 0 then p (i / 2) else q (i / 2)) ∧
    moves (.vunzip v d a b pr) same (fun e x p q =>
      let m := lenN x e.cw (x.tagOf a.toNat)
      (upTo m).map fun i => if 2 * i < m then p (2 * i) else q (2 * i - m))

/-- R151, R152, R153: reductions send one token, scans write one prefix value per element; a sum is the exact sum rounded once. Every rounding of a reduction draws index 0 (R152), and so does every prefix of a scan (log 12), which takes R151's tags (log 64); a block whose sum could round under SR is marked whether or not it rounds (log 60). -/
def Obligations.VectorReductionsAndScans : Prop :=
  ∀ (v d a b : BitVec 5) (t0 : BitVec 9) (pr : BitVec 2),
    let works (_ : VEnv) (x : Vec) : Prop := carries arithTags [a] x
    let ints (t : Nat) (xs : List Nat) : Int := (xs.map (sval (tagBits t))).sum
    let sum (e : VEnv) (t : Nat) (xs : List Nat) : Nat :=
      if isIntTag t then wrap (tagBits t) (ints t xs) else roundTo e.n t 6 false 0 (exSum e.n 6 (xs.map (operand e.n t)))
    let sends (i : Instr) (rounds : Bool) (f : VEnv → Nat → List Nat → Token) : Prop :=
      VecActs i works fun e x _ =>
        let t := x.vtype.toNat
        let n := lenN x e.cw t
        (x, some (f e t ((upTo n).map (x.elem a.toNat t))), rounds && srUsed e t n)
    let scans (i : Instr) (rounds : Bool) (f : VEnv → Nat → List Nat → Nat) : Prop :=
      VecActs i works fun e x _ =>
        let t := x.vtype.toNat
        let n := lenN x e.cw t
        (x.write d.toNat t ((upTo n).map fun k => f e t ((upTo (k + 1)).map (x.elem a.toNat t))), none, rounds && srUsed e t n)
    let masks (i : Instr) (f : List Bool → Dbl) : Prop :=
      VecActs i (fun _ x => x.tagOf a.toNat = tagMask) fun e x _ =>
        (x, some (tokOf (f ((upTo (lenM x e.cw x.vtype.toNat)).map fun k => decide (x.lane a.toNat k ≠ 0)))), false)
    sends (.rsum v t0 a pr) true (fun e t xs => elemTok t (sum e t xs)) ∧
    sends (.rmax v t0 a pr) false (fun e t xs => elemTok t (pickAll e t true xs)) ∧
    sends (.rmin v t0 a pr) false (fun e t xs => elemTok t (pickAll e t false xs)) ∧
    sends (.rsumw v t0 a pr) true (fun e t xs => tokOf (BitVec.ofNat 64 (
      if isIntTag t then wrap 64 (ints t xs)
      else roundTo e.n (if t = tagF32 ∨ t = tagF64 then tagF64 else tagF32) 6 false 0 (exSum e.n 6 (xs.map (operand e.n t)))))) ∧
    masks (.rcount v t0 a pr) (fun ms => BitVec.ofNat 64 (ms.count true)) ∧
    masks (.rfirst v t0 a pr) (fun ms => if true ∈ ms then BitVec.ofNat 64 (ms.idxOf true) else 0xFFFFFFFFFFFFFFFF) ∧
    scans (.vscanSum v d a pr) true sum ∧
    scans (.vscanMax v d a pr) false (fun e t xs => pickAll e t true xs) ∧
    scans (.vscanMin v d a pr) false (fun e t xs => pickAll e t false xs) ∧
    VecActs (.vscanSegsum v d a b pr) (fun e x => works e x ∧ x.tagOf b.toNat = tagMask) fun e x _ =>
      let t := x.vtype.toNat
      let n := lenM x e.cw t
      (x.write d.toNat t ((upTo n).map fun k =>
        let heads := (upTo (k + 1)).filter fun j => decide (x.lane b.toNat j ≠ 0)
        let from' := heads.getLast?.getD 0
        sum e t (((upTo (k + 1)).filter fun j => decide (from' ≤ j)).map (x.elem a.toNat t))), none, srUsed e t n)

/-- R154: the function instructions round the value of their function once with RNE, whatever STATUS.RM is. -/
def Obligations.VectorFunctions : Prop :=
  ∀ (v d a : BitVec 5) (pr : BitVec 2),
    let each (i : Instr) (k : Nat) : Prop :=
      VecActs i (fun _ x => carries funcTags [a] x) fun e x _ =>
        let t := x.vtype.toNat
        (x.write d.toNat t ((upTo (lenN x e.cw t)).map fun j =>
          roundTo e.n t 0 false 0 (vfuncOf k (operand e.n t (x.elem a.toNat t j)))), none, false)
    each (.exp2 v d a pr) 0 ∧ each (.log2 v d a pr) 1 ∧ each (.rcp v d a pr) 2 ∧ each (.rsq v d a pr) 3 ∧
    each (.sqrt v d a pr) 4 ∧ each (.tanh v d a pr) 5 ∧ each (.sigm v d a pr) 6 ∧ each (.erf v d a pr) 7

/-- R155 to R158: conversions between formats, the widening and narrowing of half registers, the decoding of codebook indices, and block scales. A block whose VSCL or VQNT could round under SR is marked whether or not an element comes to be rounded (log 60). -/
def Obligations.VectorConversions : Prop :=
  ∀ (v d a b : BitVec 5) (t4 : BitVec 4) (m k : BitVec 3) (pr : BitVec 2),
    let unpack (i : Instr) (hi : Bool) : Prop :=
      ∀ u, VecActs i (fun _ x => widerOf (x.tagOf a.toNat) = some u) fun e x _ =>
        let t := x.tagOf a.toNat
        let half := cap e.cw t / 2
        (x.write d.toNat u ((upTo half).map fun j =>
          widenElem e t u (x.elem a.toNat t (if hi then half + j else j))), none, false)
    VecActs (.vcvt v d a t4 m pr) (fun _ x => x.tagOf a.toNat ∉ [tagNone, tagCB2, tagMask]) (fun e x _ =>
      let src := x.tagOf a.toNat
      let n := Nat.min x.vl.toNat (Nat.min (cap e.cw src) (cap e.cw t4.toNat))
      (x.write d.toNat t4.toNat ((upTo n).map fun j => cvtElem e src t4.toNat m.toNat j (x.elem a.toNat src j)), none,
        decide (0 < n) && !(isIntTag src && isIntTag t4.toNat) && drawsSr e.n m.toNat)) ∧
    VecActs (.vdeq v d a k pr) (fun _ x => x.tagOf a.toNat = tagCB2 ∧ x.vtype.toNat = tagBF16) (fun e x _ =>
      (x.write d.toNat tagBF16 ((upTo (lenN x e.cw tagBF16)).map fun j =>
        let idx := x.elem a.toNat tagCB2 (16 * e.cw * k.toNat + j / 8)
        roundTo { e.n with ftz := false } tagBF16 0 false j (weightEx ((cb2Weights4 (e.book.getD (idx / 256) 0) idx).getD (j % 8) 0))),
       none, false)) ∧
    VecActs (.vscl v d a b pr) (fun _ x => carries funcTags [a] x ∧ x.tagOf b.toNat = tagI16) (fun e x _ =>
      let t := x.vtype.toNat
      let n := lenN x e.cw t
      (x.write d.toNat t ((upTo n).map fun j =>
        scaled e t t 6 j (x.elem a.toNat t j) (x.elem b.toNat tagI16 (j / 32)) false false), none, srUsed e t n)) ∧
    VecActs (.vqnt v d a b pr) (fun _ x => x.tagOf a.toNat ∈ funcTags ∧ x.tagOf b.toNat = tagI16 ∧ x.vtype.toNat ∈ quantTags) (fun e x _ =>
      let t := x.tagOf a.toNat
      let u := x.vtype.toNat
      let n := Nat.min (lenN x e.cw u) (cap e.cw t)
      (x.write d.toNat u ((upTo n).map fun j =>
        scaled e t u 6 j (x.elem a.toNat t j) (x.elem b.toNat tagI16 (j / 32)) true true), none, decide (0 < n) && drawsSr e.n 6)) ∧
    VecActs (.vamax v d a pr) (fun _ x => x.tagOf a.toNat ∈ funcTags ∧ x.vtype.toNat ∈ quantTags) (fun e x _ =>
      let t := x.tagOf a.toNat
      let n := Nat.min x.vl.toNat (cap e.cw t)
      (x.write d.toNat tagI16 ((upTo ((n + 31) / 32)).map fun g =>
        groupScale e t x.vtype.toNat ((((upTo n).map (x.elem a.toNat t)).drop (32 * g)).take 32)), none, false)) ∧
    (∀ u, VecActs (.pack v d a b pr) (fun _ x => widerOf x.vtype.toNat = some u ∧ x.tagOf a.toNat = u ∧ x.tagOf b.toNat = u) (fun e x _ =>
      let t := x.vtype.toNat
      let half := cap e.cw t / 2
      (x.write d.toNat t ((upTo (2 * half)).map fun j =>
        narrowElem e u t j (if j < half then x.elem a.toNat u j else x.elem b.toNat u (j - half))), none,
       !isIntTag t && drawsSr e.n 6))) ∧
    unpack (.unpklo v d a pr) false ∧ unpack (.unpkhi v d a pr) true

/-- R139, R140, R143, R144, R159: the vector length, which VSETL changes in any block, whatever the older blocks leave of the context, its grant, broadcasts, indices, extraction and the tag instructions. -/
def Obligations.VectorLengthElementsAndTags : Prop :=
  ∀ (v a : BitVec 5) (t0 : BitVec 9) (t4 : BitVec 4) (pr : BitVec 2),
    (∀ (s : State) (b : Block) (l r : Token), Fires s (formOf (.vsetl v t0 t4 pr) false) b l r →
      let grant := Nat.min l.lo.toNat (cap (s.hart s.dev.focus.hart).cwidth.toNat t4.toNat)
      let left : VEarly := .len (BitVec.ofNat 13 grant) t4
      exec (.vsetl v t0 t4 pr) s = .next (s.firedBlock b fun b1 =>
        if l.null then (b1.resolveV s.dev.focus.idx (some v.toNat)).deliver t0 tokNull
        else ((b1.leave left).resolveV s.dev.focus.idx (some v.toNat)).deliver t0 (tokOf (BitVec.ofNat 64 grant))) ∧
      (∀ y, (b.leave left).vecOver y = { b.vecOver y with vl := BitVec.ofNat 13 grant, vtype := t4 })) ∧
    VecActs (.vgetl v t0 t4 pr) (fun _ _ => True) (fun e x _ =>
      (x, some (tokOf (BitVec.ofNat 64 (cap e.cw (if t4 = 0 then x.vtype.toNat else t4.toNat)))), false)) ∧
    VecActs (.vbcast v a pr) (fun _ x => x.vtype.toNat ≠ tagNone) (fun e x l =>
      (x.write a.toNat x.vtype.toNat (List.replicate (lenN x e.cw x.vtype.toNat) (tokElem x.vtype.toNat l.lo)), none, false)) ∧
    VecActs (.vidx v a pr) (fun _ x => x.vtype.toNat ∉ [tagNone, tagCB2, tagMask]) (fun e x _ =>
      let t := x.vtype.toNat
      (x.write a.toNat t ((upTo (lenN x e.cw t)).map fun i =>
        if isIntTag t then i % 2 ^ tagBits t else roundTo e.n t 0 true i (Ex.ofInt i)), none, false)) ∧
    VecActs (.vextr v t0 a pr) (fun _ _ => True) (fun e x l =>
      let t := x.tagOf a.toNat
      (x, some (if l.lo.toNat < cap e.cw t then elemTok t (x.elem a.toNat t l.lo.toNat) else tokOf 0), false)) ∧
    VecActs (.gettag v t0 a pr) (fun _ _ => True) (fun _ x _ => (x, some (tokOf (BitVec.ofNat 64 (x.tagOf a.toNat))), false)) ∧
    VecActs (.settag v a pr) (fun _ _ => True) (fun _ x l =>
      ({ x with tag := mset 0 x.tag a.toNat (l.lo.setWidth 4) }, none, false)) ∧
    VecActs (.clrtag v a pr) (fun _ _ => True) (fun _ x _ => ({ x with tag := mset 0 x.tag a.toNat 0 }, none, false))

/-- R42, R141: a vector instruction whose registers or VTYPE are not what it works on records a format-mismatch fault, resolves nothing and leaves every register as it was; scans take R151's tags (the model's choice, log 64); LDV and STV likewise, whose VTYPE must have elements of whole bytes in the strided and indexed forms, whose index register must carry I32 and whose stored register VTYPE or no tag (R240). -/
def Obligations.VectorTagMismatchFaults : Prop :=
  ∀ (lsid v d a b : BitVec 5) (t0 : BitVec 9) (t4 : BitVec 4) (c m k : BitVec 3) (z o pr : BitVec 2),
    let arith (i : Instr) : Prop := VecClashes i (fun _ x => carries arithTags [a, b] x)
    let one (i : Instr) (ts : List Nat) : Prop := VecClashes i (fun _ x => carries ts [a] x)
    let fused (i : Instr) : Prop := VecClashes i (fun _ x => carries wideFloatTags [a, b, d] x)
    let dot (i : Instr) (t : Nat) : Prop := VecClashes i (fun _ x => carries [t] [a, b] x ∧ x.tagOf d.toNat = tagI32)
    let logic (i : Instr) (b : BitVec 5) : Prop :=
      VecClashes i (fun _ x => x.tagOf a.toNat ∈ logicTags ∧ x.tagOf b.toNat = x.tagOf a.toNat ∧
        (x.tagOf a.toNat ≠ tagMask → x.tagOf a.toNat = x.vtype.toNat))
    let shift (i : Instr) : Prop := VecClashes i (fun _ x => carries [tagI32, tagI16, tagI8] [a, b] x)
    let moved (i : Instr) (index form : Nat) (st : Bool) : Prop :=
      ∀ (s : State) (b : Block) (l r : Token) (zone : Nat), Fires s (formOf i st) b l r → l.null = false →
        let hn := s.dev.focus.hart
        let x := b.ctxOf (s.hart hn)
        (s.hart hn).zoneFor s.dev.focus.tag z.toNat = some zone →
        1 ≤ form ∧ tagBits x.vtype.toNat < 8 ∨ form = 2 ∧ x.tagOf index ≠ tagI32 ∨
          st = true ∧ x.tagOf d.toNat ≠ x.vtype.toNat ∧ x.tagOf d.toNat ≠ tagNone →
        ∃ q, exec i s = .next (s.firedBlock b fun b1 => b1.fault 0x40 s.dev.focus.idx q 0)
    arith (.vadd v d a b pr) ∧ arith (.vsub v d a b pr) ∧ arith (.vrsub v d a b pr) ∧ arith (.vmul v d a b pr) ∧
    arith (.vdiv v d a b pr) ∧ arith (.vmin v d a b pr) ∧ arith (.vmax v d a b pr) ∧ arith (.vabsd v d a b pr) ∧
    arith (.vcmp v d a b c pr) ∧
    one (.rsum v t0 a pr) arithTags ∧ one (.rmax v t0 a pr) arithTags ∧ one (.rmin v t0 a pr) arithTags ∧
    one (.rsumw v t0 a pr) arithTags ∧ one (.vscanSum v d a pr) arithTags ∧ one (.vscanMax v d a pr) arithTags ∧
    one (.vscanMin v d a pr) arithTags ∧ one (.exp2 v d a pr) funcTags ∧ one (.log2 v d a pr) funcTags ∧
    one (.rcp v d a pr) funcTags ∧ one (.rsq v d a pr) funcTags ∧ one (.sqrt v d a pr) funcTags ∧
    one (.tanh v d a pr) funcTags ∧ one (.sigm v d a pr) funcTags ∧ one (.erf v d a pr) funcTags ∧
    fused (.vfma v d a b pr) ∧ fused (.vfms v d a b pr) ∧ fused (.vfnma v d a b pr) ∧ fused (.vfnms v d a b pr) ∧
    dot (.vdoti8 v d a b pr) tagI8 ∧ dot (.vdoti4 v d a b pr) tagI4 ∧
    logic (.vand v d a b pr) b ∧ logic (.vor v d a b pr) b ∧ logic (.vxor v d a b pr) b ∧ logic (.vandn v d a b pr) b ∧
    logic (.vnot v d a pr) a ∧
    shift (.vshl v d a b pr) ∧ shift (.vshr v d a b pr) ∧ shift (.vshra v d a b pr) ∧
    VecClashes (.rcount v t0 a pr) (fun _ x => x.tagOf a.toNat = tagMask) ∧
    VecClashes (.rfirst v t0 a pr) (fun _ x => x.tagOf a.toNat = tagMask) ∧
    VecClashes (.vscanSegsum v d a b pr) (fun _ x => carries arithTags [a] x ∧ x.tagOf b.toNat = tagMask) ∧
    VecClashes (.vsel v d a b pr) (fun _ x => x.tagOf d.toNat = tagMask ∧ x.tagOf b.toNat = x.tagOf a.toNat) ∧
    VecClashes (.vcmpct v d a b pr) (fun _ x => x.tagOf b.toNat = tagMask) ∧
    VecClashes (.vpermx v d a b pr) (fun _ x => x.tagOf b.toNat = tagI32) ∧
    VecClashes (.vzip v d a b pr) (fun _ x => x.tagOf b.toNat = x.tagOf a.toNat) ∧
    VecClashes (.vunzip v d a b pr) (fun _ x => x.tagOf b.toNat = x.tagOf a.toNat) ∧
    VecClashes (.vcvt v d a t4 m pr) (fun _ x => x.tagOf a.toNat ∉ [tagNone, tagCB2, tagMask]) ∧
    VecClashes (.vdeq v d a k pr) (fun _ x => x.tagOf a.toNat = tagCB2 ∧ x.vtype.toNat = tagBF16) ∧
    VecClashes (.vscl v d a b pr) (fun _ x => carries funcTags [a] x ∧ x.tagOf b.toNat = tagI16) ∧
    VecClashes (.vqnt v d a b pr) (fun _ x => x.tagOf a.toNat ∈ funcTags ∧ x.tagOf b.toNat = tagI16 ∧ x.vtype.toNat ∈ quantTags) ∧
    VecClashes (.vamax v d a pr) (fun _ x => x.tagOf a.toNat ∈ funcTags ∧ x.vtype.toNat ∈ quantTags) ∧
    VecClashes (.pack v d a b pr) (fun _ x => ∃ u, widerOf x.vtype.toNat = some u ∧ x.tagOf a.toNat = u ∧ x.tagOf b.toNat = u) ∧
    VecClashes (.unpklo v d a pr) (fun _ x => ∃ u, widerOf (x.tagOf a.toNat) = some u) ∧
    VecClashes (.unpkhi v d a pr) (fun _ x => ∃ u, widerOf (x.tagOf a.toNat) = some u) ∧
    VecClashes (.vbcast v a pr) (fun _ x => x.vtype.toNat ≠ tagNone) ∧
    VecClashes (.vidx v a pr) (fun _ x => x.vtype.toNat ∉ [tagNone, tagCB2, tagMask]) ∧
    moved (.ldv lsid v d z o pr) d.toNat 0 false ∧ moved (.ldvStr lsid v d z o pr) d.toNat 1 false ∧
    moved (.ldvIdx lsid v d z o pr) d.toNat 2 false ∧
    moved (.stv lsid v d z o pr) ((d.toNat + 1) % 32) 0 true ∧ moved (.stvStr lsid v d z o pr) ((d.toNat + 1) % 32) 1 true ∧
    moved (.stvIdx lsid v d z o pr) ((d.toNat + 1) % 32) 2 true

/-! Tensor instructions -/

/-- R105, R166 to R171: MSHAPE, MZERO and MTSCL hold their change for the commit, MWAIT waits for the operations on the registers of its mask, MSTAT sends MSTAT with the full column count in bits 63:32. -/
def Obligations.TensorConfiguration : Prop :=
  ∀ (t0 : BitVec 9) (m : BitVec 8) (k : BitVec 3) (pr : BitVec 2) (s : State) (b : Block) (l r : Token),
    let idx := s.dev.focus.idx
    let h := s.hart s.dev.focus.hart
    let all : Nat := if m = 0 then 0xFF else m.toNat
    let req := l.lo.toNat
    let rows := if req % 2 ^ 6 = 0 then 32 else Nat.min (req % 2 ^ 6) 32
    let cols := if req / 2 ^ 8 % 2 ^ 10 = 0 then 32 * h.cwidth.toNat else Nat.min (req / 2 ^ 8 % 2 ^ 10) (32 * h.cwidth.toNat)
    (Fires s (formOf (.mshape t0 pr) true) b l r → exec (.mshape t0 pr) s = .next (s.firedBlock b fun b1 =>
      if l.null then b1.deliver t0 tokNull
      else (b1.addEff idx (.mshape rows cols)).deliver t0 (tokOf (BitVec.ofNat 64 (cols + 2 ^ 9 * rows))))) ∧
    (Fires s (formOf (.mzero m pr) true) b l r →
      exec (.mzero m pr) s = .next (s.firedBlock b fun b1 => b1.addEff idx (.mzero all))) ∧
    (Fires s (formOf (.mwait t0 m pr) true) b l r → exec (.mwait t0 m pr) s = .next (s.firedBlock b fun b1 =>
      b1.addReq { idx := idx, lsid := 0, ord := 0, zone := 0, va := 0, t0 := t0, kind := .mwait all })) ∧
    (Fires s (formOf (.mstat t0 pr) true) b l r → exec (.mstat t0 pr) s = .next (s.sends b [t0] (tokOf
      (BitVec.ofNat 64 (h.mcols.toNat + 2 ^ 9 * h.mrows.toNat + 2 ^ 15 * h.narrow.toNat + 2 ^ 16 * h.busy.toNat) +
        BitVec.ofNat 64 (2 ^ 32 * (32 * h.cwidth.toNat)))))) ∧
    (Fires s (formOf (.mtscl k pr) true) b l r → exec (.mtscl k pr) s = .next (s.firedBlock b fun b1 =>
      if l.null then b1 else b1.addEff idx (.mtscl k.toNat (l.val.setWidth 32) ((l.val >>> 64).setWidth 32))))

/-- R163, R173: a tensor instruction that fires collects its fields and waits to issue in VSID order; MMA and MMAS with a null or zero K resolve their VSID and do nothing else. -/
def Obligations.TensorInstructionsWaitToIssue : Prop :=
  ∀ (v a5 b5 d5 r5 : BitVec 5) (d a b3 : BitVec 3) (c : BitVec 1) (g : BitVec 4) (pr : BitVec 2)
    (s : State) (b : Block) (l r : Token),
    let idx := s.dev.focus.idx
    let waits (i : Instr) (t : TIns) : Prop :=
      Fires s (formOf i true) b l r → exec i s = .next (s.firedBlock b fun b1 =>
        if operandCount i = 1 ∧ (l.null = true ∨ l.lo = 0) then b1.resolveV idx (some v.toNat)
        else b1.addReq { idx := idx, lsid := 0, ord := 0, zone := 0, va := 0, t0 := noTarget, kind := .tensor t })
    let t (op d a b mode : Nat) (flag : Bool) (k : Dbl) : TIns :=
      { op := op, d := d, a := a, b := b, mode := mode, flag := flag, k := k, vsid := v.toNat }
    waits (.mma v d a b3 c pr) (t 0 d.toNat a.toNat b3.toNat 0 (c == 1) l.lo) ∧
    waits (.mmas v d a b3 c pr) (t 1 d.toNat a.toNat b3.toNat 0 (c == 1) l.lo) ∧
    waits (.mmav v d a5 b5 pr) (t 2 d.toNat a5.toNat b5.toNat 0 false 0) ∧
    waits (.mmavSub v d a5 b5 pr) (t 3 d.toNat a5.toNat b5.toNat 0 true 0) ∧
    waits (.mldv v d a5 r5 pr) (t 4 d.toNat a5.toNat r5.toNat 0 false 0) ∧
    waits (.mrdv v d5 d r5 pr) (t 5 d5.toNat d.toNat r5.toNat 0 false 0) ∧
    waits (.msto v d a b3 g c pr) (t 6 d.toNat (a.toNat + 8) g.toNat b3.toNat (c == 1) 0) ∧
    waits (.maddm v d a b3 pr) (t 7 d.toNat a.toNat b3.toNat 0 false 0) ∧
    waits (.mtrn v d a pr) (t 8 d.toNat a.toNat 0 0 false 0) ∧
    waits (.mcopy v d a pr) (t 9 d.toNat a.toNat 0 0 false 0)

/-! Tasks, ports, counts and tables -/

/-- R285 to R296: what each task instruction leaves for the commit of its block, and the faults that its operands can raise; a null token does nothing in SPAWN, SPAWNA, WIDTH and LAUNCH, and for JOIN and YIELD, which take a continuation address as a branch takes its target, it is a branch-target fault (R286, R292), recorded with detail 0 (log 50). A null address of a SPAWN or SPAWNA is a null token like any other, and the misaligned-access detail of SPAWNA and LAUNCH has kind 0 and size 0 (both log 60); which token round counts for a DOMWAIT is log 24. -/
def Obligations.TaskInstructions : Prop :=
  ∀ (t0 : BitVec 9) (n pr : BitVec 2) (s : State) (b : Block) (l r : Token),
    let idx := s.dev.focus.idx
    let h := s.hart s.dev.focus.hart
    let good (k : Token) : Bool := !k.null && k.lo.toNat % 128 == 0
    let shown (k : Token) : Dbl := if k.null then 0 else k.lo
    let misaligned (a : Dbl) (b1 : Block) : Block := b1.addFault { plainFault 0x12 (32 + idx) with va := a }
    let does (i : Instr) (old : Bool) (k : Block → Block) : Prop :=
      Fires s (formOf i old) b l r → exec i s = .next (s.firedBlock b k)
    let leaves (i : Instr) (br : Branch) : Prop :=
      does i true fun b0 =>
        let b1 := b0.takeExit idx
        if !good l then b1.fault 0x05 idx (shown l) 0
        else if h.busy ≠ 0 then b1.fault 0x30 idx (liveWord h (s.mt (placeOfHart s.dev.focus.hart))) 0
        else b1.setBranch idx br
    does (.spawn pr) false (fun b1 =>
      if l.null then b1 else if !good l then b1.fault 0x05 idx l.lo 0 else b1.addEff idx (.spawn l.lo h.seg)) ∧
    does (.spawna pr) false (fun b1 =>
      if l.null || r.null then b1 else if !good l then b1.fault 0x05 idx l.lo 0
      else if r.lo.toNat % 4096 ≠ 0 then misaligned r.lo b1 else b1.addEff idx (.spawn l.lo r.lo)) ∧
    leaves (.join pr) (.join l.lo) ∧ leaves (.yield pr) (.yield l.lo) ∧
    does (.taskend pr) false (fun b1 => (b1.takeExit idx).setBranch idx .taskend) ∧
    Sends (.taskid t0 n pr) false (fun h _ _ =>
      tokOf (if n = 0 then h.taskid.setWidth 64 else if n = 1 then h.seg else h.parent)) ∧
    does (.width pr) false (fun b1 => if l.null then b1 else
      b1.addEff idx (.width (match l.lo.toNat % 16 with
        | 0 => 0 | 1 => 1 | 2 | 3 => 2 | 4 | 5 | 6 | 7 => 4 | _ => 8))) ∧
    does (.launch pr) false (fun b1 => if l.null then b1 else
      if l.lo.toNat % 64 ≠ 0 then misaligned l.lo b1 else b1.addEff idx (.launch l.lo)) ∧
    does (.domwait t0 pr) false (fun b1 =>
      b1.addReq { idx := idx, lsid := 0, ord := 0, zone := 0, va := 0, t0 := t0, kind := .domwait (match s.dev.graph (s.hart s.dev.focus.hart).graph with | some g => g.active.toNat | none => 0) })

/-- R299 to R302, R308: the port instructions hold their change for the commit; a second change of one port in a block is a token conflict; the detail of CHCFG's 0x11 has access kind and size 0 (the model's choice, log 64); CHLEN sends count, credit and binding. -/
def Obligations.PortInstructions : Prop :=
  ∀ (t0 : BitVec 9) (n : BitVec 4) (u : BitVec 1) (pr : BitVec 2) (s : State) (b : Block) (l r : Token),
    let idx := s.dev.focus.idx
    let x := l.lo.toNat
    let q := x / 2 ^ 16 % 16
    let dx := BitVec.ofNat 8 x
    let dy := BitVec.ofNat 8 (x / 2 ^ 8)
    let e : Eff := .chcfg n.toNat dx dy q (r.lo.setWidth 16)
    (Fires s (formOf (.chcfg n pr) false) b l r → exec (.chcfg n pr) s = .next (s.firedBlock b fun b1 =>
      if l.null || r.null then b1
      else if portClash b e then b1.fault 0x03 idx 0 0
      else if (s.dev.relPlace s.dev.focus.hart dy.toInt dx.toInt).isNone then b1.fault 0x11 idx 0 0
      else if (8 ≤ n.toNat) ↔ (8 ≤ q) then b1.fault 0x31 idx (BitVec.ofNat 64 (n.toNat + 2 ^ 8 * q)) 0
      else b1.addEff idx e)) ∧
    (Fires s (formOf (.chcfgAge n pr) false) b l r → exec (.chcfgAge n pr) s = .next (s.firedBlock b fun b1 =>
      if l.null || r.null then b1
      else if portClash b (.chcfgAge n.toNat (x % 8)) then b1.fault 0x03 idx 0 0 else b1.addEff idx (.chcfgAge n.toNat (x % 8)))) ∧
    (Fires s (formOf (.chclr u n pr) false) b l r → exec (.chclr u n pr) s = .next (s.firedBlock b fun b1 =>
      if portClash b (.chclr n.toNat (u == 1)) then b1.fault 0x03 idx 0 0 else b1.addEff idx (.chclr n.toNat (u == 1)))) ∧
    (Fires s (formOf (.chlen t0 n pr) false) b l r → exec (.chlen t0 n pr) s = .next (
      let p := s.port (placeOfHart s.dev.focus.hart) n.toNat
      let popped := popsOf ((s.hart s.dev.focus.hart).olderBlocks b.tag ++ [b]) n.toNat
      let count := if n.toNat < 8 then p.q.length - popped else p.q.length
      let credit := if 8 ≤ n.toNat ∧ p.bind = 1 then p.credit.toNat else 0
      let state := if p.bind = 2 then 2 else if p.bind = 1 then (if p.agreed then 1 else 3) else 0
      s.sends b [t0] (tokOf (BitVec.ofNat 64 (count % 32 + 2 ^ 5 * credit + 2 ^ 10 * state)))))

/-- R361 to R366: WAITC leaves its wait in its block; RDC sends the named count, and reads the join counter of its segment at the home as it fires, which keeps the translation (log 25), unless a replay notice of its page stands (R281); a performance counter of the anchor gives its count, the RDC's own firing included, and one of timed events has then risen by a free amount (both log 59); JADD and PCFG are held for the commit; TIME sends TIMEBASE, later than any reading before (R360; by how much is free, log 8), its state or the time of its last step. -/
def Obligations.CountInstructions : Prop :=
  ∀ (t0 : BitVec 9) (m n3 sc : BitVec 3) (c : BitVec 5) (q pr : BitVec 2) (s : State) (b : Block) (l r : Token),
    let hn := s.dev.focus.hart
    let idx := s.dev.focus.idx
    let h := s.hart hn
    let waits (i : Instr) (kind arg : Nat) : Prop :=
      Fires s (formOf i false) b l r → exec i s = .next (s.firedBlock b fun b1 =>
        b1.addReq { idx := idx, lsid := 0, ord := 0, zone := 0, va := 0, t0 := t0, kind := .waitc kind arg none })
    let posts (k : Nat) : Nat := (h.posted.filter fun p => p.cls == k && !p.isCache).length + (h.l1d.filter (h.owesLine k)).length
    waits (.waitc t0 m pr) 0 m.toNat ∧ waits (.waitcAge t0 n3 pr) 1 n3.toNat ∧ waits (.waitcJoin t0 pr) 2 0 ∧
    (Fires s (formOf (.rdc t0 c pr) false) b l r → ¬(8 ≤ c.toNat ∧ c.toNat < 16) → c.toNat < 24 → exec (.rdc t0 c pr) s = .next (
      if c = 3 ∧ isEngine hn = false then
        let u := s.wordReached hn
        match h.noticeFor 0 ((h.seg + 56).toNat / 4096), s.peekWord h.ctxid.toNat h.seg with
        | some n, _ => s.firedBlock b fun b1 => b1.addFault (deferredFault n (32 + idx))
        | none, (w, none) => u.sends b [t0] (tokOf (BitVec.ofNat 64 (w / 2 ^ 32)))
        | none, (_, some x) => u.firedBlock b fun b1 =>
            b1.addFault { plainFault x.1 (32 + idx) with va := h.seg + 56, late := true, d0 := BitVec.ofNat 64 x.2, d1 := if x.2 = 2 ^ 64 then 0x304 else 0x300 }
      else s.sends b [t0] (tokOf (
        if c.toNat < 3 then BitVec.ofNat 64 (posts c.toNat)
        else if c = 3 then 0
        else if c = 4 then (if isEngine hn then 0 else BitVec.ofNat 64 b.seq)
        else if c = 5 then BitVec.ofNat 64 h.notices.length
        else
          let a := (s.mt (placeOfHart hn)).age (c.toNat - 16)
          BitVec.ofNat 64 (a.done.toNat + 2 ^ 32 * a.pass.toNat))))) ∧
    (Fires s (formOf (.rdc t0 c pr) false) b l r → 8 ≤ c.toNat → c.toNat < 16 →
      let u := s.holdCounter (placeOfHart hn) (c.toNat - 8)
      exec (.rdc t0 c pr) s = .next (u.sends b [t0] (tokOf
        (mget 0 (if isEngine hn then u.hart (placeOfHart hn) else (u.hart hn).count 5 1).pcnt (c.toNat - 8))))) ∧
    (Fires s (formOf (.jadd sc pr) false) b l r → exec (.jadd sc pr) s = .next (s.firedBlock b fun b1 =>
      if l.null || r.null then b1
      else if l.lo.toNat % 4096 ≠ 0 then b1.addFault { plainFault 0x12 (32 + idx) with va := l.lo, d1 := BitVec.ofNat 64 (2 + 256 * Nat.log2 8) }
      else b1.addEff idx (.jadd sc.toNat l.lo (r.lo.setWidth 32)))) ∧
    (Fires s (formOf (.pcfg n3 pr) false) b l r → exec (.pcfg n3 pr) s = .next (s.firedBlock b fun b1 =>
      if l.null then b1
      else if b.effs.any (fun e => match e.2 with | .pcfg k _ => k == n3.toNat | _ => false) then b1.fault 0x03 idx 0 0
      else b1.addEff idx (.pcfg n3.toNat l.lo))) ∧
    (Fires s (formOf (.time t0 q pr) false) b l r →
      let u : State := if q = 0 then s.ticked else s
      exec (.time t0 q pr) s = .next (u.sends b [t0] (tokOf (
      if q = 0 then u.dev.timebase
      else if q = 1 then BitVec.ofNat 64 (s.dev.sync.toNat + 2 ^ 16 * s.dev.steps.toNat) else s.dev.stepAt))))

/-- R336, R337, R341, R343: CBLD leaves its read in its block and ALINV is held for the commit; ATTR and DMAPQ send what they ask. An invalid zone is a fault, and so is a misaligned address of a CBLD, whose reads meet every other fault (R351); an ATTR of a host page without a translation asks for one and waits. Its answer for zone 0xF0 is log 14; the zone-invalid detail of ALINV and ATTR has kind 0 and size 0 (log 60). -/
def Obligations.TableInstructions : Prop :=
  ∀ (t0 : BitVec 9) (sc : BitVec 3) (z q pr : BitVec 2) (s : State) (b : Block) (l r : Token) (zone : Nat),
    let c := s.dev.focus
    let h := s.hart c.hart
    let bad (cause : Nat) (b1 : Block) : Block := b1.addFault { plainFault cause (32 + c.idx) with zone := zone, va := l.lo }
    let badRead (cause : Nat) (b1 : Block) : Block :=
      b1.addFault { plainFault cause (32 + c.idx) with zone := zone, va := l.lo, d1 := BitVec.ofNat 64 (256 * Nat.log2 64) }
    let zoned (i : Instr) (old : Bool) (k : Block → Block) : Prop :=
      Fires s (formOf i old) b l r → h.zoneFor c.tag z.toNat = some zone →
      exec i s = .next (s.firedBlock b fun b1 =>
        if l.null then b1.deliverAll (targetsOf i) tokNull else if zoneOf zone = .invalid then bad 0x10 b1 else k b1)
    (Fires s (formOf (.cbld z pr) true) b l r → h.zoneFor c.tag z.toNat = some zone →
      exec (.cbld z pr) s = .next (s.firedBlock b fun b1 =>
        if l.null then b1
        else if zoneOf zone = .invalid then badRead 0x10 b1
        else if l.lo.toNat % 4 ≠ 0 then badRead 0x12 b1
        else b1.addReq { idx := c.idx, lsid := 0, ord := 0, zone := zone, va := l.lo, t0 := noTarget, kind := .cbld })) ∧
    zoned (.alinv sc z pr) false (fun b1 => b1.addEff c.idx (.alinv zone sc.toNat l.lo)) ∧
    (s.attrWaits z.toNat = false → zoned (.attr t0 z pr) false (fun b1 =>
      b1.deliver t0 (tokOf (BitVec.ofNat 64 (attrValue s h.ctxid.toNat zone l.lo.toNat))))) ∧
    (Fires s (formOf (.attr t0 z pr) false) b l r → s.attrWaits z.toNat = true → exec (.attr t0 z pr) s = .next (s.attrAsks z.toNat)) ∧
    (Fires s (formOf (.dmapq t0 q pr) false) b l r → exec (.dmapq t0 q pr) s = .next (s.sends b [t0] (
      if l.null then tokNull else tokOf (
        if q = 0 then s.dev.dmapver.setWidth 64
        else if q = 1 then BitVec.ofNat 64 (mapBits (l.lo.toNat % 4096)) else s.dev.scanver.setWidth 64))))

/-! The whole machine -/

/-- R77 to R82, R406: decoding what an instruction encodes to gives the instruction back, with every operand at every value the encoding admits, for all words of the blocks and of the application cores. -/
def Obligations.DecodeInvertsEncode : Prop :=
  ∀ i : Instr, i.wf = true →
    (isWelit i = true → decodeWord (encode i) = some i) ∧ (isWl i = true → decodeWl (encode i) = .ok i)

/-- R77, R83: what the decoder answers is well formed. -/
def Obligations.DecodedInstructionsAreWellFormed : Prop :=
  ∀ (w : Word) (i : Instr), (decodeWord w = some i ∨ decodeWl w = .ok i) → i.wf = true

/-- R74, R77, R79, R406: words written out from the opcode map decode to the instruction they stand for. -/
def Obligations.SampleWordsDecode : Prop :=
  -- add.d, sub-opcode 0 of 0x10: op 31:25, w 24, sub 23:20, T0 19:11, T1 10:2, PR 1:0
  decodeWord (BitVec.ofNat 32 (0x10 * 2 ^ 25 + 1 * 2 ^ 24 + 5 * 2 ^ 11 + 0x7F * 2 ^ 2 + 1)) = some (.add 1 5 0x7F 1) ∧
  -- ldw: op 0x44, LSID 24:20, T0 19:11, zs 10:9, ord 8:7, imm5 6:2
  decodeWord (BitVec.ofNat 32 (0x44 * 2 ^ 25 + 3 * 2 ^ 20 + 9 * 2 ^ 11 + 1 * 2 ^ 9 + 2 * 2 ^ 7 + 0x1F * 2 ^ 2)) = some (.ldw 3 9 1 2 0x1F 0) ∧
  -- vadd: op 0x61, VSID 24:20, vd 19:15, va 14:10, vb 9:5, sub 4:2
  decodeWord (BitVec.ofNat 32 (0x61 * 2 ^ 25 + 2 * 2 ^ 20 + 7 * 2 ^ 15 + 8 * 2 ^ 10 + 9 * 2 ^ 5)) = some (.vadd 2 7 8 9 0) ∧
  -- taskend: op 0x78, sub 3
  decodeWord (BitVec.ofNat 32 (0x78 * 2 ^ 25 + 3 * 2 ^ 20 + 0x7F * 2 ^ 11)) = some (.taskend 0) ∧
  -- the filler word of R74, an unassigned major opcode and a reserved predication field are no instructions
  decodeWord 0 = none ∧ decodeWord (BitVec.ofNat 32 (0x7F * 2 ^ 25)) = none ∧ decodeWord (BitVec.ofNat 32 (0x10 * 2 ^ 25 + 3)) = none

/-- R23, R67, R77, R406: a step runs what the agenda names. An instruction of a block runs the meaning of what the block's own word decodes to, with the focus on it, and a slot that holds no instruction does nothing; a custom-0 word of an application core runs the meaning of what it decodes to, and one that is no wl instruction is illegal there; another word of theirs is a CSR instruction on wlctx (R405, log 58), or one of the RISC-V architecture itself, which leaves free values in the core's own registers (the model's choice, log 9); a step or event of the device runs its own meaning; what the RISC-V architecture's own instructions and traps leave of the registers of an application core that waits in no wl word or in one that an interrupt reaches (R405, R407), what firmware leaves of those of a Slate core (R421, log 9), and what the host or a CXL peer stores in its own memory (log 32), where a binder wait may thereby come true (R219), are inputs, and so is the placement service's decay of an access count (R187, log 60). Until READY bit 19 shows the application cores released (R436), none of them does anything. -/
def Obligations.StepRunsWhatComesNext : Prop :=
  (∀ (s : State) (hart tag idx : Nat) (cs : List Choice) (b : Block) (w : Word),
     s.agenda = .fire hart tag idx :: cs → s.dev.halted = false →
     (s.hart hart).block tag = some b → b.code[idx]? = some w →
     step s = match decodeWord w with
       | some i => exec i (setFocus { s with agenda := cs } hart tag idx)
       | none => .next { s with agenda := cs }) ∧
  (∀ (s : State) (core : Nat) (w : Word) (cs : List Choice),
     s.agenda = .app core w :: cs → s.dev.halted = false → w.toNat % 128 = 11 →
     step s = match decodeWl w with
       | .ok i => exec i (setFocus { s with agenda := cs } core 0 0)
       | .no _ => .next (if s.dev.ready.getLsbD 19 then ({ s with agenda := cs } : State).illegalWl core else { s with agenda := cs })) ∧
  (∀ (s : State) (core : Nat) (w : Word) (cs : List Choice),
     s.agenda = .app core w :: cs → s.dev.halted = false → w.toNat % 128 ≠ 11 →
     (s.dev.ready.getLsbD 19 = false → step s = .next { s with agenda := cs }) ∧
     (s.dev.ready.getLsbD 19 = true → step s = match wlctxWord w with
       | some (f3, rd, rs1) => .next (({ s with agenda := cs } : State).wlctxAccess core f3 rd rs1)
       | none => .next (({ s with agenda := cs } : State).riscVWord core))) ∧
  (∀ (s : State) (i : Instr) (cs : List Choice), s.agenda = .event i :: cs → s.dev.halted = false →
     step s = exec i { s with agenda := cs }) ∧
  (∀ (s : State) (core : Nat) (r : RiscV) (cs : List Choice), s.agenda = .riscV core r :: cs → s.dev.halted = false →
     step s = .next (({ s with agenda := cs } : State).riscVLeaves core r)) ∧
  (∀ (s : State) (core : Nat) (r : RiscV), ∃ a : App, a.user = r.user ∧ a.pc = r.pc ∧ a.wlctx = (s.dev.app core).wlctx ∧ a.wait = none ∧
     (∀ k, a.reg k = if k = 0 then 0 else mget 0 (r.x.foldl (fun m p => mset 0 m p.1 p.2) []) k.toNat) ∧
     s.riscVLeaves core r = if s.dev.ready.getLsbD 19 = false ∨ (s.dev.app core).wait.any (fun w => w.kind != 1 && w.kind != 3) then s
       else { s with dev := s.dev.setApp core a }) ∧
  (∀ (s : State) (row : Nat) (r : Slate) (cs : List Choice), s.agenda = .slate row r :: cs → s.dev.halted = false →
     ∃ t, step s = .next t ∧ (t.dev.slate (row % 128)).pc = r.pc ∧ t = { s with agenda := cs, dev := { s.dev with slates := t.dev.slates } }) ∧
  (∀ (s : State) (bank frame n : Nat) (cs : List Choice), s.agenda = .decay bank frame n :: cs → s.dev.halted = false →
     step s = .next (({ s with agenda := cs } : State).decayCount bank frame n)) ∧
  (∀ (s : State) (pa : Nat) (bs : List Byte) (cs : List Choice), s.agenda = .hostStore pa bs :: cs → s.dev.halted = false →
     step s = .next (({ s with agenda := cs, host := setBytes s.host pa bs } : State).wake (.host pa) bs.length)) ∧
  (∀ (s : State) (node pa : Nat) (bs : List Byte) (cs : List Choice), s.agenda = .peerStore node pa bs :: cs → s.dev.halted = false →
     step s = .next (({ s with agenda := cs, peer := setBytes s.peer (peerKey node pa) bs } : State).wake (.peer (peerKey node pa)) bs.length))

/-- R440: a device that a fatal event has stopped takes nothing but its reset: whatever else comes next leaves everything but the list of choices as it was, and it stays stopped. -/
def Obligations.StoppedDeviceMovesOnlyByReset : Prop :=
  ∀ s t : State, s.dev.halted = true → step s = .next t →
    (∀ cs, s.agenda ≠ .event .deviceReset :: cs) →
    t = { s with agenda := s.agenda.tail } ∧ t.dev.halted = true

/-- R1, R205 (log 1): every step keeps the three byte stores canonical, from every state in which they are: addresses rise and no byte is listed at the value an unlisted byte reads as. -/
def Obligations.EveryStepKeepsTheMemoriesCanonical : Prop :=
  ∀ s t : State, Memory.wf s.mem = true ∧ Memory.wf s.host = true ∧ Memory.wf s.peer = true → step s = .next t →
    Memory.wf t.mem = true ∧ Memory.wf t.host = true ∧ Memory.wf t.peer = true

/-- R95, with R105, R262, R314, R376, R434 and R436: the machine right after reset. On every core the g-, z-, v- and m-registers are zero, v tags NONE, m tags F32, the ports empty and unbound, the return stack empty, and the system registers at the Reset column of their field maps (TILEREV is per part: log 2). Beside these: the cores idle, the deques empty and idle, PLCTL and VALARM at their stated values, nothing resident, nothing ready; the byte stores are canonical. -/
def Obligations.ResetLeavesTheStatedValues : Prop :=
  ∀ n r l : Nat,
    let s := State.reset
    let h := s.hart n
    h.reg r = 0 ∧ h.vec.lane r l = 0 ∧ h.vec.tagOf r = tagNone ∧ mget 0 h.m r = 0 ∧ h.mtagOf r = tagF32 ∧
    h.rstk = [] ∧ h.spilled = 0 ∧ (∀ k, k < 12 → s.dev.sysreg n h k = if k = 8 then 0x9E3779B9 else 0) ∧
    h.blocks = [] ∧ h.posted = [] ∧
    (n < 2048 → h.run = .idle) ∧
    (s.port n r).q = [] ∧ (s.port n r).bind = 0 ∧ (s.mt n).deque.tidx = (s.mt n).deque.bidx ∧ (s.mt n).deque.idle = true ∧
    s.dev.graphs = [] ∧ s.dev.held = [] ∧ s.dev.plctl.toNat = 2000 + 1000 * 2 ^ 16 + 100 * 2 ^ 32 + 2 ^ 48 ∧
    s.dev.valarm.toNat = 2150 + 2000 * 2 ^ 16 ∧ s.dev.ready = 0 ∧ s.dev.halted = false ∧ s.dev.timebase = 0 ∧
    Memory.wf s.mem = true ∧ Memory.wf s.host = true ∧ Memory.wf s.peer = true

/-- R24, R75: an instruction whose predicate does not match fires in its nullified form: it resolves the LSID and VSID it holds, sends nothing and has no other effect, whatever instruction of a block it is. Memory instructions do so once their zone is decided. It counts as no fired instruction (R359, log 59). -/
def Obligations.NullifiedInstructionsOnlyResolve : Prop :=
  ∀ (i : Instr) (s : State) (b : Block), isWelit i = true → Nullified s (formOf i false) b →
    (∀ zs, (s.hart s.dev.focus.hart).zoneFor s.dev.focus.tag zs ≠ none) →
    exec i s = .next (s.nullifiedBlock b fun b1 => (b1.resolveL s.dev.focus.idx (lsidOf i)).resolveV s.dev.focus.idx (vsidOf i))

/-- R25, R26, R212, R286: no instruction of a block changes anything architectural when it fires: whatever it is and in whatever state, the next state is the state before, or differs from it in nothing but the blocks in flight of the firing core (with its performance counters, its trace copies and its counts of violations). Every byte of device, host and peer memory, every register, every other core, every memory tile and every device register stays. One instruction reads memory as it fires: RDC of count 3, whose home keeps the translation of the join counter and sets A in its leaf (R333, R363, log 25), and whose core keeps the page's attributes (R196). An ATTR of a host page asks for its translation (R337, R414). An RDC of a performance counter of timed events first has it catch up by a free amount (log 59), and a reading of TIMEBASE has time pass (log 8). -/
def Obligations.FiringChangesOnlyTheBlocksInFlight : Prop :=
  ∀ (i : Instr) (s t : State), isWelit i = true → exec i s = .next t →
    t = s ∨ (∃ t0 z pr, i = .attr t0 z pr ∧ t = s.attrAsks z.toNat) ∨ ∃ (u : State) (h : Hart), (u = s ∨ ((∃ t0 pr, i = .rdc t0 3 pr) ∧ u = s.wordReached s.dev.focus.hart) ∨
        (∃ t0 c pr, i = .rdc t0 c pr ∧ s.readsTimed c.toNat = true ∧ u = s.holdCounter (placeOfHart s.dev.focus.hart) (c.toNat - 8)) ∨
        (((∃ t0 pr, i = .rdsys t0 10 pr) ∨ ∃ t0 pr, i = .time t0 0 pr) ∧ u = s.ticked)) ∧
      t = u.setHart s.dev.focus.hart h ∧ committed h = committed (u.hart s.dev.focus.hart)

/-- R1, R205, R478: a masked write of bytes changes exactly the bits under its mask, byte by byte, and keeps the store canonical. -/
def Obligations.MaskedWritesChangeOnlyTheirBits : Prop :=
  ∀ (m : SMap Byte) (a i : Nat) (bs : List (Byte × Byte)), Memory.wf m = true →
    byteAt (setMasked m a bs) i =
      if a ≤ i ∧ i < a + bs.length then
        let p := bs.getD (i - a) (0, 0)
        (byteAt m i &&& ~~~p.2) ||| (p.1 &&& p.2)
      else byteAt m i

/-- R124: CONST is op 0x05 in the C format and takes no operands, APP is op 0x06 in the C format and takes one; CONST sends its sign-extended immediate, APP its left token times 2^14 with the immediate below, modulo 2^64; and a CONST followed by four APPs builds any 64-bit value. -/
def Obligations.ConstAndAppBuildAnyValue : Prop :=
  let app (x : Dbl) (i : BitVec 14) : Dbl := BitVec.ofNat 64 (x.toNat * 2 ^ 14 + i.toNat)
  (∀ (i : BitVec 14) (t0 : BitVec 9) (pr : BitVec 2),
    (encode (.const i t0 pr)).toNat = 5 * 2 ^ 25 + i.toNat * 2 ^ 11 + t0.toNat * 2 ^ 2 + pr.toNat ∧
    operandCount (.const i t0 pr) = 0 ∧
    (encode (.app i t0 pr)).toNat = 6 * 2 ^ 25 + i.toNat * 2 ^ 11 + t0.toNat * 2 ^ 2 + pr.toNat ∧
    operandCount (.app i t0 pr) = 1 ∧
    Sends (.const i t0 pr) false (fun _ _ _ => tokOf (i.signExtend 64)) ∧
    Sends (.app i t0 pr) false (fun _ l _ => tokOf (app l.lo i))) ∧
  ∀ v : Dbl, ∃ c i j k m : BitVec 14, app (app (app (app (c.signExtend 64) i) j) k) m = v

/-- R284, R405, R406, R407, R408: on a core that is released (READY bit 19, R436), whose WLCTX is enabled and that waits in nothing, the wl instructions act on its command port and on the launch records. wl.launch queues a launch and counts it outstanding; wl.poll returns STATE; wl.wait returns a final STATE, or STATE as it stands once its deadline has passed, and waits otherwise; wl.fence with every named launch final returns how many are not completed; wl.status returns the item asked for, and clears LASTERR when it reads it; wl.cancel and wl.prio queue their command and wait for its result; the deadline of a pending wl.wait ends it, TIMEBASE moving up to it (log 8). A word that completes moves the pc past itself (log 9). What stops one: with EN 0 it is an illegal instruction; wl.launch of a misaligned record and a read of an unreadable STATE raise the RISC-V exceptions with their addresses; a full port makes wl.launch wait; on a core not yet released none of them does anything. -/
def Obligations.ApplicationCoreInstructions : Prop :=
  (∀ (rs1 rs2 rd : BitVec 5) (s : State),
     let c := s.dev.focus.hart
     let a := s.dev.app c
     let record := a.reg rs1
     let ret (t : State) (v : Dbl) : State := { t with dev := t.dev.setApp c { (t.dev.app c).setReg rd v with pc := (t.dev.app c).pc + 4, wait := none } }
     let queued (op : Nat) (prio : Nat) (n : Bool) : Post :=
       { op := op, record := record, src := 0, srcN := c, ctx := if a.wlctx.getLsbD 12 then none else some (a.wlctx.toNat % 4096), via := a.wlctx.toNat % 4096, prio := if n then prio else 0 }
     let readState := s.readHome (a.wlctx.toNat % 4096) 0 0 (record + 32) 1
     s.dev.ready.getLsbD 19 = true → a.wlctx.getLsbD 13 = true → a.wait = none →
     (record.toNat % 64 = 0 → a.queue.length < 64 → a.out.length < 256 → ∃ t, exec (.wlLaunch rs1 rd) s = .next t ∧
       t.dev.intake = s.dev.intake ++ [queued 0 0 false] ∧
       t.dev.app c = { a.setReg rd 0 with pc := a.pc + 4, queue := a.queue ++ [{ op := 0, rd := rd, record := record, prio := 0 }], out := a.out ++ [record], unread := a.unread.filter (fun r => r != record) } ∧
       t = { s with dev := { s.dev with intake := t.dev.intake, apps := t.dev.apps } }) ∧
     (∀ t bs, readState = (t, .bytes bs) → exec (.wlPoll rs1 rd) s = .next (ret t (BitVec.ofNat 64 (leNat bs)))) ∧
     (∀ t bs, readState = (t, .bytes bs) →
       3 ≤ leNat bs ∨ a.unread.contains record = true ∨ (a.reg rs2 ≠ 0 ∧ (a.reg rs2).toNat ≤ s.dev.timebase.toNat) →
       exec (.wlWait rs2 rs1 rd) s = .next (ret t (BitVec.ofNat 64 (leNat bs)))) ∧
     (∀ t bs, readState = (t, .bytes bs) → leNat bs < 3 → a.unread.contains record = false →
       (a.reg rs2 = 0 ∨ s.dev.timebase.toNat < (a.reg rs2).toNat) →
       exec (.wlWait rs2 rs1 rd) s = .next { t with dev := t.dev.setApp c { t.dev.app c with wait := some (wlWaiting 3 rd rs1 rs2 [record] (a.reg rs2) false) } }) ∧
     (∀ t rs, s.wlReads a (if record = 0 then a.out else [record]) = (t, rs) → (∀ x ∈ rs, ∃ v, x.2.number = some v ∧ 3 ≤ v) →
       exec (.wlFence rs1 rd) s = .next (ret t (BitVec.ofNat 64
         (rs.filter (fun x => a.unread.contains x.1 || x.2.number != some 3)).length))) ∧
     exec (.wlStatus rs1 rd) s = .next (ret { s with dev := s.dev.setApp c { a with lasterr := if record = 1 then 0 else a.lasterr } } (
       if record = 0 then BitVec.ofNat 64 (a.queue.length % 128 + 2 ^ 16 * (a.out.length % 512))
       else if record = 1 then a.lasterr else if record = 2 then BitVec.ofNat 64 s.dev.held.length else 0)) ∧
     (a.queue.length < 64 →
       (∃ t, exec (.wlCancel rs1 rd) s = .next t ∧ t.dev.intake = s.dev.intake ++ [queued 4 0 false] ∧
         (t.dev.app c).queue = a.queue ++ [{ op := 4, rd := rd, record := record, prio := 0 }] ∧ (t.dev.app c).wait.isSome = true ∧
         (t.dev.app c).x = a.x) ∧
       (∃ t, exec (.wlPrio rs2 rs1 rd) s = .next t ∧ t.dev.intake = s.dev.intake ++ [queued 6 ((a.reg rs2).toNat % 32) true] ∧
         (t.dev.app c).queue = a.queue ++ [{ op := 6, rd := rd, record := record, prio := (a.reg rs2).toNat % 32 }] ∧
         (t.dev.app c).wait.isSome = true ∧ (t.dev.app c).x = a.x))) ∧
  (∀ (rs1 rs2 rd : BitVec 5) (s : State),
     let c := s.dev.focus.hart
     let a := s.dev.app c
     let record := a.reg rs1
     let trap (t : State) (cause : Nat) (tval : Dbl) : State := { t with dev := t.dev.setApp c { t.dev.app c with exc := some (cause, tval), wait := none } }
     let all : List Instr := [.wlLaunch rs1 rd, .wlFence rs1 rd, .wlPoll rs1 rd, .wlWait rs2 rs1 rd, .wlCancel rs1 rd, .wlStatus rs1 rd, .wlPrio rs2 rs1 rd]
     (s.dev.ready.getLsbD 19 = false → ∀ i ∈ all, exec i s = .next s) ∧
     (s.dev.ready.getLsbD 19 = true → a.wlctx.getLsbD 13 = false → ∀ i ∈ all,
         ∃ v, exec i s = .next (trap { s with dev := { s.dev with fresh := s.dev.fresh + 1 } } 2 v)) ∧
     (s.dev.ready.getLsbD 19 = true → a.wlctx.getLsbD 13 = true → a.wait = none →
       (record.toNat % 64 ≠ 0 → exec (.wlLaunch rs1 rd) s = .next (trap s 6 record)) ∧
       (record.toNat % 64 = 0 → 64 ≤ a.queue.length ∨ 256 ≤ a.out.length → ∃ t, exec (.wlLaunch rs1 rd) s = .next t ∧
         (t.dev.app c).wait.isSome = true ∧ (t.dev.app c).queue = a.queue ∧ t.dev.intake = s.dev.intake) ∧
       (∀ t k pa, s.readHome (a.wlctx.toNat % 4096) 0 0 (record + 32) 1 = (t, .fault k pa) →
         exec (.wlPoll rs1 rd) s = .next (trap t 5 (record + 32))))) ∧
  (∀ (c : Nat) (s t : State) (w : WlWait) (bs : List Byte),
     let a := s.dev.app c
     let now : Dbl := if s.dev.timebase.toNat < w.deadline.toNat then w.deadline else s.dev.timebase
     a.wait = some w → w.kind = 3 → w.deadline ≠ 0 →
     ({ s with dev := { s.dev with timebase := now } } : State).readHome (a.wlctx.toNat % 4096) 0 0 (a.reg w.rs1 + 32) 1 = (t, .bytes bs) →
     exec (.wlWaitDeadline c) s = .next { t with dev := t.dev.setApp c { (t.dev.app c).setReg w.rd (BitVec.ofNat 64 (leNat bs)) with pc := (t.dev.app c).pc + 4, wait := none } })

/-! Steps of blocks and of memory requests -/

/-- R21, R22, R67, R83, R85: BLOCK_FETCH of a core that may fetch reads the header and the rows at the address to fetch; a block that passes the checks of R83 is mapped with its words, one that fails is mapped without them and with the format fault, and so is one whose bytes cannot be read. Every row is fetched before the header is checked (the model's choice of log 52). -/
def Obligations.FetchMapsTheCheckedBlock : Prop :=
  ∀ (hart tag : Nat) (guess : Option Dbl) (addr : Dbl) (s s1 s2 : State) (hdr code : List Word),
    s.mayFetch hart = true → (s.hart hart).fetchAddr guess = some addr → (s.hart hart).freeTag = some tag →
    (∀ f, s.fetchPart hart addr 32 = (s1, .fault f) →
      exec (.blockFetch hart guess) s = .next (s1.mapBlock hart tag addr [] [] [f])) ∧
    (s.fetchPart hart addr 32 = (s1, .words hdr) →
      (∀ f, s1.fetchRows hart (addr + 128) (hdrRows hdr) = (s2, .fault f) →
        exec (.blockFetch hart guess) s = .next (s2.mapBlock hart tag addr [] [] [f])) ∧
      (s1.fetchRows hart (addr + 128) (hdrRows hdr) = (s2, .words code) →
        (formatFault (isEngine hart) hdr code = none →
          exec (.blockFetch hart guess) s = .next (s2.mapBlock hart tag addr hdr code [])) ∧
        (∀ w, formatFault (isEngine hart) hdr code = some w →
          exec (.blockFetch hart guess) s = .next (s2.mapBlock hart tag addr [] [] [plainFault 0x01 w]))))

/-- R24, R25, R30, R55, R97 to R100, R105, R115 to R121, R137, R139, R168, R190, R210, R216, R218, R248 to R253, R287, R291 to R295, R299 to R302, R305, R341, R343, R357, R364, R365: what BLOCK_COMMIT does with all that a block holds. A block that can commit and is followed by no freeze (`Commits`) writes its registers, vector context and SRSTATE (`withBlock`), goes where its branch leads, and SEQ rises. Its pushes join the tails of their ports with the NMODE of STATUS, its pops leave theirs, its held stores become posted items in LSID order, one to the own scratchpad is performed; of its other effects, one of each kind by itself: WRSYS writes its register, a fence, WBR, INVR, IBAR, SPAWN, LAUNCH, JADD and ALINV leave posted items (with release work where status is 7), the port instructions change their port and AGE, WIDTH, PCFG, MSHAPE, MZERO and MTSCL write their state, CBLD its codebook. CALL pushes, RET pops, SCALL freezes with its packet, TASKEND leaves the task once its release work is done (an engine hart at once), YIELD goes on to its suspension. A fence of core scope orders the accesses to the own scratchpad alone (log 60); that port changes take the order of log 51, and the commit of a block with a PCFG is counted under the new select (log 63), is the model's choice. -/
def Obligations.CommitWritesTheRegisters : Prop :=
  ∀ (hart idx k : Nat) (a : Dbl) (s : State) (b : Block),
    let h := s.hart hart
    let p := placeOfHart hart
    let base := h.withBlock b
    let still : Prop := b.stores = [] ∧ b.pushes = [] ∧ b.pops = []
    -- ports and held stores
    (Commits s hart idx b (.goto a) → b.effs = [] → (∀ x ∈ b.stores, x.rel = true ∨ ownScratch x.zone x.va = false) →
      let posted := (sortStores b.stores).foldl (fun (x : Hart) t =>
        if t.rel then x.posting (classOfZone t.zone) 7 (.rel t.zone t.va (BitVec.ofNat 64 (leNat (t.data.map Prod.fst)))) 0
        else x.posting (classOfZone t.zone) t.ord (.store t.zone t.va t.data) 0) base
      ∃ t, exec (.blockCommit hart) s = .next t ∧ CommitsAs s t hart b (posted.leftBy b a) ∧ SameBytes s t ∧
        (∀ n, n < 8 → (t.port p n).q = (s.port p n).q.drop (b.pops.count n) ∧
          ((s.port p n).agreed = true → (t.port p n).owed = (s.port p n).owed + b.pops.count n)) ∧
        (∀ n, 8 ≤ n → (t.port p n).q = (s.port p n).q ++ (b.pushes.filter (fun x => x.1 == n)).map (fun x =>
          { val := x.2, null := false, nmode := statusNmode h.status, tag := 0, scl := [], epoch := (s.port p n).epoch }))) ∧
    (∀ x u bs, Commits s hart idx b (.goto a) → b.effs = [] → b.pushes = [] → b.pops = [] → b.stores = [x] → x.rel = false →
      ownScratch x.zone x.va = true → (s.setHart hart base).storeAs hart x.zone x.va x.data h.seq = (u, .bytes bs) →
      ∃ t, exec (.blockCommit hart) s = .next t ∧ CommitsAs u t hart b ((u.hart hart).leftBy b a) ∧ SameBytes u t ∧ t.dev.mts = u.dev.mts) ∧
    -- one effect
    (still → Commits s hart idx b (.goto a) →
      let makes (e : Eff) (f : Hart → Hart) : Prop := b.effs = [(k, e)] →
        ∃ t, exec (.blockCommit hart) s = .next t ∧ CommitsAs s t hart b ((f base).leftBy b a) ∧ SameBytes s t
      let changes (e : Eff) (n : Nat) (g : State → Prop) : Prop := b.effs = [(k, e)] → e.portOf = some n →
        h.mout.all (fun o => o.port != n) = true → s.changeBlocked p [] e = false →
        ∃ t, exec (.blockCommit hart) s = .next t ∧ CommitsAs s t hart b (base.leftBy b a) ∧ SameBytes s t ∧ (t.mt p).waiting = [] ∧ g t
      (∀ v, makes (.wrsys 0 v) (fun x => { x with status := v.setWidth 5 })) ∧
      (∀ v, makes (.wrsys 2 v) (fun x => if isEngine hart then x else { x with vec := { x.vec with vtype := v.setWidth 4 } })) ∧
      (∀ v, makes (.wrsys 3 v) (fun x => { x with stklim := v &&& 0xFFFFFFFFFFFFFFF0 })) ∧
      (∀ v, makes (.wrsys 8 v) (fun x => { x with srstate := if v.setWidth 32 = (0 : Word) then 0x9E3779B9 else v.setWidth 32 })) ∧
      (∀ n, makes (.wrsysNull n) id) ∧
      (∀ q, q < 4 → makes (.fence q 0) (fun x =>
        let y := if q ≤ 1 then x.redoLoads b.tag (fun v => ownScratch v.zone v.va) else x
        if q = 1 ∨ y.posted.any Posted.toScratch = false then y else y.posting 3 scratchWork (.barrier (q == 0) true) 0)) ∧
      (∀ sc, sc ≠ 0 →
        makes (.fence 0 sc) (fun x => (x.releaseLines.acquireWork b.tag).posting 3 (scopeMask sc) (.barrier true true) 7) ∧
        makes (.fence 1 sc) (fun x => x.acquireWork b.tag) ∧
        makes (.fence 2 sc) (fun x => x.posting 3 (scopeMask sc) (.barrier false true) 7) ∧
        makes (.fence 3 sc) (fun x => x.posting 3 (scopeMask sc) (.barrier false true) 0)) ∧
      (∀ inv zone va len, zoneOf zone ≠ .place → len ≠ 0 → makes (.cache inv zone va len) (fun x =>
        let all : Bool := decide (2 ^ 30 < len.toNat)
        let y := if all then (x.posting 1 0 (.cache inv none va len) 0).posting 2 0 (.cache inv none va len) 0
          else x.posting (classOfZone zone) 0 (.cache inv (some zone) va len) 0
        if inv then y.redoLoads b.tag (fun v => all || (v.zone == zone &&
          overlaps (va.toNat / 64 * 64) (va.toNat % 64 + len.toNat + 63) v.va.toNat v.base.length)) else y)) ∧
      makes .ibar (fun x =>
        let y := x.discardYounger b.tag
        ({ y with bcache := y.bcache.filter (fun c => c.1 != y.ctxid.toNat) } : Hart).posting 3 6 (.barrier false false) 7) ∧
      (∀ entry seg, makes (.spawn entry seg) (fun x =>
        x.posting 3 3 (.spawn entry seg [x.reg 8, x.reg 9, x.reg 10, x.reg 11, x.reg 12] x.status) 7)) ∧
      (∀ w, makes (.width w) (fun x => { x with whint := w })) ∧
      (∀ r, makes (.launch r) (fun x => x.posting 3 7 (.launch r) 7)) ∧
      (∀ sc seg v, makes (.jadd sc seg v) (fun x => x.posting 1 (scopeMask sc) (.jadd seg v) (if sc = 0 then 0 else 7))) ∧
      (∀ z size va, makes (.alinv z size va) (fun x => (x.discardYounger b.tag).posting 3 7 (.alinv z size va) 7)) ∧
      (∀ r c, makes (.mshape r c) (fun x => { x with mrows := BitVec.ofNat 6 r, mcols := BitVec.ofNat 9 c })) ∧
      (∀ m ta tb, makes (.mtscl m ta tb) (fun x => { x with mscale := mset scaleOne (mset scaleOne x.mscale (2 * m) ta) (2 * m + 1) tb })) ∧
      (∀ n c, isEngine hart = false → makes (.pcfg n c) (fun x => { x with pcfg := mset 0 x.pcfg n (c.setWidth 9) })) ∧
      (∀ n c t, isEngine hart = false → b.effs = [(k, .pcfg n c)] → c.getLsbD 9 = true → c.getLsbD 8 = false →
        exec (.blockCommit hart) s = .next t → mget 0 (t.hart hart).pcnt n = 0) ∧
      (∀ m, m < 256 → b.effs = [(k, .mzero m)] → ∃ t, exec (.blockCommit hart) s = .next t ∧ SameBytes s t ∧
        CommitsAs s t hart b (({ base with m := (t.hart hart).m, mtag := (t.hart hart).mtag, zeroes := h.zeroes ||| (BitVec.ofNat 8 m &&& h.busy) } : Hart).leftBy b a) ∧
        ∀ q, q < 8 → let zeroed : Bool := m.testBit q && !h.busy.getLsbD q
          (t.hart hart).mtagOf q = (if zeroed then tagF32 else h.mtagOf q) ∧
          ∀ i j, i < 32 → j < 256 → (t.hart hart).mAt q i j = (if zeroed then 0 else h.mAt q i j)) ∧
      (∀ bs, bs.length = 1024 → b.effs = [(k, .cbld bs)] → ∃ t, exec (.blockCommit hart) s = .next t ∧ CommitsAs s t hart b (base.leftBy b a) ∧
        t.host = s.host ∧ t.peer = s.peer ∧ t.mem = setMasked s.mem (descDbl (s.descriptor h.ctxid.toNat) 40) (full bs) ∧
        ∀ j, j < 256 → (t.codebook h.ctxid.toNat).getD j 0 = leNat ((bs.drop (4 * j)).take 4)) ∧
      (∀ n g z r, g < 8 → changes (.lncfg n g z r) n (fun t => (t.port p n).bind = 2 ∧ (t.port p n).age.toNat = g ∧
        (t.age p g).state = 1 ∧ (t.age p g).fetch = some (z, r) ∧ (t.age p g).port = BitVec.ofNat 4 n ∧ (t.age p g).nmode = statusNmode h.status)) ∧
      (∀ n dx dy q key, n < 16 → (n < 8 ↔ 8 ≤ q) → changes (.chcfg n dx dy q key) n (fun t => (t.port p n).bind = 1 ∧ (t.port p n).dx = dx ∧ (t.port p n).dy = dy ∧
        (t.port p n).pport = BitVec.ofNat 4 q ∧ (t.port p n).key = key ∧ (t.port p n).q = (s.port p n).q)) ∧
      (∀ n g, g < 8 → changes (.chcfgAge n g) n (fun t => (t.port p n).bind = 2 ∧ (t.port p n).age.toNat = g ∧ (t.port p n).q = (s.port p n).q)) ∧
      (∀ n un, changes (.chclr n un) n (fun t => (t.port p n).q = [] ∧ (un = true → (t.port p n).bind = 0)))) ∧
    -- the exits
    (still → b.effs = [] →
      let exits (br : Branch) (x : Hart) : Prop := Commits s hart idx b br →
        ∃ t, exec (.blockCommit hart) s = .next t ∧ CommitsAs s t hart b x ∧ SameBytes s t
      (∀ ra, exits (.call a ra) (({ base with
        rstk := if h.rstk.length < 8 then h.rstk ++ [ra] else h.rstk.drop 1 ++ [ra]
        spilled := if h.rstk.length < 8 then h.spilled else h.spilled + 1 } : Hart).leftBy b a)) ∧
      exits (.ret a false) (({ base with rstk := h.rstk.dropLast } : Hart).leftBy b a) ∧
      exits (.ret a true) (({ base with spilled := h.spilled - 1 } : Hart).leftBy b a) ∧
      (s.liveState hart = false → ∀ c, exits (.yield c) (({ base with susp := some (c, true) } : Hart).leftBy b c)) ∧
      (isEngine hart = true → h.busy = 0 → exits .taskend (({ base with run := .idle, blocks := [] } : Hart).leftBy b h.next)) ∧
      (isEngine hart = false → h.busy = 0 →
        exits .taskend ((({ base with leaving := true } : Hart).posting 3 7 (.barrier false false) 7).leftBy b h.next)) ∧
      ∀ num, Commits s hart idx b (.scall a num) → ∃ t q, exec (.blockCommit hart) s = .next t ∧ SameBytes s t ∧
        CommitsAs s t hart b (({ base with run := .frozen, cause := 0x70, packet := some q, emulHeld := false } : Hart).leftBy b a) ∧
        q.cause = 0x70 ∧ q.word = 32 + idx ∧ q.d0 = num ∧ q.slot = b.tag ∧ q.block = b.addr ∧ q.seq = b.seq)

/-- R26, R369, R480: FAULT_TAKE on a running core with no deferred store to report takes the lowest fault recorded against the oldest block, or, with the block stuck, block incomplete (0x04); a core without a block takes the fault that waits. R117: RETURN_STACK_SPILL of an oldest CALL with a full return stack writes entry 0 to its slot at the home, keeps the core's own lines in step, makes younger loads of the slot again (R213) and lets the CALL commit; a fence of an older block holds it (R216). An idle core has no block boundary to stop at: what a watchpoint reports of it goes out as a packet alone (log 60). -/
def Obligations.FaultsAndReturnStackSpills : Prop :=
  (∀ (hart : Nat) (s : State),
     let h := s.hart hart
     h.run = .running → h.thalt = false → h.waitNotice = none →
     (∀ b bs f, h.blocks = b :: bs → pickFault b.faults = some f → exec (.faultTake hart) s = .next (s.takeBlockFault hart b f)) ∧
     (∀ b bs, h.blocks = b :: bs → b.faults = [] → b.stuck = true →
       exec (.faultTake hart) s = .next (s.takeBlockFault hart b (plainFault 0x04 0xFFFF))) ∧
     (∀ f fs, h.blocks = [] → h.pending = f :: fs →
       let s1 := s.setHart hart { h with pending := fs }
       exec (.faultTake hart) s = .next { s1 with dev := s1.dev.takeFault hart none f false })) ∧
  (∀ (hart : Nat) (s : State) (f : FaultRec) (fs : List FaultRec),
     let h := s.hart hart
     h.run = .idle → h.pending = f :: fs →
     exec (.faultTake hart) s = .next { s with dev := (s.dev.setHart hart { h with pending := fs }).sendPacket (deviceRow (placeOfHart hart)) { packetOf s.dev hart h none f false false with task := 0 } }) ∧
  (∀ (hart idx : Nat) (s t : State) (b : Block) (br : Branch) (bs : List Byte),
     let h := s.hart hart
     let va := spillSlot h h.spilled.toNat
     let data := full (natLe 8 (h.rstk.headD 0).toNat)
     s.committing hart = some (b, idx, br) → needsSpill h b br = true → h.noticeFor 0 (va.toNat / 4096) = none → s.postedTouches hart 0 va 8 = false → h.storesHeld = false →
     (s.countWalk hart 0 va).writeHome h.ctxid.toNat hart 0 va data (hartWriter hart b.seq) = (t, .bytes bs) →
     let u := (t.learnAt hart 0 va).patchOwn hart 0 va.toNat data
     exec (.returnStackSpill hart) s = .next (u.setHart hart
       (((u.hart hart).putBlock { b with spilled := true }).violate (u.namesOf hart) b.tag 0 va 8)))

/-- R283: a Slate core receives packets into a queue of 64 in arrival order. A packet sent while the queue has room, with no sender waiting, joins its tail; a sender that finds it full, or others waiting, keeps its packet behind theirs; as soon as the queue holds fewer than 64 the first waiting packet enters it and its sender is free; a Slate core that reads takes the oldest, as its 64 bytes. -/
def Obligations.SlateQueuesKeepTheirOrder : Prop :=
  ∀ (row : Nat) (s : State) (p : Packet),
    let q := mget [] s.dev.slateq row
    let waits := s.dev.senders.any (fun x => x.1 == row)
    (q.length < 64 → waits = false → s.dev.sendPacket row p = { s.dev with slateq := mset [] s.dev.slateq row (q ++ [p]) }) ∧
    (64 ≤ q.length ∨ waits = true → s.dev.sendPacket row p = { s.dev with senders := s.dev.senders ++ [(row, p)] }) ∧
    (∀ pre rest, s.dev.senders = pre ++ (row, p) :: rest → (∀ x ∈ pre, x.1 ≠ row) → q.length < 64 →
      exec (.ochrePacketEnqueue row) s = .next { s with dev := { s.dev with slateq := mset [] s.dev.slateq row (q ++ [p]), senders := pre ++ rest } }) ∧
    (64 ≤ q.length → exec (.ochrePacketEnqueue row) s = .next s) ∧
    (∀ rest, q = p :: rest → exec (.ochrePacketRead row) s = .next { s with dev := { s.dev with slateq := mset [] s.dev.slateq row rest, answer := p.bytes } })

/-- R209, R213, R237: LOAD_REPLY of a scalar load that may perform, on whose page no store is deferred, and with nothing read early that its bytes could contradict, completes: the load sees the home's bytes under the core's own older stores, by whatever name they wrote them (R208), its LSID resolves, and its token, zero- or sign-extended or a PAIR, goes to its target; under THALT it stays at the link interface (R377). R118: that of a RET's refill gives the block its exit. R240, R241: that of an LDV brings its remaining parts, all of them or the next one (log 54 and a free value), and with the last its LSID and, in the turn of its VSID, its register, tag and VSID (R139). R341: CBLD's 1,024 bytes are held for the commit. R219: an ACQ reads its binder at the home; one that is not ready begins its wait there, one that is has its token and its region work. R235, R281: a reply that fails, or meets a deferred store, records its fault. R162, R163, R169, R362: LOAD_REPLY ends the waits of the oldest block: WAITC of posted classes sends 0 once nothing that they count is left, WAITC of an AGE its state once it is not active, WAITC of the join counter 0 once its home has seen it zero, each with its acquire work done first, and MWAIT sends MSTAT once the named accumulators are free. R296: with quiescence a DOMWAIT sends its count of rounds (log 24). R29, R242 to R245, R264: ATOMIC_PERFORM of an atomic that may perform completes: it reads its location, writes the operation's value where it writes one, binds its block, resolves its LSID and sends the old value; one that would write a page without W, as an ACAS that finds its operand, records the permission fault instead; a read-and-CAS round in which another agent writes first leaves its write and the atomic pending. -/
def Obligations.RepliesOfTheMemorySystem : Prop :=
  (∀ (hart tag idx : Nat) (s t : State) (b : Block) (r : Req) (ps : List (Nat × Nat)) (bs : List Byte) (c pa : Nat) (note : Notice),
     let h := s.hart hart
     let x := b.ctxOf h
     let s0 := match r.kind with | .vload _ _ _ _ _ => s.freshened | _ => s
     -- the parts that this reply brings, and the kind and size that its fault names
     let asks : Prop := match r.kind with
       | .load n _ => ps = [(r.va.toNat, n)]
       | .refill => ps = [(r.va.toNat, 8)]
       | .cbld => ps = piecesOf r.va.toNat 1024 ∧ h.isOldest tag = true
       | .vload d form _ stride got =>
         let rest := partsAfter got.length (vecPieces x h.cwidth.toNat d form r.va stride)
         ps = rest.take (s.vecTake rest.length)
       | _ => False
     let kind : Nat × Nat := match r.kind with | .load n _ => (0, n) | .refill => (8, 8) | .vload _ _ _ _ _ => (0, tagBits x.vtype.toNat / 8) | _ => (0, 64)
     let fails (u : State) (f : FaultRec) : Prop := exec (.loadReply hart tag idx) s = .next (s.replied hart r (u.lateFault hart tag r f))
     s.pendingReq hart tag idx = some (b, r) → asks →
     (h.ordNotice b r = some note → fails s0 (deferredFault note 0)) ∧
     (h.ordNotice b r = none → s0.loadTurn hart b r ps = true →
       (ps.findSome? (fun p => h.noticeFor r.zone (p.1 / 4096)) = some note → fails s0 (deferredFault note 0)) ∧
       (ps.findSome? (fun p => h.noticeFor r.zone (p.1 / 4096)) = none →
         (s0.readPieces hart r.zone ps = (t, .fault c pa) →
           fails t (accessFault r.idx r.packetLsid (r.cause c) r.zone kind.1 kind.2 pa r.va true)) ∧
         (s0.readPieces hart r.zone ps = (t, .bytes bs) → b.seen = [] → (∀ y ∈ (t.hart hart).blocks, y.seen = []) →
           let read := bs.take (ps.map Prod.snd).sum
           let value := ((t.hart hart).renamed (t.namesOf hart)).ownParts tag r.lsid (t.parts hart r.zone ps) read
           let b1 := { b.dropReq r.idx with seen := t.seenPieces hart r.lsid r.zone ps read }
           let leaves (b2 : Block) : Prop :=
             let h1 := ((t.hart hart).putBlock b1).putBlock b2
             exec (.loadReply hart tag idx) s = .next (s.replied hart r (t.settleVia hart (some (tag, r.idx)) h1 h1))
           (∀ n signed, r.kind = .load n signed →
             let b2 := b1.resolveL idx (some r.lsid)
             let k := loadToken n signed value
             leaves (if (t.hart hart).thalt = false then b2.deliver r.t0 k else if r.t0 = noTarget then b2 else { b2 with links := b2.links ++ [(idx, r.t0, k)] })) ∧
           (r.kind = .refill →
             let a : Dbl := BitVec.ofNat 64 (leNat value)
             leaves (if a.toNat % 128 = 0 then b1.setBranch idx (.ret a true) else b1.fault 0x05 idx a 0)) ∧
           (r.kind = .cbld → leaves (b1.addEff idx (.cbld value))) ∧
           (∀ d form v stride got, r.kind = .vload d form v stride got →
             let rest := partsAfter got.length (vecPieces x h.cwidth.toNat d form r.va stride)
             leaves (if ps.length = rest.length then
                 (if b1.vsidTurn v then (((b1.resolveL r.idx (some r.lsid)).leave (.load d form h.cwidth.toNat (got ++ value))).resolveV r.idx (some v))
                  else (b1.resolveL r.idx (some r.lsid)).addReq { r with kind := .vdone d form v (got ++ value) })
               else b1.addReq { r with kind := .vload d form v stride (got ++ value) }) ∧
             (s.vecTake rest.length = rest.length ∨ s.vecTake rest.length = 1)))))) ∧
  (∀ (hart tag idx d form v : Nat) (bs : List Byte) (s : State) (b : Block) (r : Req),
     let h := s.hart hart
     s.pendingReq hart tag idx = some (b, r) → r.kind = .vdone d form v bs → b.vsidTurn v = true →
       exec (.loadReply hart tag idx) s = .next (s.replied hart r (s.settle hart (some (tag, idx))
         (h.putBlock (((b.dropReq idx).leave (.load d form h.cwidth.toNat bs)).resolveV idx (some v)))))) ∧
  (∀ (hart tag idx arg sc c pa : Nat) (w : Option Nat) (s s1 : State) (b : Block) (r : Req) (l : Loc) (a : Attr) (note : Notice),
     let h := s.hart hart
     let sent (v : Dbl) : Hart := h.putBlock ((b.dropReq r.idx).deliver r.t0 (tokOf v))
     let next (t : State) : Prop := exec (.loadReply hart tag idx) s = .next (s.replied hart r t)
     s.pendingReq hart tag idx = some (b, r) → h.isOldest tag = true →
     let ends (v : Dbl) : Prop :=
       (h.acquireDone = true → next (s.settle hart (some (tag, r.idx)) ((sent v).acquireWork tag))) ∧
       (h.acquireDone = false → h.wbackNotice = none → next (s.setHart hart h.invalidateLines)) ∧
       (h.acquireDone = false → h.wbackNotice = some note → next (s.lateFault hart tag r (deferredFault note 0)))
     (r.kind = .waitc 0 arg w → h.noticeIn arg = none → h.countsZero arg = true → ends 0) ∧
     (r.kind = .waitc 0 arg w → h.noticeIn arg = some note → next (s.lateFault hart tag r (deferredFault note 0))) ∧
     (r.kind = .waitc 1 arg w → (s.age (placeOfHart hart) arg).state ≠ 1 →
       ends (BitVec.ofNat 64 (s.age (placeOfHart hart) arg).state)) ∧
     (r.kind = .waitc 2 arg w → isEngine hart = true → ends 0) ∧
     (let va := h.seg + 56
      r.kind = .waitc 2 arg w → isEngine hart = false → h.loadsHeld = false → h.spawnsPending = false →
      (h.noticeFor 0 (va.toNat / 4096) = some note → next (s.lateFault hart tag r (deferredFault note 0))) ∧
      (h.noticeFor 0 (va.toNat / 4096) = none → s.postedTouches hart 0 va 8 = false →
        ((s.countWalk hart 0 va).target h.ctxid.toNat hart 0 va 8 true false = (s1, .fault c pa) →
          next ((s1.learnAt hart 0 va).lateFault hart tag r (accessFault r.idx none c 0 0 8 pa va true))) ∧
        ((s.countWalk hart 0 va).target h.ctxid.toNat hart 0 va 8 true false = (s1, .at l a) →
          let u := s1.learnPage hart 0 va l a
          let bs := u.binderBytes l w
          let zero : Prop := leNat ((bs.drop 4).take 4) = 0
          let waiting (got : Option (List Byte)) : State := if u.waitsAt l w then u else u.beginWait hart b r (.waitc 2 arg) 2 l got
          (zero → h.acquireDone = true → next ((u.endWait w).sendWaitc hart tag b r (tokOf 0))) ∧
          (zero → h.acquireDone = false → next ((waiting (some bs)).sendWaitc hart tag b r (tokOf 0))) ∧
          (¬zero → next (waiting none))))) ∧
     (r.kind = .mwait arg → tensorsIssued b = true → h.busy.toNat &&& arg = 0 → next (s.settle hart (some (tag, idx)) (sent (mstatWord h)))) ∧
     (r.kind = .acq sc w → b.lsidTurn r.lsid = true → h.noticeIn r.ord = none → h.loadsHeld = false → h.drained r.ord = true →
      (h.noticeFor r.zone (r.va.toNat / 4096) = some note → next (s.lateFault hart tag r (deferredFault note 0))) ∧
      (h.noticeFor r.zone (r.va.toNat / 4096) = none → s.postedTouches hart r.zone r.va 64 = false →
        ((s.countWalk hart r.zone r.va).target h.ctxid.toNat hart r.zone r.va 64 true false = (s1, .fault c pa) →
          next ((s1.learnAt hart r.zone r.va).lateFault hart tag r (accessFault r.idx (some r.lsid) c r.zone 0 64 pa r.va true))) ∧
        ((s.countWalk hart r.zone r.va).target h.ctxid.toNat hart r.zone r.va 64 true false = (s1, .at l a) →
          let u := s1.learnPage hart r.zone r.va l a
          let bs := u.binderBytes l w
          let rs := binderRegions bs
          (bytesReady bs = false → next (if u.waitsAt l w then u else u.beginWait hart b r (.acq sc) 0 l none)) ∧
          (∀ x, bytesReady bs = true → rs.find? (fun x => zoneOf x.2.2 == .invalid) = some x →
            next (u.lateFault hart tag r (accessFault r.idx (some r.lsid) 0x10 x.2.2 0 64 0 (BitVec.ofNat 64 x.1) true))) ∧
          (bytesReady bs = true → rs.find? (fun x => zoneOf x.2.2 == .invalid) = none → h.thalt = false →
            let v := u.endWait w
            let h1 := (v.hart hart).putBlock (((b.dropReq r.idx).resolveL r.idx (some r.lsid)).deliver r.t0 (tokOf (BitVec.ofNat 64 (leNat (bs.take 8)))))
            next (v.settle hart (some (tag, r.idx)) (((h1.regionWork true rs).awaitWbacks h1).redoLoads tag fun _ => true))))))) ∧
  (∀ (hart k : Nat) (s : State) (g : Graph) (b : Block) (bs : List Block) (r : Req),
     s.dev.graph (s.hart hart).graph = some g → g.state = 0 → g.ring = [hart] → hart = s.dev.origin g → s.quiet g hart = true →
     (s.deque hart).token = true → (s.deque hart).tblack = false → (s.deque hart).black = false →
     (s.hart hart).blocks = b :: bs → b.reqs = [r] → r.kind = .domwait k →
     let v := s.setDeque hart { s.deque hart with token := false }
     let u := v.settle hart (some (b.tag, r.idx)) ((v.hart hart).putBlock ((b.dropReq r.idx).deliver r.t0 (tokOf (BitVec.ofNat 64 (if k = 0 then 1 else k)))))
     exec (.quiescenceTokenForward hart) s = .next { u with dev := u.dev.setGraph { g with active := false } }) ∧
  (∀ (hart tag idx op n sc : Nat) (v : Quad) (s s1 : State) (b : Block) (r : Req) (l : Loc) (a : Attr),
     let h := s.hart hart
     s.pendingReq hart tag idx = some (b, r) → r.kind = .atomic op n sc v → h.isOldest tag = true → b.lsidTurn r.lsid = true →
     (∀ note, h.ordNotice b { r with ord := r.ord ||| scopeMask sc } = some note →
       exec (.atomicPerform hart tag idx) s = .next (s.replied hart r (s.lateFault hart tag r (deferredFault note 0)))) ∧
     (h.ordNotice b { r with ord := r.ord ||| scopeMask sc } = none →
       h.fenced = false → h.drained r.ord = true → sc = 0 ∨ (b.lowerDone r.lsid = true ∧ h.anyDirty = false) → h.workDone (scopeMask sc) = true →
       s.holdsLine hart r.zone r.va.toNat = false →
       s.postedTouches hart r.zone r.va n = false → h.noticeFor r.zone (r.va.toNat / 4096) = none →
       (∀ c pa, (s.countWalk hart r.zone r.va).target h.ctxid.toNat hart r.zone r.va n true (zoneOf r.zone == .host) = (s1, .fault c pa) →
         exec (.atomicPerform hart tag idx) s =
           .next (s.replied hart r ((s1.learnAt hart r.zone r.va).lateFault hart tag r (accessFault r.idx (some r.lsid) c r.zone 2 n pa r.va true)))) ∧
       ((s.countWalk hart r.zone r.va).target h.ctxid.toNat hart r.zone r.va n true (zoneOf r.zone == .host) = (s1, .at l a) → l.snooped s1.dev = false →
       let u := s1.learnPage hart r.zone r.va l a
       let ctx := (u.hart hart).ctxid.toNat
       let w := hartWriter hart b.seq
       let bs := u.readLoc l n
       ((atomicNew op n (leNat bs) v).isSome = true → a.w = false → exec (.atomicPerform hart tag idx) s =
         .next (s.replied hart r (u.lateFault hart tag r (accessFault r.idx (some r.lsid) 0x13 r.zone 2 n l.addr r.va true)))) ∧
       (atomicNew op n (leNat bs) v = none ∨ a.w = true →
       let s2 := match atomicNew op n (leNat bs) v with
         | some x => (u.homeWrite ctx r.zone r.va l (full (natLe n x)) w).pooled ctx r.zone r.va op n w
         | none => u
       let b0 := { b.dropReq r.idx with bound := true, seen := b.seen ++ u.seenPieces hart r.lsid r.zone [(r.va.toNat, n)] bs }
       let b1 := (b0.resolveL r.idx (some r.lsid)).arrive (u.hart hart).thalt r.idx r.t0 (atomicToken n (leNat bs))
       let h1 := ((s2.hart hart).putBlock b1).violate (s2.namesOf hart) tag r.zone r.va n
       exec (.atomicPerform hart tag idx) s = .next (s.replied hart r (s2.settle hart (some (tag, r.idx)) (if sc = 0 then h1 else h1.acquireWork tag)))))) ∧
     (∀ other : Dbl, zoneOf r.zone = .host → (op ≠ 0 ∧ op ≠ 8 ∧ (op = 9 → n = 16)) → s.xlate h.ctxid.toNat r.zone r.va.toNat true true = (s1, .ok l a) →
       exec (.hostAtomicCasRetry hart tag idx other) s = .next (s1.writeLoc l (full (natLe (Nat.min n 8) other.toNat)))))

/-- R208, R210, R218, R281, R282, R355, R416: a posted store whose turn has come is performed at its home and leaves its class, or enters the replay queue of its bank; a REL with dirty region lines has them written back first, and one without writes WORD; a store answered with a retry is offered again; an access that times out faults (0x1C), a posted one by entering its replay queue, that of an AGE by stopping it. R223, R282, R383: a Slate core's replay command starts the replay of the entries it has selected and its discard removes them; of the replays of several agents the one started first goes first where its entry does not wait (log 60), each agent's entries in order; a read of the high-water mark clears it; an evicted line writes its dirty nibbles back, counted in no class. R274, R275, R388: each tile's deque engine makes the oldest decrement of a join counter that it holds, and the home does what the old word asks, or tries again a retirement or a resume frame that was held (log 27); the placement unit pushes the oldest resume frame onto the origin core of its live graph, and keeps it for a graph that is not live. -/
def Obligations.CommittedWorkIsPerformed : Prop :=
  (∀ (hart n : Nat) (s t : State) (p : Posted) (z : Nat) (va : Dbl) (bs : List Byte) (c pa : Nat),
     (s.readyItem hart n = some p → s.joinsReplay hart n = none →
       (∀ data, p.what = .store z va data → p.status = 0 →
         (s.storeAs hart z va data p.seq = (t, .bytes bs) →
           exec (.postedStorePerform hart n) s = .next ((t.itemDone hart n).tryLeave hart)) ∧
         (s.storeAs hart z va data p.seq = (t, .fault c pa) →
           exec (.postedStorePerform hart n) s = .next ((t.enterReplay hart n p c).tryLeave hart))) ∧
       (∀ (v : Dbl) (u : State) (rs : List (Nat × Nat × Nat)), p.what = .rel z va v → p.status = 0 →
         s.readBinder (s.hart hart).ctxid.toNat hart z va = (t, .regions rs) →
         ((t.hart hart).regionDirty rs = true →
           exec (.relItemPerform hart n) s = .next (t.setHart hart (((t.hart hart).setPosted n { p with status := 4 }).regionWork false rs))) ∧
         ((t.hart hart).regionDirty rs = false → ∀ xs,
           t.writeHome (t.hart hart).ctxid.toNat hart z va (full (natLe 8 v.toNat)) (hartWriter hart p.seq) = (u, .bytes xs) →
           exec (.relItemPerform hart n) s =
             .next ((u.patchOwn hart z va.toNat ((natLe 8 v.toNat).map fun x => (x, 0xFF))).itemDone hart n)))) ∧
     (∀ g, s.readyItem hart n = some p → p.what.page = some (z, g) → (zoneOf z = .fabric ∧ z ≠ s.dev.node) ∨
         (zoneOf z = .host ∧ ¬∃ q ∈ s.dev.pri, q.ctx = (s.hart hart).ctxid.toNat ∧ q.page = g % 2 ^ 52 ∧ q.rd = p.rights.1 ∧ q.wr = p.rights.2) →
       exec (.completionTimeout hart 8 n) s = .next (s.enterReplay hart n p 0x1C)) ∧
     (∀ kind size, s.ageAccess hart n = some (kind, size, z, va) → (zoneOf z = .fabric ∧ z ≠ s.dev.node) ∨
         (zoneOf z = .host ∧ ¬∃ q ∈ s.dev.pri, q.ctx = (s.age hart n).ctx ∧ q.page = va.toNat / 4096 ∧ q.rd = (kindRights kind).1 ∧ q.wr = (kindRights kind).2) →
       exec (.completionTimeout hart 9 n) s = .next ((s.ageRewind hart n 0).ageFault hart n 0x1C z va 0 (BitVec.ofNat 64 (kind + 256 * Nat.log2 size)))) ∧
     ((s.hart hart).posted[n]? = some p → p.status = 3 →
       exec (.storeRetryReoffer hart n) s = .next (s.setHart hart ((s.hart hart).setPosted n { p with status := 0 })))) ∧
  (∀ (bank hart zone line n : Nat) (s : State),
     let sel := mget 0 s.dev.rplsel bank
     let runs := mget [] s.dev.rplrun bank
     (∀ i is, s.dev.rplEntries bank sel = some (hart, i :: is) → sel ∉ runs →
       exec (.rplcmdReplay bank) s = .next { s with dev := { s.dev with rplrun := mset [] s.dev.rplrun bank (runs ++ [sel]) } }) ∧
     (∀ is, s.dev.rplEntries bank sel = some (hart, is) →
       let kept := ((upTo (s.hart hart).posted.length).zip (s.hart hart).posted).filter fun p => !is.contains p.1
       exec (.rplcmdDiscard bank) s = .next (((s.setHart hart ({ s.hart hart with posted := kept.map Prod.snd }).settleNotices).promoteHold bank).armWatches)) ∧
     (∀ agent more is p z va d t bs, runs = agent :: more → s.dev.rplEntries bank agent = some (hart, n :: is) →
       (s.hart hart).posted[n]? = some p → p.status = 1 → p.what = .store z va d → s.storeAs hart z va d p.seq = (t, .bytes bs) →
       exec (.replayEntryPerform bank) s = .next ((t.itemDone hart n).promoteHold bank)) ∧
     -- a REL whose regions have been written back writes WORD once what went before it is performed
     (∀ agent more is p z va v t bs, runs = agent :: more → s.dev.rplEntries bank agent = some (hart, n :: is) →
       (s.hart hart).posted[n]? = some p → p.status = 6 → p.what = .rel z va v → (s.hart hart).relNeeds bank n = none →
       itemTurn (s.namesOf hart) ((s.hart hart).posted.take n) p = true → s.writeWord hart p z va v = (t, .bytes bs) →
       exec (.replayEntryPerform bank) s = .next ((t.itemDone hart n).promoteHold bank)) ∧
     exec (.replayHwmRead bank) s = .next { s with dev := { s.dev with hwm := mset 0 s.dev.hwm bank 0, answer := natLe 1 (mget 0 s.dev.hwm bank) } } ∧
     (∀ l, (s.hart hart).findLine (s.hart hart).ctxid.toNat zone line = some l →
       let h := s.hart hart
       let left := h.l1d.filter fun k => !k.same h.ctxid.toNat zone line
       exec (.l1dEviction hart zone line) s = .next (s.setHart hart { h with l1d := left, posted := if l.dirty = 0 then h.posted else placeWback h.posted (evictItem h.seq l) }))) ∧
  (∀ (seg : Dbl) (ctx hn g : Nat) (s t : State) (m : Miss),
     -- each tile's engine does the next thing that it holds, unless it stands stopped
     exec .jcountDecrement s = .next (s.dev.mts.foldl (fun s x => s.dequeStep x.1) s) ∧
     (let q := s.deque hn
      (q.stopped = true ∨ q.decs = [] ∧ q.redo = [] → s.dequeStep hn = s) ∧
      (∀ eng rest, q.stopped = false → q.decs = (seg, ctx, eng) :: rest →
        (s.setDeque hn { q with decs := rest }).addJcount (if eng then 1024 + hn else hn) ctx seg (-1) Asker.none = (t, m) → m.cause = 0 →
        s.dequeStep hn = t) ∧
      (∀ eng push rest, q.stopped = false → q.decs = [] → q.redo = (push, seg, ctx, eng) :: rest →
        let u := s.setDeque hn { q with redo := rest }
        let n := if eng then 1024 + hn else hn
        s.dequeStep hn = if push then u.pushResume n ctx seg else u.retire n ctx seg)) ∧
     (∀ rest x, s.dev.resumes = (seg, g) :: rest → s.dev.graph g = some x →
       let s0 : State := { s with dev := { s.dev with resumes := rest } }
       (x.state = 0 → s0.pushFrame x.launch.ctx (s0.dev.origin x) ({ entry := seg, args := [], parent := 0, status := 0, resume := true } : Frame).dbls = (t, true) →
         exec .resumeFrameHandoff s = .next t) ∧
       (x.state ≠ 0 → exec .resumeFrameHandoff s = .next { s0 with dev := { s0.dev with msgs := s0.dev.msgs ++ [(g, { seg := seg })] } })))

/-! Tasks, homes, tiles and the placement unit -/

/-- R267, R268, R270, R272, R276, R289, R292, R305, R322: the steps of tasks between blocks. A JOIN reads its word with acquire and commits, continuing with count 0; a suspended task's record is written, then its word swaps to SUSP and the task leaves, or it goes on with count 0, or a YIELD pushes its resume frame and leaves, and a deferred store of its page freezes it first (R281); an idle core pops its newest frame; a thief takes the oldest frame of its victim or hears that it is empty, copies it and starts it, both cores turning black with the end of the copy (R276, R448), or moves on, and its counters count either (R359); the lap wait ends; a waiting start or spill is repeated; the token goes round, coloured, and comes back white to find quiescence; an idle engine hart waits at the home of its kick word, and starts with the binder as it stood when a write made WORD nonzero (R219). -/
def Obligations.TaskSteps : Prop :=
  ∀ (hart : Nat) (s s1 s2 s3 : State) (b : Block) (idx : Nat) (c : Dbl) (g : Graph) (bs xs ys : List Byte),
    let h := s.hart hart
    let ctx := h.ctxid.toNat
    let q := s.deque hart
    (s.committing hart = some (b, idx, .join c) → s.liveState hart = false → h.commitNotice b (.join c) = none → h.noticeFor 0 ((h.seg + 56).toNat / 4096) = none →
      h.spawnsPending = false → h.loadsHeld = false →
      (s.countWalk hart 0 (h.seg + 56)).readHome ctx hart 0 (h.seg + 56) 8 = (s1, .bytes bs) →
      let u := s1.learnAt hart 0 (h.seg + 56)
      exec (.joinWordRead hart) s = .next ((u.setHart hart ((u.hart hart).acquireWork b.tag)).commitBlock hart b idx
        (if wordJcount (leNat bs) = 0 then .goto c else .join c))) ∧
    (∀ yields, h.susp = some (c, yields) → h.run = .running → h.thalt = false → h.spawnsPending = false →
      (∀ x, h.noticeFor 0 (h.seg.toNat / 4096) = some x →
        exec (.joinSuspend hart) s = .next { s with dev := s.dev.takeFault hart none (h.asCame (deferredFault x 0xFFFF)) false }) ∧
      ∀ s0, h.noticeFor 0 (h.seg.toNat / 4096) = none →
      (s.countWalk hart 0 (h.seg + 0x40)).writeHomeAll ctx hart 0 (h.seg + 0x40) (hartWriter hart h.came.2.2) ((h.suspension c).flatMap (natLe 8)) = (s0, .bytes xs) →
      s1 = s0.learnAt hart 0 (h.seg + 0x40) →
      (yields = true → ∀ w : Hart, w = s1.hart hart →
        s1.pushFrame w.ctxid.toNat hart ({ entry := w.seg, args := [], parent := 0, status := 0, resume := true } : Frame).dbls = (s2, true) →
        exec (.joinSuspend hart) s = .next ((s2.leaveTask hart).setHart hart { (s2.leaveTask hart).hart hart with theftFirst := true })) ∧
      (yields = false → ∀ w : Hart, w = s1.hart hart → s1.readHome w.ctxid.toNat hart 0 (w.seg + 56) 8 = (s2, .bytes bs) →
        (wordJcount (leNat bs) = 0 →
          exec (.joinSuspend hart) s = .next (s2.setHart hart { (s2.hart hart).acquireWork 8 with susp := none })) ∧
        (wordJcount (leNat bs) ≠ 0 →
          s2.writeHome w.ctxid.toNat hart 0 (w.seg + 56) (full (natLe 8 (withState (leNat bs) 1))) (hartWriter hart w.came.2.2) = (s3, .bytes ys) →
          exec (.joinSuspend hart) s = .next (({ s3 with dev := s3.dev.awaits (s3.hart hart).graph w.seg true } : State).leaveTask hart)))) ∧
    (s.seeks hart = some g →
      (h.theftFirst = false ∨ g.ring.length ≤ 1 → q.count ≠ 0 → exec (.ownerPop hart) s = .next (s.popRing hart)) ∧
      (let k := h.victimOf g.ring hart
       let v := s.deque k
       1 < g.ring.length → h.lapWait = false → h.theftFirst = true ∨ q.isEmpty = true →
        g.ring.contains k = true → v.stopped = false → v.ovfcnt = 0 →
        ((v.transit = true ∨ v.count = 0) → exec (.theftRequest hart) s = .next (s.setDeque hart { q with reply := some false })) ∧
        (v.transit = false → v.count ≠ 0 →
          let t := s.setDeque k { v with tidx := v.tidx + 1, transit := true, thief := some hart, stolen := v.tidx }
          exec (.theftRequest hart) s = .next (t.setDeque hart { t.deque hart with reply := some true })))) ∧
    (q.reply = some true → q.copy = none →
      exec (.theftReply hart) s = .next ((s.setDeque hart { q with reply := none, copy := none }).setHart hart { h with lap := 0, lapWait := false, theftFirst := false })) ∧
    (q.reply = some false → s.dev.graph h.graph = some g →
      ∃ t, exec (.theftReply hart) s = .next (t.setHart hart { h.count 12 1 with victim := nextVictim g.ring hart (h.victimOf g.ring hart), lap := if g.ring.length ≤ h.lap + 1 + 1 then 0 else h.lap + 1, lapWait := decide (g.ring.length ≤ h.lap + 1 + 1), theftFirst := false }) ∧
        t = (s.setDeque hart { q with reply := none }).setHart hart (h.count 12 1)) ∧
    (∀ fs, q.reply = some true → q.copy = some fs →
      let t := s.setDeque hart { q with reply := none, copy := none }
      exec (.theftReply hart) s = .next ((t.setHart hart (({ h with lap := 0, lapWait := false, theftFirst := false } : Hart).count 11 1)).takeAcquired hart fs)) ∧
    (∀ v, s.dev.graph h.graph = some g → g.ring.find? (fun v => (s.deque v).thief == some hart) = some v → q.reply = none → s.dev.torn hart = false →
      let t := s.setDeque v { s.deque v with transit := false, thief := none, spillf := false }
      exec (.theftCopyComplete hart) s = .next (((t.blacken v hart).setHart hart ((t.hart hart).count 11 1)).takeAcquired hart ((s.deque v).slot (s.deque v).stolen))) ∧
    exec (.theftLapWaitExpiry hart) s = .next (s.setHart hart { h with lapWait := false }) ∧
    (s.dev.graph h.graph = some g → g.state = 0 → s.dev.sending 3 hart 0 = false → s.poolReady g.launch.ctx hart = true → h.run = .idle → h.start.isSome = true →
      ((s.beginTask hart).hart hart).start = none → exec (.poolTakeRetry hart) s = .next (s.beginTask hart)) ∧
    (q.spillf = true → q.isFull = false → q.stopped = false → q.back = [] → s.dev.sending 3 hart 0 = false →
      exec (.dequeSpillResume hart) s = .next ((s.setHart hart h.restartItems).setDeque hart { q with spillf := false })) ∧
    (s.dev.graph h.graph = some g → g.state = 0 → g.ring.contains hart = true → s.quiet g hart = true → q.token = true →
      (hart ≠ s.dev.origin g →
        let t := s.setDeque hart { q with token := false, tblack := false, black := false }
        exec (.quiescenceTokenForward hart) s = .next (t.setDeque (ringNext g.ring hart)
          { t.deque (ringNext g.ring hart) with token := true, tblack := q.black || q.tblack })) ∧
      (hart = s.dev.origin g → q.tblack = false → q.black = false →
        let t := g.ring.foldl (fun s n => s.endDomwait n) (s.setDeque hart { q with token := false })
        exec (.quiescenceTokenForward hart) s = .next { t with dev := t.dev.setGraph { g with active := false } })) ∧
    (∀ (l : Loc) (a : Attr),
     let e := s.hart (1024 + hart)
     let m := s.mt hart
     e.run = .idle → s.dev.hartSending (1024 + hart) = false → m.ekick ≠ 0 → m.ekick.toNat % 64 = 0 → e.ctxid = m.ectx → e.loadsHeld = false →
      e.noticeFor 0 (m.ekick.toNat / 4096) = none → s.postedTouches (1024 + hart) 0 m.ekick 64 = false →
      s.target m.ectx.toNat (1024 + hart) 0 m.ekick 64 true false = (s1, .at l a) →
      let bin := s1.binderBytes l (s1.mt hart).kick
      (leNat (bin.take 8) = 0 → exec (.engineKickStart hart) s = .next (s1.awaitKick hart l)) ∧
      (leNat (bin.take 8) ≠ 0 → (binderRegions bin).find? (fun x => zoneOf x.2.2 == .invalid) = none →
      let u := s1.endKick hart
      let h1 := (u.hart (1024 + hart)).engineStart hart m.ectx m.eentry (BitVec.ofNat 64 (leNat (bin.take 8))) m.ekick
      exec (.engineKickStart hart) s = .next (u.setHart (1024 + hart) ((h1.regionWork true (binderRegions bin)).awaitWbacks h1))))

/-- R31, R32, R33, R200, R203, R204, R380, R411, R414, R415, R417: the homes' own steps and widening. The oldest invalidation drops what is held of its pages and leaves the list; a GO write of TINV starts one; a walk fills the home; a page move takes the frame at the head of its stack's pool and reads its leaf, then copies the page and swaps its entries one by one, the vacated frames going to their pools, or gives the new frame back where an entry has changed (log 58); watchpoints are armed and disarmed; a corrected soft error is counted and logged (log 59), an uncorrectable one stays, in device memory or in the scratchpad it strikes (log 58); a CXL.cache snoop and an ATS invalidation take the lines they name from every core, the snoop answered in the same step, the invalidation in a later one where it has taken something (logs 32, 54); the answers of back-invalidation, ATS and PRI end what waits on them, an ATS completion only what a request asked for; the placement unit reserves the idle tiles that complete a wider core, which takes its new width once drained. -/
def Obligations.HomesAndWidening : Prop :=
  ∀ (hart ctx n pa zone frame : Nat) (va ctl : Dbl) (rd wr : Bool) (s : State),
    let h := s.hart hart
    let d := s.dev
    let page := va.toNat / 4096
    let with' (e : Dev) : State := { s with dev := e }
    (∀ i rest, d.inval = i :: rest → exec .invalidationComplete s = .next (with' { d.invalidate i with inval := rest })) ∧
    (d.inval.any (fun i => i.req == 2048) = false → bitOf ctl.toNat 63 = true → bitsOf ctl.toNat 22 20 ≠ 7 →
      let e := { d with regs := mset 0 d.regs 0x18 (BitVec.ofNat 64 (ctl.toNat % 2 ^ 23)) }
      exec (.tinvInvalidate ctl) s = .next (with' { e with inval := d.inval ++
        [{ req := 2048, ctx := bitsOf ctl.toNat 11 0, zone := bitsOf ctl.toNat 19 12, size := bitsOf ctl.toNat 22 20, va := mget 0 e.regs 0x10 }] })) ∧
    (zoneOf zone = .own → exec (.pageWalkComplete ctx zone va) s = .next (s.xlate ctx zone va.toNat false false).1) ∧
    (∀ first vals f, d.moving = none → n < 12 → d.ready.getLsbD n = true → s.movable ctx page = some (first, vals) →
      s.ringHead (poolKey n) = some f → bitOf f 0 = (vals.length == 16) →
      let t := s.ringTake (poolKey n)
      let m : Move := { ctx := ctx, page := page, stack := n, first := first, vals := vals, dst := bitsOf f 51 12 * 4096 / (4096 * vals.length) * (4096 * vals.length) }
      exec (.pageMove ctx va n) s = .next { t with dev := { t.dev with moving := some m } }) ∧
    (∀ m : Move, d.moving = some m → m.ctx = ctx → m.page = page → m.stack = n →
      let t := (with' { d with moving := none }).copyPieces m
      (∀ e, m.vals = [e] → let new := setBits e 51 12 (m.dst / 4096 + 0)
        (t.phys64 (m.first + 8 * 0) = e →
          let u := t.setPhys64 (m.first + 8 * 0) new
          exec (.pageMove ctx va n) s = .next (({ u with dev := u.dev.moveTlb m } : State).vacate m)) ∧
        (t.phys64 (m.first + 8 * 0) ≠ e → exec (.pageMove ctx va n) s = .next (t.ringGive (poolKey n) (m.dst + 0)))) ∧
      (∀ u, t.swapLeaves m (upTo m.vals.length) = (u, true) →
        exec (.pageMove ctx va n) s = .next (({ u with dev := u.dev.moveTlb m } : State).vacate m)) ∧
      (∀ u, t.swapLeaves m (upTo m.vals.length) = (u, false) →
        exec (.pageMove ctx va n) s = .next (u.ringGive (poolKey n) (m.dst + (m.vals.length == 16).toNat)))) ∧
    (let w := d.watchAt ctx n
     let t := d.allHarts.foldl (fun s p => s.emptyWatched ctx w p.1) s
     exec (.watchArm ctx n) s = .next { t with dev := { t.dev with watch := mset none t.dev.watch (8 * ctx + n) (some { w with en := true, armed := !t.dev.arming ctx w }) } }) ∧
    (let w := { d.watchAt ctx n with en := false, armed := false }
     exec (.watchDisarm ctx n) s = .next (with' { d with watch := mset none d.watch (8 * ctx + n) (if w = Watch.reset then none else some w) })) ∧
    exec (.memorySoftError pa false) s = .next (with' { d with corrected := d.corrected + 1, log := (d.log ++ [({ time := d.timebase, typ := 1, detail := natLe 48 pa } : LogEntry)]).drop (d.log.length - Config.logRoom) }) ∧
    (pa < 2 ^ 52 → ∃ t, exec (.memorySoftError pa true) s = .next t ∧ t.dev.uncorr.contains (pa / 32) = true ∧ t = with' { d with uncorr := t.dev.uncorr }) ∧
    (2 ^ 52 ≤ pa → pa < 2 ^ 60 → let w := (pa - 2 ^ 52) / 2 ^ 20
      ∃ t, exec (.memorySoftError pa true) s = .next t ∧ (t.mt w).errs.contains (pa % 2 ^ 20 / 32) = true ∧
        t = with' (d.setMt w { s.mt w with errs := (t.mt w).errs })) ∧
    exec (.cxlCacheSnoop ctx va) s = .next (with' (d.mapHarts fun k =>
      { k with l1d := k.l1d.filter fun l => !(l.ctx == ctx && l.zone == 0xF0 && l.line == va.toNat / 64) })) ∧
    exec (.backInvalidateResponse pa) s = .next (with' { d with bisnp := d.bisnp.filter fun k => k != pa / 64 }) ∧
    ((s.ctxPasid ctx).isSome = true → (ctx, page) ∈ d.atsAsked →
      exec (.atsTranslationCompletion ctx va (rd, wr) (frame, n)) s = .next (with' { d with atsAsked := d.atsAsked.erase (ctx, page), ats := (d.ats.filter fun t => !(t.ctx == ctx && t.page == page)) ++ [{ ctx := ctx, page := page, frame := frame, rd := rd, wr := wr, size := n }] })) ∧
    ((ctx, page) ∉ d.atsAsked → exec (.atsTranslationCompletion ctx va (rd, wr) (frame, n)) s = .next s) ∧
    (∀ q, (d.pri.take Config.priAllocation).find? (fun q => q.ctx == ctx && q.page == page) = some q →
      -- the oldest request that stood beyond the host's allocation is sent in the place of the answered one
      let sent := d.priSent + if Config.priAllocation < d.pri.length then 1 else 0
      exec (.priResponse ctx va 0) s = .next (with' { d with pri := d.pri.erase q, priSent := sent, ats := d.ats.filter fun t => !(t.ctx == ctx && t.page == page) }) ∧
      (n ≠ 0 → exec (.priResponse ctx va n) s = .next ((with' { d with priSent := sent }).failPage q))) ∧
    ((pa, va, n) ∈ d.atsInval → exec (.atsInvalidation pa va n) s = .next (with' { d with atsInval := d.atsInval.erase (pa, va, n), invalSent := d.invalSent + 1 })) ∧
    ((pa, va, n) ∉ d.atsInval →
     let hit (c g : Nat) : Bool := s.ctxPasid c == some pa && decide (page ≤ g) && decide (g < page + n)
     let e := d.mapHarts fun k => { k with look := k.look.filter fun t => !(t.zone == 0xF0 && hit t.ctx t.page),
                                           l1d := k.l1d.filter fun l => !(l.zone == 0xF0 && hit l.ctx (l.line / 64)) }
     exec (.atsInvalidation pa va n) s = .next (with' (
       if s.holdsAtsRange pa va n then { e with ats := e.ats.filter fun x => !hit x.ctx x.page, atsInval := e.atsInval ++ [(pa, va, n)] }
       else { d with invalSent := d.invalSent + 1 }))) ∧
    (∀ g, d.graph h.graph = some g → h.run = .running → h.reserve = none → h.leaving = false → h.susp = none → isEngine hart = false →
      g.state = 0 → 2 * h.cwidth.toNat ≤ 8 → h.cwidth.toNat < h.whint → g.holdsShape (2 * h.cwidth.toNat) hart = true →
      let add := g.cut.filter fun c => inShape (2 * h.cwidth.toNat) hart (placeOf g.clu (g.row + c.1) (g.col + c.2.1)) &&
        !inShape h.cwidth.toNat hart (placeOf g.clu (g.row + c.1) (g.col + c.2.1)) && !g.absorbed.contains (c.1, c.2.1)
      add.all (fun c => s.absorbable g (placeOf g.clu (g.row + c.1) (g.col + c.2.1))) = true →
      let t := s.setHart hart { h with reserve := some (2 * h.cwidth.toNat) }
      exec (.widenReserve hart) s = .next { t with dev := t.dev.setGraph { g with absorbed := g.absorbed ++ add.map fun c => (c.1, c.2.1) } }) ∧
    (∀ w, h.reserve = some w → h.run = .running → h.blocks = [] → h.busy = 0 → h.susp = none → h.leaving = false →
      exec (.widenRedistribute hart) s = .next (s.setHart hart (h.widened w)))

/-- R163, R164, R174, R176, R178 to R182, R185, R255 to R258, R277, R300, R356: the tiles' own steps. A tensor instruction of the oldest block issues in its turn on free nodes; an MMA consumes its next entries, completes and frees its accumulator; an MSTO pushes its next entry; a node changes mode at a group boundary; a bound outbound port sends its head entry onto the link against a credit, while the link's buffer has room, the entry at the link's head arrives in an inbound port that is bound, which owes the link's channel a credit, and a credit of the channel (R395), or of a committed pop, goes back (entry and credit cross in one step, log 27); an MMA stopped at a faulting entry consumes nothing before a resume (R176), and one without rows takes no entry of A (log 56); an AGE reads its record between two SEALs, delivers an element, posts one, or performs one that it has posted, which of them and when by a free value (log 34), resumes and stops. -/
def Obligations.TilesStep : Prop :=
  ∀ (hart tag idx node p a n : Nat) (s s1 : State) (b : Block) (r : Req) (t : TIns) (bs : List Byte),
    let h := s.hart hart
    (s.pendingReq hart tag idx = some (b, r) → r.kind = .tensor t → h.isOldest tag = true → b.vsidTurn t.vsid = true →
      (∀ ea eb, t.op ≤ 1 → h.nodesFree [t.d] = true →
        (∀ k ∈ [t.a, t.b], h.portBusy k = false ∧ (s.mt (placeOfHart hart)).waits k = false ∧ popsOf (s.hart (otherHart hart)).blocks k = 0 ∧
          (readSlots b.hdr).all (fun x => x.reg != 0x40 + k || b.injected.contains x.k) = true) →
        s.streamHead hart t.a = some ea → s.streamHead hart t.b = some eb → s.mmaCheck hart t ea eb = none →
        ∃ u, exec (.tensorIssue hart tag idx) s = .next u ∧
          ∃ o ∈ (u.hart hart).nodes, o.op = t.op ∧ o.md = t.d ∧ o.pa = t.a ∧ o.pb = t.b ∧ o.k = t.k.toNat ∧ o.rows = h.mrows.toNat ∧
            o.cols = h.mcols.toNat ∧ o.acc = t.flag ∧ o.ta = ea.tag.toNat ∧ o.tb = eb.tag.toNat ∧
            o.ea = (if o.qa = 0 then [] else unpackEntry ea.tag.toNat ea.val) ∧ o.eb = [] ∧ o.stop = false ∧ o.block = b.addr ∧ o.status = h.status) ∧
      (2 ≤ t.op → h.nodesFree t.regs = true → (t.op = 6 → h.mout.any (fun o => o.node == t.d / 2) = false) →
        (∀ h1 b1, issueNow h b t (h.nenv idx) = .ok h1 b1 → exec (.tensorIssue hart tag idx) s =
          .next (s.settle hart (some (tag, idx)) (h1.putBlock ((b1.dropReq idx).resolveV idx (some t.vsid))))) ∧
        (∀ x, issueNow h b t (h.nenv idx) = .clash x → exec (.tensorIssue hart tag idx) s =
          .next (s.setHart hart (h.putBlock ((b.dropReq idx).fault 0x40 idx x 0)))))) ∧
    (∀ o, hart < 2048 → h.thalt = false → h.nodes.find? (fun o => o.md / 2 == node) = some o →
      (o.stop = true → exec (.mmaEntryConsume hart node) s = .next s) ∧
      (o.stop = false → o.ea.length < o.qa → (s.streamHead hart o.pa).isSome = true → exec (.mmaEntryConsume hart node) s = .next (s.consume hart o true)) ∧
      (o.stop = false → o.qa ≤ o.ea.length → o.eb.length < o.qb → exec (.mmaEntryConsume hart node) s = .next (s.consume hart o false)) ∧
      (o.op = 0 → o.qa ≤ o.ea.length → o.qb ≤ o.eb.length →
        exec (.tensorOpComplete hart node) s = .next (((s.setHart hart (h.finishMma o s.dev.fresh)).unbusy hart).portsChanged (placeOfHart hart))) ∧
      -- MMAS; a scale that no AGE delivered is a free value (log 3)
      (o.op = 1 → o.qa ≤ o.ea.length → o.qb ≤ o.eb.length →
        let done := s.setHart hart (h.finishMma o s.dev.fresh)
        let used := if o.sa.length < o.groups * o.rows ∨ o.sb.length < o.groups * o.cols then o.groups * (o.rows + o.cols) else 0
        exec (.tensorOpComplete hart node) s = .next ((({ done with dev := { done.dev with fresh := done.dev.fresh + used } } : State).unbusy hart).portsChanged (placeOfHart hart)))) ∧
    (∀ (o : MOut) e, hart < 2048 → h.mout = [o] → o.live = true → o.behind = 0 → o.node = node →
      let q := placeOfHart hart
      let last (u : State) : State := ((u.setHart hart (({ h with mout := [] } : Hart).opDone o.acc)).unbusy hart).portsChanged q
      (o.ents = [] → exec (.mstoEntryPush hart node) s = .next (last s)) ∧
      (h.storesHeld = false → (s.port q o.port).q.length < 16 →
        (o.ents = [e] → exec (.mstoEntryPush hart node) s = .next (last (s.pushEntry q o.port e))) ∧
        (∀ e2 es, o.ents = e :: e2 :: es →
          exec (.mstoEntryPush hart node) s = .next ((s.pushEntry q o.port e).setHart hart { h with mout := [{ o with ents := e2 :: es }] })))) ∧
    (h.nodes.any (fun o => o.md / 2 == node && !o.atBoundary) = true → exec (.matrixNodeModeChange hart node) s = .next s) ∧
    (hart < 2048 → h.nodes.any (fun o => o.md / 2 == node && !o.atBoundary) = false → ∃ k, exec (.matrixNodeModeChange hart node) s = .next (s.setHart hart k) ∧
      k.slow = (if s.dev.valarm.getLsbD 32 then h.slow ||| BitVec.ofNat 4 (2 ^ node) else h.slow &&& ~~~BitVec.ofNat 4 (2 ^ node)) ∧
      k.narrow = (if k.slow = 0xF then true else if k.slow = 0 then false else h.narrow) ∧ k = { h with slow := k.slow, narrow := k.narrow }) ∧
    (let q := s.port p n
     (∀ e es, n < 8 → q.bind ≠ 0 → q.link = e :: es → q.q.length < 16 →
       exec (.portEntryDeliver p n) s = .next ((s.setPort p n (({ q with link := es, linkOwed := q.linkOwed + 1 } : Port).enq e)).portsChanged p)) ∧
     (n < 8 → q.linkOwed ≠ 0 → exec (.portCreditReturn p n) s = .next (s.setPort p n { q with linkOwed := q.linkOwed - 1 })) ∧
     ∀ r m, q.agreed = true → s.agree p n = true → s.peerOf p n = some (r, m) →
      (∀ e es, 8 ≤ n → q.credit ≠ 0 → (s.port r m).linkCredits ≠ 0 → q.q = e :: es → e.epoch = none ∨ e.epoch = some q.key →
        let t := s.setPort p n { q with q := es, credit := q.credit - 1 }
        let i := t.port r m
        exec (.portEntryDeliver p n) s = .next (s.waitOver ((t.setPort r m { i with link := i.link ++ [{ e with epoch := none }] }).tryLeave p) p)) ∧
      (n < 8 → q.linkOwed = 0 → q.owed ≠ 0 →
        let t := s.setPort p n { q with owed := q.owed - 1 }
        let o := t.port r m
        exec (.portCreditReturn p n) s = .next (t.setPort r m { o with credit := if o.credit.toNat < 16 then o.credit + 1 else o.credit }))) ∧
    (let g := s.age p a
     (∀ zone rec, g.fetch = some (zone, rec) → g.state = 1 → s.ageHeld p = false →
       (g.record = [] → s.readHomeAll g.ctx p zone (rec + 0) 8 = (s1, .bytes bs) → s1.age p a = g →
         exec (.ageRecordFetch p a) s = .next (s1.setAge p a { g with record := bs })) ∧
       (g.record.length = 128 → s.readHomeAll g.ctx p zone (rec + 0) 8 = (s1, .bytes (g.record.take 8)) → s1.age p a = g → g.invalid = none →
         exec (.ageRecordFetch p a) s = .next (s1.setAge p a { g with fetch := none }))) ∧
     (s.ageRuns p a = true → g.fetch = none → g.exhausted = false → g.misaligned = false →
       let span := bitSpan g.bitAddr g.bits
       (g.isWriter = false → (s.port p g.port.toNat).q.length < 16 → g.scaleDue = false → s.readHomeAll g.ctx p g.zone span.1 span.2.1 = (s1, .bytes bs) →
         exec (.ageElementDeliver p a) s = .next (s1.ageAdd p a (leNat bs / 2 ^ span.2.2 % 2 ^ g.bits) none)) ∧
       (∀ x rest, g.isWriter = true → g.part = x :: rest → g.out = [] →
         exec (.ageElementWrite p a) s = .next (s.setAge p a { g.moved 1 with part := if g.lastOfPass then [] else rest, state := g.state, out := [g.store x] })) ∧
       (∀ x rest, g.isWriter = true → g.part = x :: rest → g.out ≠ [] → (Config.freeValue s.dev.fresh).getLsbD 63 = false →
         exec (.ageElementWrite p a) s = .next (s.freshened.setAge p a { g.moved 1 with part := if g.lastOfPass then [] else rest, state := g.state, out := g.out ++ [g.store x] }))) ∧
     -- with an entry to be had the AGE goes on beside what it has posted, or, by a free value, one posted element is performed
     (s.ageGoes p a = true → g.part = [] → g.out = [] ∨ (Config.freeValue s.dev.fresh).getLsbD 63 = false →
       exec (.ageElementWrite p a) s = .next ((if g.out = [] then s else s.freshened).agePop p a)) ∧
     (∀ e c pa, g.out[s.agePick p a]? = some e → s.ageGoes p a = false ∨ (Config.freeValue s.dev.fresh).getLsbD 63 = true →
       (s.freshened.writeElem g.ctx p e.zone e.va e.data (ageWriter p a) = (s1, .bytes bs) → (s1.age p a).state = g.state →
         exec (.ageElementWrite p a) s = .next (s1.ageWrote p a (s.agePick p a))) ∧
       (s.freshened.writeElem g.ctx p e.zone e.va e.data (ageWriter p a) = (s1, .fault c pa) →
         exec (.ageElementWrite p a) s = .next ((s1.ageRewind p a (s.agePick p a)).ageAccessFault p a c pa 6 e.data.length e.zone e.va))) ∧
     (g.state = 2 → s.dev.sending 2 p a = false → s.agePort p a = none → exec (.ageResume p a) s = .next (s.runAge p a g)) ∧
     (g.state = 2 ∨ g.state = 3 → s.dev.sending 2 p a = false → s.agePort p a = some n → (n < 8 ↔ g.port.toNat < 8) →
       exec (.ageResume p a) s = .next (s.runAge p a { g with port := BitVec.ofNat 4 n })) ∧
     (g.state = 1 → exec (.ageStop p a) s = .next (s.setAge p a { g with state := 3 })))

/-- R13, R310, R312 to R321, R325, R344, R358, R408, R412, R436: the placement unit's steps. It takes the head of its intake, a launch, a cancel or a priority change; doorbells, CANCEL and PRIOSET of a launch page post there; a launch table posts its slot or counts it missed; reads of LASTERR and MISSED clear them; the head launch goes to its candidate rectangle; a head without one pre-empts (R320), or reserves a cluster and is then passed by no later item (R319); launches age up to their ceiling; a resident graph becomes eligible for pre-emption; a finished graph gives its spare segments back, adds to its binder, ends its record with 0x03 and frees its rectangle. A doorbell of a page that is not enabled, or before PLACE is ready, is dropped into LASTERR (R412, R436). TIMEBASE moves up to a slot's time, and ageing, MINRES and BFWAIT come as events whose times are not compared (log 8). -/
def Obligations.PlacementUnitSteps : Prop :=
  ∀ (n : Nat) (prio : BitVec 5) (addr : Dbl) (s : State),
    let d := s.dev
    let with' (e : Dev) : State := { s with dev := e }
    (∀ p rest, d.intake = p :: rest → d.ready.getLsbD 15 = true →
      let a := d.app p.srcN
      let rd : BitVec 5 := match a.queue with | c :: _ => c.rd | [] => 0
      let e := { d with intake := rest }
      let t := with' (if p.src = 0 then e.setApp p.srcN { a with queue := a.queue.drop 1 } else e)
      exec .launchPost s = .next (if p.op = 0 then t.post p
        else if p.op = 4 then (t.cancel p).1.commandDone p rd (t.cancel p).2 else (t.reprio p).1.commandDone p rd (t.reprio p).2)) ∧
    (let g := d.page n
     (d.ready.getLsbD 16 = true → g.en = true → d.ready.getLsbD 15 = true →
       exec (.doorbellWrite n addr) s = .next (with' { d with intake := d.intake ++ [pagePost n g 0 addr 0] })) ∧
     (d.ready.getLsbD 16 = true → g.en = false ∨ d.ready.getLsbD 15 = false → exec (.doorbellWrite n addr) s = .next (with' (d.setPage n { g with lasterr := addr ||| 1 }))) ∧
     (d.ready.getLsbD 16 = false → exec (.doorbellWrite n addr) s = .next s) ∧
     exec (.launchPageCancel n) s = .next (with' { d with intake := d.intake ++ [pagePost n g 4 g.cmdaddr 0] }) ∧
     exec (.launchPagePrioset n prio) s = .next (with' { d with intake := d.intake ++ [pagePost n g 6 g.cmdaddr prio.toNat] }) ∧
     exec (.lasterrRead n) s = .next (with' { d.setPage n { g with lasterr := 0 } with answer := natLe 8 g.lasterr.toNat })) ∧
    (let e := d.entry n
     (e.en = true → e.period ≠ 0 → d.timebase.toNat ≤ e.start.toNat + e.slot * e.period.toNat → e.start.toNat + e.slot * e.period.toNat < 2 ^ 64 →
       let at' : Dbl := BitVec.ofNat 64 (e.start.toNat + e.slot * e.period.toNat)
       let x := { d with timebase := at' }
       (e.held = true → exec (.timeTriggerSlot n) s =
         .next (with' (x.setEntry n { e with missed := BitVec.ofNat 32 (Nat.min (e.missed.toNat + 1) (2 ^ 32 - 1)), slot := e.slot + 1 }))) ∧
       (e.held = false → exec (.timeTriggerSlot n) s =
         .next (with' { (x.setEntry n { e with slot := e.slot + 1, held := true }) with intake := d.intake ++
           [{ op := 0, record := e.record, src := 3, srcN := n, ctx := some e.ctx.toNat, via := e.ctx.toNat, prio := 0 }] }))) ∧
     (e.en = false → exec (.launchTableEnable n) s = .next (with' (d.setEntry n { e with en := true, slot := e.firstSlot d.timebase.toNat }))) ∧
     exec (.missedRead n) s = .next (with' { d.setEntry n { e with missed := 0 } with answer := natLe 4 e.missed.toNat })) ∧
    (∀ h rest, d.ready.getLsbD 15 = true → d.levels = .launch h :: rest →
      (∀ r, d.candidate h = some r → exec .placementDecision s = .next (s.placeLaunch h r)) ∧
      (∀ t, d.candidate h = none → s.preempt (.launch h) = some t → exec .placementDecision s = .next t) ∧
      (d.candidate h = none → s.preempt (.launch h) = none → d.reserved.any (fun r => r.1 == h.order) = true → exec .placementDecision s = .next s) ∧
      (∀ c, d.candidate h = none → d.reserved.any (fun r => r.1 == h.order) = false → d.reserveFor h.order (Nat.max h.whint 1) = some c →
        exec .backfillReserve s = .next (with' { d with reserved := d.reserved ++ [(h.order, c)] }))) ∧
    (∀ h, d.plctl.toNat % 2 ^ 16 ≠ 0 → d.held[n]? = some h → h.noage = false → h.level < h.ceiling →
      ∃ t, exec (.launchAgeTick n) s = .next t ∧ t = with' { d with held := t.dev.held } ∧ t.dev.held[n]? = some { h with level := h.level + 1 }) ∧
    (∀ g, d.graph n = some g → g.state = 0 → exec (.minresExpiry n) s = .next (with' (d.setGraph { g with eligible := true }))) ∧
    (∀ g, d.graph n = some g → s.graphDone g = true →
      let t := g.places.foldl (fun s p => s.returnSpares g.launch.ctx p) s
      exec (.graphComplete n) s = .next (if g.places.any (fun p => (t.deque p).stopped) then t
        else ((t.addBinder g).finishLaunch g.launch 0x03).freeGraph g))

/-! Supervision -/

/-- R384, R388, R389, R391 to R397, R401, R402, R404: the steps of pre-emption. A command written without GO starts nothing and one written while another runs is refused with status 1; a swap out signals the rectangle, a preload fills its shadow banks, a clock stop writes its image, a restore places an image or a record (one that cannot be read gives its status), a drain starts. A tile that takes the swap signal is no longer waiting for it and its outgoing side stands in its bank; the streamer exchanges a page and writes the bank out, with the last tile the whole image, which ends a swap out with status 0; a drain of an image, once every block, suspension, tensor operation, posted item, theft and ALINV of its rectangle is done, writes its dirty lines back and then completes: its AGEs are stopped, the Ivory record is made with its references counted, and the rectangle is freed with status 0; it ends with status 2 at a held bound block and at its limit with status 3 or 4; messages reach a context that is not live. The clause of PE_CLOCK_STOP, that the image is written and the command ends with status 0 in the command's own step, is the model's choice of log 6 (the spec gives it a stopped clock and a scan that take time), and so are the forms of images and records beyond R393 and R399; what a home does with a message to a context held as a record is that of log 61. -/
def Obligations.PreemptionSteps : Prop :=
  ∀ (cmd : Dbl) (p page n : Nat) (s : State),
    let c := peCmd cmd.toNat
    let s0 : State := { s with dev := { s.dev with pecmd := cmd &&& 0x0000FFFF07FFFFFF } }
    (∀ i ∈ [Instr.peSwapOut cmd, .pePreloadShadow cmd, .peClockStop cmd, .peRestoreSepia cmd, .peRestoreIvory cmd, .peDrainIvory cmd],
      (c.go = false → exec i s = .next s0) ∧
      (c.go = true → s.dev.pestat.getLsbD 8 = true → exec i s = .next { s0 with dev := { s0.dev with pestat := 0x101 } })) ∧
    (c.go = true → s.dev.pestat.getLsbD 8 = false →
      (∀ g, s0.ctxLive c.ctx = true → s0.dev.graphAt c.ctx c.clu c.row c.col = some g →
        (∀ t dst, s0.dev.shadowOpen g = true → s0.takeSave (g.rows * g.cols) = (t, some dst) →
          let u := t.signalSwap g 2 dst
          exec (.peSwapOut cmd) s = .next { u with dev := { u.dev with pestat := 0x101 } }) ∧
        (∀ t dst, s0.clockStop g = some (t, dst) → exec (.peClockStop cmd) s = .next { t with dev := t.dev.peDone 0 (some dst) }) ∧
        (∀ i, s0.dev.imageAt = some i → s0.dev.imageBad i = none → i.rows = g.rows → i.cols = g.cols → i.cut = g.cut → (i.recut g.row g.col).isSome = true →
          g.places.all (fun x => (mget none s0.dev.shadow x).isNone && !s0.dev.streaming x) = true →
          let u := s0.copyOf i
          ∃ t, exec (.pePreloadShadow cmd) s = .next t ∧ t.dev.pestat = 0 ∧
            t.dev.shadow = (g.places.zip u.2.tiles).foldl (fun m x => mset none m x.1 (some { x.2 with graph := (u.1.dev.savedGraph u.2).id })) s0.dev.shadow)) ∧
      (∀ i q, s0.dev.imageAt = some i → s0.dev.imageBad i = none → i.ctx = c.ctx → s0.ctxLive c.ctx = true →
        (s0.dev.target i c = some q → exec (.peRestoreSepia cmd) s = .next { s0.restoreImage i q with dev := (s0.restoreImage i q).dev.peDone 0 none }) ∧
        (∀ t, s0.dev.canPlace i c.clu c.row c.col = true → s0.startDrain i (c.clu, c.row, c.col) c.limit = some t →
          exec (.peDrainIvory cmd) s = .next t)) ∧
      (∀ i q, s0.readRecord s.dev.pearg.toNat = .inr i → i.ctx = c.ctx → s0.ctxLive c.ctx = true → s0.dev.target i c = some q →
        exec (.peRestoreIvory cmd) s = .next { s0.restoreIvory i q with dev := (s0.restoreIvory i q).dev.peDone 0 none }) ∧
      (∀ st, s0.readRecord s.dev.pearg.toNat = .inl st → exec (.peRestoreIvory cmd) s = .next { s0 with dev := s0.dev.peDone st none })) ∧
    (∀ gid dst g, s.dev.swaps = [p] → s.dev.shadowOut.find? (fun x => x.1 == p) = some (p, gid, dst) → s.dev.graph gid = some g →
      exec (.shadowSwap p) s = .next (s.swapTile p)) ∧
    (∀ v, s.dev.swaps.contains p = false → page < 126 → mget false (s.mt p).nonres page = true → mget none s.dev.shadow p = some v →
      let t := s.setMt p { s.mt p with nonres := mset false (s.mt p).nonres page false }
      exec (.scratchPageExchange p page) s = .next { t with dev := { t.dev with shadow := mset none t.dev.shadow p (some { v with mt := { v.mt with nonres := mset false v.mt.nonres page true } }) } }) ∧
    (∀ x, s.dev.shadowOut.find? (fun y => y.1 == p) = some x → s.dev.swaps.contains p = false → s.exchanged p = true →
      (s.dev.shadowOut.erase x).any (fun y => y.2.1 == x.2.1) = true →
      exec (.streamerWriteOut p) s = .next { s with dev := { s.dev with shadowOut := s.dev.shadowOut.erase x } }) ∧
    (∀ x g, s.dev.shadowOut.find? (fun y => y.1 == p) = some x → s.dev.swaps.contains p = false → s.exchanged p = true →
      (s.dev.shadowOut.erase x).any (fun y => y.2.1 == x.2.1) = false → s.dev.graph x.2.1 = some g →
      let s1 : State := { s with dev := { s.dev with shadowOut := s.dev.shadowOut.erase x } }
      let tiles := (g.places.filterMap fun q => mget none s.dev.shadow q).map fun (v : Saved) => { v with mt := { v.mt with nonres := [] } }
      let k : Graph := { g with image := x.2.2 }
      let u := ({ s1 with dev := s1.dev.setGraph k } : State).writeSepia (s1.dev.imageOf x.2.2 k tiles)
      let d := { u.dev with shadow := g.places.foldl (fun m q => mset none m q none) u.dev.shadow }
      exec (.streamerWriteOut p) s = .next { u with dev := if g.state = 2 ∧ d.pestat.getLsbD 8 = true then d.peDone 0 (some x.2.2) else d }) ∧
    (∀ x g, s.dev.drain = some x → s.dev.graph x.graph = some g →
      let ns := g.places ++ g.places.map fun q => 1024 + q
      (ns.any (fun k => (s.hart k).heldBound) = true → exec .drainComplete s = .next (s.freeDrain x 2 none)) ∧
      (ns.any (fun k => (s.hart k).heldBound) = false → ns.any (fun k => (s.hart k).undrained) = false →
        g.places.any (fun q => s.tileUndrained q) = false → s.dev.calling g ns = false →
        (∀ k, s.drainLines g = some k → exec .drainComplete s = .next (s.setHart k ((s.hart k).writeback false true fun _ => true))) ∧
        (s.drainLines g = none →
          let t := g.places.foldl (fun s q => (upTo 8).foldl (fun s a => s.stopAge q a) s) s
          let tiles := g.places.map fun q => (t.dev.liveTile q g.id).drainedForm
          let kinds := t.kindRefs g (placeOf g.clu g.row g.col) tiles
          let k : Graph := { g with refs := kinds.map Prod.snd, image := x.dest, state := 2 }
          let u := (t.countRefs g.launch.ctx k.refs true).countRefs g.launch.ctx g.refs false
          exec .drainComplete s = .next ((({ u with dev := u.dev.setGraph k } : State).writeIvory k x.dest tiles kinds).freeDrain x 0 (some x.dest)))) ∧
      (x.limit ≠ 0 → ∃ st, (st = 3 ∨ st = 4) ∧ exec .drainLimitExpiry s = .next (s.freeDrain x st none))) ∧
    (∀ g m, s.dev.msgs[n]? = some (g, m) →
      exec (.arrivalLogAppend n) s = .next (({ s with dev := { s.dev with msgs := s.dev.msgs.eraseIdx n } } : State).deliverMsg g m)) ∧
    (∀ g m slot rest, s.dev.heldMsgs = (g, m, slot) :: rest →
      exec .heldMessageReoffer s = .next (({ s with dev := { s.dev with heldMsgs := rest } } : State).deliverMsg g m))

/-- R109, R305, R376, R377, R379, R383, R479: the debug window. Resume, re-execute and step act on a frozen core that no machine check has frozen and whose packet has left, end on any frozen core, halt on a running one, and any other time LAST says 2, but 0 for a halt of a frozen core (the choices of log 60 where R376 does not say); THALT halts the token flow of a frozen core, and clearing it lets what the link interfaces hold go on (R377, log 44); resolve ends a held load and INJECT delivers a token into a halted core's block; the ECMD commands act on a frozen engine hart whose packet has left (R283); a write of a port control word or of a register of a frozen core without bound blocks marks it; lost trace copies leave one gap record. -/
def Obligations.DebugCommands : Prop :=
  ∀ (n port tag lsid offset : Nat) (ctl value : Dbl) (s : State),
    let h := s.hart n
    let last (code : Nat) : State := s.setHart n { h with last := code }
    let takes (k : Nat) : Prop := (s.hart k).run = .frozen ∧ (s.hart k).cause ≠ 0x7F ∧ s.dev.hartSending k = false
    (takes n →
      exec (.dbgResume n) s = .next (s.resumeHart n) ∧
      (h.hasBound = false → exec (.dbgReexecute n) s = .next (s.reexecuteHart n)) ∧
      (h.hasBound = true → exec (.dbgReexecute n) s = .next (last 1)) ∧
      (∃ t, exec (.dbgStep n) s = .next t ∧
        t = ({ s.setHart n { h with stepping := true } with dev := (s.setHart n { h with stepping := true }).dev.resumeCore n } : State).afterResume n) ∧
      (∀ b r, h.block tag = some b → h.heldLoad b lsid = some r →
        let b1 := (b.dropReq r.idx).resolveL r.idx (some lsid)
        exec (.dbgResolve n tag lsid) s = .next (s.setHart n { h.putBlock { b1 with faults := b1.faults.filter fun f => f.word != 32 + r.idx } with last := 0 })) ∧
      (h.block tag = none → exec (.dbgResolve n tag lsid) s = .next (last 5))) ∧
    (h.run = .running → ∀ i ∈ [Instr.dbgResume n, .dbgReexecute n, .dbgStep n, .dbgEndContext n, .dbgResolve n tag lsid, .dbgThaltWrite n true],
      exec i s = .next (last 2)) ∧
    (h.run = .frozen → s.dev.hartSending n = true → ∀ i ∈ [Instr.dbgResume n, .dbgReexecute n, .dbgStep n, .dbgResolve n tag lsid], exec i s = .next (last 2)) ∧
    (h.run = .frozen → exec (.dbgHalt n) s = .next (last 0)) ∧
    (h.run = .frozen → exec (.dbgEndContext n) s = .next (s.endContext h.ctxid.toNat)) ∧
    (h.run = .running → h.discardUnbound.blocks = [] →
      let t := s.setHart n { h.discardUnbound with halting := true, last := 0 }
      exec (.dbgHalt n) s = .next { t with dev := t.dev.takeFault n none (plainFault 0x74 0xFFFF) false }) ∧
    (h.run = .running → h.discardUnbound.blocks ≠ [] →
      exec (.dbgHalt n) s = .next (s.setHart n { h.discardUnbound with halting := true, last := 0 })) ∧
    (h.run = .frozen → exec (.dbgThaltWrite n true) s = .next (s.setHart n { h with thalt := true, last := 0 })) ∧
    (let u := (s.setHart n { h with thalt := false, last := 0 }).landLinks n
     exec (.dbgThaltWrite n false) s = .next ((u.settle n none (u.hart n)).portsChanged (placeOfHart n))) ∧
    (let x := ctl.toNat
     let t : BitVec 9 := BitVec.ofNat 9 x
     bitOf x 14 = true →
     (h.thalt = false → exec (.dbgInject n ctl) s = .next (last 6)) ∧
     (∀ b, h.thalt = true → t ≠ noTarget → h.block (bitsOf x 11 9) = some b → b.hasTarget t = true → b.tok t.toNat = none →
       let k : Token := { val := if bitOf x 13 then h.inj1 ++ h.inj0 else h.inj0.setWidth 128, pair := bitOf x 13, null := bitOf x 12, mark := none }
       exec (.dbgInject n ctl) s = .next (s.settle n none { h.putBlock (b.deliver t k) with last := 0 }))) ∧
    (let e := s.hart (1024 + n)
     (takes (1024 + n) →
       exec (.engineResume n) s = .next (s.resumeHart (1024 + n)) ∧ exec (.engineReexecute n) s = .next (s.reexecuteHart (1024 + n))) ∧
     (e.run = .frozen → s.dev.hartSending (1024 + n) = false → ∃ t, exec (.engineReturnIdle n) s = .next (s.setHart (1024 + n) t) ∧
       t.run = .idle ∧ t.blocks = [] ∧ t.posted = e.posted ∧ t.cause = 0 ∧ t.packet = none ∧ t.thalt = false)) ∧
    (h.run = .frozen → h.hasBound = false → s.dev.torn (placeOfHart n) = false →
      (let t := s.portControl n port value.toNat
       exec (.portControlWrite n port value) s = .next (t.setHart n { t.hart n with marked := true, last := 0 })) ∧
      (offset < 0x2000 → offset % 8 = 0 → s.dev.coreOf n = some n → (s.dev.anchorWord n h offset).isSome = true →
        let t := s.setHart n (s.dev.setAnchorWord n h offset value.toNat)
        exec (.dbgRegisterWrite n offset 8 value) s = .next (t.setHart n { t.hart n with marked := true, last := 0 }))) ∧
    (h.trace = [] → h.traceLost ≠ 0 →
      exec (.traceGapRecord n) s = .next ((s.setHart n { h with trace := [], traceLost := 0 }).sinkRecord
        { typ := 3, sel := 0, place := n, slot := 0, null := false, seq := 0, val := BitVec.ofNat 64 h.traceLost }))

/-- R5, R95, R229, R342, R347, R350, R360, R410, R413, R418 to R420, R433 to R440: the platform, the loader and the fabric. Registers take their fields; islands change point, the alarm is raised and cleared by samples of power, islands are capped and freed, and an overtemperature slows a die; PTP slews or steps TIMEBASE; READY bits set in their order; firmware, decode map and keys are verified and kept; a fatal event stops the device and only its reset starts it again; code objects are loaded and withdrawn; host, peer and core accesses and the network rings reach memory through the homes, an atomic by the old bytes it answers; a work entry's data leaves for its peer, received data counts towards the RMA read that asked for it, and that read's request goes once its data is there; a message of the migration engine's own ring of a slot leaves once the network ports are up (R419, log 46); no host or peer access is answered before its link is trained, and none of an application core before its release (R436); a Slate core (agent 9 and 16 times its row) reaches its own SRAM alone (R421, the place being the choice of log 58); of the registers the host reads those of the launch pages alone; a core's access outside memory, registers, windows and SRAMs reads zero and is ignored on write, a peer's to a reserved frame answers nothing, and the windows and SRAMs stand where the model puts them (choices of log 58). Slewing leaves TIMEBASE where it is (log 39), and a ring's HEAD is read when it is enabled (log 40); firmware is written in two steps (log 36), the decode map's entries are free values (log 26). -/
def Obligations.PlatformLoaderAndFabric : Prop :=
  ∀ (n pa port ring ctx : Nat) (value : Dbl) (data bs : List Byte) (s t : State),
    let d := s.dev
    let with' (e : Dev) : State := { s with dev := e }
    let logged (typ detail : Nat) : List LogEntry :=
      (d.log ++ [({ time := d.timebase, typ := typ, detail := natLe 48 detail } : LogEntry)]).drop (d.log.length - Config.logRoom)
    exec (.registerWrite false n value) s = .next (with' (d.writeReg n value.toNat)) ∧
    exec (.registerWrite true n value) s = .next (with' (d.hostWriteReg n value.toNat)) ∧
    (n < 256 → (d.island n).capped = false → exec (.islandPointChange n) s =
      .next (with' (d.setIsland n { d.island n with actual := if d.ready.getLsbD 22 then (d.island n).point else 2 }))) ∧
    (d.ready.getLsbD 22 = true → d.valarm.getLsbD 32 = false → d.valarm.toNat % 2 ^ 16 ≤ n →
      ∃ u, exec (.powerSample n) s = .next u ∧ u.dev.valarm = d.valarm ||| 0x100000000 ∧ u.dev.alarms = (d.alarms + 1) % 2 ^ 31 ∧
        u.dev.log = logged 3 n) ∧
    (d.ready.getLsbD 22 = true → d.valarm.getLsbD 32 = true → n < Nat.min (d.valarm.toNat / 2 ^ 16 % 2 ^ 16) (d.valarm.toNat % 2 ^ 16 - 1) →
      99 ≤ d.lowSamples → exec (.powerSample n) s = .next (with' { d with valarm := d.valarm &&& 0xFFFFFFFF, lowSamples := 0, overSamples := 0 })) ∧
    exec .valarmCountRead s = .next (with' { d with alarms := 0, answer := natLe 4 d.alarms }) ∧
    (d.valarm.getLsbD 32 = true → 20 ≤ d.overSamples → n < 128 → (d.island (2 * n)).actual ≠ 3 →
      exec (.islandCapStep n) s = .next (with' { (d.setIsland (2 * n) { d.island (2 * n) with actual := (d.island (2 * n)).actual + 1, capped := true }) with cappedRows := d.cappedRows ++ [n] })) ∧
    (∀ rest, d.valarm.getLsbD 32 = false → d.cappedRows = rest ++ [n] → rest.contains n = false →
      exec (.islandCapStep ring) s = .next (with' { (d.setIsland (2 * n) { d.island (2 * n) with actual := (d.island (2 * n)).point, capped := false }) with cappedRows := rest })) ∧
    (n < 4 → d.ready.getLsbD 22 = true → ∃ u, exec (.junctionOvertemp n) s = .next u ∧ u.dev.log = logged 5 n ∧
      ∀ k, k < 64 → (u.dev.island (64 * n + k)).point = 3 ∧ (u.dev.island (64 * n + k)).actual = 3) ∧
    (let off := (value.toNat - d.timebase.toNat) + (d.timebase.toNat - value.toNat)
     (off ≤ 1000000 → exec (.ptpMessage value) s = .next (with' { d with sync := 1 })) ∧
     (1000000 < off → exec (.ptpMessage value) s = .next (with' { d with sync := 1, timebase := value, steps := d.steps + 1, stepAt := value }))) ∧
    (d.sync = 1 → exec .ptpHoldoverTimeout s = .next (with' { d with sync := 2 })) ∧
    (n < 23 → d.ready.getLsbD n = false → (12 < n → d.ready.getLsbD 12 = true) → (n = 12 → d.slotOk = true) → (n = 15 → d.ready.getLsbD 13 = true ∧ d.ready.getLsbD 14 = true ∧ d.ready.toNat % 2 ^ 12 ≠ 0) →
      (n = 13 → Config.signatureOk Config.synwenKey d.stagedMap = true ∧ d.mapFree (mapVersion d.stagedMap) = true) → (n = 20 → d.sync = 1) →
      exec (.functionReady n) s = .next (with' { d.becomeReady n with ready := d.ready ||| BitVec.ofNat 24 (2 ^ n) })) ∧
    (∃ u, exec .dumpvClear s = .next u ∧ u.dev.ready = d.ready &&& 0x7FFFFF) ∧
    (d.writing = some n → ∃ u, exec (.firmwareUpdate n) s = .next u ∧ u.dev.writing = none ∧ u.dev.staged = Config.signatureOk Config.synwenKey n ∧
      u.dev.firmware = (if Config.signatureOk Config.synwenKey n then some n else none)) ∧
    (d.writing ≠ some n → exec (.firmwareUpdate n) s = .next (with' { d with firmware := none, writing := some n, staged := false })) ∧
    (d.mapFree (mapVersion n) = true → Config.signatureOk Config.synwenKey n = true →
      exec (.decodeMapLoad n) s = .next (with' { d with dmap := (upTo 4096).map (Config.mapEntry n), dmapver := mapVersion n })) ∧
    ((∃ u, exec .watchdogExpiry s = .next u ∧ u.dev.halted = true ∧ u.mem = setBytes s.mem Config.reservedBase d.dumpBytes) ∧ (∃ u, exec (.machineCheck n port) s = .next u ∧ u.dev.halted = true)) ∧
    (∃ u, exec .deviceReset s = .next u ∧ u.mem = s.mem ∧ u.dev.halted = false ∧ u.dev.log = d.log ∧ u.dev.keys = d.keys ∧
      u.dev.firmware = d.firmware ∧ u.dev.ready = (if d.dump then 0x800000 else 0) ∧ u.dev.plctl = plctlReset ∧ ∀ k, u.hart k = State.reset.hart k) ∧
    (d.keys.contains n = false → d.keys.length < 15 → exec (.keyInstall n) s = .next (with' { d with keys := d.keys ++ [n] })) ∧
    (∀ st bases frames, s.planLoad ctx value bases.1 bases.2 frames = (st, none) →
      exec (.objectLoad ctx value bases frames) s = .next (with' { d with loadStatus := st })) ∧
    (∀ bases frames p, s.planLoad ctx value bases.1 bases.2 frames = (0, some p) → ∃ u, exec (.objectLoad ctx value bases frames) s = .next u ∧
      u.dev.loadStatus = 0 ∧ ∃ o ∈ u.dev.objs, o.ctx = ctx ∧ o.id = p.id ∧ o.state = 1 ∧ o.syms = p.syms) ∧
    (∀ o, d.unloadable ctx value = some o →
      exec (.objectUnload ctx value true) s = .next (s.withdraw o)) ∧
    (let c := s.countAccess (d.frameBank (pa / 4096)) (.dev pa)
     (pa + data.length ≤ Config.deviceTop → d.uncorrAt pa data.length = false →
      (n ≠ 5 → (n % 16 = 10 → d.ready.getLsbD 19 = true) →
        exec (.riscVCoreAccess n pa .read data) s = .next ((c.mayHold (n % 16) pa data.length).answer (bytesAt s.mem pa data.length)) ∧
        (n % 16 ≠ 5 → n % 16 ≠ 6 → c.mayHold (n % 16) pa data.length = c) ∧
        (d.snoopedRange pa data.length = false → exec (.riscVCoreAccess n pa .write data) s = .next ((c.physWrite pa data (extWriter (n % 16) 0)).answer []))) ∧
      (pa + data.length ≤ Config.reservedBase → d.ready.getLsbD 17 = true →
        exec (.peerAccess (port, pa) .read data) s = .next ((c.mayHold 6 pa data.length).answer (bytesAt s.mem pa data.length)) ∧
        (d.snoopedRange pa data.length = false → exec (.peerAccess (port, pa) .write data) s = .next ((c.physWrite pa data (extWriter 6 (port % 8))).answer [])))) ∧
     (∀ op new, pa + extSize op data ≤ Config.reservedBase → d.ready.getLsbD 17 = true → peerAtomicOk op pa data = true →
      d.uncorrAt pa (extSize op data) = false → d.snoopedRange pa (extSize op data) = false → peerNew op data (bytesAt s.mem pa (extSize op data)) = some new →
      exec (.peerAccess (port, pa) (.atomic op) data) s = .next ((c.physWrite pa new (extWriter 6 (port % 8))).answer (bytesAt s.mem pa (extSize op data)))) ∧
     (∀ op new, n ≠ 5 → n % 16 ≠ 6 → (n % 16 = 10 → d.ready.getLsbD 19 = true) → extAtomicOk op pa data = true → pa + extSize op data ≤ Config.deviceTop → d.uncorrAt pa (extSize op data) = false →
      d.snoopedRange pa (extSize op data) = false → extNew op data (bytesAt s.mem pa (extSize op data)) = some new →
      exec (.riscVCoreAccess n pa (.atomic op) data) s = .next ((c.physWrite pa new (extWriter (n % 16) 0)).answer (bytesAt s.mem pa (extSize op data))))) ∧
    ((n = 5 ∧ d.ready.getLsbD 16 = false) ∨ (n % 16 = 10 ∧ d.ready.getLsbD 19 = false) → ∀ asks,
      exec (.riscVCoreAccess n pa asks data) s = .next (s.answer [])) ∧
    (pa < Config.regBase → d.ready.getLsbD 16 = true →
      exec (.riscVCoreAccess 5 pa .write data) s = .next s ∧ exec (.riscVCoreAccess 5 pa .read data) s = .next (s.answer (natLe data.length 0))) ∧
    (Config.reservedBase < pa + data.length ∨ d.ready.getLsbD 17 = false → exec (.peerAccess (port, pa) .write data) s = .next (s.answer [])) ∧
    (Config.deviceTop < pa + data.length → (n % 16 = 10 → d.ready.getLsbD 19 = true) → (n = 5 → d.ready.getLsbD 16 = true) →
      let sram := Config.sramBase + 0x40000 * (n / 16 % 128)
      (Config.regBase ≤ pa → pa < Config.regBase + 0x440000 → data.length = 8 → (pa - Config.regBase) % 8 = 0 → n ≠ 5 →
        exec (.riscVCoreAccess n pa .write data) s = .next (s.regWrite (pa - Config.regBase) (BitVec.ofNat 64 (leNat data))) ∧
        exec (.riscVCoreAccess n pa .read data) s = .next ((s.regRead (pa - Config.regBase)).1.answer (natLe 8 (s.regRead (pa - Config.regBase)).2))) ∧
      (d.ready.getLsbD 16 = true → data.length = 8 → (pa - Config.regBase) % 8 = 0 → pa < Config.regBase + 0x440000 →
        let r := s.regRead (pa - Config.regBase)
        exec (.riscVCoreAccess 5 pa .read data) s = .next (if Config.regBase + 0x400000 ≤ pa then r.1.answer (natLe 8 r.2) else s.answer (natLe data.length 0))) ∧
      (pa < Config.regBase ∨ Config.regBase + 0x440000 ≤ pa →
        (n % 16 = 9 → (pa < Config.windowBase ∨ Config.windowBase + 0x4000000 ≤ pa) ∧ (pa < sram ∨ sram + 0x40000 < pa + data.length)) →
        exec (.riscVCoreAccess n pa .write data) s = .next s ∧ exec (.riscVCoreAccess n pa .read data) s = .next (s.answer (natLe data.length 0))) ∧
      (n % 16 = 9 → Config.windowBase ≤ pa → pa < Config.windowBase + 0x4000000 →
        exec (.riscVCoreAccess n pa .write data) s = .next (s.windowAccess (pa - Config.windowBase) true data) ∧
        exec (.riscVCoreAccess n pa .read data) s = .next (s.windowAccess (pa - Config.windowBase) false data)) ∧
      (n % 16 = 9 → sram ≤ pa → pa + data.length ≤ sram + 0x40000 →
        exec (.riscVCoreAccess n pa .write data) s = .next (with' { d with sram := setBytes d.sram (pa - Config.sramBase) data }) ∧
        exec (.riscVCoreAccess n pa .read data) s = .next (s.answer (bytesAt d.sram (pa - Config.sramBase) data.length)))) ∧
    (∀ asks, n < 64 → (d.page n).en = true → d.ready.getLsbD 16 = true → (∀ op, asks ≠ .atomic op) →
      s.extRange 5 0 (d.page n).ctx.toNat (BitVec.ofNat 64 (pa % 2 ^ 40)) (asks == .write) data = (t, .bytes bs) →
      exec (.hostApertureAccess n pa asks data) s = .next (t.answer bs)) ∧
    (∀ op, n < 64 → (d.page n).en = true → d.ready.getLsbD 16 = true → s.extAtomic 5 0 (d.page n).ctx.toNat (BitVec.ofNat 64 (pa % 2 ^ 40)) op data = (t, .bytes bs) →
      exec (.hostApertureAccess n pa (.atomic op) data) s = .next (t.answer bs)) ∧
    (∀ order, d.ready.getLsbD 18 = true → d.inTurn order = true → s.extRange 7 port ctx value true data = (t, .bytes bs) →
      (d.readRing port ctx value data.length = none → exec (.networkPacketReceive port ctx value (order, data)) s = .next { t with dev := t.dev.turnDone order }) ∧
      (∀ k, d.readRing port ctx value data.length = some k → let r := t.dev.netRing (k / 16) (k % 16)
        exec (.networkPacketReceive port ctx value (order, data)) s =
          .next { t with dev := (t.dev.setNetRing (k / 16) (k % 16) { r with got := r.got + data.length }).turnDone order })) ∧
    (∀ order, d.inTurn order = false → exec (.networkPacketReceive port ctx value (order, data)) s = .next s) ∧
    (let r := d.netRing port ring
     (let r1 : Ring := { r with addr := r.rhdr, ctx := bitsOf r.rcfg.toNat 11 0, log2n := Nat.max 4 (bitsOf r.rcfg.toNat 15 12), en := true, head := 0, headless := true, stopped := false, entry := none, got := 0 }
      r.en = false → (with' (d.setNetRing port ring r1)).extRange 7 port r1.ctx (r.rhdr + 64) false (List.replicate 8 0) = (t, .bytes bs) →
       exec (.ringEnable port ring) s = .next { t with dev := t.dev.setNetRing port ring { r1 with head := BitVec.ofNat 64 (leNat bs), headless := false } }) ∧
     (∀ xs ys v w, r.en = true → r.stopped = false → r.entry = none → r.headless = false → d.ready.getLsbD 18 = true → d.stopctx.contains r.ctx = false →
       s.extRange 7 port r.ctx r.addr false (List.replicate 8 0) = (t, .bytes xs) → BitVec.ofNat 64 (leNat xs) ≠ r.head →
       t.extRequest 7 port r.ctx (r.addr + 128 + BitVec.ofNat 64 (64 * (r.head.toNat % 2 ^ r.log2n))) false (List.replicate 64 0) = (v, .bytes ys) →
       v.portWrite port ring r.ctx (r.addr + 64) (natLe 8 (r.head.toNat + 1)) = (w, true) →
       exec (.ringEntryTake port ring) s = .next { w with dev := w.dev.setNetRing port ring { r with head := r.head + 1, entry := some ys, got := 0 } }) ∧
     (∀ e, ring < 16 → r.entry = some e → r.en = true → r.stopped = false → numAt e 0 1 = 3 → d.wire.any (fun m => m == netMsg (16 * port + ring) e []) = false →
       exec (.networkEntryComplete port ring) s = .next (with' { d with wire := d.wire ++ [netMsg (16 * port + ring) e []] })) ∧
     (∀ e v, ring < 16 → r.entry = some e → r.en = true → r.stopped = false → numAt e 0 1 = 3 → d.wire.any (fun m => m == netMsg (16 * port + ring) e []) = true →
       numAt e 4 4 ≤ r.got → s.extRange 7 port r.ctx (BitVec.ofNat 64 (numAt e 16 8)) false [] = (t, .bytes bs) →
       t.portWrite port ring r.ctx (BitVec.ofNat 64 (numAt e 40 8)) (natLe 8 r.head.toNat) = (v, true) →
       let x := v.dev.setNetRing port ring { v.dev.netRing port ring with entry := none, got := 0 }
       exec (.networkEntryComplete port ring) s = .next { v with dev := { x with wire := x.wire.erase (netMsg (16 * port + ring) e []) } }) ∧
     (∀ e v, ring < 16 → r.entry = some e → r.en = true → r.stopped = false → numAt e 0 1 ≠ 3 →
       s.extRange 7 port r.ctx (BitVec.ofNat 64 (numAt e 16 8)) false (List.replicate (if entryReads e then numAt e 4 4 else 0) 0) = (t, .bytes bs) →
       t.portWrite port ring r.ctx (BitVec.ofNat 64 (numAt e 40 8)) (natLe 8 r.head.toNat) = (v, true) →
       let x := v.dev.setNetRing port ring { v.dev.netRing port ring with entry := none, got := 0 }
       exec (.networkEntryComplete port ring) s = .next { v with dev := { x with wire := x.wire ++ [netMsg (16 * port + ring) e bs] } }) ∧
     (∀ slot w, d.ready.getLsbD 18 = true → d.posts.find? (fun w => w.port == port && w.ring == 128 + slot) = some w →
       exec (.networkEntryComplete port (16 + slot)) s = .next (with' { d with posts := d.posts.erase w, wire := d.wire ++ [w] })) ∧
     (∀ slot, d.ready.getLsbD 18 = false → exec (.networkEntryComplete port (16 + slot)) s = .next s) ∧
     exec (.ringResume port ring) s = .next (with' (d.setNetRing port ring { r with stopped := false })))

/-- R422 to R431: the steps of live migration. Commands are refused with status 1 while one runs and with 9 where the session's state does not allow them; OP 1 and OP 2 open a session with STATE 1; pre-copy sends the bitmap double by double and ends in the final stop, which its deadline or OP 3 also begins; a message that fails its tag ends the session before GO, and at a target that has taken GO it also ends what GO placed, with RESULT 5 (log 46), one received twice changes nothing but its count, and the others act by their type; READY commits the source and GO the target; an abort and a link failure end a session as its state gives; a stopped target engine applies its page again; a session whose link has failed is opened again; key exchange leaves both directions' keys under its handle. MG_DEADLINE moves TIMEBASE up to DEADLINE (log 8). -/
def Obligations.MigrationSteps : Prop :=
  ∀ (slot seq x y k : Nat) (data : List Byte) (s : State),
    let m := s.dev.mig slot
    let cmd (op : Nat) : State := { s with dev := { s.dev with regs := mset 0 s.dev.regs 0x60 (BitVec.ofNat 64 (op + 16 * (slot % 8))) } }
    let got : State := s.setMig slot { m with seen := m.seen ++ [seq] }
    let fresh : State := got.note slot 56 8 (Nat.max (got.noted slot 56 8) seq)
    let commands : List (Nat × Instr) := [(1, .mgOpenSource slot), (2, .mgOpenTarget slot), (4, .mgAbort slot), (5, .mgClose slot)]
    let toTarget : List Instr := [.mgPageReceive slot seq x y true data, .mgRoundendReceive slot seq x y true, .mgFinalReceive slot seq x [] true,
      .mgGoReceive slot seq true, .mgIvoryReceive slot seq (x, y) true data]
    (∀ c ∈ commands, (s.dev.mgstat.getLsbD 8 = true → exec c.2 s = .next { cmd c.1 with dev := { (cmd c.1).dev with mgstat := 0x101 } }) ∧
      (s.dev.mgstat.getLsbD 8 = false → 8 ≤ slot → exec c.2 s = .next ((cmd c.1).mgDone 9))) ∧
    (s.dev.mgstat.getLsbD 8 = false → slot < 8 →
      (let c := cmd 1
       let n := c.readMig s.dev.mgarg.toNat true
       let t := c.track n.ctx n.dsess
       let ctl := byteAt s.mem (t.desc + 20)
       (m.used = true → m.source = true → m.gone = true → m.failed = true →
         exec (.mgOpenSource slot) s = .next (((c.reopenMig slot n).mgSendOr slot 6 0 0 []).mgDone 0)) ∧
       (m.used = false → c.ctxLive n.ctx = true → bitOf ctl.toNat 0 = false → s.dev.holdsKey n.key = true →
       let u := (c.putDev t.bitmap (List.replicate (8 * t.dbls) 0)).putDev (t.desc + 20) [(ctl ||| 1) &&& 3]
       exec (.mgOpenSource slot) s = .next (({ u with dev := u.dev.invalidate { req := 0, ctx := n.ctx, zone := 0, size := 6, va := 0 } } : State).openMig slot n))) ∧
      (let c := cmd 2
       let n := c.readMig s.dev.mgarg.toNat false
       (m.used = true → m.source = false → m.gone = false → m.failed = true → exec (.mgOpenTarget slot) s = .next ((c.reopenMig slot n).mgDone 0)) ∧
       (m.used = false → c.ctxLive n.ctx = true → c.rangeMapped n.ctx (c.track n.ctx n.dsess) = true → s.dev.holdsKey n.key = true →
        exec (.mgOpenTarget slot) s = .next (c.openMig slot n))) ∧
      (m.used = true → m.gone = false → m.state < 5 → exec (.mgAbort slot) s = .next (((cmd 4).abortMig slot 0 true).mgDone 0)) ∧
      (m.used = true → m.source = true → m.gone = true → exec (.mgAbort slot) s = .next ((cmd 4).mgDone 9)) ∧
      (m.used = true → m.source = false → m.gone = true → m.state < 6 →
        exec (.mgAbort slot) s = .next (((((cmd 4).endContext m.ctx).discardMig slot).endMig slot 0).mgDone 0)) ∧
      (m.used = true → 5 ≤ m.state → ∃ t, exec (.mgClose slot) s = .next t ∧ t.dev.mgstat = 0 ∧
        t.dev.migs = mset none ((cmd 5).mgState slot 7).dev.migs slot none) ∧
      (m.used = true → m.source = true → m.state = 1 →
        let t := (cmd 3).stopNow slot
        exec (.mgFinalStop (slot, true)) s = .next (t.mgDone (if (t.dev.mig slot).state = 6 then t.noted slot 49 1 else 0))) ∧
      (m.used = false ∨ m.source = false ∨ m.state ≠ 1 → exec (.mgFinalStop (slot, true)) s = .next ((cmd 3).mgDone 9))) ∧
    (m.used = true → m.source = true → m.state = 2 → exec (.mgFinalStop (slot, false)) s = .next (s.stopStep slot)) ∧
    (m.used = true → m.source = true → m.state = 1 →
      (m.pos < (s.track m.ctx m.dsess).dbls → exec (.mgRound slot) s = .next (s.roundStep slot)) ∧
      (m.deadline ≠ 0 →
        let now : Dbl := if s.dev.timebase.toNat < m.deadline.toNat then m.deadline else s.dev.timebase
        exec (.mgDeadline slot) s = .next (({ s with dev := { s.dev with timebase := now } } : State).stopNow slot))) ∧
    (m.used = true → m.source = false → m.state < 6 → m.stopped = none →
      (m.seen.contains seq = true → ∀ i ∈ toTarget, exec i s = .next (s.bump slot 80 4)) ∧
      (m.seen.contains seq = false →
        (s.pageWaits slot x y data = false → exec (.mgPageReceive slot seq x y true data) s = .next ((fresh.applyPage slot x y data).tryReady slot)) ∧
        (s.pageWaits slot x y data = true → exec (.mgPageReceive slot seq x y true data) s = .next s) ∧
        exec (.mgRoundendReceive slot seq x y true) s = .next (
          let n := fresh.dev.mig slot
          let u := fresh.setMig slot { n with counts := n.counts ++ [(x, y)] }
          (u.note slot 52 4 (Nat.max (u.noted slot 52 4) x)).tryReady slot) ∧
        exec (.mgFinalReceive slot seq x [] true) s =
          .next ((fresh.setMig slot { fresh.dev.mig slot with final := some { seq := seq, records := x, entries := [] } }).tryReady slot) ∧
        (∀ t, (s.storePart slot x y data).isSome = true → fresh.storePart slot x y data = some t →
          exec (.mgIvoryReceive slot seq (x, y) true data) s = .next (t.tryReady slot)) ∧
        (s.storePart slot x y data = none → exec (.mgIvoryReceive slot seq (x, y) true data) s = .next s) ∧
        (m.state = 4 → m.final = none →
          let u := m.recs.foldl (fun s r => s.goRecord slot r) fresh
          exec (.mgGoReceive slot seq true) s = .next ((u.setMig slot { u.dev.mig slot with gone := true }).mgState slot 5)) ∧
        (m.gone = false → exec (.mgAbortReceive slot seq x true) s = .next (fresh.abortMig slot 6 false))) ∧
      (m.gone = false → exec (.mgPageReceive slot seq x y false data) s = .next ((s.bump slot 80 4).abortMig slot 5 true)) ∧
      (m.gone = true → exec (.mgPageReceive slot seq x y false data) s =
        .next ((((s.bump slot 80 4).endContext m.ctx).discardMig slot).endMig slot 5))) ∧
    (m.used = true → m.source = true → m.state = 3 → m.stopped = none → m.seen.contains seq = false → s.dev.held = [] → s.dev.graphsOf m.ctx = [] →
      ∃ t, exec (.mgReadyReceive slot seq true) s = .next t ∧ ((t.dev.mig slot).gone = true ∨ (t.dev.mig slot).state = 6)) ∧
    (m.used = true → m.state < 6 →
      (m.source = true → m.gone = false → exec (.mgLinkFailure slot) s = .next (s.abortMig slot 11 false)) ∧
      (m.source = false ∨ m.gone = true → exec (.mgLinkFailure slot) s = .next ((s.setMig slot { m with failed := true }).mgResult slot 11))) ∧
    (∀ page round bs, m.stopped = some (page, round, bs) → s.dev.sending 8 0 0 = false →
      let u := s.setMig slot { m with stopped := none }
      (u.pageWaits slot page round bs = false → exec (.migrationEngineResume slot) s = .next ((u.applyPage slot page round bs).tryReady slot)) ∧
      (u.pageWaits slot page round bs = true → exec (.migrationEngineResume slot) s = .next s)) ∧
    exec (.mgKeyExchange slot k) s =
      .next { s with dev := { s.dev with keyHandles := (s.dev.keyHandles.filter fun x => x.1 != k % 16) ++ [(k % 16, s.dev.fresh)], fresh := s.dev.fresh + 1 } }
end

