-- ==== Sys2Proof/Laws/Fire.lean ====
section
/-! SUPPORT. What firing does, said once: an instruction that can fire has its own effect, one whose predicate fails resolves its identifiers. -/
namespace Sys2Proof.Machine

theorem predVerdict_go {pr : BitVec 2} {b : Block} {idx : Nat}
    (h : pr = 0 ∨ ∃ k, b.tok (4 * idx + 2) = some k ∧ k.null = false ∧ (k.val.getLsbD 0 = true ↔ pr = 1)) :
    predVerdict pr b idx = .go := by
  unfold predVerdict
  split
  · rfl
  · rename_i h0
    obtain h | ⟨k, hk, hn, hb⟩ := h
    · exact absurd h h0
    · rw [hk]
      simp only [hn, Bool.false_eq_true, if_false]
      rw [if_pos]
      rw [beq_iff_eq, Bool.eq_iff_iff, hb, decide_eq_true_iff]

theorem predVerdict_nullified {pr : BitVec 2} {b : Block} {idx : Nat}
    (h : pr ≠ 0 ∧ ∃ k, b.tok (4 * idx + 2) = some k ∧ (k.null = true ∨ ¬(k.val.getLsbD 0 = true ↔ pr = 1))) :
    predVerdict pr b idx = .nullified := by
  obtain ⟨h0, k, hk, hb⟩ := h
  unfold predVerdict
  rw [if_neg h0, hk]
  simp only
  split
  · rfl
  · rename_i hn
    rw [if_neg]
    rw [beq_iff_eq, Bool.eq_iff_iff, decide_eq_true_iff]
    exact hb.resolve_left hn

theorem Hart.block_tag {h : Hart} {tag : Nat} {b : Block} (hb : h.block tag = some b) : b.tag = tag := by
  have := List.find?_some hb
  simpa using this

theorem and_not_false {a o : Bool} (h : a = true → o = true) : (a && !o) = false := by
  cases a <;> simp_all

/-- No fault of the block waits to be taken. -/
theorem Hart.not_faulty {h : Hart} {b : Block} {tag : Nat} (ht : b.tag = tag) (hf : h.run = .running → h.isOldest tag = true → b.faults = []) :
    h.faulty b = false := by
  unfold Hart.faulty
  rw [ht]
  by_cases hr : h.run = .running
  · cases ho : h.isOldest tag
    · simp
    · simp [hf hr ho]
  · simp [hr]

/-- The nodes of a running or frozen core fire while its token flow is not halted. -/
theorem Hart.flows_of {h : Hart} (hr : h.run = .running ∨ h.run = .frozen) (ht : h.thalt = false) : h.flows = true := by
  unfold Hart.flows
  rcases hr with hr | hr <;> simp [hr, ht]

/-- An instruction that can fire is ready with its operands. -/
theorem Hart.ready_of_fires {s : State} {f : Form} {b : Block} {l r : Token} (h : Fires s f b l r) :
    (s.hart s.dev.focus.hart).ready b s.dev.focus.idx f = some ⟨.go, l, r⟩ := by
  have htag := Hart.block_tag h.block
  have h2 : ((s.hart s.dev.focus.hart).isOldest s.dev.focus.tag || !f.oldest) = true := by
    have := h.oldest
    cases ho : f.oldest
    · exact Bool.or_true _
    · rw [this ho]; rfl
  have hl := h.left
  have hr := h.right
  have hc : (f.vsid.isSome && !(s.hart s.dev.focus.hart).vecKnown b f.need) = false := and_not_false h.context
  unfold Hart.ready
  simp only [predVerdict_go h.predicate, Hart.not_faulty htag h.unfaulted, htag, Hart.flows_of h.running h.free, hc, h.alive, h.once, and_not_false h.unspeculated, h2, h.turn]
  match hf : f.operands with
  | 0 => simp_all
  | 1 => simp_all
  | n + 2 => simp_all

theorem Hart.ready_of_nullified {s : State} {f : Form} {b : Block} (h : Nullified s f b) :
    (s.hart s.dev.focus.hart).ready b s.dev.focus.idx f = some ⟨.nullified, tokNull, tokNull⟩ := by
  have htag := Hart.block_tag h.block
  unfold Hart.ready
  simp only [predVerdict_nullified h.predicate, Hart.not_faulty htag h.unfaulted, htag, Hart.flows_of h.running h.free, h.alive, h.once, and_not_false h.unspeculated, h.turn]
  rfl

/-- What a firing does where the instruction can fire. -/
theorem fire_of_fires {s : State} {f : Form} {b : Block} {l r : Token} (h : Fires s f b l r)
    (g : Hart → Block → Token → Token → Hart) :
    s.fire f g = s.fired b (fun h b1 => g h b1 l r) := by
  unfold State.fire Hart.fire State.fired
  dsimp only
  rw [h.block]
  dsimp only
  rw [Hart.ready_of_fires h]
  dsimp only [Form.checked]
  simp only [and_not_false h.marked, Bool.false_eq_true, if_false, h.format, if_true]

/-- What a firing does where the predicate does not match: the identifiers resolve, nothing is sent. -/
theorem State.fire_of_nullified {s : State} {f : Form} {b : Block} (h : Nullified s f b)
    (g : Hart → Block → Token → Token → Hart) :
    s.fire f g = s.nullifiedBlock b (fun b1 => (b1.resolveL s.dev.focus.idx f.lsid).resolveV s.dev.focus.idx f.vsid) := by
  unfold State.fire Hart.fire State.nullifiedBlock
  dsimp only
  rw [h.block]
  dsimp only
  rw [Hart.ready_of_nullified h]
  dsimp only [Form.checked]
  simp only [and_not_false h.marked, Bool.false_eq_true, if_false, h.format, reduceCtorEq]

end Sys2Proof.Machine
end

