-- ==== Sys2Proof/Laws/Scalar.lean ====
section
/-! SUPPORT. The scalar form, said once: an instruction of that form that can fire sends its result, a null one for a null operand. -/
namespace Sys2Proof.Machine

@[simp] theorem Block.deliver_noTarget (b : Block) (k : Token) : b.deliver noTarget k = b := by
  simp [Block.deliver]

theorem Block.deliverAll_one (b : Block) (t : BitVec 9) (k : Token) : b.deliverAll [t] k = b.deliverAll [t, noTarget] k := by
  simp [Block.deliverAll]

theorem sendResult_eq (n : Nat) (ts : List (BitVec 9)) (k : Hart → Block → Token → Token → Token) (h : Hart) (b : Block)
    (l r : Token) : sendResult n ts k h b l r = b.deliverAll ts (orNull n l r (k h b l r)) := by
  unfold sendResult orNull
  dsimp only
  congr 1
  by_cases h1 : 1 ≤ n <;> by_cases h2 : 2 ≤ n <;> by_cases hl : l.null = true <;> by_cases hr : r.null = true <;> simp_all

/-- A scalar instruction that can fire sends its result. -/
theorem State.fireScalar_of_fires {s : State} {pr : BitVec 2} {n : Nat} {old : Bool} {b : Block} {l r : Token}
    (h : Fires s ⟨pr, n, old, none, none, .whole⟩ b l r) (t0 t1 : BitVec 9) (k : Hart → Block → Token → Token → Token) :
    s.fireScalar pr n old t0 t1 k =
      s.fired b (fun h b1 => h.putBlock (b1.deliverAll [t0, t1] (orNull n l r (k h b1 l r)))) := by
  unfold State.fireScalar
  rw [fire_of_fires h]
  simp only [onBlock, sendResult_eq]

/-- A result that does not depend on what firing changes of the core. -/
theorem sends_of {i : Instr} {pr : BitVec 2} {n : Nat} {old : Bool} {t0 t1 : BitVec 9} {K : Hart → Token → Token → Token}
    {k : State → Hart → Block → Token → Token → Token}
    (hexec : ∀ s, exec i s = .next (s.fireScalar pr n old t0 t1 (k s)))
    (hform : formOf i old = ⟨pr, n, old, none, none, .whole⟩)
    (htargets : targetsOf i = [t0, t1] ∨ (targetsOf i = [t0] ∧ t1 = noTarget))
    (hn : operandCount i = n)
    (hk : ∀ (s : State) (b b1 : Block) (l r : Token), Fires s (formOf i old) b l r →
      k s (((s.hart s.dev.focus.hart).count 5 1).putBlock b1) b1 l r = K (s.hart s.dev.focus.hart) l r) :
    Sends i old K := by
  intro s b l r h
  have h' := h
  rw [hform] at h
  rw [hexec, State.fireScalar_of_fires h, hn]
  unfold State.sends State.firedBlock State.fired
  dsimp only
  rw [hk s b _ l r h']
  obtain ht | ⟨ht, rfl⟩ := htargets
  · rw [ht]
  · rw [ht, Block.deliverAll_one]

end Sys2Proof.Machine
end

