-- ==== Sys2Proof/Laws/Int.lean ====
section
/-! SUPPORT. The integer operations on numbers are the operations on W-bit words (R56, R126 to R130). -/
namespace Sys2Proof.Machine

theorem widthOf_pos (w : BitVec 1) : 0 < widthOf w := by unfold widthOf; split <;> decide
theorem widthOf_le (w : BitVec 1) : widthOf w ≤ 64 := by unfold widthOf; split <;> decide

theorem intA_eq (w : BitVec 1) (k : Token) : intA w k = (opd w k).toNat := by
  unfold intA opd Token.lo
  rw [BitVec.toNat_setWidth, BitVec.toNat_setWidth, Nat.mod_mod_of_dvd]
  exact Nat.pow_dvd_pow 2 (widthOf_le w)

theorem sval_eq {w : Nat} (hw : 0 < w) (x : Nat) : sval w x = (BitVec.ofNat w x).toInt := by
  unfold sval
  rw [BitVec.toInt_eq_toNat_cond, BitVec.toNat_ofNat]
  obtain ⟨v, rfl⟩ : ∃ v, w = v + 1 := ⟨w - 1, by omega⟩
  have : 2 ^ (v + 1) = 2 * 2 ^ v := by rw [Nat.pow_succ, Nat.mul_comm]
  simp only [Nat.add_sub_cancel]
  by_cases h : x % 2 ^ (v + 1) < 2 ^ v
  · rw [if_pos h, if_pos (by omega)]
  · rw [if_neg h, if_neg (by omega)]; norm_cast

theorem wrap_eq (w : Nat) (i : Int) : wrap w i = (BitVec.ofInt w i).toNat := by
  unfold wrap
  rw [BitVec.toNat_ofInt]
  norm_cast

@[simp] theorem ofNat_wrap (w : Nat) (i : Int) : BitVec.ofNat w (wrap w i) = BitVec.ofInt w i := by
  rw [wrap_eq, BitVec.ofNat_toNat, BitVec.setWidth_eq]

theorem intTok_eq (w : BitVec 1) (x : Nat) : intTok w x = res (BitVec.ofNat (widthOf w) x) := by
  unfold intTok res sext64
  rw [ofNat_wrap, sval_eq (widthOf_pos w)]
  rfl

theorem sval_toNat {w : Nat} (hw : 0 < w) (x : BitVec w) : sval w x.toNat = x.toInt := by
  rw [sval_eq hw, BitVec.ofNat_toNat, BitVec.setWidth_eq]

theorem widthOf_cases (w : BitVec 1) : widthOf w = 64 ∨ widthOf w = 32 := by unfold widthOf; split <;> simp

theorem simm_mod (w : BitVec 1) (imm : BitVec 9) : (simm imm).toNat % 2 ^ widthOf w = (imm.signExtend (widthOf w)).toNat := by
  have hw := widthOf_cases w
  generalize widthOf w = n at hw ⊢
  have h : imm.signExtend n = (imm.signExtend 64).setWidth n := by
    obtain rfl | rfl := hw
    · simp
    · revert imm; decide
  rw [h, BitVec.toNat_setWidth]
  rfl

section Ops
variable {w : Nat} (x y : BitVec w)

theorem ofNat_opAdd : BitVec.ofNat w (opAdd w x.toNat y.toNat) = x + y := by
  apply BitVec.eq_of_toNat_eq; simp [opAdd]

theorem ofNat_opSub : BitVec.ofNat w (opSub w x.toNat y.toNat) = x - y := by
  apply BitVec.eq_of_toNat_eq
  have := y.isLt
  rw [BitVec.toNat_sub]; simp only [opSub, BitVec.toNat_ofNat, Nat.mod_mod]
  congr 1; omega

theorem ofNat_opMul : BitVec.ofNat w (opMul w x.toNat y.toNat) = x * y := by
  apply BitVec.eq_of_toNat_eq; simp [opMul]

theorem ofNat_opMulHigh (i j : Int) : BitVec.ofNat w (opMulHigh w i j) = BitVec.ofInt w (i * j / 2 ^ w) := by
  unfold opMulHigh; rw [ofNat_wrap]

theorem ofNat_opDiv (hw : 0 < w) : BitVec.ofNat w (opDiv w x.toNat y.toNat) =
    if y = 0 then BitVec.allOnes w else BitVec.ofInt w (x.toInt.tdiv y.toInt) := by
  unfold opDiv
  rw [sval_toNat hw, sval_toNat hw]
  by_cases h : y = 0
  · subst h; simp [BitVec.allOnes]; apply BitVec.eq_of_toNat_eq; simp
  · have : y.toNat ≠ 0 := fun e => h (BitVec.eq_of_toNat_eq (by simpa using e))
    rw [if_neg this, if_neg h, ofNat_wrap]

theorem ofNat_opDivn : BitVec.ofNat w (opDivn w x.toNat y.toNat) = if y = 0 then BitVec.allOnes w else x / y := by
  unfold opDivn
  by_cases h : y = 0
  · subst h; simp [BitVec.allOnes]; apply BitVec.eq_of_toNat_eq; simp
  · have : y.toNat ≠ 0 := fun e => h (BitVec.eq_of_toNat_eq (by simpa using e))
    rw [if_neg this, if_neg h]
    apply BitVec.eq_of_toNat_eq
    rw [BitVec.toNat_ofNat, BitVec.toNat_udiv, Nat.mod_eq_of_lt]
    exact Nat.lt_of_le_of_lt (Nat.div_le_self _ _) x.isLt

theorem ofNat_opRem (hw : 0 < w) : BitVec.ofNat w (opRem w x.toNat y.toNat) =
    if y = 0 then x else BitVec.ofInt w (x.toInt.tmod y.toInt) := by
  unfold opRem
  rw [sval_toNat hw, sval_toNat hw]
  by_cases h : y = 0
  · subst h; simp
  · have : y.toNat ≠ 0 := fun e => h (BitVec.eq_of_toNat_eq (by simpa using e))
    rw [if_neg this, if_neg h, ofNat_wrap]

theorem ofNat_opRemn : BitVec.ofNat w (opRemn x.toNat y.toNat) = if y = 0 then x else x % y := by
  unfold opRemn
  by_cases h : y = 0
  · subst h; simp
  · have : y.toNat ≠ 0 := fun e => h (BitVec.eq_of_toNat_eq (by simpa using e))
    rw [if_neg this, if_neg h]
    apply BitVec.eq_of_toNat_eq
    rw [BitVec.toNat_ofNat, BitVec.toNat_umod, Nat.mod_eq_of_lt]
    exact Nat.lt_of_le_of_lt (Nat.mod_le _ _) x.isLt

theorem ofNat_opNot : BitVec.ofNat w (opNot w x.toNat) = ~~~x := by
  apply BitVec.eq_of_toNat_eq
  rw [BitVec.toNat_ofNat, BitVec.toNat_not, opNot, Nat.mod_eq_of_lt]
  have := Nat.two_pow_pos w
  omega

theorem ofNat_opShl (n : Nat) : BitVec.ofNat w (opShl w x.toNat n) = x <<< n := by
  apply BitVec.eq_of_toNat_eq
  simp [opShl, Nat.shiftLeft_eq]

theorem ofNat_opShr (n : Nat) : BitVec.ofNat w (opShr x.toNat n) = x >>> n := by
  apply BitVec.eq_of_toNat_eq
  rw [BitVec.toNat_ofNat, BitVec.toNat_ushiftRight, opShr, Nat.shiftRight_eq_div_pow, Nat.mod_eq_of_lt]
  exact Nat.lt_of_le_of_lt (Nat.div_le_self _ _) x.isLt

theorem ofNat_opShra (hw : 0 < w) (n : Nat) : BitVec.ofNat w (opShra w x.toNat n) = x.sshiftRight n := by
  unfold opShra
  rw [ofNat_wrap, sval_toNat hw]
  unfold BitVec.sshiftRight
  rw [Int.shiftRight_eq_div_pow]
  norm_cast

theorem ofNat_opRol (n : Nat) (hn : n < w) : BitVec.ofNat w (opRol w x.toNat n) = x.rotateLeft n := by
  apply BitVec.eq_of_toNat_eq
  rw [BitVec.toNat_ofNat, BitVec.toNat_rotateLeft, opRol, Nat.mod_mod, Nat.mod_eq_of_lt hn]
  have hx := x.isLt
  have hsplit : 2 ^ w = 2 ^ (w - n) * 2 ^ n := by rw [← Nat.pow_add]; congr 1; omega
  have hlow : x.toNat / 2 ^ (w - n) < 2 ^ n := by
    rw [Nat.div_lt_iff_lt_mul (Nat.two_pow_pos _), Nat.mul_comm, ← hsplit]; exact hx
  rw [Nat.shiftLeft_eq, Nat.shiftRight_eq_div_pow]
  have h1 : x.toNat * 2 ^ n % 2 ^ w = x.toNat % 2 ^ (w - n) * 2 ^ n := by
    rw [hsplit, Nat.mul_mod_mul_right]
  rw [Nat.add_mod, h1, Nat.mod_eq_of_lt (show x.toNat / 2 ^ (w - n) < 2 ^ w by
    exact Nat.lt_of_lt_of_le hlow (Nat.pow_le_pow_right (by decide) (Nat.le_of_lt hn)))]
  have h2 : x.toNat % 2 ^ (w - n) * 2 ^ n ||| x.toNat / 2 ^ (w - n) =
      x.toNat % 2 ^ (w - n) * 2 ^ n + x.toNat / 2 ^ (w - n) := by
    rw [← Nat.shiftLeft_eq, Nat.shiftLeft_add_eq_or_of_lt hlow]
  rw [h2, Nat.mod_eq_of_lt]
  have h3 : x.toNat % 2 ^ (w - n) < 2 ^ (w - n) := Nat.mod_lt _ (Nat.two_pow_pos _)
  calc _ < x.toNat % 2 ^ (w - n) * 2 ^ n + 2 ^ n := by omega
    _ = (x.toNat % 2 ^ (w - n) + 1) * 2 ^ n := by ring
    _ ≤ 2 ^ (w - n) * 2 ^ n := Nat.mul_le_mul_right _ h3
    _ = 2 ^ w := hsplit.symm

theorem ofNat_opMulHigh_nat : BitVec.ofNat w (opMulHigh w x.toNat y.toNat) = BitVec.ofNat w (x.toNat * y.toNat / 2 ^ w) := by
  rw [ofNat_opMulHigh, ← BitVec.ofInt_natCast]
  congr 1

theorem ofNat_and_not : BitVec.ofNat w (x.toNat &&& opNot w y.toNat) = x &&& ~~~y := by
  rw [← ofNat_opNot y, BitVec.ofNat_and, BitVec.ofNat_toNat, BitVec.setWidth_eq]

theorem ofNat_or_not : BitVec.ofNat w (x.toNat ||| opNot w y.toNat) = x ||| ~~~y := by
  rw [← ofNat_opNot y, BitVec.ofNat_or, BitVec.ofNat_toNat, BitVec.setWidth_eq]

theorem ofNat_xnor : BitVec.ofNat w (opNot w (x.toNat ^^^ y.toNat)) = ~~~(x ^^^ y) := by
  rw [← BitVec.toNat_xor, ofNat_opNot]

theorem ofNat_opRol_mod (hw : 0 < w) (n : Nat) : BitVec.ofNat w (opRol w x.toNat (n % w)) = x.rotateLeft n := by
  rw [ofNat_opRol x _ (Nat.mod_lt _ hw)]
  simp only [BitVec.rotateLeft, Nat.mod_mod]

theorem ofNat_opRor (hw : 0 < w) (n : Nat) : BitVec.ofNat w (opRol w x.toNat ((w - n % w) % w)) = x.rotateRight n := by
  rw [ofNat_opRol_mod x hw]
  have hn := Nat.mod_lt n hw
  simp only [BitVec.rotateLeft, BitVec.rotateRight, BitVec.rotateLeftAux, BitVec.rotateRightAux]
  by_cases h0 : n % w = 0
  · rw [h0, Nat.sub_zero, Nat.mod_self]
    apply BitVec.eq_of_toNat_eq
    simp [Nat.shiftRight_eq_div_pow, Nat.div_eq_of_lt x.isLt]
  · rw [Nat.mod_eq_of_lt (show w - n % w < w by omega), BitVec.or_comm]
    congr 2
    omega

end Ops

/-! The four integer forms, said once -/

theorem intBin_sends {i : Instr} {w t0 t1 pr} {f : Nat → Nat → Nat → Nat} {F : BitVec (widthOf w) → BitVec (widthOf w) → BitVec (widthOf w)}
    (hexec : ∀ s, exec i s = intBin s w t0 t1 pr f) (hform : formOf i false = ⟨pr, 2, false, none, none, .whole⟩)
    (ht : targetsOf i = [t0, t1]) (hn : operandCount i = 2)
    (hf : ∀ x y : BitVec (widthOf w), BitVec.ofNat _ (f (widthOf w) x.toNat y.toNat) = F x y) :
    Sends i false (fun _ l r => res (F (opd w l) (opd w r))) :=
  sends_of (k := fun _ _ _ l r => intTok w (f (widthOf w) (intA w l) (intA w r))) hexec hform (.inl ht) hn
    (fun _ _ _ l r _ => by rw [intTok_eq, intA_eq, intA_eq, hf])

theorem intUn_sends {i : Instr} {w t0 t1 pr} {f : Nat → Nat → Nat} {F : BitVec (widthOf w) → BitVec (widthOf w)}
    (hexec : ∀ s, exec i s = intUn s w t0 t1 pr f) (hform : formOf i false = ⟨pr, 1, false, none, none, .whole⟩)
    (ht : targetsOf i = [t0, t1]) (hn : operandCount i = 1)
    (hf : ∀ x : BitVec (widthOf w), BitVec.ofNat _ (f (widthOf w) x.toNat) = F x) :
    Sends i false (fun _ l _ => res (F (opd w l))) :=
  sends_of (k := fun _ _ _ l _ => intTok w (f (widthOf w) (intA w l))) hexec hform (.inl ht) hn
    (fun _ _ _ l r _ => by rw [intTok_eq, intA_eq, hf])

theorem intSh_sends {i : Instr} {w t0 imm pr} {f : Nat → Nat → Nat → Nat} {F : BitVec (widthOf w) → BitVec (widthOf w)}
    (hexec : ∀ s, exec i s = intSh s w t0 imm pr f) (hform : formOf i false = ⟨pr, 1, false, none, none, .whole⟩)
    (ht : targetsOf i = [t0]) (hn : operandCount i = 1)
    (hf : ∀ x : BitVec (widthOf w), BitVec.ofNat _ (f (widthOf w) x.toNat (imm.toNat % widthOf w)) = F x) :
    Sends i false (fun _ l _ => res (F (opd w l))) :=
  sends_of (k := fun _ _ _ l _ => intTok w (f (widthOf w) (intA w l) (imm.toNat % widthOf w))) hexec hform (.inr ⟨ht, rfl⟩) hn
    (fun _ _ _ l r _ => by rw [intTok_eq, intA_eq, hf])

theorem intImm_sends {i : Instr} {w t0 imm pr} {f : Nat → Nat → Nat → Nat}
    {F : BitVec (widthOf w) → BitVec (widthOf w) → BitVec (widthOf w)}
    (hexec : ∀ s, exec i s = intImm s w t0 imm pr f) (hform : formOf i false = ⟨pr, 1, false, none, none, .whole⟩)
    (ht : targetsOf i = [t0]) (hn : operandCount i = 1)
    (hf : ∀ x y : BitVec (widthOf w), BitVec.ofNat _ (f (widthOf w) x.toNat y.toNat) = F x y) :
    Sends i false (fun _ l _ => res (F (opd w l) (imm.signExtend (widthOf w)))) :=
  sends_of (k := fun _ _ _ l _ => intTok w (f (widthOf w) (intA w l) ((simm imm).toNat % 2 ^ widthOf w))) hexec hform (.inr ⟨ht, rfl⟩) hn
    (fun _ _ _ l r _ => by rw [intTok_eq, intA_eq, simm_mod, hf])

end Sys2Proof.Machine
end

