-- ==== Sys2Proof/Laws/Memory.lean ====
section
/-! SUPPORT. The sparse store: a read after a write, and the canonical form, which every write keeps. -/
namespace Sys2Proof.Machine

section Store
variable {α : Type} [DecidableEq α] {d : α}

/-- The canonical form, entry by entry: keys rise and no entry holds the default. -/
theorem mwf_cons {j : Nat} {a : α} {m : SMap α} :
    mwf d ((j, a) :: m) = true ↔ a ≠ d ∧ (∀ p ∈ m, j < p.1) ∧ mwf d m = true := by
  induction m generalizing j a with
  | nil => simp [mwf]
  | cons q m ih =>
    obtain ⟨k, b⟩ := q
    have hmwf : mwf d ((j, a) :: (k, b) :: m) = (decide (j < k) && decide (a ≠ d) && mwf d ((k, b) :: m)) := rfl
    rw [hmwf, Bool.and_eq_true, Bool.and_eq_true, decide_eq_true_eq, decide_eq_true_eq]
    constructor
    · rintro ⟨⟨hjk, ha⟩, hw⟩
      refine ⟨ha, ?_, hw⟩
      intro p hp
      rcases List.mem_cons.1 hp with rfl | hp
      · exact hjk
      · exact Nat.lt_trans hjk ((ih.1 hw).2.1 p hp)
    · rintro ⟨ha, hk, hw⟩
      exact ⟨⟨hk (k, b) (by simp), ha⟩, hw⟩

omit [DecidableEq α] in
theorem mget_of_above {m : SMap α} {k : Nat} (h : ∀ p ∈ m, k < p.1) : mget d m k = d := by
  induction m with
  | nil => rfl
  | cons q m ih =>
    obtain ⟨j, b⟩ := q
    unfold mget
    rw [if_neg (Nat.ne_of_gt (h (j, b) (by simp)))]
    exact ih fun p hp => h p (by simp [hp])

/-- Reading after a write, at the written key and at any other. -/
theorem mget_mset {m : SMap α} {k : Nat} {a : α} (h : mwf d m = true) (i : Nat) :
    mget d (mset d m k a) i = if i = k then a else mget d m i := by
  induction m with
  | nil =>
    unfold mset
    by_cases ha : a = d
    · simp [ha, mget]
    · by_cases hi : i = k
      · simp [ha, mget, hi]
      · simp [ha, mget, hi, Ne.symm hi]
  | cons q m ih =>
    obtain ⟨j, b⟩ := q
    obtain ⟨-, hab, hw⟩ := mwf_cons.1 h
    unfold mset
    by_cases h1 : k < j
    · have hk : mget d ((j, b) :: m) k = d := mget_of_above fun p hp => by
        rcases List.mem_cons.1 hp with rfl | hp
        · exact h1
        · exact Nat.lt_trans h1 (hab p hp)
      rw [if_pos h1]
      by_cases ha : a = d
      · rw [if_pos ha]
        by_cases hi : i = k
        · rw [if_pos hi, hi, hk, ha]
        · rw [if_neg hi]
      · rw [if_neg ha]
        by_cases hi : i = k
        · simp [mget, hi]
        · simp [mget, hi, Ne.symm hi]
    · rw [if_neg h1]
      by_cases h2 : k = j
      · rw [if_pos h2]
        subst h2
        by_cases ha : a = d
        · rw [if_pos ha]
          by_cases hi : i = k
          · rw [if_pos hi, hi, mget_of_above hab, ha]
          · simp [mget, hi, Ne.symm hi]
        · rw [if_neg ha]
          by_cases hi : i = k
          · simp [mget, hi]
          · simp [mget, hi, Ne.symm hi]
      · rw [if_neg h2]
        unfold mget
        by_cases hj : j = i
        · rw [if_pos hj, if_pos hj, if_neg (by omega)]
        · rw [if_neg hj, if_neg hj]
          exact ih hw

theorem mset_keys {m : SMap α} {k : Nat} {a : α} {p : Nat × α} (h : p ∈ mset d m k a) : p.1 = k ∨ p ∈ m := by
  induction m with
  | nil =>
    unfold mset at h
    split at h
    · simp at h
    · simp at h; simp [h]
  | cons q m ih =>
    obtain ⟨j, b⟩ := q
    unfold mset at h
    split at h
    · split at h
      · exact .inr h
      · rcases List.mem_cons.1 h with rfl | h
        · exact .inl rfl
        · exact .inr h
    · split at h
      · split at h
        · exact .inr (List.mem_cons_of_mem _ h)
        · rcases List.mem_cons.1 h with rfl | h
          · exact .inl rfl
          · exact .inr (List.mem_cons_of_mem _ h)
      · rcases List.mem_cons.1 h with rfl | h
        · exact .inr (by simp)
        · exact (ih h).imp id (List.mem_cons_of_mem _)

/-- A write keeps the canonical form. -/
theorem mwf_mset {m : SMap α} (k : Nat) (a : α) (h : mwf d m = true) : mwf d (mset d m k a) = true := by
  induction m with
  | nil =>
    unfold mset
    by_cases ha : a = d
    · simp [ha, mwf]
    · simp [ha, mwf]
  | cons q m ih =>
    obtain ⟨j, b⟩ := q
    obtain ⟨hb, hab, hw⟩ := mwf_cons.1 h
    unfold mset
    by_cases h1 : k < j
    · rw [if_pos h1]
      by_cases ha : a = d
      · rw [if_pos ha]; exact h
      · rw [if_neg ha]
        refine mwf_cons.2 ⟨ha, fun p hp => ?_, h⟩
        rcases List.mem_cons.1 hp with rfl | hp
        · exact h1
        · exact Nat.lt_trans h1 (hab p hp)
    · rw [if_neg h1]
      by_cases h2 : k = j
      · subst h2
        rw [if_pos rfl]
        by_cases ha : a = d
        · rw [if_pos ha]; exact hw
        · rw [if_neg ha]; exact mwf_cons.2 ⟨ha, hab, hw⟩
      · rw [if_neg h2]
        refine mwf_cons.2 ⟨hb, fun p hp => ?_, ih hw⟩
        rcases mset_keys hp with e | hp
        · omega
        · exact hab p hp

end Store

/-! Bytes -/

theorem Memory.wf_setByte {m : SMap Byte} (a : Nat) (b : Byte) (h : Memory.wf m = true) : Memory.wf (setByte m a b) = true :=
  mwf_mset a b h

theorem byteAt_setByte {m : SMap Byte} (h : Memory.wf m = true) (a i : Nat) (b : Byte) :
    byteAt (setByte m a b) i = if i = a then b else byteAt m i := mget_mset h i

/-- Writing a list of bytes keeps the canonical form. -/
theorem Memory.wf_setBytes {m : SMap Byte} (a : Nat) (bs : List Byte) (h : Memory.wf m = true) :
    Memory.wf (setBytes m a bs) = true := by
  induction bs generalizing m a with
  | nil => exact h
  | cons b bs ih => exact ih _ (Memory.wf_setByte a b h)

/-- Writing masked bytes keeps the canonical form. -/
theorem Memory.wf_setMasked {m : SMap Byte} (a : Nat) (bs : List (Byte × Byte)) (h : Memory.wf m = true) :
    Memory.wf (setMasked m a bs) = true := by
  induction bs generalizing m a with
  | nil => exact h
  | cons b bs ih => exact ih _ (Memory.wf_setByte a _ h)

/-- What each byte reads after a list of bytes has been written. -/
theorem byteAt_setBytes {m : SMap Byte} (h : Memory.wf m = true) (a i : Nat) (bs : List Byte) :
    byteAt (setBytes m a bs) i = if a ≤ i ∧ i < a + bs.length then bs.getD (i - a) 0 else byteAt m i := by
  induction bs generalizing m a with
  | nil =>
    rw [if_neg (by simp)]; rfl
  | cons b bs ih =>
    show byteAt (setBytes (setByte m a b) (a + 1) bs) i = _
    rw [ih (Memory.wf_setByte a b h), byteAt_setByte h]
    simp only [List.length_cons]
    by_cases h1 : i = a
    · subst h1
      rw [if_neg (by omega), if_pos rfl, if_pos (by omega), Nat.sub_self]
      rfl
    · by_cases h2 : a + 1 ≤ i ∧ i < a + 1 + bs.length
      · rw [if_pos h2, if_pos (by omega)]
        obtain ⟨k, rfl⟩ : ∃ k, i = a + 1 + k := ⟨i - (a + 1), by omega⟩
        rw [show a + 1 + k - (a + 1) = k by omega, show a + 1 + k - a = k + 1 by omega]
        rfl
      · rw [if_neg h2, if_neg h1, if_neg (by omega)]

/-- Bytes outside a masked write keep their value. -/
theorem byteAt_setMasked_out {m : SMap Byte} (h : Memory.wf m = true) (a i : Nat) (bs : List (Byte × Byte))
    (hi : i < a ∨ a + bs.length ≤ i) : byteAt (setMasked m a bs) i = byteAt m i := by
  induction bs generalizing m a with
  | nil => rfl
  | cons b bs ih =>
    obtain ⟨x, k⟩ := b
    show byteAt (setMasked (setByte m a (maskByte (byteAt m a) x k)) (a + 1) bs) i = _
    simp only [List.length_cons] at hi
    rw [ih (Memory.wf_setByte a _ h) (a + 1) (by omega), byteAt_setByte h, if_neg (by omega)]

/-- The memories of the reset state have the canonical form. -/
theorem Memory.wf_reset : Memory.wf State.reset.mem = true ∧ Memory.wf State.reset.host = true ∧ Memory.wf State.reset.peer = true :=
  ⟨rfl, rfl, rfl⟩

end Sys2Proof.Machine
end

