-- ==== Sys2Proof/Laws/PerInstr.lean ====
section
/-! SUPPORT. Per instruction: the fields that encode it fill its 32-bit word, and a step or event has none (R77, R79). -/
namespace Sys2Proof

/-- The fields of the instruction fill 32 bits, or it has no word. -/
def Laws.EncodeLen.Statement (i : Instr) : Prop := (i.fields.map Prod.fst).sum = 32 ∨ i.fields = []

theorem Laws.EncodeLen.br x0 x1 x2 : Laws.EncodeLen.Statement (.br x0 x1 x2) := .inl rfl
theorem Laws.EncodeLen.call x0 x1 x2 : Laws.EncodeLen.Statement (.call x0 x1 x2) := .inl rfl
theorem Laws.EncodeLen.bri x0 : Laws.EncodeLen.Statement (.bri x0) := .inl rfl
theorem Laws.EncodeLen.calli x0 : Laws.EncodeLen.Statement (.calli x0) := .inl rfl
theorem Laws.EncodeLen.ret x0 : Laws.EncodeLen.Statement (.ret x0) := .inl rfl
theorem Laws.EncodeLen.scall x0 : Laws.EncodeLen.Statement (.scall x0) := .inl rfl
theorem Laws.EncodeLen.brk x0 : Laws.EncodeLen.Statement (.brk x0) := .inl rfl
theorem Laws.EncodeLen.trap x0 : Laws.EncodeLen.Statement (.trap x0) := .inl rfl
theorem Laws.EncodeLen.mov x0 x1 x2 : Laws.EncodeLen.Statement (.mov x0 x1 x2) := .inl rfl
theorem Laws.EncodeLen.null x0 x1 x2 : Laws.EncodeLen.Statement (.null x0 x1 x2) := .inl rfl
theorem Laws.EncodeLen.pair x0 x1 x2 : Laws.EncodeLen.Statement (.pair x0 x1 x2) := .inl rfl
theorem Laws.EncodeLen.plo x0 x1 x2 : Laws.EncodeLen.Statement (.plo x0 x1 x2) := .inl rfl
theorem Laws.EncodeLen.phi x0 x1 x2 : Laws.EncodeLen.Statement (.phi x0 x1 x2) := .inl rfl
theorem Laws.EncodeLen.const x0 x1 x2 : Laws.EncodeLen.Statement (.const x0 x1 x2) := .inl rfl
theorem Laws.EncodeLen.app x0 x1 x2 : Laws.EncodeLen.Statement (.app x0 x1 x2) := .inl rfl
theorem Laws.EncodeLen.rdsys x0 x1 x2 : Laws.EncodeLen.Statement (.rdsys x0 x1 x2) := .inl rfl
theorem Laws.EncodeLen.wrsys x0 x1 x2 : Laws.EncodeLen.Statement (.wrsys x0 x1 x2) := .inl rfl
theorem Laws.EncodeLen.add x0 x1 x2 x3 : Laws.EncodeLen.Statement (.add x0 x1 x2 x3) := .inl rfl
theorem Laws.EncodeLen.sub x0 x1 x2 x3 : Laws.EncodeLen.Statement (.sub x0 x1 x2 x3) := .inl rfl
theorem Laws.EncodeLen.mul x0 x1 x2 x3 : Laws.EncodeLen.Statement (.mul x0 x1 x2 x3) := .inl rfl
theorem Laws.EncodeLen.mulh x0 x1 x2 x3 : Laws.EncodeLen.Statement (.mulh x0 x1 x2 x3) := .inl rfl
theorem Laws.EncodeLen.mulhn x0 x1 x2 x3 : Laws.EncodeLen.Statement (.mulhn x0 x1 x2 x3) := .inl rfl
theorem Laws.EncodeLen.mulhsn x0 x1 x2 x3 : Laws.EncodeLen.Statement (.mulhsn x0 x1 x2 x3) := .inl rfl
theorem Laws.EncodeLen.div x0 x1 x2 x3 : Laws.EncodeLen.Statement (.div x0 x1 x2 x3) := .inl rfl
theorem Laws.EncodeLen.divn x0 x1 x2 x3 : Laws.EncodeLen.Statement (.divn x0 x1 x2 x3) := .inl rfl
theorem Laws.EncodeLen.rem x0 x1 x2 x3 : Laws.EncodeLen.Statement (.rem x0 x1 x2 x3) := .inl rfl
theorem Laws.EncodeLen.remn x0 x1 x2 x3 : Laws.EncodeLen.Statement (.remn x0 x1 x2 x3) := .inl rfl
theorem Laws.EncodeLen.min x0 x1 x2 x3 : Laws.EncodeLen.Statement (.min x0 x1 x2 x3) := .inl rfl
theorem Laws.EncodeLen.max x0 x1 x2 x3 : Laws.EncodeLen.Statement (.max x0 x1 x2 x3) := .inl rfl
theorem Laws.EncodeLen.minn x0 x1 x2 x3 : Laws.EncodeLen.Statement (.minn x0 x1 x2 x3) := .inl rfl
theorem Laws.EncodeLen.maxn x0 x1 x2 x3 : Laws.EncodeLen.Statement (.maxn x0 x1 x2 x3) := .inl rfl
theorem Laws.EncodeLen.and x0 x1 x2 x3 : Laws.EncodeLen.Statement (.and x0 x1 x2 x3) := .inl rfl
theorem Laws.EncodeLen.or x0 x1 x2 x3 : Laws.EncodeLen.Statement (.or x0 x1 x2 x3) := .inl rfl
theorem Laws.EncodeLen.xor x0 x1 x2 x3 : Laws.EncodeLen.Statement (.xor x0 x1 x2 x3) := .inl rfl
theorem Laws.EncodeLen.andn x0 x1 x2 x3 : Laws.EncodeLen.Statement (.andn x0 x1 x2 x3) := .inl rfl
theorem Laws.EncodeLen.orn x0 x1 x2 x3 : Laws.EncodeLen.Statement (.orn x0 x1 x2 x3) := .inl rfl
theorem Laws.EncodeLen.xnor x0 x1 x2 x3 : Laws.EncodeLen.Statement (.xnor x0 x1 x2 x3) := .inl rfl
theorem Laws.EncodeLen.shl x0 x1 x2 x3 : Laws.EncodeLen.Statement (.shl x0 x1 x2 x3) := .inl rfl
theorem Laws.EncodeLen.shr x0 x1 x2 x3 : Laws.EncodeLen.Statement (.shr x0 x1 x2 x3) := .inl rfl
theorem Laws.EncodeLen.shra x0 x1 x2 x3 : Laws.EncodeLen.Statement (.shra x0 x1 x2 x3) := .inl rfl
theorem Laws.EncodeLen.rol x0 x1 x2 x3 : Laws.EncodeLen.Statement (.rol x0 x1 x2 x3) := .inl rfl
theorem Laws.EncodeLen.ror x0 x1 x2 x3 : Laws.EncodeLen.Statement (.ror x0 x1 x2 x3) := .inl rfl
theorem Laws.EncodeLen.clz x0 x1 x2 x3 : Laws.EncodeLen.Statement (.clz x0 x1 x2 x3) := .inl rfl
theorem Laws.EncodeLen.ctz x0 x1 x2 x3 : Laws.EncodeLen.Statement (.ctz x0 x1 x2 x3) := .inl rfl
theorem Laws.EncodeLen.popc x0 x1 x2 x3 : Laws.EncodeLen.Statement (.popc x0 x1 x2 x3) := .inl rfl
theorem Laws.EncodeLen.brev x0 x1 x2 x3 : Laws.EncodeLen.Statement (.brev x0 x1 x2 x3) := .inl rfl
theorem Laws.EncodeLen.bswp x0 x1 x2 x3 : Laws.EncodeLen.Statement (.bswp x0 x1 x2 x3) := .inl rfl
theorem Laws.EncodeLen.neg x0 x1 x2 x3 : Laws.EncodeLen.Statement (.neg x0 x1 x2 x3) := .inl rfl
theorem Laws.EncodeLen.abs x0 x1 x2 x3 : Laws.EncodeLen.Statement (.abs x0 x1 x2 x3) := .inl rfl
theorem Laws.EncodeLen.not x0 x1 x2 x3 : Laws.EncodeLen.Statement (.not x0 x1 x2 x3) := .inl rfl
theorem Laws.EncodeLen.sextb x0 x1 x2 x3 : Laws.EncodeLen.Statement (.sextb x0 x1 x2 x3) := .inl rfl
theorem Laws.EncodeLen.sexth x0 x1 x2 x3 : Laws.EncodeLen.Statement (.sexth x0 x1 x2 x3) := .inl rfl
theorem Laws.EncodeLen.sextw x0 x1 x2 : Laws.EncodeLen.Statement (.sextw x0 x1 x2) := .inl rfl
theorem Laws.EncodeLen.zextb x0 x1 x2 x3 : Laws.EncodeLen.Statement (.zextb x0 x1 x2 x3) := .inl rfl
theorem Laws.EncodeLen.zexth x0 x1 x2 x3 : Laws.EncodeLen.Statement (.zexth x0 x1 x2 x3) := .inl rfl
theorem Laws.EncodeLen.zextw x0 x1 x2 : Laws.EncodeLen.Statement (.zextw x0 x1 x2) := .inl rfl
theorem Laws.EncodeLen.bfx x0 x1 x2 x3 : Laws.EncodeLen.Statement (.bfx x0 x1 x2 x3) := .inl rfl
theorem Laws.EncodeLen.bfxs x0 x1 x2 x3 : Laws.EncodeLen.Statement (.bfxs x0 x1 x2 x3) := .inl rfl
theorem Laws.EncodeLen.bfi x0 x1 x2 x3 : Laws.EncodeLen.Statement (.bfi x0 x1 x2 x3) := .inl rfl
theorem Laws.EncodeLen.lea x0 x1 x2 x3 x4 : Laws.EncodeLen.Statement (.lea x0 x1 x2 x3 x4) := .inl rfl
theorem Laws.EncodeLen.addi x0 x1 x2 x3 : Laws.EncodeLen.Statement (.addi x0 x1 x2 x3) := .inl rfl
theorem Laws.EncodeLen.muli x0 x1 x2 x3 : Laws.EncodeLen.Statement (.muli x0 x1 x2 x3) := .inl rfl
theorem Laws.EncodeLen.andi x0 x1 x2 x3 : Laws.EncodeLen.Statement (.andi x0 x1 x2 x3) := .inl rfl
theorem Laws.EncodeLen.ori x0 x1 x2 x3 : Laws.EncodeLen.Statement (.ori x0 x1 x2 x3) := .inl rfl
theorem Laws.EncodeLen.xori x0 x1 x2 x3 : Laws.EncodeLen.Statement (.xori x0 x1 x2 x3) := .inl rfl
theorem Laws.EncodeLen.shli x0 x1 x2 x3 : Laws.EncodeLen.Statement (.shli x0 x1 x2 x3) := .inl rfl
theorem Laws.EncodeLen.shri x0 x1 x2 x3 : Laws.EncodeLen.Statement (.shri x0 x1 x2 x3) := .inl rfl
theorem Laws.EncodeLen.shrai x0 x1 x2 x3 : Laws.EncodeLen.Statement (.shrai x0 x1 x2 x3) := .inl rfl
theorem Laws.EncodeLen.roti x0 x1 x2 x3 : Laws.EncodeLen.Statement (.roti x0 x1 x2 x3) := .inl rfl
theorem Laws.EncodeLen.tcmp x0 x1 x2 x3 x4 : Laws.EncodeLen.Statement (.tcmp x0 x1 x2 x3 x4) := .inl rfl
theorem Laws.EncodeLen.tcmpi x0 x1 x2 x3 x4 : Laws.EncodeLen.Statement (.tcmpi x0 x1 x2 x3 x4) := .inl rfl
theorem Laws.EncodeLen.fadd x0 x1 x2 x3 x4 : Laws.EncodeLen.Statement (.fadd x0 x1 x2 x3 x4) := .inl rfl
theorem Laws.EncodeLen.fsub x0 x1 x2 x3 x4 : Laws.EncodeLen.Statement (.fsub x0 x1 x2 x3 x4) := .inl rfl
theorem Laws.EncodeLen.fmul x0 x1 x2 x3 x4 : Laws.EncodeLen.Statement (.fmul x0 x1 x2 x3 x4) := .inl rfl
theorem Laws.EncodeLen.fma x0 x1 x2 x3 x4 : Laws.EncodeLen.Statement (.fma x0 x1 x2 x3 x4) := .inl rfl
theorem Laws.EncodeLen.fdiv x0 x1 x2 x3 x4 : Laws.EncodeLen.Statement (.fdiv x0 x1 x2 x3 x4) := .inl rfl
theorem Laws.EncodeLen.fsqrt x0 x1 x2 x3 x4 : Laws.EncodeLen.Statement (.fsqrt x0 x1 x2 x3 x4) := .inl rfl
theorem Laws.EncodeLen.fmin x0 x1 x2 x3 : Laws.EncodeLen.Statement (.fmin x0 x1 x2 x3) := .inl rfl
theorem Laws.EncodeLen.fmax x0 x1 x2 x3 : Laws.EncodeLen.Statement (.fmax x0 x1 x2 x3) := .inl rfl
theorem Laws.EncodeLen.fminnum x0 x1 x2 x3 : Laws.EncodeLen.Statement (.fminnum x0 x1 x2 x3) := .inl rfl
theorem Laws.EncodeLen.fmaxnum x0 x1 x2 x3 : Laws.EncodeLen.Statement (.fmaxnum x0 x1 x2 x3) := .inl rfl
theorem Laws.EncodeLen.fcmp x0 x1 x2 x3 x4 : Laws.EncodeLen.Statement (.fcmp x0 x1 x2 x3 x4) := .inl rfl
theorem Laws.EncodeLen.fcvt x0 x1 x2 x3 x4 : Laws.EncodeLen.Statement (.fcvt x0 x1 x2 x3 x4) := .inl rfl
theorem Laws.EncodeLen.fabs x0 x1 x2 x3 : Laws.EncodeLen.Statement (.fabs x0 x1 x2 x3) := .inl rfl
theorem Laws.EncodeLen.fneg x0 x1 x2 x3 : Laws.EncodeLen.Statement (.fneg x0 x1 x2 x3) := .inl rfl
theorem Laws.EncodeLen.fclass x0 x1 x2 x3 : Laws.EncodeLen.Statement (.fclass x0 x1 x2 x3) := .inl rfl
theorem Laws.EncodeLen.fcopysign x0 x1 x2 x3 : Laws.EncodeLen.Statement (.fcopysign x0 x1 x2 x3) := .inl rfl
theorem Laws.EncodeLen.ldb x0 x1 x2 x3 x4 x5 : Laws.EncodeLen.Statement (.ldb x0 x1 x2 x3 x4 x5) := .inl rfl
theorem Laws.EncodeLen.ldbs x0 x1 x2 x3 x4 x5 : Laws.EncodeLen.Statement (.ldbs x0 x1 x2 x3 x4 x5) := .inl rfl
theorem Laws.EncodeLen.ldh x0 x1 x2 x3 x4 x5 : Laws.EncodeLen.Statement (.ldh x0 x1 x2 x3 x4 x5) := .inl rfl
theorem Laws.EncodeLen.ldhs x0 x1 x2 x3 x4 x5 : Laws.EncodeLen.Statement (.ldhs x0 x1 x2 x3 x4 x5) := .inl rfl
theorem Laws.EncodeLen.ldw x0 x1 x2 x3 x4 x5 : Laws.EncodeLen.Statement (.ldw x0 x1 x2 x3 x4 x5) := .inl rfl
theorem Laws.EncodeLen.ldws x0 x1 x2 x3 x4 x5 : Laws.EncodeLen.Statement (.ldws x0 x1 x2 x3 x4 x5) := .inl rfl
theorem Laws.EncodeLen.ldd x0 x1 x2 x3 x4 x5 : Laws.EncodeLen.Statement (.ldd x0 x1 x2 x3 x4 x5) := .inl rfl
theorem Laws.EncodeLen.ldq x0 x1 x2 x3 x4 x5 : Laws.EncodeLen.Statement (.ldq x0 x1 x2 x3 x4 x5) := .inl rfl
theorem Laws.EncodeLen.stb x0 x1 x2 x3 x4 : Laws.EncodeLen.Statement (.stb x0 x1 x2 x3 x4) := .inl rfl
theorem Laws.EncodeLen.sth x0 x1 x2 x3 x4 : Laws.EncodeLen.Statement (.sth x0 x1 x2 x3 x4) := .inl rfl
theorem Laws.EncodeLen.stw x0 x1 x2 x3 x4 : Laws.EncodeLen.Statement (.stw x0 x1 x2 x3 x4) := .inl rfl
theorem Laws.EncodeLen.std x0 x1 x2 x3 x4 : Laws.EncodeLen.Statement (.std x0 x1 x2 x3 x4) := .inl rfl
theorem Laws.EncodeLen.stq x0 x1 x2 x3 x4 : Laws.EncodeLen.Statement (.stq x0 x1 x2 x3 x4) := .inl rfl
theorem Laws.EncodeLen.stn4 x0 x1 x2 x3 x4 x5 : Laws.EncodeLen.Statement (.stn4 x0 x1 x2 x3 x4 x5) := .inl rfl
theorem Laws.EncodeLen.ldv x0 x1 x2 x3 x4 x5 : Laws.EncodeLen.Statement (.ldv x0 x1 x2 x3 x4 x5) := .inl rfl
theorem Laws.EncodeLen.ldvStr x0 x1 x2 x3 x4 x5 : Laws.EncodeLen.Statement (.ldvStr x0 x1 x2 x3 x4 x5) := .inl rfl
theorem Laws.EncodeLen.ldvIdx x0 x1 x2 x3 x4 x5 : Laws.EncodeLen.Statement (.ldvIdx x0 x1 x2 x3 x4 x5) := .inl rfl
theorem Laws.EncodeLen.stv x0 x1 x2 x3 x4 x5 : Laws.EncodeLen.Statement (.stv x0 x1 x2 x3 x4 x5) := .inl rfl
theorem Laws.EncodeLen.stvStr x0 x1 x2 x3 x4 x5 : Laws.EncodeLen.Statement (.stvStr x0 x1 x2 x3 x4 x5) := .inl rfl
theorem Laws.EncodeLen.stvIdx x0 x1 x2 x3 x4 x5 : Laws.EncodeLen.Statement (.stvIdx x0 x1 x2 x3 x4 x5) := .inl rfl
theorem Laws.EncodeLen.aadd x0 x1 x2 x3 x4 x5 x6 : Laws.EncodeLen.Statement (.aadd x0 x1 x2 x3 x4 x5 x6) := .inl rfl
theorem Laws.EncodeLen.aand x0 x1 x2 x3 x4 x5 x6 : Laws.EncodeLen.Statement (.aand x0 x1 x2 x3 x4 x5 x6) := .inl rfl
theorem Laws.EncodeLen.aor x0 x1 x2 x3 x4 x5 x6 : Laws.EncodeLen.Statement (.aor x0 x1 x2 x3 x4 x5 x6) := .inl rfl
theorem Laws.EncodeLen.axor x0 x1 x2 x3 x4 x5 x6 : Laws.EncodeLen.Statement (.axor x0 x1 x2 x3 x4 x5 x6) := .inl rfl
theorem Laws.EncodeLen.amin x0 x1 x2 x3 x4 x5 x6 : Laws.EncodeLen.Statement (.amin x0 x1 x2 x3 x4 x5 x6) := .inl rfl
theorem Laws.EncodeLen.amax x0 x1 x2 x3 x4 x5 x6 : Laws.EncodeLen.Statement (.amax x0 x1 x2 x3 x4 x5 x6) := .inl rfl
theorem Laws.EncodeLen.aminn x0 x1 x2 x3 x4 x5 x6 : Laws.EncodeLen.Statement (.aminn x0 x1 x2 x3 x4 x5 x6) := .inl rfl
theorem Laws.EncodeLen.amaxn x0 x1 x2 x3 x4 x5 x6 : Laws.EncodeLen.Statement (.amaxn x0 x1 x2 x3 x4 x5 x6) := .inl rfl
theorem Laws.EncodeLen.aswp x0 x1 x2 x3 x4 x5 x6 : Laws.EncodeLen.Statement (.aswp x0 x1 x2 x3 x4 x5 x6) := .inl rfl
theorem Laws.EncodeLen.acas x0 x1 x2 x3 x4 x5 x6 : Laws.EncodeLen.Statement (.acas x0 x1 x2 x3 x4 x5 x6) := .inl rfl
theorem Laws.EncodeLen.afadd x0 x1 x2 x3 x4 x5 x6 : Laws.EncodeLen.Statement (.afadd x0 x1 x2 x3 x4 x5 x6) := .inl rfl
theorem Laws.EncodeLen.fenceFull x0 x1 : Laws.EncodeLen.Statement (.fenceFull x0 x1) := .inl rfl
theorem Laws.EncodeLen.fenceAcq x0 x1 : Laws.EncodeLen.Statement (.fenceAcq x0 x1) := .inl rfl
theorem Laws.EncodeLen.fenceRel x0 x1 : Laws.EncodeLen.Statement (.fenceRel x0 x1) := .inl rfl
theorem Laws.EncodeLen.fenceSs x0 x1 : Laws.EncodeLen.Statement (.fenceSs x0 x1) := .inl rfl
theorem Laws.EncodeLen.acq x0 x1 x2 x3 x4 x5 : Laws.EncodeLen.Statement (.acq x0 x1 x2 x3 x4 x5) := .inl rfl
theorem Laws.EncodeLen.rel x0 x1 x2 x3 x4 : Laws.EncodeLen.Statement (.rel x0 x1 x2 x3 x4) := .inl rfl
theorem Laws.EncodeLen.wbr x0 x1 : Laws.EncodeLen.Statement (.wbr x0 x1) := .inl rfl
theorem Laws.EncodeLen.invr x0 x1 : Laws.EncodeLen.Statement (.invr x0 x1) := .inl rfl
theorem Laws.EncodeLen.pref x0 x1 : Laws.EncodeLen.Statement (.pref x0 x1) := .inl rfl
theorem Laws.EncodeLen.ibar x0 : Laws.EncodeLen.Statement (.ibar x0) := .inl rfl
theorem Laws.EncodeLen.lncfg x0 : Laws.EncodeLen.Statement (.lncfg x0) := .inl rfl
theorem Laws.EncodeLen.vsetl x0 x1 x2 x3 : Laws.EncodeLen.Statement (.vsetl x0 x1 x2 x3) := .inl rfl
theorem Laws.EncodeLen.vgetl x0 x1 x2 x3 : Laws.EncodeLen.Statement (.vgetl x0 x1 x2 x3) := .inl rfl
theorem Laws.EncodeLen.vbcast x0 x1 x2 : Laws.EncodeLen.Statement (.vbcast x0 x1 x2) := .inl rfl
theorem Laws.EncodeLen.vidx x0 x1 x2 : Laws.EncodeLen.Statement (.vidx x0 x1 x2) := .inl rfl
theorem Laws.EncodeLen.vextr x0 x1 x2 x3 : Laws.EncodeLen.Statement (.vextr x0 x1 x2 x3) := .inl rfl
theorem Laws.EncodeLen.vadd x0 x1 x2 x3 x4 : Laws.EncodeLen.Statement (.vadd x0 x1 x2 x3 x4) := .inl rfl
theorem Laws.EncodeLen.vsub x0 x1 x2 x3 x4 : Laws.EncodeLen.Statement (.vsub x0 x1 x2 x3 x4) := .inl rfl
theorem Laws.EncodeLen.vrsub x0 x1 x2 x3 x4 : Laws.EncodeLen.Statement (.vrsub x0 x1 x2 x3 x4) := .inl rfl
theorem Laws.EncodeLen.vmul x0 x1 x2 x3 x4 : Laws.EncodeLen.Statement (.vmul x0 x1 x2 x3 x4) := .inl rfl
theorem Laws.EncodeLen.vdiv x0 x1 x2 x3 x4 : Laws.EncodeLen.Statement (.vdiv x0 x1 x2 x3 x4) := .inl rfl
theorem Laws.EncodeLen.vmin x0 x1 x2 x3 x4 : Laws.EncodeLen.Statement (.vmin x0 x1 x2 x3 x4) := .inl rfl
theorem Laws.EncodeLen.vmax x0 x1 x2 x3 x4 : Laws.EncodeLen.Statement (.vmax x0 x1 x2 x3 x4) := .inl rfl
theorem Laws.EncodeLen.vabsd x0 x1 x2 x3 x4 : Laws.EncodeLen.Statement (.vabsd x0 x1 x2 x3 x4) := .inl rfl
theorem Laws.EncodeLen.vfma x0 x1 x2 x3 x4 : Laws.EncodeLen.Statement (.vfma x0 x1 x2 x3 x4) := .inl rfl
theorem Laws.EncodeLen.vfms x0 x1 x2 x3 x4 : Laws.EncodeLen.Statement (.vfms x0 x1 x2 x3 x4) := .inl rfl
theorem Laws.EncodeLen.vfnma x0 x1 x2 x3 x4 : Laws.EncodeLen.Statement (.vfnma x0 x1 x2 x3 x4) := .inl rfl
theorem Laws.EncodeLen.vfnms x0 x1 x2 x3 x4 : Laws.EncodeLen.Statement (.vfnms x0 x1 x2 x3 x4) := .inl rfl
theorem Laws.EncodeLen.vdoti8 x0 x1 x2 x3 x4 : Laws.EncodeLen.Statement (.vdoti8 x0 x1 x2 x3 x4) := .inl rfl
theorem Laws.EncodeLen.vdoti4 x0 x1 x2 x3 x4 : Laws.EncodeLen.Statement (.vdoti4 x0 x1 x2 x3 x4) := .inl rfl
theorem Laws.EncodeLen.vand x0 x1 x2 x3 x4 : Laws.EncodeLen.Statement (.vand x0 x1 x2 x3 x4) := .inl rfl
theorem Laws.EncodeLen.vor x0 x1 x2 x3 x4 : Laws.EncodeLen.Statement (.vor x0 x1 x2 x3 x4) := .inl rfl
theorem Laws.EncodeLen.vxor x0 x1 x2 x3 x4 : Laws.EncodeLen.Statement (.vxor x0 x1 x2 x3 x4) := .inl rfl
theorem Laws.EncodeLen.vandn x0 x1 x2 x3 x4 : Laws.EncodeLen.Statement (.vandn x0 x1 x2 x3 x4) := .inl rfl
theorem Laws.EncodeLen.vshl x0 x1 x2 x3 x4 : Laws.EncodeLen.Statement (.vshl x0 x1 x2 x3 x4) := .inl rfl
theorem Laws.EncodeLen.vshr x0 x1 x2 x3 x4 : Laws.EncodeLen.Statement (.vshr x0 x1 x2 x3 x4) := .inl rfl
theorem Laws.EncodeLen.vshra x0 x1 x2 x3 x4 : Laws.EncodeLen.Statement (.vshra x0 x1 x2 x3 x4) := .inl rfl
theorem Laws.EncodeLen.vnot x0 x1 x2 x3 : Laws.EncodeLen.Statement (.vnot x0 x1 x2 x3) := .inl rfl
theorem Laws.EncodeLen.vcmp x0 x1 x2 x3 x4 x5 : Laws.EncodeLen.Statement (.vcmp x0 x1 x2 x3 x4 x5) := .inl rfl
theorem Laws.EncodeLen.vmov x0 x1 x2 x3 : Laws.EncodeLen.Statement (.vmov x0 x1 x2 x3) := .inl rfl
theorem Laws.EncodeLen.vsel x0 x1 x2 x3 x4 : Laws.EncodeLen.Statement (.vsel x0 x1 x2 x3 x4) := .inl rfl
theorem Laws.EncodeLen.vcmpct x0 x1 x2 x3 x4 : Laws.EncodeLen.Statement (.vcmpct x0 x1 x2 x3 x4) := .inl rfl
theorem Laws.EncodeLen.vpermx x0 x1 x2 x3 x4 : Laws.EncodeLen.Statement (.vpermx x0 x1 x2 x3 x4) := .inl rfl
theorem Laws.EncodeLen.vslideup x0 x1 x2 x3 x4 : Laws.EncodeLen.Statement (.vslideup x0 x1 x2 x3 x4) := .inl rfl
theorem Laws.EncodeLen.vslidedn x0 x1 x2 x3 x4 : Laws.EncodeLen.Statement (.vslidedn x0 x1 x2 x3 x4) := .inl rfl
theorem Laws.EncodeLen.vzip x0 x1 x2 x3 x4 : Laws.EncodeLen.Statement (.vzip x0 x1 x2 x3 x4) := .inl rfl
theorem Laws.EncodeLen.vunzip x0 x1 x2 x3 x4 : Laws.EncodeLen.Statement (.vunzip x0 x1 x2 x3 x4) := .inl rfl
theorem Laws.EncodeLen.rsum x0 x1 x2 x3 : Laws.EncodeLen.Statement (.rsum x0 x1 x2 x3) := .inl rfl
theorem Laws.EncodeLen.rmax x0 x1 x2 x3 : Laws.EncodeLen.Statement (.rmax x0 x1 x2 x3) := .inl rfl
theorem Laws.EncodeLen.rmin x0 x1 x2 x3 : Laws.EncodeLen.Statement (.rmin x0 x1 x2 x3) := .inl rfl
theorem Laws.EncodeLen.rsumw x0 x1 x2 x3 : Laws.EncodeLen.Statement (.rsumw x0 x1 x2 x3) := .inl rfl
theorem Laws.EncodeLen.rcount x0 x1 x2 x3 : Laws.EncodeLen.Statement (.rcount x0 x1 x2 x3) := .inl rfl
theorem Laws.EncodeLen.rfirst x0 x1 x2 x3 : Laws.EncodeLen.Statement (.rfirst x0 x1 x2 x3) := .inl rfl
theorem Laws.EncodeLen.vscanSum x0 x1 x2 x3 : Laws.EncodeLen.Statement (.vscanSum x0 x1 x2 x3) := .inl rfl
theorem Laws.EncodeLen.vscanMax x0 x1 x2 x3 : Laws.EncodeLen.Statement (.vscanMax x0 x1 x2 x3) := .inl rfl
theorem Laws.EncodeLen.vscanMin x0 x1 x2 x3 : Laws.EncodeLen.Statement (.vscanMin x0 x1 x2 x3) := .inl rfl
theorem Laws.EncodeLen.vscanSegsum x0 x1 x2 x3 x4 : Laws.EncodeLen.Statement (.vscanSegsum x0 x1 x2 x3 x4) := .inl rfl
theorem Laws.EncodeLen.exp2 x0 x1 x2 x3 : Laws.EncodeLen.Statement (.exp2 x0 x1 x2 x3) := .inl rfl
theorem Laws.EncodeLen.log2 x0 x1 x2 x3 : Laws.EncodeLen.Statement (.log2 x0 x1 x2 x3) := .inl rfl
theorem Laws.EncodeLen.rcp x0 x1 x2 x3 : Laws.EncodeLen.Statement (.rcp x0 x1 x2 x3) := .inl rfl
theorem Laws.EncodeLen.rsq x0 x1 x2 x3 : Laws.EncodeLen.Statement (.rsq x0 x1 x2 x3) := .inl rfl
theorem Laws.EncodeLen.sqrt x0 x1 x2 x3 : Laws.EncodeLen.Statement (.sqrt x0 x1 x2 x3) := .inl rfl
theorem Laws.EncodeLen.tanh x0 x1 x2 x3 : Laws.EncodeLen.Statement (.tanh x0 x1 x2 x3) := .inl rfl
theorem Laws.EncodeLen.sigm x0 x1 x2 x3 : Laws.EncodeLen.Statement (.sigm x0 x1 x2 x3) := .inl rfl
theorem Laws.EncodeLen.erf x0 x1 x2 x3 : Laws.EncodeLen.Statement (.erf x0 x1 x2 x3) := .inl rfl
theorem Laws.EncodeLen.vcvt x0 x1 x2 x3 x4 x5 : Laws.EncodeLen.Statement (.vcvt x0 x1 x2 x3 x4 x5) := .inl rfl
theorem Laws.EncodeLen.vdeq x0 x1 x2 x3 x4 : Laws.EncodeLen.Statement (.vdeq x0 x1 x2 x3 x4) := .inl rfl
theorem Laws.EncodeLen.vscl x0 x1 x2 x3 x4 : Laws.EncodeLen.Statement (.vscl x0 x1 x2 x3 x4) := .inl rfl
theorem Laws.EncodeLen.vqnt x0 x1 x2 x3 x4 : Laws.EncodeLen.Statement (.vqnt x0 x1 x2 x3 x4) := .inl rfl
theorem Laws.EncodeLen.vamax x0 x1 x2 x3 : Laws.EncodeLen.Statement (.vamax x0 x1 x2 x3) := .inl rfl
theorem Laws.EncodeLen.pack x0 x1 x2 x3 x4 : Laws.EncodeLen.Statement (.pack x0 x1 x2 x3 x4) := .inl rfl
theorem Laws.EncodeLen.unpklo x0 x1 x2 x3 : Laws.EncodeLen.Statement (.unpklo x0 x1 x2 x3) := .inl rfl
theorem Laws.EncodeLen.unpkhi x0 x1 x2 x3 : Laws.EncodeLen.Statement (.unpkhi x0 x1 x2 x3) := .inl rfl
theorem Laws.EncodeLen.gettag x0 x1 x2 x3 : Laws.EncodeLen.Statement (.gettag x0 x1 x2 x3) := .inl rfl
theorem Laws.EncodeLen.settag x0 x1 x2 : Laws.EncodeLen.Statement (.settag x0 x1 x2) := .inl rfl
theorem Laws.EncodeLen.clrtag x0 x1 x2 : Laws.EncodeLen.Statement (.clrtag x0 x1 x2) := .inl rfl
theorem Laws.EncodeLen.mshape x0 x1 : Laws.EncodeLen.Statement (.mshape x0 x1) := .inl rfl
theorem Laws.EncodeLen.mzero x0 x1 : Laws.EncodeLen.Statement (.mzero x0 x1) := .inl rfl
theorem Laws.EncodeLen.mwait x0 x1 x2 : Laws.EncodeLen.Statement (.mwait x0 x1 x2) := .inl rfl
theorem Laws.EncodeLen.mstat x0 x1 : Laws.EncodeLen.Statement (.mstat x0 x1) := .inl rfl
theorem Laws.EncodeLen.mtscl x0 x1 : Laws.EncodeLen.Statement (.mtscl x0 x1) := .inl rfl
theorem Laws.EncodeLen.mma x0 x1 x2 x3 x4 x5 : Laws.EncodeLen.Statement (.mma x0 x1 x2 x3 x4 x5) := .inl rfl
theorem Laws.EncodeLen.mmas x0 x1 x2 x3 x4 x5 : Laws.EncodeLen.Statement (.mmas x0 x1 x2 x3 x4 x5) := .inl rfl
theorem Laws.EncodeLen.mmav x0 x1 x2 x3 x4 : Laws.EncodeLen.Statement (.mmav x0 x1 x2 x3 x4) := .inl rfl
theorem Laws.EncodeLen.mmavSub x0 x1 x2 x3 x4 : Laws.EncodeLen.Statement (.mmavSub x0 x1 x2 x3 x4) := .inl rfl
theorem Laws.EncodeLen.mldv x0 x1 x2 x3 x4 : Laws.EncodeLen.Statement (.mldv x0 x1 x2 x3 x4) := .inl rfl
theorem Laws.EncodeLen.mrdv x0 x1 x2 x3 x4 : Laws.EncodeLen.Statement (.mrdv x0 x1 x2 x3 x4) := .inl rfl
theorem Laws.EncodeLen.msto x0 x1 x2 x3 x4 x5 x6 : Laws.EncodeLen.Statement (.msto x0 x1 x2 x3 x4 x5 x6) := .inl rfl
theorem Laws.EncodeLen.maddm x0 x1 x2 x3 x4 : Laws.EncodeLen.Statement (.maddm x0 x1 x2 x3 x4) := .inl rfl
theorem Laws.EncodeLen.mtrn x0 x1 x2 x3 : Laws.EncodeLen.Statement (.mtrn x0 x1 x2 x3) := .inl rfl
theorem Laws.EncodeLen.mcopy x0 x1 x2 x3 : Laws.EncodeLen.Statement (.mcopy x0 x1 x2 x3) := .inl rfl
theorem Laws.EncodeLen.spawn x0 : Laws.EncodeLen.Statement (.spawn x0) := .inl rfl
theorem Laws.EncodeLen.spawna x0 : Laws.EncodeLen.Statement (.spawna x0) := .inl rfl
theorem Laws.EncodeLen.join x0 : Laws.EncodeLen.Statement (.join x0) := .inl rfl
theorem Laws.EncodeLen.taskend x0 : Laws.EncodeLen.Statement (.taskend x0) := .inl rfl
theorem Laws.EncodeLen.yield x0 : Laws.EncodeLen.Statement (.yield x0) := .inl rfl
theorem Laws.EncodeLen.taskid x0 x1 x2 : Laws.EncodeLen.Statement (.taskid x0 x1 x2) := .inl rfl
theorem Laws.EncodeLen.width x0 : Laws.EncodeLen.Statement (.width x0) := .inl rfl
theorem Laws.EncodeLen.launch x0 : Laws.EncodeLen.Statement (.launch x0) := .inl rfl
theorem Laws.EncodeLen.domwait x0 x1 : Laws.EncodeLen.Statement (.domwait x0 x1) := .inl rfl
theorem Laws.EncodeLen.chcfg x0 x1 : Laws.EncodeLen.Statement (.chcfg x0 x1) := .inl rfl
theorem Laws.EncodeLen.chcfgAge x0 x1 : Laws.EncodeLen.Statement (.chcfgAge x0 x1) := .inl rfl
theorem Laws.EncodeLen.chlen x0 x1 x2 : Laws.EncodeLen.Statement (.chlen x0 x1 x2) := .inl rfl
theorem Laws.EncodeLen.chclr x0 x1 x2 : Laws.EncodeLen.Statement (.chclr x0 x1 x2) := .inl rfl
theorem Laws.EncodeLen.waitc x0 x1 x2 : Laws.EncodeLen.Statement (.waitc x0 x1 x2) := .inl rfl
theorem Laws.EncodeLen.waitcAge x0 x1 x2 : Laws.EncodeLen.Statement (.waitcAge x0 x1 x2) := .inl rfl
theorem Laws.EncodeLen.waitcJoin x0 x1 : Laws.EncodeLen.Statement (.waitcJoin x0 x1) := .inl rfl
theorem Laws.EncodeLen.rdc x0 x1 x2 : Laws.EncodeLen.Statement (.rdc x0 x1 x2) := .inl rfl
theorem Laws.EncodeLen.jadd x0 x1 : Laws.EncodeLen.Statement (.jadd x0 x1) := .inl rfl
theorem Laws.EncodeLen.pcfg x0 x1 : Laws.EncodeLen.Statement (.pcfg x0 x1) := .inl rfl
theorem Laws.EncodeLen.time x0 x1 x2 : Laws.EncodeLen.Statement (.time x0 x1 x2) := .inl rfl
theorem Laws.EncodeLen.cbld x0 x1 : Laws.EncodeLen.Statement (.cbld x0 x1) := .inl rfl
theorem Laws.EncodeLen.alinv x0 x1 x2 : Laws.EncodeLen.Statement (.alinv x0 x1 x2) := .inl rfl
theorem Laws.EncodeLen.attr x0 x1 x2 : Laws.EncodeLen.Statement (.attr x0 x1 x2) := .inl rfl
theorem Laws.EncodeLen.dmapq x0 x1 x2 : Laws.EncodeLen.Statement (.dmapq x0 x1 x2) := .inl rfl
theorem Laws.EncodeLen.wlLaunch x0 x1 : Laws.EncodeLen.Statement (.wlLaunch x0 x1) := .inl rfl
theorem Laws.EncodeLen.wlFence x0 x1 : Laws.EncodeLen.Statement (.wlFence x0 x1) := .inl rfl
theorem Laws.EncodeLen.wlPoll x0 x1 : Laws.EncodeLen.Statement (.wlPoll x0 x1) := .inl rfl
theorem Laws.EncodeLen.wlWait x0 x1 x2 : Laws.EncodeLen.Statement (.wlWait x0 x1 x2) := .inl rfl
theorem Laws.EncodeLen.wlCancel x0 x1 : Laws.EncodeLen.Statement (.wlCancel x0 x1) := .inl rfl
theorem Laws.EncodeLen.wlStatus x0 x1 : Laws.EncodeLen.Statement (.wlStatus x0 x1) := .inl rfl
theorem Laws.EncodeLen.wlPrio x0 x1 x2 : Laws.EncodeLen.Statement (.wlPrio x0 x1 x2) := .inl rfl
theorem Laws.EncodeLen.blockFetch x0 x1 : Laws.EncodeLen.Statement (.blockFetch x0 x1) := .inr rfl
theorem Laws.EncodeLen.returnStackSpill x0 : Laws.EncodeLen.Statement (.returnStackSpill x0) := .inr rfl
theorem Laws.EncodeLen.blockCommit x0 : Laws.EncodeLen.Statement (.blockCommit x0) := .inr rfl
theorem Laws.EncodeLen.faultTake x0 : Laws.EncodeLen.Statement (.faultTake x0) := .inr rfl
theorem Laws.EncodeLen.ochrePacketEnqueue x0 : Laws.EncodeLen.Statement (.ochrePacketEnqueue x0) := .inr rfl
theorem Laws.EncodeLen.ochrePacketRead x0 : Laws.EncodeLen.Statement (.ochrePacketRead x0) := .inr rfl
theorem Laws.EncodeLen.loadReply x0 x1 x2 : Laws.EncodeLen.Statement (.loadReply x0 x1 x2) := .inr rfl
theorem Laws.EncodeLen.atomicPerform x0 x1 x2 : Laws.EncodeLen.Statement (.atomicPerform x0 x1 x2) := .inr rfl
theorem Laws.EncodeLen.hostAtomicCasRetry x0 x1 x2 x3 : Laws.EncodeLen.Statement (.hostAtomicCasRetry x0 x1 x2 x3) := .inr rfl
theorem Laws.EncodeLen.postedStorePerform x0 x1 : Laws.EncodeLen.Statement (.postedStorePerform x0 x1) := .inr rfl
theorem Laws.EncodeLen.relItemPerform x0 x1 : Laws.EncodeLen.Statement (.relItemPerform x0 x1) := .inr rfl
theorem Laws.EncodeLen.storeRetryReoffer x0 x1 : Laws.EncodeLen.Statement (.storeRetryReoffer x0 x1) := .inr rfl
theorem Laws.EncodeLen.replayEntryPerform x0 : Laws.EncodeLen.Statement (.replayEntryPerform x0) := .inr rfl
theorem Laws.EncodeLen.rplcmdReplay x0 : Laws.EncodeLen.Statement (.rplcmdReplay x0) := .inr rfl
theorem Laws.EncodeLen.rplcmdDiscard x0 : Laws.EncodeLen.Statement (.rplcmdDiscard x0) := .inr rfl
theorem Laws.EncodeLen.replayHwmRead x0 : Laws.EncodeLen.Statement (.replayHwmRead x0) := .inr rfl
theorem Laws.EncodeLen.pageWalkComplete x0 x1 x2 : Laws.EncodeLen.Statement (.pageWalkComplete x0 x1 x2) := .inr rfl
theorem Laws.EncodeLen.l1dEviction x0 x1 x2 : Laws.EncodeLen.Statement (.l1dEviction x0 x1 x2) := .inr rfl
theorem Laws.EncodeLen.invalidationComplete : Laws.EncodeLen.Statement (.invalidationComplete) := .inr rfl
theorem Laws.EncodeLen.pageMove x0 x1 x2 : Laws.EncodeLen.Statement (.pageMove x0 x1 x2) := .inr rfl
theorem Laws.EncodeLen.widenReserve x0 : Laws.EncodeLen.Statement (.widenReserve x0) := .inr rfl
theorem Laws.EncodeLen.widenRedistribute x0 : Laws.EncodeLen.Statement (.widenRedistribute x0) := .inr rfl
theorem Laws.EncodeLen.tensorIssue x0 x1 x2 : Laws.EncodeLen.Statement (.tensorIssue x0 x1 x2) := .inr rfl
theorem Laws.EncodeLen.mmaEntryConsume x0 x1 : Laws.EncodeLen.Statement (.mmaEntryConsume x0 x1) := .inr rfl
theorem Laws.EncodeLen.tensorOpComplete x0 x1 : Laws.EncodeLen.Statement (.tensorOpComplete x0 x1) := .inr rfl
theorem Laws.EncodeLen.mstoEntryPush x0 x1 : Laws.EncodeLen.Statement (.mstoEntryPush x0 x1) := .inr rfl
theorem Laws.EncodeLen.matrixNodeModeChange x0 x1 : Laws.EncodeLen.Statement (.matrixNodeModeChange x0 x1) := .inr rfl
theorem Laws.EncodeLen.portEntryDeliver x0 x1 : Laws.EncodeLen.Statement (.portEntryDeliver x0 x1) := .inr rfl
theorem Laws.EncodeLen.portCreditReturn x0 x1 : Laws.EncodeLen.Statement (.portCreditReturn x0 x1) := .inr rfl
theorem Laws.EncodeLen.ageRecordFetch x0 x1 : Laws.EncodeLen.Statement (.ageRecordFetch x0 x1) := .inr rfl
theorem Laws.EncodeLen.ageElementDeliver x0 x1 : Laws.EncodeLen.Statement (.ageElementDeliver x0 x1) := .inr rfl
theorem Laws.EncodeLen.ageElementWrite x0 x1 : Laws.EncodeLen.Statement (.ageElementWrite x0 x1) := .inr rfl
theorem Laws.EncodeLen.ownerPop x0 : Laws.EncodeLen.Statement (.ownerPop x0) := .inr rfl
theorem Laws.EncodeLen.theftRequest x0 : Laws.EncodeLen.Statement (.theftRequest x0) := .inr rfl
theorem Laws.EncodeLen.theftCopyComplete x0 : Laws.EncodeLen.Statement (.theftCopyComplete x0) := .inr rfl
theorem Laws.EncodeLen.theftReply x0 : Laws.EncodeLen.Statement (.theftReply x0) := .inr rfl
theorem Laws.EncodeLen.theftLapWaitExpiry x0 : Laws.EncodeLen.Statement (.theftLapWaitExpiry x0) := .inr rfl
theorem Laws.EncodeLen.poolTakeRetry x0 : Laws.EncodeLen.Statement (.poolTakeRetry x0) := .inr rfl
theorem Laws.EncodeLen.joinWordRead x0 : Laws.EncodeLen.Statement (.joinWordRead x0) := .inr rfl
theorem Laws.EncodeLen.joinSuspend x0 : Laws.EncodeLen.Statement (.joinSuspend x0) := .inr rfl
theorem Laws.EncodeLen.jcountDecrement : Laws.EncodeLen.Statement (.jcountDecrement) := .inr rfl
theorem Laws.EncodeLen.resumeFrameHandoff : Laws.EncodeLen.Statement (.resumeFrameHandoff) := .inr rfl
theorem Laws.EncodeLen.graphComplete x0 : Laws.EncodeLen.Statement (.graphComplete x0) := .inr rfl
theorem Laws.EncodeLen.quiescenceTokenForward x0 : Laws.EncodeLen.Statement (.quiescenceTokenForward x0) := .inr rfl
theorem Laws.EncodeLen.engineKickStart x0 : Laws.EncodeLen.Statement (.engineKickStart x0) := .inr rfl
theorem Laws.EncodeLen.launchPost : Laws.EncodeLen.Statement (.launchPost) := .inr rfl
theorem Laws.EncodeLen.placementDecision : Laws.EncodeLen.Statement (.placementDecision) := .inr rfl
theorem Laws.EncodeLen.launchAgeTick x0 : Laws.EncodeLen.Statement (.launchAgeTick x0) := .inr rfl
theorem Laws.EncodeLen.backfillReserve : Laws.EncodeLen.Statement (.backfillReserve) := .inr rfl
theorem Laws.EncodeLen.timeTriggerSlot x0 : Laws.EncodeLen.Statement (.timeTriggerSlot x0) := .inr rfl
theorem Laws.EncodeLen.launchTableEnable x0 : Laws.EncodeLen.Statement (.launchTableEnable x0) := .inr rfl
theorem Laws.EncodeLen.missedRead x0 : Laws.EncodeLen.Statement (.missedRead x0) := .inr rfl
theorem Laws.EncodeLen.doorbellWrite x0 x1 : Laws.EncodeLen.Statement (.doorbellWrite x0 x1) := .inr rfl
theorem Laws.EncodeLen.launchPageCancel x0 : Laws.EncodeLen.Statement (.launchPageCancel x0) := .inr rfl
theorem Laws.EncodeLen.launchPagePrioset x0 x1 : Laws.EncodeLen.Statement (.launchPagePrioset x0 x1) := .inr rfl
theorem Laws.EncodeLen.lasterrRead x0 : Laws.EncodeLen.Statement (.lasterrRead x0) := .inr rfl
theorem Laws.EncodeLen.tinvInvalidate x0 : Laws.EncodeLen.Statement (.tinvInvalidate x0) := .inr rfl
theorem Laws.EncodeLen.peSwapOut x0 : Laws.EncodeLen.Statement (.peSwapOut x0) := .inr rfl
theorem Laws.EncodeLen.pePreloadShadow x0 : Laws.EncodeLen.Statement (.pePreloadShadow x0) := .inr rfl
theorem Laws.EncodeLen.peClockStop x0 : Laws.EncodeLen.Statement (.peClockStop x0) := .inr rfl
theorem Laws.EncodeLen.peDrainIvory x0 : Laws.EncodeLen.Statement (.peDrainIvory x0) := .inr rfl
theorem Laws.EncodeLen.peRestoreSepia x0 : Laws.EncodeLen.Statement (.peRestoreSepia x0) := .inr rfl
theorem Laws.EncodeLen.peRestoreIvory x0 : Laws.EncodeLen.Statement (.peRestoreIvory x0) := .inr rfl
theorem Laws.EncodeLen.shadowSwap x0 : Laws.EncodeLen.Statement (.shadowSwap x0) := .inr rfl
theorem Laws.EncodeLen.streamerWriteOut x0 : Laws.EncodeLen.Statement (.streamerWriteOut x0) := .inr rfl
theorem Laws.EncodeLen.scratchPageExchange x0 x1 : Laws.EncodeLen.Statement (.scratchPageExchange x0 x1) := .inr rfl
theorem Laws.EncodeLen.arrivalLogAppend x0 : Laws.EncodeLen.Statement (.arrivalLogAppend x0) := .inr rfl
theorem Laws.EncodeLen.heldMessageReoffer : Laws.EncodeLen.Statement (.heldMessageReoffer) := .inr rfl
theorem Laws.EncodeLen.drainComplete : Laws.EncodeLen.Statement (.drainComplete) := .inr rfl
theorem Laws.EncodeLen.drainLimitExpiry : Laws.EncodeLen.Statement (.drainLimitExpiry) := .inr rfl
theorem Laws.EncodeLen.dbgResume x0 : Laws.EncodeLen.Statement (.dbgResume x0) := .inr rfl
theorem Laws.EncodeLen.dbgReexecute x0 : Laws.EncodeLen.Statement (.dbgReexecute x0) := .inr rfl
theorem Laws.EncodeLen.dbgEndContext x0 : Laws.EncodeLen.Statement (.dbgEndContext x0) := .inr rfl
theorem Laws.EncodeLen.dbgHalt x0 : Laws.EncodeLen.Statement (.dbgHalt x0) := .inr rfl
theorem Laws.EncodeLen.dbgStep x0 : Laws.EncodeLen.Statement (.dbgStep x0) := .inr rfl
theorem Laws.EncodeLen.dbgResolve x0 x1 x2 : Laws.EncodeLen.Statement (.dbgResolve x0 x1 x2) := .inr rfl
theorem Laws.EncodeLen.dbgThaltWrite x0 x1 : Laws.EncodeLen.Statement (.dbgThaltWrite x0 x1) := .inr rfl
theorem Laws.EncodeLen.dbgInject x0 x1 : Laws.EncodeLen.Statement (.dbgInject x0 x1) := .inr rfl
theorem Laws.EncodeLen.dbgRegisterWrite x0 x1 x2 x3 : Laws.EncodeLen.Statement (.dbgRegisterWrite x0 x1 x2 x3) := .inr rfl
theorem Laws.EncodeLen.portControlWrite x0 x1 x2 : Laws.EncodeLen.Statement (.portControlWrite x0 x1 x2) := .inr rfl
theorem Laws.EncodeLen.engineResume x0 : Laws.EncodeLen.Statement (.engineResume x0) := .inr rfl
theorem Laws.EncodeLen.engineReexecute x0 : Laws.EncodeLen.Statement (.engineReexecute x0) := .inr rfl
theorem Laws.EncodeLen.engineReturnIdle x0 : Laws.EncodeLen.Statement (.engineReturnIdle x0) := .inr rfl
theorem Laws.EncodeLen.ageResume x0 x1 : Laws.EncodeLen.Statement (.ageResume x0 x1) := .inr rfl
theorem Laws.EncodeLen.ageStop x0 x1 : Laws.EncodeLen.Statement (.ageStop x0 x1) := .inr rfl
theorem Laws.EncodeLen.watchArm x0 x1 : Laws.EncodeLen.Statement (.watchArm x0 x1) := .inr rfl
theorem Laws.EncodeLen.watchDisarm x0 x1 : Laws.EncodeLen.Statement (.watchDisarm x0 x1) := .inr rfl
theorem Laws.EncodeLen.traceGapRecord x0 : Laws.EncodeLen.Statement (.traceGapRecord x0) := .inr rfl
theorem Laws.EncodeLen.registerWrite x0 x1 x2 : Laws.EncodeLen.Statement (.registerWrite x0 x1 x2) := .inr rfl
theorem Laws.EncodeLen.islandPointChange x0 : Laws.EncodeLen.Statement (.islandPointChange x0) := .inr rfl
theorem Laws.EncodeLen.powerSample x0 : Laws.EncodeLen.Statement (.powerSample x0) := .inr rfl
theorem Laws.EncodeLen.valarmCountRead : Laws.EncodeLen.Statement (.valarmCountRead) := .inr rfl
theorem Laws.EncodeLen.islandCapStep x0 : Laws.EncodeLen.Statement (.islandCapStep x0) := .inr rfl
theorem Laws.EncodeLen.junctionOvertemp x0 : Laws.EncodeLen.Statement (.junctionOvertemp x0) := .inr rfl
theorem Laws.EncodeLen.ptpMessage x0 : Laws.EncodeLen.Statement (.ptpMessage x0) := .inr rfl
theorem Laws.EncodeLen.ptpHoldoverTimeout : Laws.EncodeLen.Statement (.ptpHoldoverTimeout) := .inr rfl
theorem Laws.EncodeLen.functionReady x0 : Laws.EncodeLen.Statement (.functionReady x0) := .inr rfl
theorem Laws.EncodeLen.dumpvClear : Laws.EncodeLen.Statement (.dumpvClear) := .inr rfl
theorem Laws.EncodeLen.deviceReset : Laws.EncodeLen.Statement (.deviceReset) := .inr rfl
theorem Laws.EncodeLen.machineCheck x0 x1 : Laws.EncodeLen.Statement (.machineCheck x0 x1) := .inr rfl
theorem Laws.EncodeLen.watchdogExpiry : Laws.EncodeLen.Statement (.watchdogExpiry) := .inr rfl
theorem Laws.EncodeLen.firmwareUpdate x0 : Laws.EncodeLen.Statement (.firmwareUpdate x0) := .inr rfl
theorem Laws.EncodeLen.decodeMapLoad x0 : Laws.EncodeLen.Statement (.decodeMapLoad x0) := .inr rfl
theorem Laws.EncodeLen.keyInstall x0 : Laws.EncodeLen.Statement (.keyInstall x0) := .inr rfl
theorem Laws.EncodeLen.objectLoad x0 x1 x2 x3 : Laws.EncodeLen.Statement (.objectLoad x0 x1 x2 x3) := .inr rfl
theorem Laws.EncodeLen.objectUnload x0 x1 x2 : Laws.EncodeLen.Statement (.objectUnload x0 x1 x2) := .inr rfl
theorem Laws.EncodeLen.atsTranslationCompletion x0 x1 x2 x3 : Laws.EncodeLen.Statement (.atsTranslationCompletion x0 x1 x2 x3) := .inr rfl
theorem Laws.EncodeLen.priResponse x0 x1 x2 : Laws.EncodeLen.Statement (.priResponse x0 x1 x2) := .inr rfl
theorem Laws.EncodeLen.atsInvalidation x0 x1 x2 : Laws.EncodeLen.Statement (.atsInvalidation x0 x1 x2) := .inr rfl
theorem Laws.EncodeLen.completionTimeout x0 x1 x2 : Laws.EncodeLen.Statement (.completionTimeout x0 x1 x2) := .inr rfl
theorem Laws.EncodeLen.hostApertureAccess x0 x1 x2 x3 : Laws.EncodeLen.Statement (.hostApertureAccess x0 x1 x2 x3) := .inr rfl
theorem Laws.EncodeLen.peerAccess x0 x1 x2 : Laws.EncodeLen.Statement (.peerAccess x0 x1 x2) := .inr rfl
theorem Laws.EncodeLen.backInvalidateResponse x0 : Laws.EncodeLen.Statement (.backInvalidateResponse x0) := .inr rfl
theorem Laws.EncodeLen.ringEnable x0 x1 : Laws.EncodeLen.Statement (.ringEnable x0 x1) := .inr rfl
theorem Laws.EncodeLen.ringEntryTake x0 x1 : Laws.EncodeLen.Statement (.ringEntryTake x0 x1) := .inr rfl
theorem Laws.EncodeLen.networkEntryComplete x0 x1 : Laws.EncodeLen.Statement (.networkEntryComplete x0 x1) := .inr rfl
theorem Laws.EncodeLen.networkPacketReceive x0 x1 x2 x3 : Laws.EncodeLen.Statement (.networkPacketReceive x0 x1 x2 x3) := .inr rfl
theorem Laws.EncodeLen.mgOpenSource x0 : Laws.EncodeLen.Statement (.mgOpenSource x0) := .inr rfl
theorem Laws.EncodeLen.mgOpenTarget x0 : Laws.EncodeLen.Statement (.mgOpenTarget x0) := .inr rfl
theorem Laws.EncodeLen.mgFinalStop x0 : Laws.EncodeLen.Statement (.mgFinalStop x0) := .inr rfl
theorem Laws.EncodeLen.mgAbort x0 : Laws.EncodeLen.Statement (.mgAbort x0) := .inr rfl
theorem Laws.EncodeLen.mgClose x0 : Laws.EncodeLen.Statement (.mgClose x0) := .inr rfl
theorem Laws.EncodeLen.mgKeyExchange x0 x1 : Laws.EncodeLen.Statement (.mgKeyExchange x0 x1) := .inr rfl
theorem Laws.EncodeLen.mgRound x0 : Laws.EncodeLen.Statement (.mgRound x0) := .inr rfl
theorem Laws.EncodeLen.mgDeadline x0 : Laws.EncodeLen.Statement (.mgDeadline x0) := .inr rfl
theorem Laws.EncodeLen.mgPageReceive x0 x1 x2 x3 x4 x5 : Laws.EncodeLen.Statement (.mgPageReceive x0 x1 x2 x3 x4 x5) := .inr rfl
theorem Laws.EncodeLen.mgRoundendReceive x0 x1 x2 x3 x4 : Laws.EncodeLen.Statement (.mgRoundendReceive x0 x1 x2 x3 x4) := .inr rfl
theorem Laws.EncodeLen.mgIvoryReceive x0 x1 x2 x3 x4 : Laws.EncodeLen.Statement (.mgIvoryReceive x0 x1 x2 x3 x4) := .inr rfl
theorem Laws.EncodeLen.mgFinalReceive x0 x1 x2 x3 x4 : Laws.EncodeLen.Statement (.mgFinalReceive x0 x1 x2 x3 x4) := .inr rfl
theorem Laws.EncodeLen.mgReadyReceive x0 x1 x2 : Laws.EncodeLen.Statement (.mgReadyReceive x0 x1 x2) := .inr rfl
theorem Laws.EncodeLen.mgGoReceive x0 x1 x2 : Laws.EncodeLen.Statement (.mgGoReceive x0 x1 x2) := .inr rfl
theorem Laws.EncodeLen.mgAbortReceive x0 x1 x2 x3 : Laws.EncodeLen.Statement (.mgAbortReceive x0 x1 x2 x3) := .inr rfl
theorem Laws.EncodeLen.mgLinkFailure x0 : Laws.EncodeLen.Statement (.mgLinkFailure x0) := .inr rfl
theorem Laws.EncodeLen.riscVCoreAccess x0 x1 x2 x3 : Laws.EncodeLen.Statement (.riscVCoreAccess x0 x1 x2 x3) := .inr rfl
theorem Laws.EncodeLen.minresExpiry x0 : Laws.EncodeLen.Statement (.minresExpiry x0) := .inr rfl
theorem Laws.EncodeLen.wlWaitDeadline x0 : Laws.EncodeLen.Statement (.wlWaitDeadline x0) := .inr rfl
theorem Laws.EncodeLen.dequeSpillResume x0 : Laws.EncodeLen.Statement (.dequeSpillResume x0) := .inr rfl
theorem Laws.EncodeLen.ringResume x0 x1 : Laws.EncodeLen.Statement (.ringResume x0 x1) := .inr rfl
theorem Laws.EncodeLen.migrationEngineResume x0 : Laws.EncodeLen.Statement (.migrationEngineResume x0) := .inr rfl
theorem Laws.EncodeLen.cxlCacheSnoop x0 x1 : Laws.EncodeLen.Statement (.cxlCacheSnoop x0 x1) := .inr rfl
theorem Laws.EncodeLen.memorySoftError x0 x1 : Laws.EncodeLen.Statement (.memorySoftError x0 x1) := .inr rfl

end Sys2Proof
end

