-- ==== Sys2Proof/Laws/Shape.lean ====
section
/-! SUPPORT. The shape of every instruction of a block, said once: it fires with the form that the opcode table gives it, and its effect stays within the blocks in flight of its core. -/
namespace Sys2Proof.Machine

/-- The committed state of a core: all but its blocks in flight, its performance counters, trace copies and counts of violations. -/
def Hart.settledPart (h : Hart) : Hart := { h with blocks := [], pcnt := [], trace := [], traceLost := 0, violated := [] }

/-- An effect of a firing that leaves the committed state of the core. -/
def Framed (g : Hart → Block → Token → Token → Hart) : Prop := ∀ h b l r, (g h b l r).settledPart = h.settledPart

theorem framed_onBlock (k : Hart → Block → Token → Token → Block) : Framed (onBlock k) := fun _ _ _ _ => rfl

theorem settledPart_count (h : Hart) (e n : Nat) : (h.count e n).settledPart = h.settledPart := by
  unfold Hart.count; split <;> rfl

theorem settledPart_violate (f : Nat → Dbl → Nat × Dbl) (h : Hart) (tag zone : Nat) (va : Dbl) (n : Nat) :
    (h.violate f tag zone va n).settledPart = h.settledPart := by
  unfold Hart.violate
  split
  · rfl
  · rename_i b _
    show ((h.count 3 _).count 4 1).settledPart = _
    rw [settledPart_count, settledPart_count]

/-- Resolved values going forward, and a wrong path going, leave the committed state. -/
theorem settledPart_forward (h : Hart) : h.forward.settledPart = h.settledPart := by
  unfold Hart.forward
  split
  · rfl
  · exact settledPart_count ({ h with blocks := forwardFrom h [] h.blocks } : Hart) 3 _

theorem framed_issue (d : Dev) (hn : Nat) (h : Hart) (b : Block) (kind : Nat) (ps : List Probe) (r : Req) :
    (issue d hn h b kind ps r).settledPart = h.settledPart := by
  unfold issue; split <;> rfl

theorem framed_hold (s : State) (hn : Nat) (h : Hart) (b : Block) (idx lsid : Nat) (ps : List Probe) (ts : List St) :
    (holdStores s hn h b idx lsid ps ts).settledPart = h.settledPart := by
  unfold holdStores
  split
  · rfl
  · have key : ∀ (ts : List St) (k : Hart), (ts.foldl (fun h t =>
        h.violate (s.namesOf hn) b.tag t.zone t.va t.size) k).settledPart = k.settledPart := by
      intro ts
      induction ts with
      | nil => intro k; rfl
      | cons t ts ih =>
        intro k
        rw [List.foldl_cons, ih]
        exact settledPart_violate _ _ _ _ _ _
    dsimp only
    rw [key]
    rfl

/-- What a memory instruction's effect must be, zone by zone. -/
def FramedZ (g : Nat → Hart → Block → Token → Token → Hart) : Prop := ∀ z, Framed (g z)

theorem settledPart_fire (h : Hart) (c : Focus) (f : Form) {g : Hart → Block → Token → Token → Hart} (hg : Framed g) :
    (h.fire c f g).settledPart = h.settledPart := by
  have hp : ∀ (k : Hart) (b : Block), (k.putBlock b).settledPart = k.settledPart := fun k b => rfl
  have hg' : ∀ k b l r, (g k b l r).settledPart = k.settledPart := hg
  unfold Hart.fire
  dsimp only
  repeat' split
  all_goals first | rfl | simp only [settledPart_forward, hg', hp, settledPart_count]

theorem settledPart_traced (h k : Hart) (p : Option (Nat × Nat)) : (h.traced k p).settledPart = k.settledPart := by
  unfold Hart.traced; split <;> rfl

/-- A firing with such an effect changes nothing but the firing core's blocks in flight. -/
theorem State.fire_frame (s : State) (f : Form) {g : Hart → Block → Token → Token → Hart} (hg : Framed g) :
    ∃ h, s.fire f g = s.setHart s.dev.focus.hart h ∧ h.settledPart = (s.hart s.dev.focus.hart).settledPart :=
  ⟨_, rfl, by rw [settledPart_traced, settledPart_fire _ _ _ hg]⟩

theorem exec_br x0 x1 x2 s : ∃ g, Framed g ∧ exec (.br x0 x1 x2) s = .next (s.fire (formOf (.br x0 x1 x2) false) g) :=
  ⟨_, framed_onBlock _, show execBr x0 x1 x2 s = _ from rfl⟩
theorem exec_call x0 x1 x2 s : ∃ g, Framed g ∧ exec (.call x0 x1 x2) s = .next (s.fire (formOf (.call x0 x1 x2) true) g) :=
  ⟨_, framed_onBlock _, show execCall x0 x1 x2 s = _ from rfl⟩
theorem exec_bri x0 s : ∃ g, Framed g ∧ exec (.bri x0) s = .next (s.fire (formOf (.bri x0) false) g) :=
  ⟨_, framed_onBlock _, show execBri x0 s = _ from rfl⟩
theorem exec_calli x0 s : ∃ g, Framed g ∧ exec (.calli x0) s = .next (s.fire (formOf (.calli x0) true) g) :=
  ⟨_, framed_onBlock _, show execCalli x0 s = _ from rfl⟩
theorem exec_ret x0 s : ∃ g, Framed g ∧ exec (.ret x0) s = .next (s.fire (formOf (.ret x0) true) g) :=
  ⟨_, framed_onBlock _, show execRet x0 s = _ from rfl⟩
theorem exec_scall x0 s : ∃ g, Framed g ∧ exec (.scall x0) s = .next (s.fire (formOf (.scall x0) false) g) :=
  ⟨_, framed_onBlock _, show execScall x0 s = _ from rfl⟩
theorem exec_brk x0 s : ∃ g, Framed g ∧ exec (.brk x0) s = .next (s.fire (formOf (.brk x0) false) g) :=
  ⟨_, framed_onBlock _, show execBrk x0 s = _ from rfl⟩
theorem exec_trap x0 s : ∃ g, Framed g ∧ exec (.trap x0) s = .next (s.fire (formOf (.trap x0) false) g) :=
  ⟨_, framed_onBlock _, show execTrap x0 s = _ from rfl⟩
theorem exec_mov x0 x1 x2 s : ∃ g, Framed g ∧ exec (.mov x0 x1 x2) s = .next (s.fire (formOf (.mov x0 x1 x2) false) g) :=
  ⟨_, framed_onBlock _, show execMov x0 x1 x2 s = _ from rfl⟩
theorem exec_null x0 x1 x2 s : ∃ g, Framed g ∧ exec (.null x0 x1 x2) s = .next (s.fire (formOf (.null x0 x1 x2) false) g) :=
  ⟨_, framed_onBlock _, show execNull x0 x1 x2 s = _ from rfl⟩
theorem exec_pair x0 x1 x2 s : ∃ g, Framed g ∧ exec (.pair x0 x1 x2) s = .next (s.fire (formOf (.pair x0 x1 x2) false) g) :=
  ⟨_, framed_onBlock _, show execPair x0 x1 x2 s = _ from rfl⟩
theorem exec_plo x0 x1 x2 s : ∃ g, Framed g ∧ exec (.plo x0 x1 x2) s = .next (s.fire (formOf (.plo x0 x1 x2) false) g) :=
  ⟨_, framed_onBlock _, show execPlo x0 x1 x2 s = _ from rfl⟩
theorem exec_phi x0 x1 x2 s : ∃ g, Framed g ∧ exec (.phi x0 x1 x2) s = .next (s.fire (formOf (.phi x0 x1 x2) false) g) :=
  ⟨_, framed_onBlock _, show execPhi x0 x1 x2 s = _ from rfl⟩
theorem exec_const x0 x1 x2 s : ∃ g, Framed g ∧ exec (.const x0 x1 x2) s = .next (s.fire (formOf (.const x0 x1 x2) false) g) :=
  ⟨_, framed_onBlock _, show execConst x0 x1 x2 s = _ from rfl⟩
theorem exec_app x0 x1 x2 s : ∃ g, Framed g ∧ exec (.app x0 x1 x2) s = .next (s.fire (formOf (.app x0 x1 x2) false) g) :=
  ⟨_, framed_onBlock _, show execApp x0 x1 x2 s = _ from rfl⟩
theorem exec_rdsys x0 x1 x2 (s : State) : ∃ g s0, Framed g ∧ (s0 = s ∨ (x1 = 10 ∧ s0 = s.ticked)) ∧
    exec (.rdsys x0 x1 x2) s = .next (s0.fire (formOf (.rdsys x0 x1 x2) true) g) := by
  refine ⟨_, _, framed_onBlock _, ?_, show execRdsys x0 x1 x2 s = _ from rfl⟩
  split
  · rename_i h; exact .inr ⟨h.1, rfl⟩
  · exact .inl rfl
theorem exec_wrsys x0 x1 x2 s : ∃ g, Framed g ∧ exec (.wrsys x0 x1 x2) s = .next (s.fire (formOf (.wrsys x0 x1 x2) true) g) :=
  ⟨_, framed_onBlock _, show execWrsys x0 x1 x2 s = _ from rfl⟩
theorem exec_add x0 x1 x2 x3 s : ∃ g, Framed g ∧ exec (.add x0 x1 x2 x3) s = .next (s.fire (formOf (.add x0 x1 x2 x3) false) g) :=
  ⟨_, framed_onBlock _, show execAdd x0 x1 x2 x3 s = _ from rfl⟩
theorem exec_sub x0 x1 x2 x3 s : ∃ g, Framed g ∧ exec (.sub x0 x1 x2 x3) s = .next (s.fire (formOf (.sub x0 x1 x2 x3) false) g) :=
  ⟨_, framed_onBlock _, show execSub x0 x1 x2 x3 s = _ from rfl⟩
theorem exec_mul x0 x1 x2 x3 s : ∃ g, Framed g ∧ exec (.mul x0 x1 x2 x3) s = .next (s.fire (formOf (.mul x0 x1 x2 x3) false) g) :=
  ⟨_, framed_onBlock _, show execMul x0 x1 x2 x3 s = _ from rfl⟩
theorem exec_mulh x0 x1 x2 x3 s : ∃ g, Framed g ∧ exec (.mulh x0 x1 x2 x3) s = .next (s.fire (formOf (.mulh x0 x1 x2 x3) false) g) :=
  ⟨_, framed_onBlock _, show execMulh x0 x1 x2 x3 s = _ from rfl⟩
theorem exec_mulhn x0 x1 x2 x3 s : ∃ g, Framed g ∧ exec (.mulhn x0 x1 x2 x3) s = .next (s.fire (formOf (.mulhn x0 x1 x2 x3) false) g) :=
  ⟨_, framed_onBlock _, show execMulhn x0 x1 x2 x3 s = _ from rfl⟩
theorem exec_mulhsn x0 x1 x2 x3 s : ∃ g, Framed g ∧ exec (.mulhsn x0 x1 x2 x3) s = .next (s.fire (formOf (.mulhsn x0 x1 x2 x3) false) g) :=
  ⟨_, framed_onBlock _, show execMulhsn x0 x1 x2 x3 s = _ from rfl⟩
theorem exec_div x0 x1 x2 x3 s : ∃ g, Framed g ∧ exec (.div x0 x1 x2 x3) s = .next (s.fire (formOf (.div x0 x1 x2 x3) false) g) :=
  ⟨_, framed_onBlock _, show execDiv x0 x1 x2 x3 s = _ from rfl⟩
theorem exec_divn x0 x1 x2 x3 s : ∃ g, Framed g ∧ exec (.divn x0 x1 x2 x3) s = .next (s.fire (formOf (.divn x0 x1 x2 x3) false) g) :=
  ⟨_, framed_onBlock _, show execDivn x0 x1 x2 x3 s = _ from rfl⟩
theorem exec_rem x0 x1 x2 x3 s : ∃ g, Framed g ∧ exec (.rem x0 x1 x2 x3) s = .next (s.fire (formOf (.rem x0 x1 x2 x3) false) g) :=
  ⟨_, framed_onBlock _, show execRem x0 x1 x2 x3 s = _ from rfl⟩
theorem exec_remn x0 x1 x2 x3 s : ∃ g, Framed g ∧ exec (.remn x0 x1 x2 x3) s = .next (s.fire (formOf (.remn x0 x1 x2 x3) false) g) :=
  ⟨_, framed_onBlock _, show execRemn x0 x1 x2 x3 s = _ from rfl⟩
theorem exec_min x0 x1 x2 x3 s : ∃ g, Framed g ∧ exec (.min x0 x1 x2 x3) s = .next (s.fire (formOf (.min x0 x1 x2 x3) false) g) :=
  ⟨_, framed_onBlock _, show execMin x0 x1 x2 x3 s = _ from rfl⟩
theorem exec_max x0 x1 x2 x3 s : ∃ g, Framed g ∧ exec (.max x0 x1 x2 x3) s = .next (s.fire (formOf (.max x0 x1 x2 x3) false) g) :=
  ⟨_, framed_onBlock _, show execMax x0 x1 x2 x3 s = _ from rfl⟩
theorem exec_minn x0 x1 x2 x3 s : ∃ g, Framed g ∧ exec (.minn x0 x1 x2 x3) s = .next (s.fire (formOf (.minn x0 x1 x2 x3) false) g) :=
  ⟨_, framed_onBlock _, show execMinn x0 x1 x2 x3 s = _ from rfl⟩
theorem exec_maxn x0 x1 x2 x3 s : ∃ g, Framed g ∧ exec (.maxn x0 x1 x2 x3) s = .next (s.fire (formOf (.maxn x0 x1 x2 x3) false) g) :=
  ⟨_, framed_onBlock _, show execMaxn x0 x1 x2 x3 s = _ from rfl⟩
theorem exec_and x0 x1 x2 x3 s : ∃ g, Framed g ∧ exec (.and x0 x1 x2 x3) s = .next (s.fire (formOf (.and x0 x1 x2 x3) false) g) :=
  ⟨_, framed_onBlock _, show execAnd x0 x1 x2 x3 s = _ from rfl⟩
theorem exec_or x0 x1 x2 x3 s : ∃ g, Framed g ∧ exec (.or x0 x1 x2 x3) s = .next (s.fire (formOf (.or x0 x1 x2 x3) false) g) :=
  ⟨_, framed_onBlock _, show execOr x0 x1 x2 x3 s = _ from rfl⟩
theorem exec_xor x0 x1 x2 x3 s : ∃ g, Framed g ∧ exec (.xor x0 x1 x2 x3) s = .next (s.fire (formOf (.xor x0 x1 x2 x3) false) g) :=
  ⟨_, framed_onBlock _, show execXor x0 x1 x2 x3 s = _ from rfl⟩
theorem exec_andn x0 x1 x2 x3 s : ∃ g, Framed g ∧ exec (.andn x0 x1 x2 x3) s = .next (s.fire (formOf (.andn x0 x1 x2 x3) false) g) :=
  ⟨_, framed_onBlock _, show execAndn x0 x1 x2 x3 s = _ from rfl⟩
theorem exec_orn x0 x1 x2 x3 s : ∃ g, Framed g ∧ exec (.orn x0 x1 x2 x3) s = .next (s.fire (formOf (.orn x0 x1 x2 x3) false) g) :=
  ⟨_, framed_onBlock _, show execOrn x0 x1 x2 x3 s = _ from rfl⟩
theorem exec_xnor x0 x1 x2 x3 s : ∃ g, Framed g ∧ exec (.xnor x0 x1 x2 x3) s = .next (s.fire (formOf (.xnor x0 x1 x2 x3) false) g) :=
  ⟨_, framed_onBlock _, show execXnor x0 x1 x2 x3 s = _ from rfl⟩
theorem exec_shl x0 x1 x2 x3 s : ∃ g, Framed g ∧ exec (.shl x0 x1 x2 x3) s = .next (s.fire (formOf (.shl x0 x1 x2 x3) false) g) :=
  ⟨_, framed_onBlock _, show execShl x0 x1 x2 x3 s = _ from rfl⟩
theorem exec_shr x0 x1 x2 x3 s : ∃ g, Framed g ∧ exec (.shr x0 x1 x2 x3) s = .next (s.fire (formOf (.shr x0 x1 x2 x3) false) g) :=
  ⟨_, framed_onBlock _, show execShr x0 x1 x2 x3 s = _ from rfl⟩
theorem exec_shra x0 x1 x2 x3 s : ∃ g, Framed g ∧ exec (.shra x0 x1 x2 x3) s = .next (s.fire (formOf (.shra x0 x1 x2 x3) false) g) :=
  ⟨_, framed_onBlock _, show execShra x0 x1 x2 x3 s = _ from rfl⟩
theorem exec_rol x0 x1 x2 x3 s : ∃ g, Framed g ∧ exec (.rol x0 x1 x2 x3) s = .next (s.fire (formOf (.rol x0 x1 x2 x3) false) g) :=
  ⟨_, framed_onBlock _, show execRol x0 x1 x2 x3 s = _ from rfl⟩
theorem exec_ror x0 x1 x2 x3 s : ∃ g, Framed g ∧ exec (.ror x0 x1 x2 x3) s = .next (s.fire (formOf (.ror x0 x1 x2 x3) false) g) :=
  ⟨_, framed_onBlock _, show execRor x0 x1 x2 x3 s = _ from rfl⟩
theorem exec_clz x0 x1 x2 x3 s : ∃ g, Framed g ∧ exec (.clz x0 x1 x2 x3) s = .next (s.fire (formOf (.clz x0 x1 x2 x3) false) g) :=
  ⟨_, framed_onBlock _, show execClz x0 x1 x2 x3 s = _ from rfl⟩
theorem exec_ctz x0 x1 x2 x3 s : ∃ g, Framed g ∧ exec (.ctz x0 x1 x2 x3) s = .next (s.fire (formOf (.ctz x0 x1 x2 x3) false) g) :=
  ⟨_, framed_onBlock _, show execCtz x0 x1 x2 x3 s = _ from rfl⟩
theorem exec_popc x0 x1 x2 x3 s : ∃ g, Framed g ∧ exec (.popc x0 x1 x2 x3) s = .next (s.fire (formOf (.popc x0 x1 x2 x3) false) g) :=
  ⟨_, framed_onBlock _, show execPopc x0 x1 x2 x3 s = _ from rfl⟩
theorem exec_brev x0 x1 x2 x3 s : ∃ g, Framed g ∧ exec (.brev x0 x1 x2 x3) s = .next (s.fire (formOf (.brev x0 x1 x2 x3) false) g) :=
  ⟨_, framed_onBlock _, show execBrev x0 x1 x2 x3 s = _ from rfl⟩
theorem exec_bswp x0 x1 x2 x3 s : ∃ g, Framed g ∧ exec (.bswp x0 x1 x2 x3) s = .next (s.fire (formOf (.bswp x0 x1 x2 x3) false) g) :=
  ⟨_, framed_onBlock _, show execBswp x0 x1 x2 x3 s = _ from rfl⟩
theorem exec_neg x0 x1 x2 x3 s : ∃ g, Framed g ∧ exec (.neg x0 x1 x2 x3) s = .next (s.fire (formOf (.neg x0 x1 x2 x3) false) g) :=
  ⟨_, framed_onBlock _, show execNeg x0 x1 x2 x3 s = _ from rfl⟩
theorem exec_abs x0 x1 x2 x3 s : ∃ g, Framed g ∧ exec (.abs x0 x1 x2 x3) s = .next (s.fire (formOf (.abs x0 x1 x2 x3) false) g) :=
  ⟨_, framed_onBlock _, show execAbs x0 x1 x2 x3 s = _ from rfl⟩
theorem exec_not x0 x1 x2 x3 s : ∃ g, Framed g ∧ exec (.not x0 x1 x2 x3) s = .next (s.fire (formOf (.not x0 x1 x2 x3) false) g) :=
  ⟨_, framed_onBlock _, show execNot x0 x1 x2 x3 s = _ from rfl⟩
theorem exec_sextb x0 x1 x2 x3 s : ∃ g, Framed g ∧ exec (.sextb x0 x1 x2 x3) s = .next (s.fire (formOf (.sextb x0 x1 x2 x3) false) g) :=
  ⟨_, framed_onBlock _, show execSextb x0 x1 x2 x3 s = _ from rfl⟩
theorem exec_sexth x0 x1 x2 x3 s : ∃ g, Framed g ∧ exec (.sexth x0 x1 x2 x3) s = .next (s.fire (formOf (.sexth x0 x1 x2 x3) false) g) :=
  ⟨_, framed_onBlock _, show execSexth x0 x1 x2 x3 s = _ from rfl⟩
theorem exec_sextw x0 x1 x2 s : ∃ g, Framed g ∧ exec (.sextw x0 x1 x2) s = .next (s.fire (formOf (.sextw x0 x1 x2) false) g) :=
  ⟨_, framed_onBlock _, show execSextw x0 x1 x2 s = _ from rfl⟩
theorem exec_zextb x0 x1 x2 x3 s : ∃ g, Framed g ∧ exec (.zextb x0 x1 x2 x3) s = .next (s.fire (formOf (.zextb x0 x1 x2 x3) false) g) :=
  ⟨_, framed_onBlock _, show execZextb x0 x1 x2 x3 s = _ from rfl⟩
theorem exec_zexth x0 x1 x2 x3 s : ∃ g, Framed g ∧ exec (.zexth x0 x1 x2 x3) s = .next (s.fire (formOf (.zexth x0 x1 x2 x3) false) g) :=
  ⟨_, framed_onBlock _, show execZexth x0 x1 x2 x3 s = _ from rfl⟩
theorem exec_zextw x0 x1 x2 s : ∃ g, Framed g ∧ exec (.zextw x0 x1 x2) s = .next (s.fire (formOf (.zextw x0 x1 x2) false) g) :=
  ⟨_, framed_onBlock _, show execZextw x0 x1 x2 s = _ from rfl⟩
theorem exec_bfx x0 x1 x2 x3 s : ∃ g, Framed g ∧ exec (.bfx x0 x1 x2 x3) s = .next (s.fire (formOf (.bfx x0 x1 x2 x3) false) g) :=
  ⟨_, framed_onBlock _, show execBfx x0 x1 x2 x3 s = _ from rfl⟩
theorem exec_bfxs x0 x1 x2 x3 s : ∃ g, Framed g ∧ exec (.bfxs x0 x1 x2 x3) s = .next (s.fire (formOf (.bfxs x0 x1 x2 x3) false) g) :=
  ⟨_, framed_onBlock _, show execBfxs x0 x1 x2 x3 s = _ from rfl⟩
theorem exec_bfi x0 x1 x2 x3 s : ∃ g, Framed g ∧ exec (.bfi x0 x1 x2 x3) s = .next (s.fire (formOf (.bfi x0 x1 x2 x3) false) g) :=
  ⟨_, framed_onBlock _, show execBfi x0 x1 x2 x3 s = _ from rfl⟩
theorem exec_lea x0 x1 x2 x3 x4 s : ∃ g, Framed g ∧ exec (.lea x0 x1 x2 x3 x4) s = .next (s.fire (formOf (.lea x0 x1 x2 x3 x4) false) g) :=
  ⟨_, framed_onBlock _, show execLea x0 x1 x2 x3 x4 s = _ from rfl⟩
theorem exec_addi x0 x1 x2 x3 s : ∃ g, Framed g ∧ exec (.addi x0 x1 x2 x3) s = .next (s.fire (formOf (.addi x0 x1 x2 x3) false) g) :=
  ⟨_, framed_onBlock _, show execAddi x0 x1 x2 x3 s = _ from rfl⟩
theorem exec_muli x0 x1 x2 x3 s : ∃ g, Framed g ∧ exec (.muli x0 x1 x2 x3) s = .next (s.fire (formOf (.muli x0 x1 x2 x3) false) g) :=
  ⟨_, framed_onBlock _, show execMuli x0 x1 x2 x3 s = _ from rfl⟩
theorem exec_andi x0 x1 x2 x3 s : ∃ g, Framed g ∧ exec (.andi x0 x1 x2 x3) s = .next (s.fire (formOf (.andi x0 x1 x2 x3) false) g) :=
  ⟨_, framed_onBlock _, show execAndi x0 x1 x2 x3 s = _ from rfl⟩
theorem exec_ori x0 x1 x2 x3 s : ∃ g, Framed g ∧ exec (.ori x0 x1 x2 x3) s = .next (s.fire (formOf (.ori x0 x1 x2 x3) false) g) :=
  ⟨_, framed_onBlock _, show execOri x0 x1 x2 x3 s = _ from rfl⟩
theorem exec_xori x0 x1 x2 x3 s : ∃ g, Framed g ∧ exec (.xori x0 x1 x2 x3) s = .next (s.fire (formOf (.xori x0 x1 x2 x3) false) g) :=
  ⟨_, framed_onBlock _, show execXori x0 x1 x2 x3 s = _ from rfl⟩
theorem exec_shli x0 x1 x2 x3 s : ∃ g, Framed g ∧ exec (.shli x0 x1 x2 x3) s = .next (s.fire (formOf (.shli x0 x1 x2 x3) false) g) :=
  ⟨_, framed_onBlock _, show execShli x0 x1 x2 x3 s = _ from rfl⟩
theorem exec_shri x0 x1 x2 x3 s : ∃ g, Framed g ∧ exec (.shri x0 x1 x2 x3) s = .next (s.fire (formOf (.shri x0 x1 x2 x3) false) g) :=
  ⟨_, framed_onBlock _, show execShri x0 x1 x2 x3 s = _ from rfl⟩
theorem exec_shrai x0 x1 x2 x3 s : ∃ g, Framed g ∧ exec (.shrai x0 x1 x2 x3) s = .next (s.fire (formOf (.shrai x0 x1 x2 x3) false) g) :=
  ⟨_, framed_onBlock _, show execShrai x0 x1 x2 x3 s = _ from rfl⟩
theorem exec_roti x0 x1 x2 x3 s : ∃ g, Framed g ∧ exec (.roti x0 x1 x2 x3) s = .next (s.fire (formOf (.roti x0 x1 x2 x3) false) g) :=
  ⟨_, framed_onBlock _, show execRoti x0 x1 x2 x3 s = _ from rfl⟩
theorem exec_tcmp x0 x1 x2 x3 x4 s : ∃ g, Framed g ∧ exec (.tcmp x0 x1 x2 x3 x4) s = .next (s.fire (formOf (.tcmp x0 x1 x2 x3 x4) false) g) :=
  ⟨_, framed_onBlock _, show execTcmp x0 x1 x2 x3 x4 s = _ from rfl⟩
theorem exec_tcmpi x0 x1 x2 x3 x4 s : ∃ g, Framed g ∧ exec (.tcmpi x0 x1 x2 x3 x4) s = .next (s.fire (formOf (.tcmpi x0 x1 x2 x3 x4) false) g) :=
  ⟨_, framed_onBlock _, show execTcmpi x0 x1 x2 x3 x4 s = _ from rfl⟩
theorem exec_fadd x0 x1 x2 x3 x4 s : ∃ g, Framed g ∧ exec (.fadd x0 x1 x2 x3 x4) s = .next (s.fire (formOf (.fadd x0 x1 x2 x3 x4) true) g) :=
  ⟨_, framed_onBlock _, show execFadd x0 x1 x2 x3 x4 s = _ from rfl⟩
theorem exec_fsub x0 x1 x2 x3 x4 s : ∃ g, Framed g ∧ exec (.fsub x0 x1 x2 x3 x4) s = .next (s.fire (formOf (.fsub x0 x1 x2 x3 x4) true) g) :=
  ⟨_, framed_onBlock _, show execFsub x0 x1 x2 x3 x4 s = _ from rfl⟩
theorem exec_fmul x0 x1 x2 x3 x4 s : ∃ g, Framed g ∧ exec (.fmul x0 x1 x2 x3 x4) s = .next (s.fire (formOf (.fmul x0 x1 x2 x3 x4) true) g) :=
  ⟨_, framed_onBlock _, show execFmul x0 x1 x2 x3 x4 s = _ from rfl⟩
theorem exec_fma x0 x1 x2 x3 x4 s : ∃ g, Framed g ∧ exec (.fma x0 x1 x2 x3 x4) s = .next (s.fire (formOf (.fma x0 x1 x2 x3 x4) true) g) :=
  ⟨_, framed_onBlock _, show execFma x0 x1 x2 x3 x4 s = _ from rfl⟩
theorem exec_fdiv x0 x1 x2 x3 x4 s : ∃ g, Framed g ∧ exec (.fdiv x0 x1 x2 x3 x4) s = .next (s.fire (formOf (.fdiv x0 x1 x2 x3 x4) true) g) :=
  ⟨_, framed_onBlock _, show execFdiv x0 x1 x2 x3 x4 s = _ from rfl⟩
theorem exec_fsqrt x0 x1 x2 x3 x4 s : ∃ g, Framed g ∧ exec (.fsqrt x0 x1 x2 x3 x4) s = .next (s.fire (formOf (.fsqrt x0 x1 x2 x3 x4) true) g) :=
  ⟨_, framed_onBlock _, show execFsqrt x0 x1 x2 x3 x4 s = _ from rfl⟩
theorem exec_fmin x0 x1 x2 x3 s : ∃ g, Framed g ∧ exec (.fmin x0 x1 x2 x3) s = .next (s.fire (formOf (.fmin x0 x1 x2 x3) true) g) :=
  ⟨_, framed_onBlock _, show execFmin x0 x1 x2 x3 s = _ from rfl⟩
theorem exec_fmax x0 x1 x2 x3 s : ∃ g, Framed g ∧ exec (.fmax x0 x1 x2 x3) s = .next (s.fire (formOf (.fmax x0 x1 x2 x3) true) g) :=
  ⟨_, framed_onBlock _, show execFmax x0 x1 x2 x3 s = _ from rfl⟩
theorem exec_fminnum x0 x1 x2 x3 s : ∃ g, Framed g ∧ exec (.fminnum x0 x1 x2 x3) s = .next (s.fire (formOf (.fminnum x0 x1 x2 x3) true) g) :=
  ⟨_, framed_onBlock _, show execFminnum x0 x1 x2 x3 s = _ from rfl⟩
theorem exec_fmaxnum x0 x1 x2 x3 s : ∃ g, Framed g ∧ exec (.fmaxnum x0 x1 x2 x3) s = .next (s.fire (formOf (.fmaxnum x0 x1 x2 x3) true) g) :=
  ⟨_, framed_onBlock _, show execFmaxnum x0 x1 x2 x3 s = _ from rfl⟩
theorem exec_fcmp x0 x1 x2 x3 x4 s : ∃ g, Framed g ∧ exec (.fcmp x0 x1 x2 x3 x4) s = .next (s.fire (formOf (.fcmp x0 x1 x2 x3 x4) true) g) :=
  ⟨_, framed_onBlock _, show execFcmp x0 x1 x2 x3 x4 s = _ from rfl⟩
theorem exec_fcvt x0 x1 x2 x3 x4 s : ∃ g, Framed g ∧ exec (.fcvt x0 x1 x2 x3 x4) s = .next (s.fire (formOf (.fcvt x0 x1 x2 x3 x4) true) g) :=
  ⟨_, framed_onBlock _, show execFcvt x0 x1 x2 x3 x4 s = _ from rfl⟩
theorem exec_fabs x0 x1 x2 x3 s : ∃ g, Framed g ∧ exec (.fabs x0 x1 x2 x3) s = .next (s.fire (formOf (.fabs x0 x1 x2 x3) false) g) :=
  ⟨_, framed_onBlock _, show execFabs x0 x1 x2 x3 s = _ from rfl⟩
theorem exec_fneg x0 x1 x2 x3 s : ∃ g, Framed g ∧ exec (.fneg x0 x1 x2 x3) s = .next (s.fire (formOf (.fneg x0 x1 x2 x3) false) g) :=
  ⟨_, framed_onBlock _, show execFneg x0 x1 x2 x3 s = _ from rfl⟩
theorem exec_fclass x0 x1 x2 x3 s : ∃ g, Framed g ∧ exec (.fclass x0 x1 x2 x3) s = .next (s.fire (formOf (.fclass x0 x1 x2 x3) false) g) :=
  ⟨_, framed_onBlock _, show execFclass x0 x1 x2 x3 s = _ from rfl⟩
theorem exec_fcopysign x0 x1 x2 x3 s : ∃ g, Framed g ∧ exec (.fcopysign x0 x1 x2 x3) s = .next (s.fire (formOf (.fcopysign x0 x1 x2 x3) false) g) :=
  ⟨_, framed_onBlock _, show execFcopysign x0 x1 x2 x3 s = _ from rfl⟩
theorem exec_ldb x0 x1 x2 x3 x4 x5 s : ∃ zs t0 g, FramedZ g ∧ exec (.ldb x0 x1 x2 x3 x4 x5) s = .next (s.fireMem (formOf (.ldb x0 x1 x2 x3 x4 x5) false) zs t0 g) 
    := by
  refine ⟨_, _, _, ?_, show execLdb x0 x1 x2 x3 x4 x5 s = _ from rfl⟩
  exact fun _ _ _ _ _ => framed_issue ..
theorem exec_ldbs x0 x1 x2 x3 x4 x5 s : ∃ zs t0 g, FramedZ g ∧ exec (.ldbs x0 x1 x2 x3 x4 x5) s = .next (s.fireMem (formOf (.ldbs x0 x1 x2 x3 x4 x5) false) zs t0 g) 
    := by
  refine ⟨_, _, _, ?_, show execLdbs x0 x1 x2 x3 x4 x5 s = _ from rfl⟩
  exact fun _ _ _ _ _ => framed_issue ..
theorem exec_ldh x0 x1 x2 x3 x4 x5 s : ∃ zs t0 g, FramedZ g ∧ exec (.ldh x0 x1 x2 x3 x4 x5) s = .next (s.fireMem (formOf (.ldh x0 x1 x2 x3 x4 x5) false) zs t0 g) 
    := by
  refine ⟨_, _, _, ?_, show execLdh x0 x1 x2 x3 x4 x5 s = _ from rfl⟩
  exact fun _ _ _ _ _ => framed_issue ..
theorem exec_ldhs x0 x1 x2 x3 x4 x5 s : ∃ zs t0 g, FramedZ g ∧ exec (.ldhs x0 x1 x2 x3 x4 x5) s = .next (s.fireMem (formOf (.ldhs x0 x1 x2 x3 x4 x5) false) zs t0 g) 
    := by
  refine ⟨_, _, _, ?_, show execLdhs x0 x1 x2 x3 x4 x5 s = _ from rfl⟩
  exact fun _ _ _ _ _ => framed_issue ..
theorem exec_ldw x0 x1 x2 x3 x4 x5 s : ∃ zs t0 g, FramedZ g ∧ exec (.ldw x0 x1 x2 x3 x4 x5) s = .next (s.fireMem (formOf (.ldw x0 x1 x2 x3 x4 x5) false) zs t0 g) 
    := by
  refine ⟨_, _, _, ?_, show execLdw x0 x1 x2 x3 x4 x5 s = _ from rfl⟩
  exact fun _ _ _ _ _ => framed_issue ..
theorem exec_ldws x0 x1 x2 x3 x4 x5 s : ∃ zs t0 g, FramedZ g ∧ exec (.ldws x0 x1 x2 x3 x4 x5) s = .next (s.fireMem (formOf (.ldws x0 x1 x2 x3 x4 x5) false) zs t0 g) 
    := by
  refine ⟨_, _, _, ?_, show execLdws x0 x1 x2 x3 x4 x5 s = _ from rfl⟩
  exact fun _ _ _ _ _ => framed_issue ..
theorem exec_ldd x0 x1 x2 x3 x4 x5 s : ∃ zs t0 g, FramedZ g ∧ exec (.ldd x0 x1 x2 x3 x4 x5) s = .next (s.fireMem (formOf (.ldd x0 x1 x2 x3 x4 x5) false) zs t0 g) 
    := by
  refine ⟨_, _, _, ?_, show execLdd x0 x1 x2 x3 x4 x5 s = _ from rfl⟩
  exact fun _ _ _ _ _ => framed_issue ..
theorem exec_ldq x0 x1 x2 x3 x4 x5 s : ∃ zs t0 g, FramedZ g ∧ exec (.ldq x0 x1 x2 x3 x4 x5) s = .next (s.fireMem (formOf (.ldq x0 x1 x2 x3 x4 x5) false) zs t0 g) 
    := by
  refine ⟨_, _, _, ?_, show execLdq x0 x1 x2 x3 x4 x5 s = _ from rfl⟩
  exact fun _ _ _ _ _ => framed_issue ..
theorem exec_stb x0 x1 x2 x3 x4 s : ∃ zs t0 g, FramedZ g ∧ exec (.stb x0 x1 x2 x3 x4) s = .next (s.fireMem (formOf (.stb x0 x1 x2 x3 x4) false) zs t0 g) 
    := by
  refine ⟨_, _, _, ?_, show execStb x0 x1 x2 x3 x4 s = _ from rfl⟩
  exact fun _ _ _ _ _ => framed_hold ..
theorem exec_sth x0 x1 x2 x3 x4 s : ∃ zs t0 g, FramedZ g ∧ exec (.sth x0 x1 x2 x3 x4) s = .next (s.fireMem (formOf (.sth x0 x1 x2 x3 x4) false) zs t0 g) 
    := by
  refine ⟨_, _, _, ?_, show execSth x0 x1 x2 x3 x4 s = _ from rfl⟩
  exact fun _ _ _ _ _ => framed_hold ..
theorem exec_stw x0 x1 x2 x3 x4 s : ∃ zs t0 g, FramedZ g ∧ exec (.stw x0 x1 x2 x3 x4) s = .next (s.fireMem (formOf (.stw x0 x1 x2 x3 x4) false) zs t0 g) 
    := by
  refine ⟨_, _, _, ?_, show execStw x0 x1 x2 x3 x4 s = _ from rfl⟩
  exact fun _ _ _ _ _ => framed_hold ..
theorem exec_std x0 x1 x2 x3 x4 s : ∃ zs t0 g, FramedZ g ∧ exec (.std x0 x1 x2 x3 x4) s = .next (s.fireMem (formOf (.std x0 x1 x2 x3 x4) false) zs t0 g) 
    := by
  refine ⟨_, _, _, ?_, show execStd x0 x1 x2 x3 x4 s = _ from rfl⟩
  exact fun _ _ _ _ _ => framed_hold ..
theorem exec_stq x0 x1 x2 x3 x4 s : ∃ zs t0 g, FramedZ g ∧ exec (.stq x0 x1 x2 x3 x4) s = .next (s.fireMem (formOf (.stq x0 x1 x2 x3 x4) false) zs t0 g) 
    := by
  refine ⟨_, _, _, ?_, show execStq x0 x1 x2 x3 x4 s = _ from rfl⟩
  exact fun _ _ _ _ _ => framed_hold ..
theorem exec_stn4 x0 x1 x2 x3 x4 x5 s : ∃ zs t0 g, FramedZ g ∧ exec (.stn4 x0 x1 x2 x3 x4 x5) s = .next (s.fireMem (formOf (.stn4 x0 x1 x2 x3 x4 x5) false) zs t0 g) 
    := by
  refine ⟨_, _, _, ?_, show execStn4 x0 x1 x2 x3 x4 x5 s = _ from rfl⟩
  exact fun _ _ _ _ _ => framed_hold ..
theorem exec_ldv x0 x1 x2 x3 x4 x5 s : ∃ zs t0 g, FramedZ g ∧ exec (.ldv x0 x1 x2 x3 x4 x5) s = .next (s.fireMem (formOf (.ldv x0 x1 x2 x3 x4 x5) false) zs t0 g) 
    := by
  refine ⟨_, _, _, ?_, show execLdv x0 x1 x2 x3 x4 x5 s = _ from rfl⟩
  exact fun _ h _ _ _ => by dsimp only; split; rfl; exact framed_issue ..
theorem exec_ldvStr x0 x1 x2 x3 x4 x5 s : ∃ zs t0 g, FramedZ g ∧ exec (.ldvStr x0 x1 x2 x3 x4 x5) s = .next (s.fireMem (formOf (.ldvStr x0 x1 x2 x3 x4 x5) false) zs t0 g) 
    := by
  refine ⟨_, _, _, ?_, show execLdvStr x0 x1 x2 x3 x4 x5 s = _ from rfl⟩
  exact fun _ h _ _ _ => by dsimp only; split; rfl; exact framed_issue ..
theorem exec_ldvIdx x0 x1 x2 x3 x4 x5 s : ∃ zs t0 g, FramedZ g ∧ exec (.ldvIdx x0 x1 x2 x3 x4 x5) s = .next (s.fireMem (formOf (.ldvIdx x0 x1 x2 x3 x4 x5) false) zs t0 g) 
    := by
  refine ⟨_, _, _, ?_, show execLdvIdx x0 x1 x2 x3 x4 x5 s = _ from rfl⟩
  exact fun _ h _ _ _ => by dsimp only; split; rfl; exact framed_issue ..
theorem exec_stv x0 x1 x2 x3 x4 x5 s : ∃ zs t0 g, FramedZ g ∧ exec (.stv x0 x1 x2 x3 x4 x5) s = .next (s.fireMem (formOf (.stv x0 x1 x2 x3 x4 x5) true) zs t0 g) 
    := by
  refine ⟨_, _, _, ?_, show execStv x0 x1 x2 x3 x4 x5 s = _ from rfl⟩
  exact fun _ h _ _ _ => by dsimp only; split; rfl; exact framed_hold ..
theorem exec_stvStr x0 x1 x2 x3 x4 x5 s : ∃ zs t0 g, FramedZ g ∧ exec (.stvStr x0 x1 x2 x3 x4 x5) s = .next (s.fireMem (formOf (.stvStr x0 x1 x2 x3 x4 x5) true) zs t0 g) 
    := by
  refine ⟨_, _, _, ?_, show execStvStr x0 x1 x2 x3 x4 x5 s = _ from rfl⟩
  exact fun _ h _ _ _ => by dsimp only; split; rfl; exact framed_hold ..
theorem exec_stvIdx x0 x1 x2 x3 x4 x5 s : ∃ zs t0 g, FramedZ g ∧ exec (.stvIdx x0 x1 x2 x3 x4 x5) s = .next (s.fireMem (formOf (.stvIdx x0 x1 x2 x3 x4 x5) true) zs t0 g) 
    := by
  refine ⟨_, _, _, ?_, show execStvIdx x0 x1 x2 x3 x4 x5 s = _ from rfl⟩
  exact fun _ h _ _ _ => by dsimp only; split; rfl; exact framed_hold ..
theorem exec_aadd x0 x1 x2 x3 x4 x5 x6 s : ∃ zs t0 g, FramedZ g ∧ exec (.aadd x0 x1 x2 x3 x4 x5 x6) s = .next (s.fireMem (formOf (.aadd x0 x1 x2 x3 x4 x5 x6) false) zs t0 g) 
    := by
  refine ⟨_, _, _, ?_, show execAadd x0 x1 x2 x3 x4 x5 x6 s = _ from rfl⟩
  exact fun _ _ _ _ _ => framed_issue ..
theorem exec_aand x0 x1 x2 x3 x4 x5 x6 s : ∃ zs t0 g, FramedZ g ∧ exec (.aand x0 x1 x2 x3 x4 x5 x6) s = .next (s.fireMem (formOf (.aand x0 x1 x2 x3 x4 x5 x6) false) zs t0 g) 
    := by
  refine ⟨_, _, _, ?_, show execAand x0 x1 x2 x3 x4 x5 x6 s = _ from rfl⟩
  exact fun _ _ _ _ _ => framed_issue ..
theorem exec_aor x0 x1 x2 x3 x4 x5 x6 s : ∃ zs t0 g, FramedZ g ∧ exec (.aor x0 x1 x2 x3 x4 x5 x6) s = .next (s.fireMem (formOf (.aor x0 x1 x2 x3 x4 x5 x6) false) zs t0 g) 
    := by
  refine ⟨_, _, _, ?_, show execAor x0 x1 x2 x3 x4 x5 x6 s = _ from rfl⟩
  exact fun _ _ _ _ _ => framed_issue ..
theorem exec_axor x0 x1 x2 x3 x4 x5 x6 s : ∃ zs t0 g, FramedZ g ∧ exec (.axor x0 x1 x2 x3 x4 x5 x6) s = .next (s.fireMem (formOf (.axor x0 x1 x2 x3 x4 x5 x6) false) zs t0 g) 
    := by
  refine ⟨_, _, _, ?_, show execAxor x0 x1 x2 x3 x4 x5 x6 s = _ from rfl⟩
  exact fun _ _ _ _ _ => framed_issue ..
theorem exec_amin x0 x1 x2 x3 x4 x5 x6 s : ∃ zs t0 g, FramedZ g ∧ exec (.amin x0 x1 x2 x3 x4 x5 x6) s = .next (s.fireMem (formOf (.amin x0 x1 x2 x3 x4 x5 x6) false) zs t0 g) 
    := by
  refine ⟨_, _, _, ?_, show execAmin x0 x1 x2 x3 x4 x5 x6 s = _ from rfl⟩
  exact fun _ _ _ _ _ => framed_issue ..
theorem exec_amax x0 x1 x2 x3 x4 x5 x6 s : ∃ zs t0 g, FramedZ g ∧ exec (.amax x0 x1 x2 x3 x4 x5 x6) s = .next (s.fireMem (formOf (.amax x0 x1 x2 x3 x4 x5 x6) false) zs t0 g) 
    := by
  refine ⟨_, _, _, ?_, show execAmax x0 x1 x2 x3 x4 x5 x6 s = _ from rfl⟩
  exact fun _ _ _ _ _ => framed_issue ..
theorem exec_aminn x0 x1 x2 x3 x4 x5 x6 s : ∃ zs t0 g, FramedZ g ∧ exec (.aminn x0 x1 x2 x3 x4 x5 x6) s = .next (s.fireMem (formOf (.aminn x0 x1 x2 x3 x4 x5 x6) false) zs t0 g) 
    := by
  refine ⟨_, _, _, ?_, show execAminn x0 x1 x2 x3 x4 x5 x6 s = _ from rfl⟩
  exact fun _ _ _ _ _ => framed_issue ..
theorem exec_amaxn x0 x1 x2 x3 x4 x5 x6 s : ∃ zs t0 g, FramedZ g ∧ exec (.amaxn x0 x1 x2 x3 x4 x5 x6) s = .next (s.fireMem (formOf (.amaxn x0 x1 x2 x3 x4 x5 x6) false) zs t0 g) 
    := by
  refine ⟨_, _, _, ?_, show execAmaxn x0 x1 x2 x3 x4 x5 x6 s = _ from rfl⟩
  exact fun _ _ _ _ _ => framed_issue ..
theorem exec_aswp x0 x1 x2 x3 x4 x5 x6 s : ∃ zs t0 g, FramedZ g ∧ exec (.aswp x0 x1 x2 x3 x4 x5 x6) s = .next (s.fireMem (formOf (.aswp x0 x1 x2 x3 x4 x5 x6) false) zs t0 g) 
    := by
  refine ⟨_, _, _, ?_, show execAswp x0 x1 x2 x3 x4 x5 x6 s = _ from rfl⟩
  exact fun _ _ _ _ _ => framed_issue ..
theorem exec_acas x0 x1 x2 x3 x4 x5 x6 s : ∃ zs t0 g, FramedZ g ∧ exec (.acas x0 x1 x2 x3 x4 x5 x6) s = .next (s.fireMem (formOf (.acas x0 x1 x2 x3 x4 x5 x6) false) zs t0 g) 
    := by
  refine ⟨_, _, _, ?_, show execAcas x0 x1 x2 x3 x4 x5 x6 s = _ from rfl⟩
  exact fun _ _ _ _ _ => framed_issue ..
theorem exec_afadd x0 x1 x2 x3 x4 x5 x6 s : ∃ zs t0 g, FramedZ g ∧ exec (.afadd x0 x1 x2 x3 x4 x5 x6) s = .next (s.fireMem (formOf (.afadd x0 x1 x2 x3 x4 x5 x6) false) zs t0 g) 
    := by
  refine ⟨_, _, _, ?_, show execAfadd x0 x1 x2 x3 x4 x5 x6 s = _ from rfl⟩
  exact fun _ _ _ _ _ => framed_issue ..
theorem exec_fenceFull x0 x1 s : ∃ g, Framed g ∧ exec (.fenceFull x0 x1) s = .next (s.fire (formOf (.fenceFull x0 x1) false) g) :=
  ⟨_, framed_onBlock _, show execFenceFull x0 x1 s = _ from rfl⟩
theorem exec_fenceAcq x0 x1 s : ∃ g, Framed g ∧ exec (.fenceAcq x0 x1) s = .next (s.fire (formOf (.fenceAcq x0 x1) false) g) :=
  ⟨_, framed_onBlock _, show execFenceAcq x0 x1 s = _ from rfl⟩
theorem exec_fenceRel x0 x1 s : ∃ g, Framed g ∧ exec (.fenceRel x0 x1) s = .next (s.fire (formOf (.fenceRel x0 x1) false) g) :=
  ⟨_, framed_onBlock _, show execFenceRel x0 x1 s = _ from rfl⟩
theorem exec_fenceSs x0 x1 s : ∃ g, Framed g ∧ exec (.fenceSs x0 x1) s = .next (s.fire (formOf (.fenceSs x0 x1) false) g) :=
  ⟨_, framed_onBlock _, show execFenceSs x0 x1 s = _ from rfl⟩
theorem exec_acq x0 x1 x2 x3 x4 x5 s : ∃ zs t0 g, FramedZ g ∧ exec (.acq x0 x1 x2 x3 x4 x5) s = .next (s.fireMem (formOf (.acq x0 x1 x2 x3 x4 x5) false) zs t0 g) 
    := by
  refine ⟨_, _, _, ?_, show execAcq x0 x1 x2 x3 x4 x5 s = _ from rfl⟩
  exact fun _ _ _ _ _ => framed_issue ..
theorem exec_rel x0 x1 x2 x3 x4 s : ∃ zs t0 g, FramedZ g ∧ exec (.rel x0 x1 x2 x3 x4) s = .next (s.fireMem (formOf (.rel x0 x1 x2 x3 x4) false) zs t0 g) 
    := by
  refine ⟨_, _, _, ?_, show execRel x0 x1 x2 x3 x4 s = _ from rfl⟩
  exact fun _ _ _ _ _ => framed_hold ..
theorem exec_wbr x0 x1 s : ∃ zs t0 g, FramedZ g ∧ exec (.wbr x0 x1) s = .next (s.fireMem (formOf (.wbr x0 x1) false) zs t0 g) 
    := by
  refine ⟨_, _, _, ?_, show execWbr x0 x1 s = _ from rfl⟩
  exact fun _ h _ _ _ => by dsimp only; split <;> rfl
theorem exec_invr x0 x1 s : ∃ zs t0 g, FramedZ g ∧ exec (.invr x0 x1) s = .next (s.fireMem (formOf (.invr x0 x1) false) zs t0 g) 
    := by
  refine ⟨_, _, _, ?_, show execInvr x0 x1 s = _ from rfl⟩
  exact fun _ h _ _ _ => by dsimp only; split <;> rfl
theorem exec_pref x0 x1 s : ∃ g, Framed g ∧ exec (.pref x0 x1) s = .next (s.fire (formOf (.pref x0 x1) false) g) :=
  ⟨_, framed_onBlock _, show execPref x0 x1 s = _ from rfl⟩
theorem exec_ibar x0 s : ∃ g, Framed g ∧ exec (.ibar x0) s = .next (s.fire (formOf (.ibar x0) false) g) :=
  ⟨_, framed_onBlock _, show execIbar x0 s = _ from rfl⟩
theorem exec_lncfg x0 s : ∃ zs t0 g, FramedZ g ∧ exec (.lncfg x0) s = .next (s.fireMem (formOf (.lncfg x0) false) zs t0 g) 
    := by
  refine ⟨_, _, _, ?_, show execLncfg x0 s = _ from rfl⟩
  intro _ h _ _ _
  dsimp only
  repeat' split
  all_goals rfl
theorem exec_vsetl x0 x1 x2 x3 s : ∃ g, Framed g ∧ exec (.vsetl x0 x1 x2 x3) s = .next (s.fire (formOf (.vsetl x0 x1 x2 x3) false) g) :=
  ⟨_, framed_onBlock _, show execVsetl x0 x1 x2 x3 s = _ from rfl⟩
theorem exec_vgetl x0 x1 x2 x3 s : ∃ g, Framed g ∧ exec (.vgetl x0 x1 x2 x3) s = .next (s.fire (formOf (.vgetl x0 x1 x2 x3) true) g) :=
  ⟨_, framed_onBlock _, show execVgetl x0 x1 x2 x3 s = _ from rfl⟩
theorem exec_vbcast x0 x1 x2 s : ∃ g, Framed g ∧ exec (.vbcast x0 x1 x2) s = .next (s.fire (formOf (.vbcast x0 x1 x2) true) g) :=
  ⟨_, framed_onBlock _, show execVbcast x0 x1 x2 s = _ from rfl⟩
theorem exec_vidx x0 x1 x2 s : ∃ g, Framed g ∧ exec (.vidx x0 x1 x2) s = .next (s.fire (formOf (.vidx x0 x1 x2) true) g) :=
  ⟨_, framed_onBlock _, show execVidx x0 x1 x2 s = _ from rfl⟩
theorem exec_vextr x0 x1 x2 x3 s : ∃ g, Framed g ∧ exec (.vextr x0 x1 x2 x3) s = .next (s.fire (formOf (.vextr x0 x1 x2 x3) true) g) :=
  ⟨_, framed_onBlock _, show execVextr x0 x1 x2 x3 s = _ from rfl⟩
theorem exec_vadd x0 x1 x2 x3 x4 s : ∃ g, Framed g ∧ exec (.vadd x0 x1 x2 x3 x4) s = .next (s.fire (formOf (.vadd x0 x1 x2 x3 x4) true) g) :=
  ⟨_, framed_onBlock _, show execVadd x0 x1 x2 x3 x4 s = _ from rfl⟩
theorem exec_vsub x0 x1 x2 x3 x4 s : ∃ g, Framed g ∧ exec (.vsub x0 x1 x2 x3 x4) s = .next (s.fire (formOf (.vsub x0 x1 x2 x3 x4) true) g) :=
  ⟨_, framed_onBlock _, show execVsub x0 x1 x2 x3 x4 s = _ from rfl⟩
theorem exec_vrsub x0 x1 x2 x3 x4 s : ∃ g, Framed g ∧ exec (.vrsub x0 x1 x2 x3 x4) s = .next (s.fire (formOf (.vrsub x0 x1 x2 x3 x4) true) g) :=
  ⟨_, framed_onBlock _, show execVrsub x0 x1 x2 x3 x4 s = _ from rfl⟩
theorem exec_vmul x0 x1 x2 x3 x4 s : ∃ g, Framed g ∧ exec (.vmul x0 x1 x2 x3 x4) s = .next (s.fire (formOf (.vmul x0 x1 x2 x3 x4) true) g) :=
  ⟨_, framed_onBlock _, show execVmul x0 x1 x2 x3 x4 s = _ from rfl⟩
theorem exec_vdiv x0 x1 x2 x3 x4 s : ∃ g, Framed g ∧ exec (.vdiv x0 x1 x2 x3 x4) s = .next (s.fire (formOf (.vdiv x0 x1 x2 x3 x4) true) g) :=
  ⟨_, framed_onBlock _, show execVdiv x0 x1 x2 x3 x4 s = _ from rfl⟩
theorem exec_vmin x0 x1 x2 x3 x4 s : ∃ g, Framed g ∧ exec (.vmin x0 x1 x2 x3 x4) s = .next (s.fire (formOf (.vmin x0 x1 x2 x3 x4) true) g) :=
  ⟨_, framed_onBlock _, show execVmin x0 x1 x2 x3 x4 s = _ from rfl⟩
theorem exec_vmax x0 x1 x2 x3 x4 s : ∃ g, Framed g ∧ exec (.vmax x0 x1 x2 x3 x4) s = .next (s.fire (formOf (.vmax x0 x1 x2 x3 x4) true) g) :=
  ⟨_, framed_onBlock _, show execVmax x0 x1 x2 x3 x4 s = _ from rfl⟩
theorem exec_vabsd x0 x1 x2 x3 x4 s : ∃ g, Framed g ∧ exec (.vabsd x0 x1 x2 x3 x4) s = .next (s.fire (formOf (.vabsd x0 x1 x2 x3 x4) true) g) :=
  ⟨_, framed_onBlock _, show execVabsd x0 x1 x2 x3 x4 s = _ from rfl⟩
theorem exec_vfma x0 x1 x2 x3 x4 s : ∃ g, Framed g ∧ exec (.vfma x0 x1 x2 x3 x4) s = .next (s.fire (formOf (.vfma x0 x1 x2 x3 x4) true) g) :=
  ⟨_, framed_onBlock _, show execVfma x0 x1 x2 x3 x4 s = _ from rfl⟩
theorem exec_vfms x0 x1 x2 x3 x4 s : ∃ g, Framed g ∧ exec (.vfms x0 x1 x2 x3 x4) s = .next (s.fire (formOf (.vfms x0 x1 x2 x3 x4) true) g) :=
  ⟨_, framed_onBlock _, show execVfms x0 x1 x2 x3 x4 s = _ from rfl⟩
theorem exec_vfnma x0 x1 x2 x3 x4 s : ∃ g, Framed g ∧ exec (.vfnma x0 x1 x2 x3 x4) s = .next (s.fire (formOf (.vfnma x0 x1 x2 x3 x4) true) g) :=
  ⟨_, framed_onBlock _, show execVfnma x0 x1 x2 x3 x4 s = _ from rfl⟩
theorem exec_vfnms x0 x1 x2 x3 x4 s : ∃ g, Framed g ∧ exec (.vfnms x0 x1 x2 x3 x4) s = .next (s.fire (formOf (.vfnms x0 x1 x2 x3 x4) true) g) :=
  ⟨_, framed_onBlock _, show execVfnms x0 x1 x2 x3 x4 s = _ from rfl⟩
theorem exec_vdoti8 x0 x1 x2 x3 x4 s : ∃ g, Framed g ∧ exec (.vdoti8 x0 x1 x2 x3 x4) s = .next (s.fire (formOf (.vdoti8 x0 x1 x2 x3 x4) true) g) :=
  ⟨_, framed_onBlock _, show execVdoti8 x0 x1 x2 x3 x4 s = _ from rfl⟩
theorem exec_vdoti4 x0 x1 x2 x3 x4 s : ∃ g, Framed g ∧ exec (.vdoti4 x0 x1 x2 x3 x4) s = .next (s.fire (formOf (.vdoti4 x0 x1 x2 x3 x4) true) g) :=
  ⟨_, framed_onBlock _, show execVdoti4 x0 x1 x2 x3 x4 s = _ from rfl⟩
theorem exec_vand x0 x1 x2 x3 x4 s : ∃ g, Framed g ∧ exec (.vand x0 x1 x2 x3 x4) s = .next (s.fire (formOf (.vand x0 x1 x2 x3 x4) true) g) :=
  ⟨_, framed_onBlock _, show execVand x0 x1 x2 x3 x4 s = _ from rfl⟩
theorem exec_vor x0 x1 x2 x3 x4 s : ∃ g, Framed g ∧ exec (.vor x0 x1 x2 x3 x4) s = .next (s.fire (formOf (.vor x0 x1 x2 x3 x4) true) g) :=
  ⟨_, framed_onBlock _, show execVor x0 x1 x2 x3 x4 s = _ from rfl⟩
theorem exec_vxor x0 x1 x2 x3 x4 s : ∃ g, Framed g ∧ exec (.vxor x0 x1 x2 x3 x4) s = .next (s.fire (formOf (.vxor x0 x1 x2 x3 x4) true) g) :=
  ⟨_, framed_onBlock _, show execVxor x0 x1 x2 x3 x4 s = _ from rfl⟩
theorem exec_vandn x0 x1 x2 x3 x4 s : ∃ g, Framed g ∧ exec (.vandn x0 x1 x2 x3 x4) s = .next (s.fire (formOf (.vandn x0 x1 x2 x3 x4) true) g) :=
  ⟨_, framed_onBlock _, show execVandn x0 x1 x2 x3 x4 s = _ from rfl⟩
theorem exec_vshl x0 x1 x2 x3 x4 s : ∃ g, Framed g ∧ exec (.vshl x0 x1 x2 x3 x4) s = .next (s.fire (formOf (.vshl x0 x1 x2 x3 x4) true) g) :=
  ⟨_, framed_onBlock _, show execVshl x0 x1 x2 x3 x4 s = _ from rfl⟩
theorem exec_vshr x0 x1 x2 x3 x4 s : ∃ g, Framed g ∧ exec (.vshr x0 x1 x2 x3 x4) s = .next (s.fire (formOf (.vshr x0 x1 x2 x3 x4) true) g) :=
  ⟨_, framed_onBlock _, show execVshr x0 x1 x2 x3 x4 s = _ from rfl⟩
theorem exec_vshra x0 x1 x2 x3 x4 s : ∃ g, Framed g ∧ exec (.vshra x0 x1 x2 x3 x4) s = .next (s.fire (formOf (.vshra x0 x1 x2 x3 x4) true) g) :=
  ⟨_, framed_onBlock _, show execVshra x0 x1 x2 x3 x4 s = _ from rfl⟩
theorem exec_vnot x0 x1 x2 x3 s : ∃ g, Framed g ∧ exec (.vnot x0 x1 x2 x3) s = .next (s.fire (formOf (.vnot x0 x1 x2 x3) true) g) :=
  ⟨_, framed_onBlock _, show execVnot x0 x1 x2 x3 s = _ from rfl⟩
theorem exec_vcmp x0 x1 x2 x3 x4 x5 s : ∃ g, Framed g ∧ exec (.vcmp x0 x1 x2 x3 x4 x5) s = .next (s.fire (formOf (.vcmp x0 x1 x2 x3 x4 x5) true) g) :=
  ⟨_, framed_onBlock _, show execVcmp x0 x1 x2 x3 x4 x5 s = _ from rfl⟩
theorem exec_vmov x0 x1 x2 x3 s : ∃ g, Framed g ∧ exec (.vmov x0 x1 x2 x3) s = .next (s.fire (formOf (.vmov x0 x1 x2 x3) true) g) :=
  ⟨_, framed_onBlock _, show execVmov x0 x1 x2 x3 s = _ from rfl⟩
theorem exec_vsel x0 x1 x2 x3 x4 s : ∃ g, Framed g ∧ exec (.vsel x0 x1 x2 x3 x4) s = .next (s.fire (formOf (.vsel x0 x1 x2 x3 x4) true) g) :=
  ⟨_, framed_onBlock _, show execVsel x0 x1 x2 x3 x4 s = _ from rfl⟩
theorem exec_vcmpct x0 x1 x2 x3 x4 s : ∃ g, Framed g ∧ exec (.vcmpct x0 x1 x2 x3 x4) s = .next (s.fire (formOf (.vcmpct x0 x1 x2 x3 x4) true) g) :=
  ⟨_, framed_onBlock _, show execVcmpct x0 x1 x2 x3 x4 s = _ from rfl⟩
theorem exec_vpermx x0 x1 x2 x3 x4 s : ∃ g, Framed g ∧ exec (.vpermx x0 x1 x2 x3 x4) s = .next (s.fire (formOf (.vpermx x0 x1 x2 x3 x4) true) g) :=
  ⟨_, framed_onBlock _, show execVpermx x0 x1 x2 x3 x4 s = _ from rfl⟩
theorem exec_vslideup x0 x1 x2 x3 x4 s : ∃ g, Framed g ∧ exec (.vslideup x0 x1 x2 x3 x4) s = .next (s.fire (formOf (.vslideup x0 x1 x2 x3 x4) true) g) :=
  ⟨_, framed_onBlock _, show execVslideup x0 x1 x2 x3 x4 s = _ from rfl⟩
theorem exec_vslidedn x0 x1 x2 x3 x4 s : ∃ g, Framed g ∧ exec (.vslidedn x0 x1 x2 x3 x4) s = .next (s.fire (formOf (.vslidedn x0 x1 x2 x3 x4) true) g) :=
  ⟨_, framed_onBlock _, show execVslidedn x0 x1 x2 x3 x4 s = _ from rfl⟩
theorem exec_vzip x0 x1 x2 x3 x4 s : ∃ g, Framed g ∧ exec (.vzip x0 x1 x2 x3 x4) s = .next (s.fire (formOf (.vzip x0 x1 x2 x3 x4) true) g) :=
  ⟨_, framed_onBlock _, show execVzip x0 x1 x2 x3 x4 s = _ from rfl⟩
theorem exec_vunzip x0 x1 x2 x3 x4 s : ∃ g, Framed g ∧ exec (.vunzip x0 x1 x2 x3 x4) s = .next (s.fire (formOf (.vunzip x0 x1 x2 x3 x4) true) g) :=
  ⟨_, framed_onBlock _, show execVunzip x0 x1 x2 x3 x4 s = _ from rfl⟩
theorem exec_rsum x0 x1 x2 x3 s : ∃ g, Framed g ∧ exec (.rsum x0 x1 x2 x3) s = .next (s.fire (formOf (.rsum x0 x1 x2 x3) true) g) :=
  ⟨_, framed_onBlock _, show execRsum x0 x1 x2 x3 s = _ from rfl⟩
theorem exec_rmax x0 x1 x2 x3 s : ∃ g, Framed g ∧ exec (.rmax x0 x1 x2 x3) s = .next (s.fire (formOf (.rmax x0 x1 x2 x3) true) g) :=
  ⟨_, framed_onBlock _, show execRmax x0 x1 x2 x3 s = _ from rfl⟩
theorem exec_rmin x0 x1 x2 x3 s : ∃ g, Framed g ∧ exec (.rmin x0 x1 x2 x3) s = .next (s.fire (formOf (.rmin x0 x1 x2 x3) true) g) :=
  ⟨_, framed_onBlock _, show execRmin x0 x1 x2 x3 s = _ from rfl⟩
theorem exec_rsumw x0 x1 x2 x3 s : ∃ g, Framed g ∧ exec (.rsumw x0 x1 x2 x3) s = .next (s.fire (formOf (.rsumw x0 x1 x2 x3) true) g) :=
  ⟨_, framed_onBlock _, show execRsumw x0 x1 x2 x3 s = _ from rfl⟩
theorem exec_rcount x0 x1 x2 x3 s : ∃ g, Framed g ∧ exec (.rcount x0 x1 x2 x3) s = .next (s.fire (formOf (.rcount x0 x1 x2 x3) true) g) :=
  ⟨_, framed_onBlock _, show execRcount x0 x1 x2 x3 s = _ from rfl⟩
theorem exec_rfirst x0 x1 x2 x3 s : ∃ g, Framed g ∧ exec (.rfirst x0 x1 x2 x3) s = .next (s.fire (formOf (.rfirst x0 x1 x2 x3) true) g) :=
  ⟨_, framed_onBlock _, show execRfirst x0 x1 x2 x3 s = _ from rfl⟩
theorem exec_vscanSum x0 x1 x2 x3 s : ∃ g, Framed g ∧ exec (.vscanSum x0 x1 x2 x3) s = .next (s.fire (formOf (.vscanSum x0 x1 x2 x3) true) g) :=
  ⟨_, framed_onBlock _, show execVscanSum x0 x1 x2 x3 s = _ from rfl⟩
theorem exec_vscanMax x0 x1 x2 x3 s : ∃ g, Framed g ∧ exec (.vscanMax x0 x1 x2 x3) s = .next (s.fire (formOf (.vscanMax x0 x1 x2 x3) true) g) :=
  ⟨_, framed_onBlock _, show execVscanMax x0 x1 x2 x3 s = _ from rfl⟩
theorem exec_vscanMin x0 x1 x2 x3 s : ∃ g, Framed g ∧ exec (.vscanMin x0 x1 x2 x3) s = .next (s.fire (formOf (.vscanMin x0 x1 x2 x3) true) g) :=
  ⟨_, framed_onBlock _, show execVscanMin x0 x1 x2 x3 s = _ from rfl⟩
theorem exec_vscanSegsum x0 x1 x2 x3 x4 s : ∃ g, Framed g ∧ exec (.vscanSegsum x0 x1 x2 x3 x4) s = .next (s.fire (formOf (.vscanSegsum x0 x1 x2 x3 x4) true) g) :=
  ⟨_, framed_onBlock _, show execVscanSegsum x0 x1 x2 x3 x4 s = _ from rfl⟩
theorem exec_exp2 x0 x1 x2 x3 s : ∃ g, Framed g ∧ exec (.exp2 x0 x1 x2 x3) s = .next (s.fire (formOf (.exp2 x0 x1 x2 x3) true) g) :=
  ⟨_, framed_onBlock _, show execExp2 x0 x1 x2 x3 s = _ from rfl⟩
theorem exec_log2 x0 x1 x2 x3 s : ∃ g, Framed g ∧ exec (.log2 x0 x1 x2 x3) s = .next (s.fire (formOf (.log2 x0 x1 x2 x3) true) g) :=
  ⟨_, framed_onBlock _, show execLog2 x0 x1 x2 x3 s = _ from rfl⟩
theorem exec_rcp x0 x1 x2 x3 s : ∃ g, Framed g ∧ exec (.rcp x0 x1 x2 x3) s = .next (s.fire (formOf (.rcp x0 x1 x2 x3) true) g) :=
  ⟨_, framed_onBlock _, show execRcp x0 x1 x2 x3 s = _ from rfl⟩
theorem exec_rsq x0 x1 x2 x3 s : ∃ g, Framed g ∧ exec (.rsq x0 x1 x2 x3) s = .next (s.fire (formOf (.rsq x0 x1 x2 x3) true) g) :=
  ⟨_, framed_onBlock _, show execRsq x0 x1 x2 x3 s = _ from rfl⟩
theorem exec_sqrt x0 x1 x2 x3 s : ∃ g, Framed g ∧ exec (.sqrt x0 x1 x2 x3) s = .next (s.fire (formOf (.sqrt x0 x1 x2 x3) true) g) :=
  ⟨_, framed_onBlock _, show execSqrt x0 x1 x2 x3 s = _ from rfl⟩
theorem exec_tanh x0 x1 x2 x3 s : ∃ g, Framed g ∧ exec (.tanh x0 x1 x2 x3) s = .next (s.fire (formOf (.tanh x0 x1 x2 x3) true) g) :=
  ⟨_, framed_onBlock _, show execTanh x0 x1 x2 x3 s = _ from rfl⟩
theorem exec_sigm x0 x1 x2 x3 s : ∃ g, Framed g ∧ exec (.sigm x0 x1 x2 x3) s = .next (s.fire (formOf (.sigm x0 x1 x2 x3) true) g) :=
  ⟨_, framed_onBlock _, show execSigm x0 x1 x2 x3 s = _ from rfl⟩
theorem exec_erf x0 x1 x2 x3 s : ∃ g, Framed g ∧ exec (.erf x0 x1 x2 x3) s = .next (s.fire (formOf (.erf x0 x1 x2 x3) true) g) :=
  ⟨_, framed_onBlock _, show execErf x0 x1 x2 x3 s = _ from rfl⟩
theorem exec_vcvt x0 x1 x2 x3 x4 x5 s : ∃ g, Framed g ∧ exec (.vcvt x0 x1 x2 x3 x4 x5) s = .next (s.fire (formOf (.vcvt x0 x1 x2 x3 x4 x5) true) g) :=
  ⟨_, framed_onBlock _, show execVcvt x0 x1 x2 x3 x4 x5 s = _ from rfl⟩
theorem exec_vdeq x0 x1 x2 x3 x4 s : ∃ g, Framed g ∧ exec (.vdeq x0 x1 x2 x3 x4) s = .next (s.fire (formOf (.vdeq x0 x1 x2 x3 x4) true) g) :=
  ⟨_, framed_onBlock _, show execVdeq x0 x1 x2 x3 x4 s = _ from rfl⟩
theorem exec_vscl x0 x1 x2 x3 x4 s : ∃ g, Framed g ∧ exec (.vscl x0 x1 x2 x3 x4) s = .next (s.fire (formOf (.vscl x0 x1 x2 x3 x4) true) g) :=
  ⟨_, framed_onBlock _, show execVscl x0 x1 x2 x3 x4 s = _ from rfl⟩
theorem exec_vqnt x0 x1 x2 x3 x4 s : ∃ g, Framed g ∧ exec (.vqnt x0 x1 x2 x3 x4) s = .next (s.fire (formOf (.vqnt x0 x1 x2 x3 x4) true) g) :=
  ⟨_, framed_onBlock _, show execVqnt x0 x1 x2 x3 x4 s = _ from rfl⟩
theorem exec_vamax x0 x1 x2 x3 s : ∃ g, Framed g ∧ exec (.vamax x0 x1 x2 x3) s = .next (s.fire (formOf (.vamax x0 x1 x2 x3) true) g) :=
  ⟨_, framed_onBlock _, show execVamax x0 x1 x2 x3 s = _ from rfl⟩
theorem exec_pack x0 x1 x2 x3 x4 s : ∃ g, Framed g ∧ exec (.pack x0 x1 x2 x3 x4) s = .next (s.fire (formOf (.pack x0 x1 x2 x3 x4) true) g) :=
  ⟨_, framed_onBlock _, show execPack x0 x1 x2 x3 x4 s = _ from rfl⟩
theorem exec_unpklo x0 x1 x2 x3 s : ∃ g, Framed g ∧ exec (.unpklo x0 x1 x2 x3) s = .next (s.fire (formOf (.unpklo x0 x1 x2 x3) true) g) :=
  ⟨_, framed_onBlock _, show execUnpklo x0 x1 x2 x3 s = _ from rfl⟩
theorem exec_unpkhi x0 x1 x2 x3 s : ∃ g, Framed g ∧ exec (.unpkhi x0 x1 x2 x3) s = .next (s.fire (formOf (.unpkhi x0 x1 x2 x3) true) g) :=
  ⟨_, framed_onBlock _, show execUnpkhi x0 x1 x2 x3 s = _ from rfl⟩
theorem exec_gettag x0 x1 x2 x3 s : ∃ g, Framed g ∧ exec (.gettag x0 x1 x2 x3) s = .next (s.fire (formOf (.gettag x0 x1 x2 x3) true) g) :=
  ⟨_, framed_onBlock _, show execGettag x0 x1 x2 x3 s = _ from rfl⟩
theorem exec_settag x0 x1 x2 s : ∃ g, Framed g ∧ exec (.settag x0 x1 x2) s = .next (s.fire (formOf (.settag x0 x1 x2) true) g) :=
  ⟨_, framed_onBlock _, show execSettag x0 x1 x2 s = _ from rfl⟩
theorem exec_clrtag x0 x1 x2 s : ∃ g, Framed g ∧ exec (.clrtag x0 x1 x2) s = .next (s.fire (formOf (.clrtag x0 x1 x2) true) g) :=
  ⟨_, framed_onBlock _, show execClrtag x0 x1 x2 s = _ from rfl⟩
theorem exec_mshape x0 x1 s : ∃ g, Framed g ∧ exec (.mshape x0 x1) s = .next (s.fire (formOf (.mshape x0 x1) true) g) :=
  ⟨_, framed_onBlock _, show execMshape x0 x1 s = _ from rfl⟩
theorem exec_mzero x0 x1 s : ∃ g, Framed g ∧ exec (.mzero x0 x1) s = .next (s.fire (formOf (.mzero x0 x1) true) g) :=
  ⟨_, framed_onBlock _, show execMzero x0 x1 s = _ from rfl⟩
theorem exec_mwait x0 x1 x2 s : ∃ g, Framed g ∧ exec (.mwait x0 x1 x2) s = .next (s.fire (formOf (.mwait x0 x1 x2) true) g) :=
  ⟨_, framed_onBlock _, show execMwait x0 x1 x2 s = _ from rfl⟩
theorem exec_mstat x0 x1 s : ∃ g, Framed g ∧ exec (.mstat x0 x1) s = .next (s.fire (formOf (.mstat x0 x1) true) g) :=
  ⟨_, framed_onBlock _, show execMstat x0 x1 s = _ from rfl⟩
theorem exec_mtscl x0 x1 s : ∃ g, Framed g ∧ exec (.mtscl x0 x1) s = .next (s.fire (formOf (.mtscl x0 x1) true) g) :=
  ⟨_, framed_onBlock _, show execMtscl x0 x1 s = _ from rfl⟩
theorem exec_mma x0 x1 x2 x3 x4 x5 s : ∃ g, Framed g ∧ exec (.mma x0 x1 x2 x3 x4 x5) s = .next (s.fire (formOf (.mma x0 x1 x2 x3 x4 x5) true) g) :=
  ⟨_, framed_onBlock _, show execMma x0 x1 x2 x3 x4 x5 s = _ from rfl⟩
theorem exec_mmas x0 x1 x2 x3 x4 x5 s : ∃ g, Framed g ∧ exec (.mmas x0 x1 x2 x3 x4 x5) s = .next (s.fire (formOf (.mmas x0 x1 x2 x3 x4 x5) true) g) :=
  ⟨_, framed_onBlock _, show execMmas x0 x1 x2 x3 x4 x5 s = _ from rfl⟩
theorem exec_mmav x0 x1 x2 x3 x4 s : ∃ g, Framed g ∧ exec (.mmav x0 x1 x2 x3 x4) s = .next (s.fire (formOf (.mmav x0 x1 x2 x3 x4) true) g) :=
  ⟨_, framed_onBlock _, show execMmav x0 x1 x2 x3 x4 s = _ from rfl⟩
theorem exec_mmavSub x0 x1 x2 x3 x4 s : ∃ g, Framed g ∧ exec (.mmavSub x0 x1 x2 x3 x4) s = .next (s.fire (formOf (.mmavSub x0 x1 x2 x3 x4) true) g) :=
  ⟨_, framed_onBlock _, show execMmavSub x0 x1 x2 x3 x4 s = _ from rfl⟩
theorem exec_mldv x0 x1 x2 x3 x4 s : ∃ g, Framed g ∧ exec (.mldv x0 x1 x2 x3 x4) s = .next (s.fire (formOf (.mldv x0 x1 x2 x3 x4) true) g) :=
  ⟨_, framed_onBlock _, show execMldv x0 x1 x2 x3 x4 s = _ from rfl⟩
theorem exec_mrdv x0 x1 x2 x3 x4 s : ∃ g, Framed g ∧ exec (.mrdv x0 x1 x2 x3 x4) s = .next (s.fire (formOf (.mrdv x0 x1 x2 x3 x4) true) g) :=
  ⟨_, framed_onBlock _, show execMrdv x0 x1 x2 x3 x4 s = _ from rfl⟩
theorem exec_msto x0 x1 x2 x3 x4 x5 x6 s : ∃ g, Framed g ∧ exec (.msto x0 x1 x2 x3 x4 x5 x6) s = .next (s.fire (formOf (.msto x0 x1 x2 x3 x4 x5 x6) true) g) :=
  ⟨_, framed_onBlock _, show execMsto x0 x1 x2 x3 x4 x5 x6 s = _ from rfl⟩
theorem exec_maddm x0 x1 x2 x3 x4 s : ∃ g, Framed g ∧ exec (.maddm x0 x1 x2 x3 x4) s = .next (s.fire (formOf (.maddm x0 x1 x2 x3 x4) true) g) :=
  ⟨_, framed_onBlock _, show execMaddm x0 x1 x2 x3 x4 s = _ from rfl⟩
theorem exec_mtrn x0 x1 x2 x3 s : ∃ g, Framed g ∧ exec (.mtrn x0 x1 x2 x3) s = .next (s.fire (formOf (.mtrn x0 x1 x2 x3) true) g) :=
  ⟨_, framed_onBlock _, show execMtrn x0 x1 x2 x3 s = _ from rfl⟩
theorem exec_mcopy x0 x1 x2 x3 s : ∃ g, Framed g ∧ exec (.mcopy x0 x1 x2 x3) s = .next (s.fire (formOf (.mcopy x0 x1 x2 x3) true) g) :=
  ⟨_, framed_onBlock _, show execMcopy x0 x1 x2 x3 s = _ from rfl⟩
theorem exec_spawn x0 s : ∃ g, Framed g ∧ exec (.spawn x0) s = .next (s.fire (formOf (.spawn x0) false) g) :=
  ⟨_, framed_onBlock _, show execSpawn x0 s = _ from rfl⟩
theorem exec_spawna x0 s : ∃ g, Framed g ∧ exec (.spawna x0) s = .next (s.fire (formOf (.spawna x0) false) g) :=
  ⟨_, framed_onBlock _, show execSpawna x0 s = _ from rfl⟩
theorem exec_join x0 s : ∃ g, Framed g ∧ exec (.join x0) s = .next (s.fire (formOf (.join x0) true) g) :=
  ⟨_, framed_onBlock _, show execJoin x0 s = _ from rfl⟩
theorem exec_taskend x0 s : ∃ g, Framed g ∧ exec (.taskend x0) s = .next (s.fire (formOf (.taskend x0) false) g) :=
  ⟨_, framed_onBlock _, show execTaskend x0 s = _ from rfl⟩
theorem exec_yield x0 s : ∃ g, Framed g ∧ exec (.yield x0) s = .next (s.fire (formOf (.yield x0) true) g) :=
  ⟨_, framed_onBlock _, show execYield x0 s = _ from rfl⟩
theorem exec_taskid x0 x1 x2 s : ∃ g, Framed g ∧ exec (.taskid x0 x1 x2) s = .next (s.fire (formOf (.taskid x0 x1 x2) false) g) :=
  ⟨_, framed_onBlock _, show execTaskid x0 x1 x2 s = _ from rfl⟩
theorem exec_width x0 s : ∃ g, Framed g ∧ exec (.width x0) s = .next (s.fire (formOf (.width x0) false) g) :=
  ⟨_, framed_onBlock _, show execWidth x0 s = _ from rfl⟩
theorem exec_launch x0 s : ∃ g, Framed g ∧ exec (.launch x0) s = .next (s.fire (formOf (.launch x0) false) g) :=
  ⟨_, framed_onBlock _, show execLaunch x0 s = _ from rfl⟩
theorem exec_domwait x0 x1 s : ∃ g, Framed g ∧ exec (.domwait x0 x1) s = .next (s.fire (formOf (.domwait x0 x1) false) g) :=
  ⟨_, framed_onBlock _, show execDomwait x0 x1 s = _ from rfl⟩
theorem exec_chcfg x0 x1 s : ∃ g, Framed g ∧ exec (.chcfg x0 x1) s = .next (s.fire (formOf (.chcfg x0 x1) false) g) :=
  ⟨_, framed_onBlock _, show execChcfg x0 x1 s = _ from rfl⟩
theorem exec_chcfgAge x0 x1 s : ∃ g, Framed g ∧ exec (.chcfgAge x0 x1) s = .next (s.fire (formOf (.chcfgAge x0 x1) false) g) :=
  ⟨_, framed_onBlock _, show execChcfgAge x0 x1 s = _ from rfl⟩
theorem exec_chlen x0 x1 x2 s : ∃ g, Framed g ∧ exec (.chlen x0 x1 x2) s = .next (s.fire (formOf (.chlen x0 x1 x2) false) g) :=
  ⟨_, framed_onBlock _, show execChlen x0 x1 x2 s = _ from rfl⟩
theorem exec_chclr x0 x1 x2 s : ∃ g, Framed g ∧ exec (.chclr x0 x1 x2) s = .next (s.fire (formOf (.chclr x0 x1 x2) false) g) :=
  ⟨_, framed_onBlock _, show execChclr x0 x1 x2 s = _ from rfl⟩
theorem exec_waitc x0 x1 x2 s : ∃ g, Framed g ∧ exec (.waitc x0 x1 x2) s = .next (s.fire (formOf (.waitc x0 x1 x2) false) g) :=
  ⟨_, framed_onBlock _, show execWaitc x0 x1 x2 s = _ from rfl⟩
theorem exec_waitcAge x0 x1 x2 s : ∃ g, Framed g ∧ exec (.waitcAge x0 x1 x2) s = .next (s.fire (formOf (.waitcAge x0 x1 x2) false) g) :=
  ⟨_, framed_onBlock _, show execWaitcAge x0 x1 x2 s = _ from rfl⟩
theorem exec_waitcJoin x0 x1 s : ∃ g, Framed g ∧ exec (.waitcJoin x0 x1) s = .next (s.fire (formOf (.waitcJoin x0 x1) false) g) :=
  ⟨_, framed_onBlock _, show execWaitcJoin x0 x1 s = _ from rfl⟩
/-- RDC of a count other than 3 reaches no memory; RDC 3 has its home reached first, and a counter of timed events catches up. -/
theorem exec_rdc x0 x1 x2 (s : State) : ∃ g s0, Framed g ∧
    (s0 = s ∨ (x1 = 3 ∧ s0 = s.wordReached s.dev.focus.hart) ∨ (s.readsTimed x1.toNat = true ∧ s0 = s.holdCounter (placeOfHart s.dev.focus.hart) (x1.toNat - 8))) ∧
    exec (.rdc x0 x1 x2) s = .next (s0.fire (formOf (.rdc x0 x1 x2) false) g) := by
  refine ⟨_, _, framed_onBlock _, ?_, show execRdc x0 x1 x2 s = _ from rfl⟩
  split
  · rename_i h
    exact .inr (.inl ⟨h.1, rfl⟩)
  · split
    · rename_i h
      exact .inr (.inr ⟨(Bool.and_eq_true_iff.mp h).1, rfl⟩)
    · exact .inl rfl
theorem exec_jadd x0 x1 s : ∃ g, Framed g ∧ exec (.jadd x0 x1) s = .next (s.fire (formOf (.jadd x0 x1) false) g) :=
  ⟨_, framed_onBlock _, show execJadd x0 x1 s = _ from rfl⟩
theorem exec_pcfg x0 x1 s : ∃ g, Framed g ∧ exec (.pcfg x0 x1) s = .next (s.fire (formOf (.pcfg x0 x1) false) g) :=
  ⟨_, framed_onBlock _, show execPcfg x0 x1 s = _ from rfl⟩
theorem exec_time x0 x1 x2 (s : State) : ∃ g s0, Framed g ∧ (s0 = s ∨ (x1 = 0 ∧ s0 = s.ticked)) ∧
    exec (.time x0 x1 x2) s = .next (s0.fire (formOf (.time x0 x1 x2) false) g) := by
  refine ⟨_, _, framed_onBlock _, ?_, show execTime x0 x1 x2 s = _ from rfl⟩
  split
  · rename_i h; exact .inr ⟨h.1, rfl⟩
  · exact .inl rfl
theorem exec_cbld x0 x1 s : ∃ zs t0 g, FramedZ g ∧ exec (.cbld x0 x1) s = .next (s.fireMem (formOf (.cbld x0 x1) true) zs t0 g) 
    := by
  refine ⟨_, _, _, ?_, show execCbld x0 x1 s = _ from rfl⟩
  intro _ h _ _ _
  dsimp only
  repeat' split
  all_goals rfl
theorem exec_alinv x0 x1 x2 s : ∃ zs t0 g, FramedZ g ∧ exec (.alinv x0 x1 x2) s = .next (s.fireMem (formOf (.alinv x0 x1 x2) false) zs t0 g) 
    := by
  refine ⟨_, _, _, ?_, show execAlinv x0 x1 x2 s = _ from rfl⟩
  exact fun _ h _ _ _ => by dsimp only; split <;> rfl
theorem exec_dmapq x0 x1 x2 s : ∃ g, Framed g ∧ exec (.dmapq x0 x1 x2) s = .next (s.fire (formOf (.dmapq x0 x1 x2) false) g) :=
  ⟨_, framed_onBlock _, show execDmapq x0 x1 x2 s = _ from rfl⟩

end Sys2Proof.Machine
end

