-- ==== Sys2Proof/Laws/State.lean ====
section
/-! SUPPORT. What the updates of State leave, field by field; each is true by unfolding. -/
namespace Sys2Proof.Machine

@[simp] theorem State.setHart_mem (s : State) (n : Nat) (h : Hart) : (s.setHart n h).mem = s.mem := rfl
@[simp] theorem State.setHart_host (s : State) (n : Nat) (h : Hart) : (s.setHart n h).host = s.host := rfl
@[simp] theorem State.setHart_peer (s : State) (n : Nat) (h : Hart) : (s.setHart n h).peer = s.peer := rfl
@[simp] theorem State.setHart_agenda (s : State) (n : Nat) (h : Hart) : (s.setHart n h).agenda = s.agenda := rfl
@[simp] theorem State.setMt_mem (s : State) (p : Nat) (m : Mt) : (s.setMt p m).mem = s.mem := rfl
@[simp] theorem State.setMt_host (s : State) (p : Nat) (m : Mt) : (s.setMt p m).host = s.host := rfl
@[simp] theorem State.setMt_peer (s : State) (p : Nat) (m : Mt) : (s.setMt p m).peer = s.peer := rfl
@[simp] theorem State.setMt_agenda (s : State) (p : Nat) (m : Mt) : (s.setMt p m).agenda = s.agenda := rfl
@[simp] theorem State.setPort_mem (s : State) (p n : Nat) (q : Port) : (s.setPort p n q).mem = s.mem := rfl
@[simp] theorem State.setPort_host (s : State) (p n : Nat) (q : Port) : (s.setPort p n q).host = s.host := rfl
@[simp] theorem State.setPort_peer (s : State) (p n : Nat) (q : Port) : (s.setPort p n q).peer = s.peer := rfl
@[simp] theorem State.setPort_agenda (s : State) (p n : Nat) (q : Port) : (s.setPort p n q).agenda = s.agenda := rfl
@[simp] theorem State.setAge_mem (s : State) (p n : Nat) (a : Age) : (s.setAge p n a).mem = s.mem := rfl
@[simp] theorem State.setAge_host (s : State) (p n : Nat) (a : Age) : (s.setAge p n a).host = s.host := rfl
@[simp] theorem State.setAge_peer (s : State) (p n : Nat) (a : Age) : (s.setAge p n a).peer = s.peer := rfl
@[simp] theorem State.setAge_agenda (s : State) (p n : Nat) (a : Age) : (s.setAge p n a).agenda = s.agenda := rfl

@[simp] theorem setFocus_mem (s : State) (n tag idx : Nat) : (setFocus s n tag idx).mem = s.mem := rfl
@[simp] theorem setFocus_host (s : State) (n tag idx : Nat) : (setFocus s n tag idx).host = s.host := rfl
@[simp] theorem setFocus_peer (s : State) (n tag idx : Nat) : (setFocus s n tag idx).peer = s.peer := rfl
@[simp] theorem setFocus_agenda (s : State) (n tag idx : Nat) : (setFocus s n tag idx).agenda = s.agenda := rfl
@[simp] theorem setFocus_hart (s : State) (n tag idx k : Nat) : (setFocus s n tag idx).hart k = s.hart k := rfl
@[simp] theorem setFocus_mt (s : State) (n tag idx p : Nat) : (setFocus s n tag idx).mt p = s.mt p := rfl
@[simp] theorem setFocus_focus (s : State) (n tag idx : Nat) : (setFocus s n tag idx).dev.focus = ⟨n, tag, idx⟩ := rfl

@[simp] theorem Hart.putBlock_g (h : Hart) (b : Block) : (h.putBlock b).g = h.g := rfl
@[simp] theorem Hart.putBlock_z (h : Hart) (b : Block) : (h.putBlock b).z = h.z := rfl
@[simp] theorem Hart.putBlock_vec (h : Hart) (b : Block) : (h.putBlock b).vec = h.vec := rfl
@[simp] theorem Hart.putBlock_m (h : Hart) (b : Block) : (h.putBlock b).m = h.m := rfl
@[simp] theorem Hart.putBlock_mtag (h : Hart) (b : Block) : (h.putBlock b).mtag = h.mtag := rfl
@[simp] theorem Hart.putBlock_rstk (h : Hart) (b : Block) : (h.putBlock b).rstk = h.rstk := rfl
@[simp] theorem Hart.putBlock_status (h : Hart) (b : Block) : (h.putBlock b).status = h.status := rfl
@[simp] theorem Hart.putBlock_stklim (h : Hart) (b : Block) : (h.putBlock b).stklim = h.stklim := rfl
@[simp] theorem Hart.putBlock_srstate (h : Hart) (b : Block) : (h.putBlock b).srstate = h.srstate := rfl
@[simp] theorem Hart.putBlock_next (h : Hart) (b : Block) : (h.putBlock b).next = h.next := rfl
@[simp] theorem Hart.putBlock_seq (h : Hart) (b : Block) : (h.putBlock b).seq = h.seq := rfl
@[simp] theorem Hart.putBlock_run (h : Hart) (b : Block) : (h.putBlock b).run = h.run := rfl
@[simp] theorem Hart.putBlock_posted (h : Hart) (b : Block) : (h.putBlock b).posted = h.posted := rfl
@[simp] theorem Hart.putBlock_l1d (h : Hart) (b : Block) : (h.putBlock b).l1d = h.l1d := rfl
@[simp] theorem Hart.putBlock_ctxid (h : Hart) (b : Block) : (h.putBlock b).ctxid = h.ctxid := rfl

/-- All that a wake can do: the waits of the homes take the bytes they find, and nothing else changes (R219). -/
theorem State.wake_eq (s : State) (l : Loc) (n : Nat) : ∃ ws, s.wake l n = { s with dev := { s.dev with binders := ws } } := by
  unfold State.wake
  split
  · exact ⟨s.dev.binders, rfl⟩
  · exact ⟨_, rfl⟩

@[simp] theorem State.wake_mem (s : State) (l : Loc) (n : Nat) : (s.wake l n).mem = s.mem := by
  obtain ⟨_, h⟩ := s.wake_eq l n; rw [h]
@[simp] theorem State.wake_host (s : State) (l : Loc) (n : Nat) : (s.wake l n).host = s.host := by
  obtain ⟨_, h⟩ := s.wake_eq l n; rw [h]
@[simp] theorem State.wake_peer (s : State) (l : Loc) (n : Nat) : (s.wake l n).peer = s.peer := by
  obtain ⟨_, h⟩ := s.wake_eq l n; rw [h]
@[simp] theorem State.wake_agenda (s : State) (l : Loc) (n : Nat) : (s.wake l n).agenda = s.agenda := by
  obtain ⟨_, h⟩ := s.wake_eq l n; rw [h]
@[simp] theorem State.wake_hart (s : State) (l : Loc) (n k : Nat) : (s.wake l n).hart k = s.hart k := by
  obtain ⟨_, h⟩ := s.wake_eq l n; rw [h]; rfl
@[simp] theorem State.wake_migs (s : State) (l : Loc) (n : Nat) : (s.wake l n).dev.migs = s.dev.migs := by
  obtain ⟨_, h⟩ := s.wake_eq l n; rw [h]
@[simp] theorem State.putDev_mem (s : State) (pa : Nat) (bs : List Byte) : (s.putDev pa bs).mem = setBytes s.mem pa bs := State.wake_mem _ _ _
@[simp] theorem State.putDev_host (s : State) (pa : Nat) (bs : List Byte) : (s.putDev pa bs).host = s.host := State.wake_host _ _ _
@[simp] theorem State.putDev_peer (s : State) (pa : Nat) (bs : List Byte) : (s.putDev pa bs).peer = s.peer := State.wake_peer _ _ _
@[simp] theorem State.putDev_hart (s : State) (pa : Nat) (bs : List Byte) (k : Nat) : (s.putDev pa bs).hart k = s.hart k := State.wake_hart _ _ _ _
@[simp] theorem State.putDev_migs (s : State) (pa : Nat) (bs : List Byte) : (s.putDev pa bs).dev.migs = s.dev.migs := State.wake_migs _ _ _

end Sys2Proof.Machine
end

