-- ==== Sys2Proof/Tests/Slice0.lean ====
section
/-! SUPPORT. Tests: words of the spec and words built from its encoding tables decode to what they stand for, ill-formed terms are refused, worked examples of the spec run, and for every statement with hypotheses a state and operands that meet them. A hypothesis on a verdict of Config (a signature) or on a free value has no witness: the spec leaves it free. -/
open Sys2Proof Sys2Proof.Machine

theorem test_decode_add : decodeWord 0x21001814 = some (.add 1 3 5 0) := by decide
theorem test_decode_std : decodeWord 0x96000020 = some (.std 0 0 0 8 0) := by decide
theorem test_decode_br : decodeWord 0x02000020 = some (.br 2 0 0) := by decide
theorem test_decode_const : decodeWord 0x0A009010 = some (.const 0x12 4 0) := by decide
theorem test_decode_app : decodeWord 0x0C68A820 = some (.app 0x0D15 8 0) := by decide
theorem test_decode_ldw : decodeWord 0x88201A8C = some (.ldw 2 3 1 1 3 0) := by decide
theorem test_decode_stn4 : decodeWord 0x9A00FFEC = some (.stn4 0 0 0 0x1FFD 1 0) := by decide
theorem test_decode_aadd : decodeWord 0xA0100024 = some (.aadd 1 0 0 0 2 1 0) := by decide
theorem test_decode_acas : decodeWord 0xB2001848 = some (.acas 0 3 0 0 4 2 0) := by decide
theorem test_decode_ldv_idx : decodeWord 0x9C309408 = some (.ldvIdx 3 1 5 0 0 0) := by decide
theorem test_decode_fence : decodeWord 0xB623F804 = some (.fenceRel 1 0) := by decide
theorem test_decode_invr : decodeWord 0xBC13F9FC = some (.invr 0 0) := by decide
theorem test_decode_lncfg : decodeWord 0xBE03F9FC = some (.lncfg 0) := by decide
theorem test_decode_vadd : decodeWord 0xC2018440 = some (.vadd 0 3 1 2 0) := by decide
theorem test_decode_vsetl : decodeWord 0xC0101840 = some (.vsetl 1 3 1 0) := by decide
theorem test_decode_mtscl : decodeWord 0xE043F804 = some (.mtscl 1 0) := by decide
theorem test_decode_mmas : decodeWord 0xE4020800 = some (.mmas 0 1 0 1 0 0) := by decide
theorem test_decode_msto : decodeWord 0xEA120100 = some (.msto 1 1 0 0 2 0 0) := by decide
theorem test_decode_tasks : [0xF003F800, 0xF013F800, 0xF023F800, 0xF033F800, 0xF043F800, 0xF063F800, 0xF073F800].map (fun w => decodeWord w) =
    [some (.spawn 0), some (.spawna 0), some (.join 0), some (.taskend 0), some (.yield 0), some (.width 0), some (.launch 0)] := by decide
theorem test_decode_ports : decodeWord 0xF203F820 = some (.chcfg 8 0) ∧ decodeWord 0xF2100000 = some (.chlen 0 0 0) ∧
    decodeWord 0xF223F840 = some (.chclr 1 0 0) := by decide
theorem test_decode_counts : decodeWord 0xF4101820 = some (.rdc 3 8 0) ∧ decodeWord 0xF433F800 = some (.pcfg 0 0) ∧
    decodeWord 0xF4401800 = some (.time 3 0 0) := by decide
theorem test_decode_tables : decodeWord 0xF603F800 = some (.cbld 0 0) ∧ decodeWord 0xF613F800 = some (.alinv 0 0 0) ∧
    decodeWord 0xF6201800 = some (.attr 3 0 0) ∧ decodeWord 0xF6301800 = some (.dmapq 3 0 0) := by decide
theorem test_decode_wl : [0x0005850B, 0x0005950B, 0x0005A50B, 0x00C5B50B, 0x0005C50B, 0x0005D50B, 0x00C5E50B].map (fun w => decodeWl w) =
    [.ok (.wlLaunch 11 10), .ok (.wlFence 11 10), .ok (.wlPoll 11 10), .ok (.wlWait 12 11 10), .ok (.wlCancel 11 10),
     .ok (.wlStatus 11 10), .ok (.wlPrio 12 11 10)] := by decide

/-! Words written out field by field from R77, R79 and R80, for families without a word of the spec. -/
theorem test_decode_mov : decodeWord (0x04#7 ++ 0#5 ++ 7#9 ++ 9#9 ++ 2#2) = some (.mov 7 9 2) := by decide
theorem test_decode_wrsys : decodeWord (0x07#7 ++ 1#5 ++ 7#9 ++ 12#9 ++ 0#2) = some (.wrsys 7 12 0) := by decide
theorem test_decode_addi : decodeWord (0x21#7 ++ 1#1 ++ 0#4 ++ 7#9 ++ 0x1FF#9 ++ 0#2) = some (.addi 1 7 0x1FF 0) := by decide
theorem test_decode_bfxs : decodeWord (0x1F#7 ++ 0#1 ++ 1#4 ++ 7#9 ++ 9#9 ++ 0#2) = some (.bfxs 0 7 9 0) := by decide
theorem test_decode_tcmp : decodeWord (0x30#7 ++ 1#1 ++ 9#4 ++ 7#9 ++ 9#9 ++ 1#2) = some (.tcmp 1 9 7 9 1) := by decide
theorem test_decode_fadd : decodeWord (0x32#7 ++ 1#2 ++ 6#3 ++ 7#9 ++ 9#9 ++ 0#2) = some (.fadd 1 6 7 9 0) := by decide
theorem test_decode_fcmp : decodeWord (0x39#7 ++ 2#2 ++ 4#3 ++ 7#9 ++ 9#9 ++ 0#2) = some (.fcmp 2 4 7 9 0) := by decide
theorem test_decode_fcvt : decodeWord (0x3A#7 ++ 27#5 ++ 7#9 ++ 0#5 ++ 1#1 ++ 4#3 ++ 0#2) = some (.fcvt 27 7 1 4 0) := by decide
theorem test_decode_vcmp : decodeWord (0x64#7 ++ 3#5 ++ 1#5 ++ 2#5 ++ 4#5 ++ 7#3 ++ 0#2) = some (.vcmp 3 1 2 4 7 0) := by decide
theorem test_decode_vsel : decodeWord (0x65#7 ++ 3#5 ++ 1#5 ++ 2#5 ++ 4#5 ++ 1#3 ++ 0#2) = some (.vsel 3 1 2 4 0) := by decide
theorem test_decode_rsum : decodeWord (0x66#7 ++ 3#5 ++ 7#9 ++ 4#5 ++ 0#4 ++ 0#2) = some (.rsum 3 7 4 0) := by decide
theorem test_decode_exp2 : decodeWord (0x68#7 ++ 3#5 ++ 1#5 ++ 2#5 ++ 0#5 ++ 0#3 ++ 0#2) = some (.exp2 3 1 2 0) := by decide
theorem test_decode_vcvt : decodeWord (0x69#7 ++ 3#5 ++ 1#5 ++ 2#5 ++ 15#5 ++ 6#3 ++ 0#2) = some (.vcvt 3 1 2 15 6 0) := by decide
theorem test_decode_pack : decodeWord (0x6B#7 ++ 3#5 ++ 1#5 ++ 2#5 ++ 4#5 ++ 0#3 ++ 0#2) = some (.pack 3 1 2 4 0) := by decide
theorem test_decode_gettag : decodeWord (0x6C#7 ++ 3#5 ++ 7#9 ++ 4#5 ++ 0#4 ++ 0#2) = some (.gettag 3 7 4 0) := by decide
theorem test_decode_maddm : decodeWord (0x76#7 ++ 3#5 ++ 1#5 ++ 2#5 ++ 4#5 ++ 0#3 ++ 0#2) = some (.maddm 3 1 2 4 0) := by decide
theorem test_decode_filler : decodeWord 0 = none := by decide

/-! Ill-formed terms, one for each check of WellFormed, and the words that would hold them: neither is an instruction. -/
def illPredicates : List Instr := [.add 1 0 0 3, .br 0 0 3, .ldw 0 0 0 0 0 3, .vadd 0 0 0 0 3, .mma 0 0 0 0 0 3, .spawn 3]
def illScalars : List Instr := [.rdsys 7 13 0, .wrsys 7 13 0, .shli 0 7 32 0, .roti 1 7 64 0, .tcmp 1 10 7 7 0, .tcmpi 0 15 7 0 0]
def illFloats : List Instr := [.fadd 0 7 7 7 0, .fsqrt 3 7 7 7 0, .fcmp 0 5 7 7 0, .fcvt 28 7 0 0 0, .fcvt 0 7 0 7 0]
def illAtomics : List Instr := [.aadd 0 7 0 0 5 0 0, .aadd 0 7 0 0 0 2 0, .acas 0 7 0 0 0 3 0, .fenceAcq 5 0, .acq 0 7 0 0 5 0]
def illVectors : List Instr := [.vsetl 0 7 0 0, .vcvt 0 1 2 14 0 0, .vcvt 0 1 2 2 7 0, .msto 0 0 0 7 2 0 0, .msto 0 0 0 0 9 0 0, .msto 0 0 0 0 15 0 0]
def illCounts : List Instr := [.taskid 7 3 0, .waitc noTarget 0 0, .waitcAge noTarget 0 0, .waitcJoin noTarget 0, .rdc 7 6 0, .rdc 7 24 0, .rdc noTarget 0 0]
def illTables : List Instr := [.jadd 5 0, .time noTarget 0 0, .time 7 3 0, .alinv 7 0 0, .dmapq 7 3 0]
def illFormed : List Instr := [illPredicates, illScalars, illFloats, illAtomics, illVectors, illCounts, illTables].flatten
theorem test_wf_refuses : illFormed.all (fun i => !i.wf) = true := by decide
theorem test_decode_refuses_ill_formed : illFormed.all (fun i => (decodeWord (encode i)).isNone) = true := by decide

namespace Sys2Proof.Machine.Tests

/-- A block in flight in slot 0 that holds the one word of `i` at index 0, with the tokens given. -/
def oneBlock (i : Instr) (toks : List (Nat × Token)) : Block :=
  { tag := 0, addr := 0x1000, hdr := [], code := [encode i], seq := 0, injected := [], pops := [], toks := toks,
    fired := [], lsids := [], vsids := [], branch := none, faults := [], reqs := [], stores := [], effs := [], vec := none,
    seen := [], breaks := [], bound := false, sr := false, spilled := false, nospec := false, book := none }

/-- A running core at PLACE 0 with that block, the focus on its instruction. -/
def firing (h : Hart) (b : Block) : State :=
  setFocus (State.reset.setHart 0 { h with run := .running, blocks := [b] }) 0 0 0

def core1 : Hart := { Hart.reset with cwidth := 1 }

def fires1 (i : Instr) (l r : Token) : State := firing core1 (oneBlock i [(0, l), (1, r)])

/-- What reached a target of the firing block. -/
def sentTo (o : Out) (t : Nat) : Option Token :=
  match o with
  | .next s => match (s.hart 0).block 0 with | some b => b.tok t | none => none
  | _ => none

theorem test_fcvt_stochastic : sentTo (exec (.fcvt 1 7 0 5 0) (firing { core1 with srstate := 1 } (oneBlock (.fcvt 1 7 0 5 0) [(0, tokOf 0x3F804000)]))) 7 = some (tokOf 0x3F80) := by decide
theorem test_fma_rounds_once : sentTo (exec (.fma 0 0 7 0x7F 0) (fires1 (.fma 0 0 7 0x7F 0) (tokPair 0x3F800800000000003F800800) (tokOf 0xBF801000))) 7 = some (tokOf 0x33800000) := by decide
theorem test_fmul_ties_to_even : sentTo (exec (.fmul 0 0 7 0x7F 0) (fires1 (.fmul 0 0 7 0x7F 0) (tokOf 0x3F800800) (tokOf 0x3F800800))) 7 = some (tokOf 0x3F801000) := by decide
theorem test_zexth : sentTo (exec (.zexth 0 7 0x7F 0) (fires1 (.zexth 0 7 0x7F 0) (tokOf 0xFFFFFFFFFFFF8000) tokNull)) 7 = some (tokOf 0x8000) := by decide
theorem test_sexth : sentTo (exec (.sexth 0 7 0x7F 0) (fires1 (.sexth 0 7 0x7F 0) (tokOf 0xFFFFFFFFFFFF8000) tokNull)) 7 = some (tokOf 0xFFFFFFFFFFFF8000) := by decide
theorem test_app : sentTo (exec (.app 0x0D15 7 0) (fires1 (.app 0x0D15 7 0) (tokOf 0x12) tokNull)) 7 = some (tokOf 0x48D15) := by decide
theorem test_bfi : sentTo (exec (.bfi 1 7 0x7F 0) (fires1 (.bfi 1 7 0x7F 0) (tokPair 0x100000000000000F8) (tokOf 0x100))) 7 = some (tokOf 0xF9) := by decide
theorem test_add_w_wraps : sentTo (exec (.add 0 7 0x7F 0) (fires1 (.add 0 7 0x7F 0) (tokOf 0x7FFFFFFF) (tokOf 1))) 7 = some (tokOf 0xFFFFFFFF80000000) := by decide
theorem test_div_zero : sentTo (exec (.div 1 7 0x7F 0) (fires1 (.div 1 7 0x7F 0) (tokOf 5) (tokOf 0))) 7 = some (tokOf 0xFFFFFFFFFFFFFFFF) := by decide
theorem test_tcmp_lt : sentTo (exec (.tcmp 1 2 7 0x7F 0) (fires1 (.tcmp 1 2 7 0x7F 0) (tokOf 5) (tokOf 7))) 7 = some (tokOf 1) := by decide
theorem test_null_operand : sentTo (exec (.add 1 7 0x7F 0) (fires1 (.add 1 7 0x7F 0) tokNull (tokOf 7))) 7 = some tokNull := by decide
theorem test_step_runs_placed : sentTo (step (State.reset.withFetchWord 32 0x21001814)) 3 = some (tokOf 0) := by decide
end Sys2Proof.Machine.Tests

namespace Sys2Proof.Machine.Tests

/-- All that Fires asks of the instruction at index 0 of the one block of `firing h b`, as a computation. -/
def canFire (h : Hart) (b : Block) (f : Form) (l r : Token) : Bool :=
  b.tag == 0 && b.faults.isEmpty && !h.thalt && !b.dead && !b.fired.contains 0 && f.vsid.all (b.turnFor f.need) &&
  (f.pr == 0 || (match b.tok 2 with | some k => !k.null && (k.val.getLsbD 0 == decide (f.pr = 1)) | none => false)) &&
  (if f.operands = 0 then decide (l = tokNull) else decide (b.tok 0 = some l)) &&
  (if f.operands ≤ 1 then decide (r = tokNull) else decide (b.tok 1 = some r)) &&
  (nmodeFault { h with run := .running, blocks := [b] } b 0 f).isNone && (!f.vsid.isSome || ({ h with run := .running, blocks := [b] } : Hart).vecKnown b f.need)

theorem hart_firing (h : Hart) (b : Block) : (firing h b).hart 0 = { h with run := .running, blocks := [b] } := rfl

theorem fires_of_canFire {h : Hart} {b : Block} {f : Form} {l r : Token} (c : canFire h b f l r = true) : Fires (firing h b) f b l r := by
  simp only [canFire, Bool.and_eq_true, Bool.not_eq_true', Bool.or_eq_true, beq_iff_eq, Option.isNone_iff_eq_none, List.isEmpty_iff] at c
  obtain ⟨⟨⟨⟨⟨⟨⟨⟨⟨⟨tag, clean⟩, thalt⟩, dead⟩, once⟩, turn⟩, pred⟩, left⟩, right⟩, form⟩, vec⟩ := c
  have old : ((firing h b).hart 0).isOldest 0 = true := by simp [hart_firing, Hart.isOldest, tag]
  refine ⟨?_, .inl rfl, thalt, dead, once, fun _ => old, fun _ _ => clean, fun _ => old, turn, ?_, ?_, ?_, ?_, fun _ => old, form⟩
  · show ((firing h b).hart 0).block 0 = some b
    simp [hart_firing, Hart.block, tag]
  · exact fun k => vec.resolve_left (by simp [k])
  · rcases pred with p | p
    · exact .inl p
    · show _ ∨ ∃ k, b.tok 2 = some k ∧ _
      cases hk : b.tok 2 with
      | none => simp [hk] at p
      | some k =>
      simp only [hk, Bool.and_eq_true, Bool.not_eq_true', beq_iff_eq] at p
      exact .inr ⟨k, rfl, p.1, by rw [p.2, decide_eq_true_iff]⟩
  · show if f.operands = 0 then _ else b.tok 0 = some l
    split at left <;> simp_all
  · show if f.operands ≤ 1 then _ else b.tok 1 = some r
    split at right <;> simp_all

/-- An operand that the instruction has; one that it does not have stands as a null token. -/
def operandOr (i : Instr) (k : Nat) (x : Token) : Token := if k < operandCount i then x else tokNull

/-- `i` can fire on core `h` with the operands `l` and `r`, where it has them. -/
def canRun (h : Hart) (l r : Token) (oldest : Bool) (i : Instr) : Bool :=
  canFire h (oneBlock i [(0, l), (1, r), (2, tokOf 1)]) (formOf i oldest) (operandOr i 0 l) (operandOr i 1 r)

theorem fires_all {h : Hart} {l r : Token} {o : Bool} {is : List Instr} (c : is.all (canRun h l r o) = true) :
    ∀ i ∈ is, ∃ s b, Fires s (formOf i o) b (operandOr i 0 l) (operandOr i 1 r) :=
  fun i hi => ⟨_, _, fires_of_canFire (List.all_eq_true.mp c i hi)⟩
end Sys2Proof.Machine.Tests

namespace Sys2Proof.Machine.Tests

/-- Each of the instructions can fire, predicated ones with a predicate of 1. -/
def AllFire (o : Bool) (l r : Token) (is : List Instr) : Prop :=
  ∀ i ∈ is, ∃ s b, Fires s (formOf i o) b (operandOr i 0 l) (operandOr i 1 r)

theorem witness_IntegerTwoOperandResults : AllFire false (tokOf 5) (tokOf 7)
    [.add 1 7 127 1, .sub 0 7 127 0, .mul 1 7 127 0, .mulh 1 7 127 0, .mulhn 1 7 127 0, .mulhsn 1 7 127 0, .min 1 7 127 0,
     .max 1 7 127 0, .minn 1 7 127 0, .maxn 1 7 127 0, .and 1 7 127 0, .or 1 7 127 0, .xor 1 7 127 0, .andn 1 7 127 0,
     .orn 1 7 127 0, .xnor 1 7 127 0, .lea 1 3 7 127 0] := fires_all (h := core1) (by decide)
theorem witness_IntegerDivision : AllFire false (tokOf 5) (tokOf 0) [.div 1 7 127 0, .divn 0 7 127 0, .rem 1 7 127 0, .remn 1 7 127 0] :=
  fires_all (h := core1) (by decide)
theorem witness_IntegerShiftsAndRotates : AllFire false (tokOf 5) (tokOf 64)
    [.shl 1 7 127 0, .shr 1 7 127 0, .shra 1 7 127 0, .rol 1 7 127 0, .ror 1 7 127 0, .shli 1 7 63 0, .shri 0 7 31 0, .shrai 1 7 0 0,
     .roti 1 7 63 0] := fires_all (h := core1) (by decide)
theorem witness_IntegerOneOperandResults : AllFire false (tokOf 0) (tokOf 0)
    [.clz 1 7 127 0, .ctz 1 7 127 0, .popc 1 7 127 0, .brev 1 7 127 0, .bswp 1 7 127 0, .neg 1 7 127 0, .abs 1 7 127 0, .not 1 7 127 0,
     .sextb 1 7 127 0, .sexth 1 7 127 0, .sextw 7 127 0, .zextb 1 7 127 0, .zexth 1 7 127 0, .zextw 7 127 0] :=
  fires_all (h := core1) (by decide)
theorem witness_BitFields : AllFire false (tokPair 5) (tokOf 0x103F) [.bfx 1 7 127 0, .bfxs 1 7 127 0, .bfi 1 7 127 0] :=
  fires_all (h := core1) (by decide)
theorem witness_IntegerImmediates : AllFire false (tokOf 5) (tokOf 0)
    [.addi 1 7 256 0, .muli 1 7 255 0, .andi 1 7 1 0, .ori 1 7 1 0, .xori 1 7 1 0] := fires_all (h := core1) (by decide)
theorem witness_IntegerCompares : AllFire false (tokOf 5) (tokOf 7) [.tcmp 1 0 7 127 0, .tcmp 1 9 7 127 0, .tcmpi 0 9 7 5 0] :=
  fires_all (h := core1) (by decide)
theorem witness_TokenMoves : AllFire false (tokPair 5) (tokOf 7)
    [.mov 7 127 0, .null 7 127 0, .plo 7 127 0, .phi 7 127 0, .const 5 7 0, .app 5 7 0, .pair 7 127 0] := fires_all (h := core1) (by decide)
theorem witness_SystemRegisterReads : AllFire true (tokOf 5) (tokOf 7) [.rdsys 7 0 0, .rdsys 7 12 0] := fires_all (h := core1) (by decide)
theorem witness_SystemRegisterWrites : AllFire true (tokOf 0) (tokOf 7) [.wrsys 7 0 0, .wrsys 7 8 0] := fires_all (h := core1) (by decide)
theorem witness_BranchesHoldTheirExit : AllFire true (tokOf 0x80) (tokOf 0x100)
    [.br 2 0 0, .bri 0, .call 2 0 0, .calli 0, .scall 0, .brk 0, .trap 0, .ret 0] := fires_all (h := core1) (by decide)
theorem witness_BranchesHoldTheirExit_second : let b1 : Block := { oneBlock (.bri 0) [] with fired := [0] }
    0 ∈ b1.fired ∧ 0 ≠ 1 ∧ decodeWord (b1.code.getD 0 0) = some (.bri 0) ∧ isBranch (.bri 0) = true ∧ predVerdict (predField (.bri 0)) b1 0 = .go := by decide
theorem witness_FloatRoundedResults : AllFire true (tokPair 0x3F800000) (tokOf 0)
    [.fadd 0 6 7 127 0, .fsub 1 0 7 127 0, .fmul 2 5 7 127 0, .fdiv 3 1 7 127 0, .fma 0 0 7 127 0, .fsqrt 0 0 7 127 0, .fcvt 27 7 0 0 0] :=
  fires_all (h := core1) (by decide)
theorem witness_FloatChoicesComparesAndSigns : AllFire true (tokOf 0x3F800000) (tokOf 0)
    [.fmin 0 7 127 0, .fmax 1 7 127 0, .fminnum 2 7 127 0, .fmaxnum 3 7 127 0, .fcmp 0 4 7 127 0, .fabs 0 7 127 0, .fneg 0 7 127 0,
     .fclass 0 7 127 0, .fcopysign 0 7 127 0] := fires_all (h := core1) (by decide)
theorem witness_FencesAndCacheControlsAwaitCommit : AllFire false (tokOf 0x80) (tokOf 64)
    [.fenceFull 4 0, .fenceAcq 0 0, .fenceRel 1 0, .fenceSs 2 0, .ibar 0, .pref 0 0, .wbr 0 0, .invr 3 0, .lncfg 0] :=
  fires_all (h := core1) (by decide)
theorem witness_TensorConfiguration : AllFire true (tokPair 0) (tokOf 0) [.mshape 7 0, .mzero 0 0, .mwait 7 255 0, .mstat 7 0, .mtscl 7 0] :=
  fires_all (h := core1) (by decide)
theorem witness_TensorInstructionsWaitToIssue : AllFire true (tokOf 1) (tokOf 0)
    [.mma 0 0 0 1 0 0, .mmas 31 7 0 1 1 0, .mmav 0 0 1 2 0, .mmavSub 0 0 1 2 0, .mldv 0 0 1 2 0, .mrdv 0 1 0 2 0, .msto 0 0 0 0 2 0 0,
     .maddm 0 0 1 2 0, .mtrn 0 0 1 0, .mcopy 0 0 1 0] := fires_all (h := core1) (by decide)
theorem witness_TaskInstructions : AllFire true (tokOf 0x80) (tokOf 0x1000)
    [.spawn 0, .spawna 0, .join 0, .yield 0, .taskend 0, .taskid 7 2 0, .width 0, .launch 0, .domwait 7 0] :=
  fires_all (h := core1) (by decide)
theorem witness_PortInstructions : AllFire false (tokOf 0) (tokOf 1) [.chcfg 8 0, .chcfgAge 0 0, .chclr 1 15 0, .chlen 7 0 0] :=
  fires_all (h := core1) (by decide)
theorem witness_CountInstructions : AllFire false (tokOf 0x1000) (tokOf 1)
    [.waitc 7 7 0, .waitcAge 7 0 0, .waitcJoin 7 0, .rdc 7 0 0, .rdc 7 3 0, .rdc 7 8 0, .rdc 7 15 0, .rdc 7 16 0, .rdc 7 23 0, .jadd 4 0, .pcfg 0 0, .time 7 2 0] :=
  fires_all (h := core1) (by decide)
/-- R359: select 1 counts cycles, which are free; select 2 counts blocks committed. -/
theorem test_timed_counters : let h : Hart := { Hart.reset with pcfg := [(0, 0x101), (1, 0x102)] }
    (State.reset.setHart 0 h).timed 0 0 = true ∧ (State.reset.setHart 0 h).timed 0 1 = false ∧ (h.count 2 5).pcnt = [(1, 5)] ∧ (State.reset.setHart 0 h).holdCounter 0 1 = State.reset.setHart 0 h := by decide
theorem witness_TableInstructions : AllFire true (tokOf 0x1000) (tokOf 1) [.cbld 0 0, .alinv 0 0 0, .attr 7 0 0, .dmapq 7 2 0] ∧
    (fires1 (.attr 7 0 0) (tokOf 0) tokNull).attrWaits 0 = false ∧ ((fires1 (.cbld 0 0) (tokOf 0) tokNull).hart 0).zoneFor 0 0 = some 0 ∧
    -- a host page that no translation is held of
    (let i : Instr := .attr 7 0 0
     let b := oneBlock i [(0, tokOf 0x1000)]
     let s := firing { core1 with z := [(0, 0xF0)] } b
     let t : State := { s with dev := { s.dev with ready := 0x7FFFFF, ctxc := [(0, List.replicate 19 0 ++ [0x80] ++ List.replicate 44 0)] } }
     Fires t (formOf i false) b (tokOf 0x1000) tokNull ∧ t.attrWaits 0 = true) := by
  refine ⟨fires_all (h := core1) (by decide), by decide, by decide, ?_, by decide⟩
  have k := fires_of_canFire (h := { core1 with z := [(0, 0xF0)] }) (b := oneBlock (.attr 7 0 0) [(0, tokOf 0x1000)]) (f := formOf (.attr 7 0 0) false) (l := tokOf 0x1000) (r := tokNull) (by decide)
  exact ⟨k.1, k.2, k.3, k.4, k.5, k.6, k.7, k.8, k.9, k.10, k.11, k.12, k.13, k.14, k.15⟩
theorem witness_ConstAndAppBuildAnyValue : AllFire false (tokOf 0x12) (tokOf 0) [.const 0x2000 7 0, .app 0x3FFF 7 0] :=
  fires_all (h := core1) (by decide)
end Sys2Proof.Machine.Tests

namespace Sys2Proof.Machine.Tests

/-- A core whose block reads zones from zero z-registers: zone 0x00. -/
theorem witness_LoadsLeaveTheirRequest : AllFire false (tokOf 0x1000) tokNull
    [.ldb 0 7 0 0 0 0, .ldbs 0 7 0 0 0 0, .ldh 0 7 0 0 0 0, .ldhs 0 7 0 0 0 0, .ldw 31 7 0 3 15 0, .ldws 0 7 0 0 0 0, .ldd 0 7 0 0 0 0, .ldq 0 7 0 0 16 0] ∧
    AllFire false (tokPair 0x1000) tokNull [.ldv 0 0 1 0 0 0, .ldvStr 0 0 1 0 0 0, .ldvIdx 0 0 1 0 0 0] ∧
    ((fires1 (.ldw 0 7 0 0 0 0) (tokOf 0) tokNull).hart 0).zoneFor 0 0 = some 0 ∧
    clear (fires1 (.ldw 0 7 0 0 0 0) (tokOf 0x103C) tokNull) [{ zone := 0, va := 0x103C, size := 4, good := true, rd := true, wr := false, stack := true }] :=
  ⟨fires_all (h := core1) (by decide), fires_all (h := core1) (by decide), by decide, by unfold clear; decide⟩
theorem witness_StoresAreHeldInTheirBlock : AllFire false (tokOf 0x1000) (tokOf 7)
    [.stb 0 0 0 0 0, .sth 0 0 0 0 0, .stw 0 0 0 0 0, .std 0 0 0 8 0, .stq 0 0 0 0 0, .stn4 0 0 0 0 1 0, .rel 0 0 0 0 0] ∧
    clear (fires1 (.std 0 0 0 8 0) (tokOf 0x1000) (tokOf 7)) [{ zone := 0, va := 0x1038, size := 8, good := true, rd := false, wr := true, stack := true }] :=
  ⟨fires_all (h := core1) (by decide), by unfold clear; decide⟩
theorem witness_AtomicsLeaveTheirRequest : AllFire false (tokOf 0x1000) (tokPair 7)
    [.aadd 0 7 0 0 0 0 0, .aand 0 7 0 0 0 1 0, .aor 0 7 0 0 4 0 0, .axor 0 7 0 0 0 0 0, .amin 0 7 0 0 0 0 0, .amax 0 7 0 0 0 0 0,
     .aminn 0 7 0 0 0 0 0, .amaxn 0 7 0 0 0 0 0, .aswp 0 7 0 0 0 0 0, .acas 0 7 0 0 0 2 0, .afadd 0 7 0 0 0 1 0, .acq 0 7 0 0 2 0] ∧
    clear (fires1 (.acas 0 7 0 0 0 2 0) (tokOf 0x1000) (tokPair 7)) [{ zone := 0, va := 0x1000, size := 16, good := true, rd := true, wr := false, stack := true }] :=
  ⟨fires_all (h := core1) (by decide), by unfold clear; decide⟩
theorem witness_AccessFaultsAreRecordedAtFire :
    let s := fires1 (.ldw 0 7 0 0 0 0) (tokOf 0x103D) tokNull
    let q : Probe := { zone := 0, va := 0x103D, size := 4, good := false, rd := true, wr := false, stack := true }
    (∃ b, Fires s (formOf (.ldw 0 7 0 0 0 0) false) b (tokOf 0x103D) tokNull) ∧ fireCauses s.dev s.dev.focus.hart (s.hart s.dev.focus.hart) [q] = some (0x12, q) ∧
    (let u := fires1 (.acq 0 7 0 0 2 0) (tokOf 0x1008) tokNull
     let a : Probe := { zone := 0, va := 0x1008, size := 64, good := false, rd := true, wr := false, stack := true }
     (∃ b, Fires u (formOf (.acq 0 7 0 0 2 0) false) b (tokOf 0x1008) tokNull) ∧ fireCauses u.dev u.dev.focus.hart (u.hart u.dev.focus.hart) [a] = some (0x12, a)) ∧
    -- a store of two operands, an atomic, and a vector load and store of one
    (let u := fires1 (.stw 0 0 0 0 0) (tokOf 0x103D) (tokOf 7)
     let a : Probe := { zone := 0, va := 0x103D, size := 4, good := false, rd := false, wr := true, stack := true }
     (∃ b, Fires u (formOf (.stw 0 0 0 0 0) false) b (tokOf 0x103D) (tokOf 7)) ∧ fireCauses u.dev 0 (u.hart 0) [a] = some (0x12, a)) ∧
    (let u := fires1 (.aadd 0 7 0 0 0 1 0) (tokOf 0x1004) (tokOf 7)
     let a : Probe := { zone := 0, va := 0x1004, size := 8, good := false, rd := true, wr := true, stack := true }
     (∃ b, Fires u (formOf (.aadd 0 7 0 0 0 1 0) false) b (tokOf 0x1004) (tokOf 7)) ∧ fireCauses u.dev 0 (u.hart 0) [a] = some (0x12, a)) ∧
    (let x : Vec := { v := [], tag := [], vl := 1, vtype := 1 }
     let h : Hart := { core1 with vec := x }
     let q (wr : Bool) : Probe := { zone := 0, va := 0x1001, size := 4, good := false, rd := !wr, wr := wr, stack := true }
     (∀ i ∈ [Instr.ldv 0 0 2 0 0 0, .stv 0 0 2 0 0 0], ∃ b, Fires (firing h b) (formOf i true) b (tokOf 0x1001) tokNull) ∧
     (∀ wr, vecProbes x 1 2 0 0 0x1001 0 wr = [q wr] ∧ fireCauses Dev.reset 0 h [q wr] = some (0x12, q wr))) :=
  ⟨⟨_, fires_of_canFire (by decide)⟩, by decide, ⟨⟨_, fires_of_canFire (by decide)⟩, by decide⟩, ⟨⟨_, fires_of_canFire (by decide)⟩, by decide⟩,
   ⟨⟨_, fires_of_canFire (by decide)⟩, by decide⟩, fun i hi => ⟨oneBlock i [(0, tokOf 0x1001)], fires_of_canFire (by simp at hi; rcases hi with rfl | rfl <;> decide)⟩, by decide⟩

/-- A core whose vector registers 1 to 5 carry VTYPE `t`, register 6 a mask, 7 tag I16 and 8 tag I32; VL is 4. -/
def vecCore (t : BitVec 4) : Hart :=
  { core1 with vec := { v := [], tag := [(1, t), (2, t), (3, t), (4, t), (5, t), (6, 14), (7, 11), (8, 10)].filter (fun p => p.2 != 0), vl := 4, vtype := t } }

/-- Each vector instruction can fire there, with the tag check `ok` met. -/
def VecRun (ok : VEnv → Vec → Prop) (is : List Instr) : Prop :=
  ∀ i ∈ is, ∃ s b l r, Fires s (formOf i true) b l r ∧ ¬(operandCount i = 1 ∧ l.null = true) ∧ ok (s.vecEnv b) (b.ctxOf (s.hart s.dev.focus.hart))

theorem vec_run {h : Hart} {ok : VEnv → Vec → Prop} {is : List Instr}
    (c : is.all (fun i => canRun h (tokOf 2) (tokOf 2) true i) = true)
    (k : ∀ e, ok e h.vec) : VecRun ok is := by
  intro i hi
  refine ⟨_, _, _, _, fires_of_canFire (List.all_eq_true.mp c i hi), ?_, k _⟩
  rintro ⟨h1, h2⟩
  simp [operandOr, h1, tokOf] at h2

theorem witness_VectorArithmetic : VecRun (fun _ x => carries arithTags [2, 3] x)
    [.vadd 0 1 2 3 0, .vsub 0 1 2 3 0, .vrsub 0 1 2 3 0, .vmul 0 1 2 3 0, .vdiv 0 1 2 3 0, .vabsd 0 1 2 3 0, .vmin 0 1 2 3 0, .vmax 0 1 2 3 0] :=
  vec_run (h := vecCore 10) (by decide) fun _ => by unfold carries; decide
theorem witness_VectorFusedAndDotProducts : VecRun (fun _ x => carries wideFloatTags [2, 3, 1] x)
    [.vfma 0 1 2 3 0, .vfms 0 1 2 3 0, .vfnma 0 1 2 3 0, .vfnms 0 1 2 3 0] ∧
    VecRun (fun _ x => carries [tagI8] [2, 3] x ∧ x.tagOf 8 = tagI32) [.vdoti8 0 8 2 3 0] ∧
    VecRun (fun _ x => carries [tagI4] [2, 3] x ∧ x.tagOf 8 = tagI32) [.vdoti4 0 8 2 3 0] :=
  ⟨vec_run (h := vecCore 1) (by decide) fun _ => by unfold carries; decide, vec_run (h := vecCore 12) (by decide) fun _ => by unfold carries; decide,
   vec_run (h := vecCore 13) (by decide) fun _ => by unfold carries; decide⟩
theorem witness_VectorLogicShiftsAndCompares : VecRun (fun _ x => x.tagOf 2 ∈ logicTags ∧ x.tagOf 3 = x.tagOf 2 ∧ (x.tagOf 2 ≠ tagMask → x.tagOf 2 = x.vtype.toNat))
    [.vand 0 1 2 3 0, .vor 0 1 2 3 0, .vxor 0 1 2 3 0, .vandn 0 1 2 3 0, .vnot 0 1 2 0] ∧
    VecRun (fun _ x => carries [tagI32, tagI16, tagI8] [2, 3] x) [.vshl 0 1 2 3 0, .vshr 0 1 2 3 0, .vshra 0 1 2 3 0] ∧
    VecRun (fun _ x => carries arithTags [2, 3] x) [.vcmp 0 1 2 3 7 0] :=
  ⟨vec_run (h := vecCore 10) (by decide) fun _ => by decide, vec_run (h := vecCore 10) (by decide) fun _ => by unfold carries; decide,
   vec_run (h := vecCore 10) (by decide) fun _ => by unfold carries; decide⟩
theorem witness_VectorPermutes : VecRun (fun _ x => x.tagOf 6 = tagMask ∧ x.tagOf 3 = x.tagOf 2) [.vsel 0 6 2 3 0] ∧
    VecRun (fun _ x => x.tagOf 6 = tagMask) [.vcmpct 0 1 2 6 0] ∧ VecRun (fun _ x => x.tagOf 8 = tagI32) [.vpermx 0 1 2 8 0] ∧
    VecRun (fun _ x => x.tagOf 3 = x.tagOf 2) [.vzip 0 1 2 3 0, .vunzip 0 1 2 3 0] ∧
    VecRun (fun _ _ => True) [.vmov 0 1 2 0, .vslideup 0 1 2 31 0, .vslidedn 0 1 2 31 0] :=
  ⟨vec_run (h := vecCore 1) (by decide) fun _ => by decide, vec_run (h := vecCore 1) (by decide) fun _ => by decide,
   vec_run (h := vecCore 1) (by decide) fun _ => by decide, vec_run (h := vecCore 1) (by decide) fun _ => by decide,
   vec_run (h := vecCore 1) (by decide) fun _ => trivial⟩
theorem witness_VectorReductionsAndScans : VecRun (fun _ x => carries arithTags [2] x)
    [.rsum 0 7 2 0, .rmax 0 7 2 0, .rmin 0 7 2 0, .rsumw 0 7 2 0, .vscanSum 0 1 2 0, .vscanMax 0 1 2 0, .vscanMin 0 1 2 0] ∧
    VecRun (fun _ x => x.tagOf 6 = tagMask) [.rcount 0 7 6 0, .rfirst 0 7 6 0] ∧
    VecRun (fun _ x => carries arithTags [2] x ∧ x.tagOf 6 = tagMask) [.vscanSegsum 0 1 2 6 0] :=
  ⟨vec_run (h := vecCore 1) (by decide) fun _ => by unfold carries; decide, vec_run (h := vecCore 1) (by decide) fun _ => by decide,
   vec_run (h := vecCore 1) (by decide) fun _ => by unfold carries; decide⟩
theorem witness_VectorFunctions : VecRun (fun _ x => carries funcTags [2] x)
    [.exp2 0 1 2 0, .log2 0 1 2 0, .rcp 0 1 2 0, .rsq 0 1 2 0, .sqrt 0 1 2 0, .tanh 0 1 2 0, .sigm 0 1 2 0, .erf 0 1 2 0] :=
  vec_run (h := vecCore 1) (by decide) fun _ => by unfold carries; decide
theorem witness_VectorConversions : VecRun (fun _ x => x.tagOf 2 ∉ [tagNone, tagCB2, tagMask]) [.vcvt 0 1 2 15 6 0] ∧
    VecRun (fun _ x => carries funcTags [2] x ∧ x.tagOf 7 = tagI16) [.vscl 0 1 2 7 0] ∧
    VecRun (fun _ x => widerOf (x.tagOf 2) = some tagI16) [.unpklo 0 1 2 0, .unpkhi 0 1 2 0] ∧
    VecRun (fun _ x => widerOf x.vtype.toNat = some tagI16 ∧ x.tagOf 7 = tagI16 ∧ x.tagOf 7 = tagI16) [.pack 0 1 7 7 0] :=
  ⟨vec_run (h := vecCore 1) (by decide) fun _ => by decide, vec_run (h := vecCore 1) (by decide) fun _ => by unfold carries; decide,
   vec_run (h := vecCore 12) (by decide) fun _ => by decide, vec_run (h := vecCore 12) (by decide) fun _ => by decide⟩
theorem witness_VectorQuantisation :
    let h : Hart := { core1 with vec := { v := [], tag := [(2, 2), (3, 9), (7, 11)], vl := 4, vtype := 4 } }
    VecRun (fun _ x => x.tagOf 2 ∈ funcTags ∧ x.tagOf 7 = tagI16 ∧ x.vtype.toNat ∈ quantTags) [.vqnt 0 1 2 7 0, .vamax 0 1 2 0] ∧
    VecRun (fun _ x => x.tagOf 3 = tagCB2 ∧ x.vtype.toNat = tagBF16) [.vdeq 0 1 3 7 0] ∧ h.vec.vl = 4 :=
  ⟨vec_run (h := { core1 with vec := { v := [], tag := [(2, 2), (3, 9), (7, 11)], vl := 4, vtype := 4 } }) (by decide) fun _ => by decide,
   vec_run (h := { core1 with vec := { v := [], tag := [(2, 2), (3, 9), (7, 11)], vl := 4, vtype := 2 } }) (by decide) fun _ => by decide, rfl⟩
theorem witness_VectorLengthElementsAndTags : VecRun (fun _ _ => True)
    [.vsetl 0 7 15 0, .vgetl 0 7 0 0, .vextr 0 7 2 0, .gettag 0 7 2 0, .settag 0 2 0, .clrtag 0 2 0] ∧
    VecRun (fun _ x => x.vtype.toNat ≠ tagNone) [.vbcast 0 2 0] ∧ VecRun (fun _ x => x.vtype.toNat ∉ [tagNone, tagCB2, tagMask]) [.vidx 0 2 0] :=
  ⟨vec_run (h := vecCore 1) (by decide) fun _ => trivial, vec_run (h := vecCore 1) (by decide) fun _ => by decide,
   vec_run (h := vecCore 1) (by decide) fun _ => by decide⟩
theorem witness_VectorLengthElementsAndTags_early : ∃ s b, Fires s (formOf (.vsetl 0 7 15 0) false) b (tokOf 2) tokNull :=
  ⟨_, _, fires_of_canFire (h := vecCore 1) (b := oneBlock (.vsetl 0 7 15 0) [(0, tokOf 2)]) (by decide)⟩
theorem witness_VectorTagMismatchFaults : VecRun (fun _ x => ¬carries arithTags [2, 7] x)
    [.vadd 0 1 2 7 0, .vsub 0 1 2 7 0, .vrsub 0 1 2 7 0, .vmul 0 1 2 7 0, .vdiv 0 1 2 7 0, .vmin 0 1 2 7 0, .vmax 0 1 2 7 0, .vabsd 0 1 2 7 0, .vcmp 0 1 2 7 0 0] ∧
    VecRun (fun _ x => ¬carries arithTags [7] x) [.rsum 0 7 7 0, .rmax 0 7 7 0, .rmin 0 7 7 0, .vscanSum 0 1 7 0] ∧
    VecRun (fun _ x => ¬carries funcTags [7] x) [.exp2 0 1 7 0, .erf 0 1 7 0] ∧ VecRun (fun _ x => ¬carries wideFloatTags [2, 7, 1] x) [.vfma 0 1 2 7 0] ∧
    VecRun (fun _ x => ¬x.tagOf 2 = tagMask) [.rcount 0 7 2 0, .rfirst 0 7 2 0, .vcmpct 0 1 3 2 0, .vscanSegsum 0 1 3 2 0] ∧
    VecRun (fun _ x => ¬(x.tagOf 1 = tagMask ∧ x.tagOf 3 = x.tagOf 2)) [.vsel 0 1 2 3 0] ∧
    VecRun (fun _ x => ¬(carries [tagI8] [2, 7] x ∧ x.tagOf 1 = tagI32) ∧ ¬(carries [tagI4] [2, 7] x ∧ x.tagOf 1 = tagI32)) [.vdoti8 0 1 2 7 0, .vdoti4 0 1 2 7 0] ∧
    VecRun (fun _ x => ¬(x.tagOf 2 ∈ logicTags ∧ x.tagOf 7 = x.tagOf 2)) [.vand 0 1 2 7 0, .vor 0 1 2 7 0, .vxor 0 1 2 7 0, .vandn 0 1 2 7 0, .vzip 0 1 2 7 0, .vunzip 0 1 2 7 0] ∧
    VecRun (fun _ x => ¬(x.tagOf 7 ∈ logicTags ∧ x.tagOf 7 = x.vtype.toNat)) [.vnot 0 1 7 0] ∧ VecRun (fun _ x => ¬carries [tagI32, tagI16, tagI8] [2, 7] x) [.vshl 0 1 2 7 0, .vshra 0 1 2 7 0] ∧
    VecRun (fun _ x => ¬x.tagOf 2 = tagI32) [.vpermx 0 1 3 2 0] ∧
    VecRun (fun _ x => ¬x.tagOf 6 ∉ [tagNone, tagCB2, tagMask]) [.vcvt 0 1 6 15 6 0] ∧ VecRun (fun _ x => ¬(x.tagOf 2 = tagCB2 ∧ x.vtype.toNat = tagBF16)) [.vdeq 0 1 2 7 0] ∧
    VecRun (fun _ x => ¬(x.tagOf 2 ∈ funcTags ∧ x.tagOf 3 = tagI16)) [.vscl 0 1 2 3 0, .vqnt 0 1 2 3 0] ∧ VecRun (fun _ x => ¬(x.tagOf 2 ∈ funcTags ∧ x.vtype.toNat ∈ quantTags)) [.vamax 0 1 2 0] ∧
    VecRun (fun _ x => ¬∃ u, widerOf x.vtype.toNat = some u ∧ x.tagOf 2 = u ∧ x.tagOf 7 = u) [.pack 0 1 2 7 0] ∧ VecRun (fun _ x => ¬∃ u, widerOf (x.tagOf 6) = some u) [.unpklo 0 1 6 0, .unpkhi 0 1 6 0] ∧
    (let h := vecCore 0
     (∀ i ∈ [Instr.vbcast 0 2 0, .vidx 0 2 0], canRun h (tokOf 2) tokNull true i = true) ∧ h.vec.vtype.toNat = tagNone) ∧
    -- vector accesses: elements below 8 bits in a strided form, an index register without I32, data that carries another tag than VTYPE
    (tagBits (vecCore 13).vec.vtype.toNat < 8 ∧ (vecCore 1).vec.tagOf 2 ≠ tagI32 ∧ (vecCore 1).vec.tagOf 7 ≠ (vecCore 1).vec.vtype.toNat ∧ (vecCore 1).vec.tagOf 7 ≠ tagNone ∧
     VecRun (fun _ _ => True) [.ldvStr 0 0 2 0 0 0, .ldvIdx 0 0 2 0 0 0, .stv 0 0 7 0 0 0, .stvIdx 0 0 1 0 0 0]) :=
  ⟨vec_run (h := vecCore 1) (by decide) fun _ => by unfold carries; decide, vec_run (h := vecCore 1) (by decide) fun _ => by unfold carries; decide,
   vec_run (h := vecCore 1) (by decide) fun _ => by unfold carries; decide, vec_run (h := vecCore 1) (by decide) fun _ => by unfold carries; decide,
   vec_run (h := vecCore 1) (by decide) fun _ => by decide, vec_run (h := vecCore 1) (by decide) fun _ => by decide,
   vec_run (h := vecCore 1) (by decide) fun _ => by unfold carries; decide, vec_run (h := vecCore 1) (by decide) fun _ => by decide, vec_run (h := vecCore 1) (by decide) fun _ => by decide,
   vec_run (h := vecCore 1) (by decide) fun _ => by unfold carries; decide, vec_run (h := vecCore 1) (by decide) fun _ => by decide, vec_run (h := vecCore 1) (by decide) fun _ => by decide,
   vec_run (h := vecCore 1) (by decide) fun _ => by decide, vec_run (h := vecCore 1) (by decide) fun _ => by decide, vec_run (h := vecCore 1) (by decide) fun _ => by decide,
   vec_run (h := vecCore 1) (by decide) fun _ => by rintro ⟨u, h1, h2, h3⟩; exact absurd (h2.trans h3.symm) (by decide), vec_run (h := vecCore 1) (by decide) fun _ => by rintro ⟨u, h⟩; exact Option.some_ne_none u (h.symm.trans (by decide)),
   ⟨by decide, by decide⟩,
   by decide, by decide, by decide, by decide, vec_run (h := vecCore 1) (by decide) fun _ => trivial⟩
theorem witness_VectorStoresAreHeldInElementOrder :
    let s := firing (vecCore 1) (oneBlock (.stv 0 0 2 0 0 0) [(0, tokOf 0x1000), (2, tokOf 1)])
    VecRun (fun e x => firstClash (vecChecks e x 3 1 2 true) = none) [.stv 0 0 2 0 0 0, .stvStr 0 0 2 0 0 0] ∧
    clear s (vecProbes ((vecCore 1).vec) 1 3 1 0 0x1000 8 true) ∧
    -- the elements in zone 0x80, which no tables map
    (fireCauses s.dev 0 (s.hart 0) (vecProbes ((vecCore 1).vec) 1 3 1 0x80 0x1000 8 true)).isSome = true :=
  ⟨vec_run (h := vecCore 1) (by decide) fun _ => rfl, by unfold clear; decide, by decide⟩
end Sys2Proof.Machine.Tests

namespace Sys2Proof.Machine.Tests

/-- The first pages of context 0, zone 0 translated at the homes, readable and writable. -/
def pageMap (x : Bool) : List Tlb :=
  (upTo 4).map fun p => { ctx := 0, zone := 0, page := p, frame := p, leaf := 0, dset := true, attr := { r := true, w := true, x := x, e := false, cls := 2, size := 0 } }

/-- A device that is ready, with those pages and core 0 as given. -/
def ready0 (h : Hart) : State :=
  let s : State := { State.reset with dev := { Dev.reset with ready := 0x7FFFFF, tlb := pageMap true } }
  s.setHart 0 h

def withDev (s : State) (f : Dev → Dev) : State := { s with dev := f s.dev }

/-- An access that answers so has an equation of the form the statements ask. -/
theorem reads_of {α β : Type} {x : α × β} {y : β} (h : x.2 = y) : ∃ t, x = (t, y) := ⟨x.1, Prod.ext rfl h⟩

/-- Four parts of a conjunction at once. -/
theorem and4 {p q r t u : Prop} (h : p ∧ q ∧ r ∧ t) (k : u) : p ∧ q ∧ r ∧ t ∧ u := ⟨h.1, h.2.1, h.2.2.1, h.2.2.2, k⟩

theorem reads_then {α β : Type} {x : α × β} {y : β} {P : α → Prop} (h : x.2 = y) (k : P x.1) : ∃ t, x = (t, y) ∧ P t := ⟨x.1, Prod.ext rfl h, k⟩

theorem witness_StepRunsWhatComesNext :
    let b := oneBlock (.add 1 7 127 0) [(0, tokOf 1), (1, tokOf 2)]
    let s := firing core1 b
    (∃ w, (s.hart 0).block 0 = some b ∧ b.code[0]? = some w ∧ decodeWord w = some (.add 1 7 127 0)) ∧
    (∃ w : Word, w.toNat % 128 = 11 ∧ decodeWl w = .ok (.wlPoll 11 10)) ∧ (∃ (w : Word) (k : _), w.toNat % 128 = 11 ∧ decodeWl w = .no k) ∧
    -- csrrw a0, 0x5C0, a1, and another instruction
    wlctxWord 0x5C059573 = some (1, 10, 11) ∧ wlctxWord 0x13 = none ∧
    s.dev.halted = false ∧ (ready0 core1).dev.ready.getLsbD 19 = true ∧ ((ready0 core1).dev.app 0).wait.any (fun w => w.kind != 1 && w.kind != 3) = false :=
  ⟨⟨_, by decide, rfl, by decide⟩, ⟨0x0005A50B, by decide, by decide⟩, ⟨0x0005F50B, _, by decide, rfl⟩, by decide, by decide, rfl, by decide, by decide⟩
/-- addi x1, x0, 0 executes and the core goes on; a choice that names values leaves them, with x0 zero. -/
theorem test_riscV_word_runs : ∃ t, runLive (.app 0 0x93) (ready0 core1) = .next t := ⟨_, rfl⟩
theorem test_riscV_leaves : let t := (ready0 core1).riscVLeaves 0 { user := true, x := [(0, 5), (1, 7)], pc := 0x80, f := [], v := [], csr := [] }
    (t.dev.app 0).x = [(1, 7)] ∧ (t.dev.app 0).pc = 0x80 ∧ (t.dev.app 0).user = true := by decide
theorem witness_StoppedDeviceMovesOnlyByReset :
    let s : State := { withDev State.reset (fun d => { d with halted := true }) with agenda := [.event (.lasterrRead 0)] }
    s.dev.halted = true ∧ (∃ t, step s = .next t) ∧ ∀ cs, s.agenda ≠ .event .deviceReset :: cs := ⟨rfl, ⟨_, rfl⟩, fun _ h => by cases h⟩
theorem witness_EveryStepKeepsTheMemoriesCanonical :
    let s : State := { State.reset with mem := [(5, 1)], agenda := [.event (.memorySoftError 64 true)] }
    Memory.wf s.mem = true ∧ Memory.wf s.host = true ∧ Memory.wf s.peer = true ∧ ∃ t, step s = .next t := ⟨by decide, by decide, by decide, _, rfl⟩
theorem witness_NullifiedInstructionsOnlyResolve :
    let i : Instr := .ldw 0 7 0 0 0 1
    let b := oneBlock i [(0, tokOf 0x1000), (2, tokOf 0)]
    let s := firing core1 b
    isWelit i = true ∧ Nullified s (formOf i false) b ∧ (∀ zs, (s.hart s.dev.focus.hart).zoneFor s.dev.focus.tag zs ≠ none) := by
  refine ⟨by decide, ⟨by decide, .inl rfl, rfl, rfl, rfl, fun _ => by decide, fun _ _ => rfl, by decide, ⟨by decide, ?_⟩, fun _ => by decide, by decide⟩, ?_⟩
  · exact ⟨tokOf 0, by decide, .inr (by decide)⟩
  · intro zs; exact Option.some_ne_none _
theorem witness_FiringChangesOnlyTheBlocksInFlight : isWelit (.add 1 7 127 0) = true ∧ ∃ t, exec (.add 1 7 127 0) (fires1 (.add 1 7 127 0) (tokOf 1) (tokOf 2)) = .next t :=
  ⟨by decide, _, rfl⟩
theorem witness_MaskedWritesChangeOnlyTheirBits : Memory.wf [(5, 1)] = true ∧ (setMasked [(5, 1)] 5 [(0, 1)] : SMap Byte) = [] := ⟨by decide, by decide⟩

/-- An application core with its port enabled; register 1 holds `r`. -/
def portCore (r : Dbl) (mem : SMap Byte) (q : List Cmd) : State :=
  let s := ready0 core1
  { withDev s (fun d => d.setApp 0 { App.reset with wlctx := 0x2000, x := [(1, r)], queue := q }) with mem := mem }

theorem witness_ApplicationCoreInstructions :
    let s := portCore 0x1000 [(0x1020, 3)] []
    let a := s.dev.app 0
    a.wlctx.getLsbD 13 = true ∧ a.wait = none ∧ (a.reg 1).toNat % 64 = 0 ∧ a.queue.length < 64 ∧ a.out.length < 256 ∧
    (∃ t, s.readHome 0 0 0 (a.reg 1 + 32) 1 = (t, .bytes [3])) ∧ (∃ t, s.wlReads a [a.reg 1] = (t, [(a.reg 1, .bytes [3])])) ∧ Access.number (.bytes [3]) = some 3 ∧
    (∃ t, (portCore 0x1000 [] []).readHome 0 0 0 0x1020 1 = (t, .bytes [0])) ∧
    (∃ t, (portCore 0x9000 [] []).readHome 0 0 0 0x9020 1 = (t, .fault 0x15 0)) ∧
    ((portCore 0x1001 [] []).dev.app 0).reg 1 = 0x1001 ∧ State.reset.dev.app 0 = App.reset :=
  ⟨by decide, rfl, by decide, by decide, by decide, reads_of (by decide), reads_of (by decide), by decide, reads_of (by decide), ⟨_, Prod.ext rfl (by decide)⟩, by decide, rfl⟩

/-- A block of one BRI that leaves by a branch to 0x2000. -/
def exitBlock (br : Branch) : Block := { oneBlock (.bri 0) [(0, tokOf 0x2000)] with fired := [0], branch := some (0, br) }

/-- All that Commits asks of a hart whose one block is `b`, as one decidable statement. -/
theorem commits_of {s : State} {n : Nat} {b : Block} {br : Branch}
    (h : s.committing n = some (b, 0, br) ∧ (s.hart n).commitNotice b br = none ∧ needsSpill (s.hart n) b br = false ∧ b.breaks = [] ∧ (s.hart n).pending = [] ∧
      (s.hart n).halting = false ∧ (s.hart n).stepping = false ∧ (s.hart n).leaving = false ∧ (s.hart n).reserve = none ∧ (s.mt (placeOfHart n)).waiting = []) :
    Commits s n 0 b br :=
  ⟨h.1, h.2.1, h.2.2.1, h.2.2.2.1, h.2.2.2.2.1, h.2.2.2.2.2.1, h.2.2.2.2.2.2.1, h.2.2.2.2.2.2.2.1, h.2.2.2.2.2.2.2.2.1, h.2.2.2.2.2.2.2.2.2⟩

/-- Core 0 of a ready device with one block that leaves to 0x2000. -/
def leaves (b : Block) : State := ready0 { core1 with run := .running, rstk := [0x4000], blocks := [b] }
def heldStore (zone : Nat) (rel : Bool) : St := { idx := 3, lsid := 0, ord := 0, zone := zone, va := 0x1000, data := full (natLe 8 5), rel := rel }

theorem witness_CommitWritesTheRegisters :
    (∀ br ∈ [Branch.goto 0x2000, .call 0x2000 0x3000, .ret 0x4000 false, .scall 0x2000 7, .taskend, .yield 0x2000],
      Commits (leaves (exitBlock br)) 0 0 (exitBlock br) br) ∧
    (let h : Hart := { core1 with run := .running, spilled := 1, blocks := [exitBlock (.ret 0x4000 true)] }
     Commits (ready0 h) 0 0 (exitBlock (.ret 0x4000 true)) (.ret 0x4000 true)) ∧
    (let s := (ready0 core1).setHart 1024 { Hart.reset with run := .running, blocks := [exitBlock .taskend] }
     Commits s 1024 0 (exitBlock .taskend) .taskend ∧ isEngine 1024 = true ∧ (s.hart 1024).busy = 0) ∧
    (leaves (exitBlock .taskend)).liveState 0 = false ∧
    -- held stores, one to the own scratchpad, and a push and a pop
    (∀ st ∈ [heldStore 0 false, heldStore 0xFE false, heldStore 0xFE true],
      let b := { exitBlock (.goto 0x2000) with stores := [st] }
      Commits (leaves b) 0 0 b (.goto 0x2000)) ∧
    ownScratch 0 0x1000 = false ∧ ownScratch 0xFE 0x1000 = true ∧
    (let b := { exitBlock (.goto 0x2000) with stores := [heldStore 0xFE false] }
     ∃ t, ((leaves b).setHart 0 (((leaves b).hart 0).withBlock b)).storeAs 0 0xFE 0x1000 (full (natLe 8 5)) 0 = (t, .bytes [])) ∧
    (let b := { exitBlock (.goto 0x2000) with hdr := [0, 0, 0, 0x8048], toks := [(3, tokOf 7)], pops := [0] }
     Commits (leaves b) 0 0 b (.goto 0x2000) ∧ b.pushes = [(8, 7)]) ∧
    -- one effect of each kind
    (∀ e ∈ [Eff.wrsys 0 0x1F, .wrsys 2 5, .wrsys 3 0x10, .wrsys 8 0, .wrsysNull 0, .fence 0 0, .fence 3 4, .cache true 0 0x1000 64, .ibar, .spawn 0x2000 0x3000, .width 2,
        .launch 0x1000, .jadd 0 0x1000 1, .alinv 0 0 0x1000, .mshape 1 1, .mtscl 0 1 1, .pcfg 0 0x300, .mzero 0xFF] ++
        [.lncfg 15 7 0 0x1000, .chcfg 15 1 0 0 5, .chcfg 0 1 0 15 5, .chcfgAge 8 7, .chclr 15 true],
      let b := { exitBlock (.goto 0x2000) with effs := [(0, e)] }
      Commits (leaves b) 0 0 b (.goto 0x2000) ∧ (leaves b).changeBlocked 0 [] e = false ∧ ((leaves b).hart 0).mout = []) ∧
    (let b := { exitBlock (.goto 0x2000) with effs := [(0, .cbld (List.replicate 1024 0))] }
     Commits (leaves b) 0 0 b (.goto 0x2000)) := by
  refine ⟨?_, commits_of (by decide), ⟨commits_of (by decide), by decide, by decide⟩, by decide, ?_, by decide, by decide, reads_of (by decide), ⟨commits_of (by decide), by decide⟩, ?_, commits_of (by decide +kernel)⟩
  · intro br h
    simp only [List.mem_cons, List.not_mem_nil, or_false] at h
    rcases h with rfl | rfl | rfl | rfl | rfl | rfl <;> exact commits_of (by decide +kernel)
  · intro st h
    simp only [List.mem_cons, List.not_mem_nil, or_false] at h
    rcases h with rfl | rfl | rfl <;> exact commits_of (by decide +kernel)
  · intro e h
    have all : (let s := leaves { exitBlock (.goto 0x2000) with effs := [(0, e)] }
        let b : Block := { exitBlock (.goto 0x2000) with effs := [(0, e)] }
        s.committing 0 = some (b, 0, .goto 0x2000) ∧ (s.hart 0).commitNotice b (.goto 0x2000) = none ∧ s.changeBlocked 0 [] e = false) := by
      simp only [List.cons_append, List.nil_append, List.mem_cons, List.not_mem_nil, or_false] at h
      rcases h with rfl | rfl | rfl | rfl | rfl | rfl | rfl | rfl | rfl | rfl | rfl | h
      all_goals try decide +kernel
      rcases h with rfl | rfl | rfl | rfl | rfl | rfl | rfl | rfl | rfl | rfl | rfl | rfl <;> decide +kernel
    exact ⟨commits_of ⟨all.1, all.2.1, rfl, rfl, rfl, rfl, rfl, rfl, rfl, rfl⟩, all.2.2, rfl⟩
theorem witness_FetchMapsTheCheckedBlock :
    let s := ready0 { core1 with run := .running, next := 0x1000 }
    s.mayFetch 0 = true ∧ (s.hart 0).fetchAddr none = some 0x1000 ∧ (s.hart 0).freeTag = some 0 ∧
    (∃ s1, s.fetchPart 0 0x1000 32 = (s1, .words (List.replicate 32 0))) ∧ hdrRows (List.replicate 32 0) = 1 ∧
    formatFault false (List.replicate 32 0) [] = some 0 ∧ formatFault false (0xA5000000 :: List.replicate 31 0) (0x02000020 :: List.replicate 15 0) = none ∧
    (∃ s1 f, (ready0 { core1 with run := .running, next := 0x8000 }).fetchPart 0 0x8000 32 = (s1, .fault f)) :=
  ⟨by decide, by decide, by decide, ⟨_, Prod.ext rfl (by decide)⟩, by decide, by decide, by decide +kernel, ⟨_, _, Prod.ext rfl rfl⟩⟩
theorem witness_FaultsAndReturnStackSpills :
    let b := { oneBlock (.bri 0) [] with faults := [plainFault 0x40 0] }
    let c := exitBlock (.call 0x2000 0x3000)
    let h : Hart := { core1 with run := .running, blocks := [c], rstk := List.replicate 8 0x4000, stklim := 0x2000 }
    let s := ready0 h
    pickFault b.faults = some (plainFault 0x40 0) ∧ (oneBlock (.bri 0) []).stuck = true ∧ 
    s.committing 0 = some (c, 0, .call 0x2000 0x3000) ∧ needsSpill h c (.call 0x2000 0x3000) = true ∧
    h.noticeFor 0 ((spillSlot h 0).toNat / 4096) = none ∧ s.postedTouches 0 0 (spillSlot h 0) 8 = false ∧
    h.waitNotice = none ∧ ({ core1 with run := .running, pending := [plainFault 0x74 0xFFFF] } : Hart).waitNotice = none ∧ h.storesHeld = false ∧
    ({ core1 with pending := [plainFault 0x70 0xFFFF] } : Hart).run = .idle ∧
    ∃ t, (s.countWalk 0 0 (spillSlot h 0)).writeHome 0 0 0 (spillSlot h 0) (full (natLe 8 0x4000)) (hartWriter 0 0) = (t, .bytes []) :=
  ⟨by decide, by decide, by decide, by decide, by decide, by decide, rfl, rfl, by decide, rfl, reads_of (by decide)⟩
/-- R373: a packet is 64 bytes, CAUSE first, and WORD 0xFFFF in bytes 10 and 11. -/
theorem test_packet_bytes : let bs := (packetOf State.reset.dev 5 Hart.reset none (plainFault 0x74 0xFFFF) true false).bytes
    bs.length = 64 ∧ bs.take 2 = [0x74, 0x10] ∧ (bs.drop 8).take 4 = [5, 0, 0xFF, 0xFF] := by decide
theorem witness_TaskSteps_copied : let s := State.reset.setDeque 0 { Deque.reset with reply := some true, copy := some [] }
    (s.deque 0).reply = some true ∧ (s.deque 0).copy = some [] := by decide
theorem witness_SlateQueuesKeepTheirOrder : ∃ p : Packet,
    let s := withDev State.reset fun d => { d with senders := [(1, p), (0, p)] }
    s.dev.senders = [(1, p)] ++ (0, p) :: [] ∧ (∀ x ∈ [(1, p)], x.1 ≠ 0) ∧ (mget [] s.dev.slateq 0).length < 64 ∧
    64 ≤ (mget [] (mset [] s.dev.slateq 0 (List.replicate 64 p)) 0).length ∧ State.reset.dev.senders.any (fun x => x.1 == 0) = false :=
  ⟨agentPacket Dev.reset 0 0 0 0 0 0 0 0 0, rfl, by simp, by decide, by decide, rfl⟩
end Sys2Proof.Machine.Tests

namespace Sys2Proof.Machine.Tests

def runs (h : Hart) (b : Block) : State := ready0 { h with run := .running, blocks := [b] }

def withReq (b : Block) (k : ReqKind) : Block :=
  { b with fired := [0], reqs := [{ idx := 0, lsid := 0, ord := 0, zone := 0, va := 0x1038, t0 := 7, kind := k }] }

/-- The pending request of such a block, and a block and a state that hold it. -/
def reqOf (z : Nat) (va : Dbl) (k : ReqKind) : Req := { idx := 0, lsid := 0, ord := 0, zone := z, va := va, t0 := 7, kind := k }
def blkOf (z : Nat) (va : Dbl) (k : ReqKind) : Block := { oneBlock (.ldd 0 7 0 0 0 0) [] with fired := [0], reqs := [reqOf z va k] }
def asking (h : Hart) (z : Nat) (va : Dbl) (k : ReqKind) : State := runs h (blkOf z va k)

/-- A core with a dirty line, one with a deferred store of page 1, and one for a vector load of 4 BF16 elements. -/
def dirty1 : Hart := { core1 with l1d := [{ ctx := 0, zone := 0, line := 0x40, data := [], dirty := 1, bad := 0, home := none }] }
def note1 : Notice := { zone := 0, page := 1, cls := 1, cause := 0x15, line := 0x1000, seq := 0 }
def noticed1 : Hart := { core1 with notices := [note1] }
def vec1 : Hart := { core1 with vec := { v := [], tag := [], vl := 4, vtype := 1 } }

theorem witness_RepliesOfTheMemorySystem :
    let loads : List ReqKind := [.load 8 false, .refill, .vload 1 0 0 0 []]
    (∀ k ∈ loads ++ [.cbld], let s := asking vec1 0 0x1038 k
      s.pendingReq 0 0 0 = some (blkOf 0 0x1038 k, reqOf 0 0x1038 k) ∧ (s.hart 0).ordNotice (blkOf 0 0x1038 k) (reqOf 0 0x1038 k) = none ∧
      (s.hart 0).isOldest 0 = true ∧ (blkOf 0 0x1038 k).seen = []) ∧
    ((asking noticed1 0 0x1038 (.load 8 false)).hart 0).noticeFor 0 1 = some note1 ∧
    ((asking { noticed1 with notices := [{ note1 with cls := 1 }] } 0 0x1038 (.load 8 false)).hart 0).ordNotice (blkOf 0 0x1038 (.load 8 false)) { reqOf 0 0x1038 (.load 8 false) with ord := 2 } = some note1 ∧
    (let x := (blkOf 0 0x1038 .cbld).ctxOf vec1
     vecPieces x 1 1 0 0x1038 0 = [(0x1038, 8), (0x1040, 8)] ∧ partsAfter 0 [(0x1038, 8), (0x1040, 8)] = [(0x1038, 8), (0x1040, 8)] ∧
     partsAfter 8 [(0x1038, 8), (0x1040, 8)] = [(0x1040, 8)] ∧ (asking vec1 0 0x1038 (.vload 1 0 0 0 (List.replicate 8 0))).vecTake 1 = 1) ∧
    (∀ ps ∈ [[(0x1038, 8)], [(0x1040, 8)]], (asking vec1 0 0x1038 (.load 8 false)).freshened.loadTurn 0 (blkOf 0 0x1038 (.load 8 false)) (reqOf 0 0x1038 (.load 8 false)) ps = true) ∧
    (∃ t, (asking core1 0 0x1038 (.load 8 false)).readPieces 0 0 [(0x1038, 8)] = (t, .bytes (List.replicate 8 0)) ∧ ∀ y ∈ (t.hart 0).blocks, y.seen = []) ∧
    (∃ t, (asking core1 0 0x9000 (.load 8 false)).readPieces 0 0 [(0x9000, 8)] = (t, .fault 0x15 0)) := by
  refine ⟨by decide, by decide, by decide, by decide +kernel, by decide, reads_then (by decide) (by decide), ⟨_, Prod.ext rfl (by decide)⟩⟩

theorem witness_RepliesOfTheMemorySystem_waits :
    (∀ k ∈ [ReqKind.waitc 0 7 none, .waitc 1 7 none, .waitc 2 0 none, .waitc 2 0 (some 1), .mwait 0xFF, .acq 0 none],
      (asking core1 0 0x1000 k).pendingReq 0 0 0 = some (blkOf 0 0x1000 k, reqOf 0 0x1000 k)) ∧
    (let s := asking core1 0 0x1000 (.waitc 0 7 none)
     let h := s.hart 0
     h.isOldest 0 = true ∧ h.noticeIn 7 = none ∧ h.countsZero 7 = true ∧ h.acquireDone = true ∧ tensorsIssued (blkOf 0 0x1000 (.mwait 0xFF)) = true ∧
     h.busy.toNat &&& 0xFF = 0 ∧ (s.age 0 7).state ≠ 1 ∧ h.spawnsPending = false ∧ s.postedTouches 0 0 56 8 = false) ∧
    (let k : ReqKind := .vdone 1 0 0 (List.replicate 16 0)
     (asking vec1 0 0x1038 k).pendingReq 0 0 0 = some (blkOf 0 0x1038 k, reqOf 0 0x1038 k) ∧ (blkOf 0 0x1038 k).vsidTurn 0 = true) ∧
    (asking noticed1 0 0x1000 (.waitc 0 7 none) |>.hart 0).noticeIn 7 = some note1 ∧
    ((asking dirty1 0 0x1000 (.waitc 0 7 none)).hart 0).acquireDone = false ∧ ((asking dirty1 0 0x1000 (.waitc 0 7 none)).hart 0).wbackNotice = none ∧
    (let e := ready0 core1 |>.setHart 1024 { Hart.reset with run := .running, blocks := [blkOf 0 0x1000 (.waitc 2 0 none)] }
     e.pendingReq 1024 0 0 = some (blkOf 0 0x1000 (.waitc 2 0 none), reqOf 0 0x1000 (.waitc 2 0 none)) ∧ isEngine 1024 = true ∧ (e.hart 1024).isOldest 0 = true) ∧
    -- the join counter: zero, not zero, a fault of its walk, a deferred store
    (let s := asking core1 0 0x1000 (.waitc 2 0 none)
     isEngine 0 = false ∧ (s.hart 0).loadsHeld = false ∧ (s.hart 0).noticeFor 0 0 = none ∧
     (∃ t, (s.countWalk 0 0 56).target 0 0 0 56 8 true false = (t, .at (.dev 56) { r := true, w := true, x := true, e := false, cls := 2, size := 0 })) ∧
     leNat ((((s.learnPage 0 0 56 (.dev 56) { r := true, w := true, x := true, e := false, cls := 2, size := 0 }).binderBytes (.dev 56) none).drop 4).take 4) = 0 ∧
     leNat ((((({ s with mem := [(60, 2)] } : State).learnPage 0 0 56 (.dev 56) { r := true, w := true, x := true, e := false, cls := 2, size := 0 }).binderBytes (.dev 56) none).drop 4).take 4) ≠ 0) ∧
    (∃ t, ((asking { core1 with seg := 0x9000 } 0 0x1000 (.waitc 2 0 none)).countWalk 0 0 0x9038).target 0 0 0 0x9038 8 true false = (t, .fault 0x15 0)) ∧
    ((asking { noticed1 with seg := 0x1000 } 0 0x1000 (.waitc 2 0 none)).hart 0).noticeFor 0 1 = some note1 ∧
    -- ACQ: ready, not ready, a region in a reserved zone, a fault, a deferred store
    (let s := asking core1 0 0x1000 (.acq 0 none)
     let h := s.hart 0
     (blkOf 0 0x1000 (.acq 0 none)).lsidTurn 0 = true ∧ h.noticeIn 0 = none ∧ h.loadsHeld = false ∧ h.drained 0 = true ∧ h.noticeFor 0 1 = none ∧ h.thalt = false ∧
     s.postedTouches 0 0 0x1000 64 = false ∧
     (∃ t, (s.countWalk 0 0 0x1000).target 0 0 0 0x1000 64 true false = (t, .at (.dev 0x1000) { r := true, w := true, x := true, e := false, cls := 2, size := 0 })) ∧
     bytesReady (List.replicate 64 0) = true ∧ bytesReady (List.replicate 8 0 ++ [4] ++ List.replicate 55 0) = false ∧
     (binderRegions (List.replicate 8 0 ++ [1] ++ List.replicate 19 0 ++ [0xFD] ++ List.replicate 35 0)).find? (fun x => zoneOf x.2.2 == .invalid) = some (0, 0, 0xFD) ∧
     bytesReady (List.replicate 8 0 ++ [1] ++ List.replicate 19 0 ++ [0xFD] ++ List.replicate 35 0) = true ∧
     s.binderBytes (.dev 0x1000) none = List.replicate 64 0 ∧ (asking noticed1 0 0x1000 (.acq 0 none) |>.hart 0).noticeFor 0 1 = some note1) := by
  refine ⟨by decide, by decide, by decide, by decide, by decide, by decide, by decide, ⟨by decide, by decide, by decide, reads_of (by decide), by decide, by decide⟩,
    ⟨_, Prod.ext rfl (by decide)⟩, by decide, by decide, by decide, by decide, by decide, by decide, by decide, by decide, reads_of (by decide), by decide, by decide, by decide, by decide, by decide, by decide⟩

theorem witness_RepliesOfTheMemorySystem_atomics :
    let k : ReqKind := .atomic 0 8 4 5
    let b := blkOf 0 0x1038 k
    let r := reqOf 0 0x1038 k
    let s := asking core1 0 0x1038 k
    let h := s.hart 0
    s.pendingReq 0 0 0 = some (b, r) ∧ h.isOldest 0 = true ∧ b.lsidTurn 0 = true ∧ h.ordNotice b { r with ord := r.ord ||| scopeMask 4 } = none ∧ b.lowerDone 0 = true ∧
    h.fenced = false ∧ h.drained 0 = true ∧ h.anyDirty = false ∧ h.workDone (scopeMask 4) = true ∧ s.holdsLine 0 0 0x1038 = false ∧ s.postedTouches 0 0 0x1038 8 = false ∧ h.noticeFor 0 1 = none ∧
    ((asking noticed1 0 0x1038 k).hart 0).ordNotice b { r with ord := r.ord ||| scopeMask 4 } = some note1 ∧
    (∃ s1 l a, (s.countWalk 0 0 0x1038).target 0 0 0 0x1038 8 true false = (s1, .at l a) ∧ l.snooped s1.dev = false ∧ a.w = true) ∧
    (∃ t, (s.countWalk 0 0 0x9038).target 0 0 0 0x9038 8 true false = (t, .fault 0x15 0)) ∧
    -- an ACAS that finds its operand on a page without W, and one that does not
    (let u := withDev s fun d => { d with tlb := d.tlb.map fun t => { t with attr := { t.attr with w := false } } }
     ∃ s1 l a, (u.countWalk 0 0 0x1038).target 0 0 0 0x1038 8 true false = (s1, .at l a) ∧ a.w = false) ∧
    (atomicNew 9 8 0 0).isSome = true ∧ atomicNew 9 8 1 0 = none ∧
    (let k : ReqKind := .atomic 1 8 0 5
     let s := withDev (asking core1 0xF0 0x1038 k) fun d => { d with ctxc := [(0, List.replicate 19 0 ++ [0x80] ++ List.replicate 44 0)], ats := [{ ctx := 0, page := 1, rd := true, wr := true, size := 0, frame := 1 }] }
     s.pendingReq 0 0 0 = some (blkOf 0xF0 0x1038 k, reqOf 0xF0 0x1038 k) ∧ (s.hart 0).isOldest 0 = true ∧ (blkOf 0xF0 0x1038 k).lsidTurn 0 = true ∧ zoneOf 0xF0 = .host ∧
     ∃ s1 l a, s.xlate 0 0xF0 0x1038 true true = (s1, .ok l a)) := by
  refine and4 (by decide) (and4 (by decide) (and4 (by decide) ⟨by decide,
    ⟨_, .dev 0x1038, _, Prod.ext rfl rfl, by decide, rfl⟩, ⟨_, Prod.ext rfl (by decide)⟩, ⟨_, .dev 0x1038, _, Prod.ext rfl rfl, rfl⟩, by decide, by decide,
    by decide, by decide, by decide, by decide, _, _, _, Prod.ext rfl rfl⟩))

def item (w : PWhat) (st : Nat) : Posted := { cls := 1, ord := 0, what := w, status := st, seq := 0, cause := 0x15 }

theorem witness_CommittedWorkIsPerformed :
    let data : List (Byte × Byte) := full (natLe 8 5)
    let st (p : Posted) : State := ready0 { core1 with posted := [p] }
    let seg : Dbl := 0x1000
    (∀ p ∈ [item (.store 0 0x1038 data) 0, item (.store 0 0x9000 data) 0, item (.rel 0 0x1038 5) 0, item (.store 0xF0 0x1000 data) 0],
      (st p).readyItem 0 0 = some p ∧ (st p).joinsReplay 0 0 = none ∧ p.what.page.isSome = true) ∧
    (∃ t, (st (item (.store 0 0x1038 data) 0)).storeAs 0 0 0x1038 data 0 = (t, .bytes [])) ∧
    (∃ t, (st (item (.store 0 0x9000 data) 0)).storeAs 0 0 0x9000 data 0 = (t, .fault 0x15 0)) ∧
    (∃ t u, (st (item (.rel 0 0x1038 5) 0)).readBinder 0 0 0 0x1038 = (t, .regions []) ∧ (t.hart 0).regionDirty [] = false ∧ t.writeHome 0 0 0 0x1038 (full (natLe 8 5)) (hartWriter 0 0) = (u, .bytes [])) ∧
    ((st (item (.store 0 0x1038 data) 3)).hart 0).posted[0]? = some (item (.store 0 0x1038 data) 3) ∧
    (let s := withDev (st (item (.store 0 0x1038 data) 1)) fun d => { d with rplsel := [], rplrun := [(bankOf 0 0 1, [0])] }
     s.dev.rplEntries (bankOf 0 0 1) 0 = some (0, [0]) ∧ (item (.store 0 0x1038 data) 1).status = 1 ∧ mget [] s.dev.rplrun (bankOf 0 0 1) = 0 :: [] ∧ (0 : Dbl) ∉ mget [] State.reset.dev.rplrun 0) ∧
    (let s := ready0 { core1 with l1d := [{ ctx := 0, zone := 0, line := 0x40, data := [], dirty := 1, bad := 0, home := none }] }
     ((s.hart 0).findLine 0 0 0x40).isSome = true) ∧
    (let a : Age := { Age.reset with state := 1, fetch := some (0xF0, 0x1000) }
     ((ready0 core1).setAge 0 0 a).ageAccess 0 0 = some (5, 8, 0xF0, 0x1000) ∧ zoneOf 0xF0 = .host ∧ (ready0 core1).dev.pri = [] ∧
     zoneOf 1 = .fabric ∧ 1 ≠ (ready0 core1).dev.node) ∧
    (let s : State := { (ready0 core1).setDeque 0 { Deque.reset with decs := [(seg, 0, false)] } with mem := [(0x103C, 2)] }
     (s.deque 0).stopped = false ∧ (s.deque 0).decs = (seg, 0, false) :: [] ∧ ((s.setDeque 0 { s.deque 0 with decs := [] }).addJcount 0 0 seg (-1) Asker.none).2.cause = 0) ∧
    (let q : Deque := { Deque.reset with redo := [(true, seg, 0, false)] }
     q.stopped = false ∧ q.decs = [] ∧ q.redo = (true, seg, 0, false) :: []) := by
  refine ⟨by decide, ⟨_, Prod.ext rfl (by decide)⟩, ⟨_, Prod.ext rfl (by decide)⟩, ⟨_, _, Prod.ext rfl (by decide), by decide, Prod.ext rfl (by decide)⟩,
    rfl, ⟨?_, by decide, ?_⟩, rfl, by decide, by decide, by decide⟩
  · have k : (some (bankOf 0 0 1) == some (bankOf 0 0 1)) = true := beq_self_eq_true _
    show some (0, (((match ((1 == 1) && (some (bankOf 0 0 1) == some (bankOf 0 0 1)) : Bool) with | true => [0] | false => []).map
      (fun i => (Hart.turnOf { core1 with posted := [item (.store 0 0x1038 (full (natLe 8 5))) 1] } i, i))).foldl insertTurn []).map Prod.snd) = some (0, [0])
    rw [k]; rfl
  · exact ⟨by simp [mget, withDev], by simp [mget, State.reset, Dev.reset]⟩

/-- A held launch of context 0. -/
def launch0 : Held :=
  { record := 0x1000, ctx := 0, entry := 0x2000, arg := 0, binder := 0, prio := 0, cap := 5, whint := 1, domsz := 2, noage := false, stamp := 0,
    level := 0, since := 0, order := 1, via := 0, src := 0, srcN := 0 }

/-- A graph of two cores of width 1 at the north-west corner of cluster 0, rows `rows`. -/
def graph0 : Graph :=
  { id := 1, launch := launch0, clu := 0, row := 0, col := 0, rows := 1, cols := 2, cut := [(0, 0, 1), (0, 1, 1)], absorbed := [], prio := 0,
    placed := 0, state := 0, image := 0, num := 0, round := 0, active := true, retired := false, eligible := false, refs := [], gone := [], waits := [] }

/-- Both its cores, with their deques, on a ready device whose context 0 is live. -/
def placed (h : Hart) (q0 q1 : Deque) : State :=
  let s := withDev (ready0 { h with graph := 1 }) fun d => { d with graphs := [graph0], ctxc := [(0, List.replicate 20 0 ++ [1] ++ List.replicate 43 0)] }
  ((s.setHart 1 { core1 with graph := 1, place := 1 }).setDeque 0 q0).setDeque 1 q1

theorem witness_CommittedWorkIsPerformed_word :
    let p := item (.rel 0 0x1038 5) 6
    let s := withDev (ready0 { core1 with posted := [p] }) fun d => { d with rplrun := [(bankOf 0 0 1, [0])] }
    s.dev.rplEntries (bankOf 0 0 1) 0 = some (0, [0]) ∧ mget [] s.dev.rplrun (bankOf 0 0 1) = 0 :: [] ∧ (s.hart 0).posted[0]? = some p ∧ p.status = 6 ∧
    (s.hart 0).relNeeds (bankOf 0 0 1) 0 = none ∧ itemTurn (s.namesOf 0) ((s.hart 0).posted.take 0) p = true ∧ ∃ t, s.writeWord 0 p 0 0x1038 5 = (t, .bytes []) := by
  refine ⟨?_, by simp [mget, withDev], by decide, rfl, by decide, by decide, ⟨_, Prod.ext rfl (by decide)⟩⟩
  have k : (some (bankOf 0 0 1) == some (bankOf 0 0 1)) = true := beq_self_eq_true _
  show some (0, (((match ((item (.rel 0 0x1038 5) 6).entry && (some (bankOf 0 0 1) == some (bankOf 0 0 1)) : Bool) with | true => [0] | false => []).map
    (fun i => (Hart.turnOf { core1 with posted := [item (.rel 0 0x1038 5) 6] } i, i))).foldl insertTurn []).map Prod.snd) = some (0, [0])
  rw [k]; rfl
/-- A graph of core 0 alone, whose block waits in a DOMWAIT: quiescence is found. -/
theorem witness_RepliesOfTheMemorySystem_domwait :
    let g : Graph := { graph0 with cols := 1, cut := [(0, 0, 1)] }
    let b := blkOf 0 0 (.domwait 0)
    let s := (withDev (runs { core1 with graph := 1 } b) fun d => { d with graphs := [g] }).setDeque 0 { Deque.reset with token := true }
    s.dev.graph (s.hart 0).graph = some g ∧ g.state = 0 ∧ g.ring = [0] ∧ 0 = s.dev.origin g ∧ s.quiet g 0 = true ∧
    (s.deque 0).token = true ∧ (s.deque 0).tblack = false ∧ (s.deque 0).black = false ∧ (s.hart 0).blocks = b :: [] ∧ b.reqs = [reqOf 0 0 (.domwait 0)] := by decide
/-- A resume frame for the origin core of a live graph, and one for a graph that is not live. -/
theorem witness_CommittedWorkIsPerformed_frames :
    let s := withDev (placed core1 Deque.reset Deque.reset) fun d => { d with resumes := [(0x1000, 1)] }
    let s0 := withDev s fun d => { d with resumes := [] }
    s.dev.resumes = (0x1000, 1) :: [] ∧ s.dev.graph 1 = some graph0 ∧ graph0.state = 0 ∧ ({ graph0 with state := 2 } : Graph).state ≠ 0 ∧
    ∃ t, s0.pushFrame 0 (s0.dev.origin graph0) ({ entry := 0x1000, args := [], parent := 0, status := 0, resume := true } : Frame).dbls = (t, true) :=
  ⟨rfl, by decide, rfl, by decide, reads_of (by decide +kernel)⟩

theorem witness_TaskSteps :
    let b := exitBlock (.join 0x2000)
    let q : Deque := Deque.reset
    let full1 : Deque := { q with bidx := 1, idle := false, ring := [(0, ({ entry := 0x2000, args := [], parent := 0, status := 0, resume := false } : Frame).dbls)] }
    (let s := runs { core1 with seg := 0x1000 } b
     s.committing 0 = some (b, 0, .join 0x2000) ∧ s.liveState 0 = false ∧ (s.hart 0).commitNotice b (.join 0x2000) = none ∧ (s.hart 0).noticeFor 0 1 = none ∧ (s.hart 0).spawnsPending = false ∧ (s.hart 0).loadsHeld = false ∧
     ∃ s1, (s.countWalk 0 0 0x1038).readHome 0 0 0 0x1038 8 = (s1, .bytes (List.replicate 8 0))) ∧
    (∀ y, ({ noticed1 with run := .running, susp := some (0x2000, y), seg := 0x1000 } : Hart).noticeFor 0 1 = some note1) ∧
    (let s (y : Bool) (m : SMap Byte) : State := { ready0 { core1 with run := .running, susp := some (0x2000, y), seg := 0x1000 } with mem := m }
     let xs (y : Bool) := (((s y []).hart 0).suspension 0x2000).flatMap (natLe 8)
     ((s true []).hart 0).noticeFor 0 1 = none ∧ ((s true []).hart 0).spawnsPending = false ∧
     (∃ s0, ((s true []).countWalk 0 0 0x1040).writeHomeAll 0 0 0 0x1040 (hartWriter 0 0) (xs true) = (s0, .bytes (xs true)) ∧
       ∃ s2, (s0.learnAt 0 0 0x1040).pushFrame 0 0 ({ entry := 0x1000, args := [], parent := 0, status := 0, resume := true } : Frame).dbls = (s2, true)) ∧
     (∃ s0, ((s false []).countWalk 0 0 0x1040).writeHomeAll 0 0 0 0x1040 (hartWriter 0 0) (xs false) = (s0, .bytes (xs false)) ∧
       ∃ s2, (s0.learnAt 0 0 0x1040).readHome 0 0 0 0x1038 8 = (s2, .bytes (List.replicate 8 0))) ∧
     wordJcount 0 = 0 ∧ wordJcount (leNat [0, 0, 0, 0, 2, 0, 0, 0]) ≠ 0 ∧
     (∃ s0, ((s false [(0x103C, 2)]).countWalk 0 0 0x1040).writeHomeAll 0 0 0 0x1040 (hartWriter 0 0) (xs false) = (s0, .bytes (xs false)) ∧
       ∃ s2, (s0.learnAt 0 0 0x1040).readHome 0 0 0 0x1038 8 = (s2, .bytes [0, 0, 0, 0, 2, 0, 0, 0]) ∧
         ∃ s3, s2.writeHome 0 0 0 0x1038 (full (natLe 8 (withState (2 ^ 33) 1))) (hartWriter 0 0) = (s3, .bytes []))) ∧
    (let s := placed core1 full1 q
     s.seeks 0 = some graph0 ∧ (s.hart 0).theftFirst = false ∧ (s.deque 0).count ≠ 0 ∧ (s.deque 0).isFull = false) ∧
    (let s := placed { core1 with victim := 1 } q full1
     s.seeks 0 = some graph0 ∧ 1 < graph0.ring.length ∧ (s.hart 0).victimOf graph0.ring 0 = 1 ∧ (s.hart 0).lapWait = false ∧ (s.deque 0).isEmpty = true ∧
     graph0.ring.contains 1 = true ∧ (s.deque 1).stopped = false ∧ (s.deque 1).ovfcnt = 0 ∧ (s.deque 1).transit = false ∧ (s.deque 1).count ≠ 0) ∧
    (let s := placed { core1 with victim := 1 } q q
     (s.deque 1).count = 0 ∧ s.seeks 0 = some graph0 ∧ s.dev.graph (s.hart 0).graph = some graph0) ∧
    (let s := placed core1 q { q with thief := some 0, transit := true }
     graph0.ring.find? (fun v => (s.deque v).thief == some 0) = some 1 ∧ (s.deque 0).reply = none ∧ s.dev.torn 0 = false) ∧
    (let s := placed core1 { q with spare := [(0, 0x3000)] } q
     s.poolReady 0 0 = true ∧ (s.deque 0).stopped = false ∧ (s.deque 0).back = [] ∧ s.dev.sending 3 0 0 = false) ∧
    (let s := placed core1 { q with token := true } q
     s.quiet graph0 0 = true ∧ (s.deque 0).token = true ∧ graph0.ring.contains 0 = true ∧ 0 = s.dev.origin graph0) ∧
    (let s := placed core1 q { q with token := true }
     s.quiet graph0 1 = true ∧ 1 ≠ s.dev.origin graph0) ∧
    (let s := (ready0 core1).setMt 0 { Mt.reset with ekick := 0x1000, eentry := 0x2000 }
     let t : State := { s with mem := [(0x1000, 0x20)] }
     (t.hart 1024).run = .idle ∧ (t.mt 0).ekick ≠ 0 ∧ (t.mt 0).ekick.toNat % 64 = 0 ∧ (t.hart 1024).ctxid = (t.mt 0).ectx ∧ (t.hart 1024).loadsHeld = false ∧ t.postedTouches 1024 0 0x1000 64 = false ∧ (t.hart 1024).noticeFor 0 1 = none ∧ t.dev.hartSending 1024 = false ∧
     binderRegions (0x20 :: List.replicate 63 0) = [] ∧
     (∃ s1 a, t.target 0 1024 0 0x1000 64 true false = (s1, .at (.dev 0x1000) a) ∧ s1.binderBytes (.dev 0x1000) (s1.mt 0).kick = 0x20 :: List.replicate 63 0) ∧
     (∃ s1 a, s.target 0 1024 0 0x1000 64 true false = (s1, .at (.dev 0x1000) a) ∧ s1.binderBytes (.dev 0x1000) (s1.mt 0).kick = List.replicate 64 0) ∧
     leNat ((0x20 :: List.replicate 63 0 : List Byte).take 8) ≠ 0) := by
  refine ⟨⟨by decide, by decide, by decide, by decide, by decide, by decide, _, Prod.ext rfl (by decide)⟩, by decide,
    ⟨by decide, by decide, reads_then (by decide +kernel) (reads_of (by decide +kernel)), reads_then (by decide +kernel) (reads_of (by decide +kernel)), by decide, by decide,
     reads_then (by decide +kernel) (reads_then (by decide +kernel) (reads_of (by decide +kernel)))⟩, by decide, by decide,
    by decide, by decide, by decide, by decide, by decide, ⟨by decide, by decide, by decide, by decide, by decide, rfl, by decide, by decide, by decide, ⟨_, _, Prod.ext rfl rfl, by decide⟩, ⟨_, _, Prod.ext rfl rfl, by decide⟩, by decide⟩⟩

theorem bytesAt_length (m : SMap Byte) (n a : Nat) : (bytesAt m a n).length = n := by
  induction n generalizing a with
  | zero => rfl
  | succ n ih => simp [bytesAt, ih]

theorem bytesAt_below {m : SMap Byte} {dst : Nat} {bs : List Byte} (h : Memory.wf m = true) (n i : Nat) (away : dst + bs.length ≤ i) :
    bytesAt (setBytes m dst bs) i n = bytesAt m i n := by
  induction n generalizing i with
  | zero => rfl
  | succ n ih => rw [bytesAt, bytesAt, ih (i + 1) (by omega), byteAt_setBytes h, if_neg (by omega)]

/-- Copying a frame leaves an 8-byte word outside it. -/
theorem phys64_copyFrame {s : State} {src dst a : Nat} (h : Memory.wf s.mem = true) (away : dst + 4096 ≤ a) :
    (s.copyFrame src dst).phys64 a = s.phys64 a := by
  simp only [State.phys64, State.copyFrame, State.putDev_mem]
  rw [bytesAt_below h 8 a (by rw [bytesAt_length]; exact away)]

/-- One entry's compare-and-swap, and all of a move of one page: both by the entry as it stands. -/
theorem swapLeaves_one {s : State} {m : Move} {e : Nat} (h : m.vals = [e]) : (s.swapLeaves m (upTo m.vals.length)).2 = decide (s.phys64 m.first = e) := by
  rw [h]
  show (s.swapLeaves m [0]).2 = _
  by_cases k : s.phys64 m.first = e <;> simp [State.swapLeaves, State.casLeaf, Move.old, h, k]

theorem witness_HomesAndWidening :
    (let s := withDev (ready0 core1) fun d => { d with inval := [{ req := 2048, ctx := 0, zone := 0, size := 0, va := 0x1000 }] }
     ∃ i, s.dev.inval = i :: []) ∧
    ((ready0 core1).dev.inval.any (fun i => i.req == 2048) = false ∧ bitOf (0x8000000000000000 : Dbl).toNat 63 = true ∧ bitsOf (0x8000000000600000 : Dbl).toNat 22 20 ≠ 7) ∧
    (let s := withDev (ready0 core1) fun d => { d with ctxc := [(0, List.replicate 16 0 ++ [1, 0, 0, 0x80] ++ List.replicate 44 0)], pri := [⟨0, 1, true, false⟩] }
     s.ctxPasid 0 = some 1 ∧ ∀ n, Config.priAllocation = n + 1 → (s.dev.pri.take Config.priAllocation).find? (fun q => q.ctx == 0 && q.page == (0x1038 : Dbl).toNat / 4096) = some ⟨0, 1, true, false⟩) ∧
    ((5, 1, 1) ∈ (withDev State.reset fun d => { d with atsInval := [(5, 1, 1)] }).dev.atsInval ∧ (5, 1, 1) ∉ State.reset.dev.atsInval ∧ State.reset.holdsAtsRange 5 1 1 = false) ∧
    ((0, 1) ∈ (withDev State.reset fun d => { d with atsAsked := [(0, 1)] }).dev.atsAsked ∧ (0, 1) ∉ State.reset.dev.atsAsked) ∧
    (let s := (placed { core1 with run := .running, whint := 2 } Deque.reset Deque.reset)
     let h := s.hart 0
     s.dev.graph h.graph = some graph0 ∧ h.run = .running ∧ h.reserve = none ∧ h.leaving = false ∧ h.susp = none ∧ isEngine 0 = false ∧
     2 * h.cwidth.toNat ≤ 8 ∧ h.cwidth.toNat < h.whint ∧ graph0.holdsShape (2 * h.cwidth.toNat) 0 = true ∧ s.absorbable graph0 1 = true ∧
     (graph0.cut.filter fun c => inShape 2 0 (placeOf 0 c.1 c.2.1) && !inShape 1 0 (placeOf 0 c.1 c.2.1)) = [(0, 1, 1)] ∧
     graph0.absorbed = [] ∧ graph0.state = 0) ∧
    (let h : Hart := { core1 with run := .running, reserve := some 2 }
     h.reserve = some 2 ∧ h.blocks = [] ∧ h.busy = 0 ∧ h.susp = none ∧ h.leaving = false) ∧
    (let regs := mset 0 (mset 0 (mset 0 [] (poolKey 0) 0x5000) (poolKey 0 + 8) 0) (poolKey 0 + 16) 1
     let live : List Byte := [0, 0x10, 0, 0, 0, 0, 0, 0] ++ List.replicate 12 0 ++ [1] ++ List.replicate 43 0
     -- ZDIR 0x1000 of the descriptor; root 0x10000; three levels of tables at one node, and the leaf there
     let s : State := { withDev (ready0 core1) fun d => { d with tlb := [], ctxc := [(0, live)], regs := regs } with
       mem := [(0x1002, 1), (0x5001, 0x60), (0x10000, 0x01), (0x10002, 2), (0x20000, 0x01), (0x20002, 3), (0x30000, 0x01), (0x30002, 4), (0x40000, 0x33), (0x40001, 0x70)] }
     s.dev.moving = none ∧ s.movable 0 0 = some (0x40000, [0x7033]) ∧ (upTo 1).map (fun i => s.phys64 (0x40000 + 8 * i)) = [0x7033] ∧
     s.ringHead (poolKey 0) = some 0x6000 ∧ bitOf 0x6000 0 = ([0x7033].length == 16) ∧ s.dev.ready.getLsbD 0 = true) ∧
    (let m : Move := { ctx := 0, page := 0, stack := 0, first := 0x40000, vals := [0x7033], dst := 0x6000 }
     let s (mem : SMap Byte) : State := { withDev (ready0 core1) fun d => { d with moving := some m } with mem := mem }
     let t (mem : SMap Byte) : State := { s mem with dev := { (s mem).dev with moving := none } }
     let same : SMap Byte := [(0x40000, 0x33), (0x40001, 0x70)]
     (s same).dev.moving = some m ∧ ((t same).copyPieces m).phys64 (m.first + 8 * 0) = 0x7033 ∧ ((t []).copyPieces m).phys64 (m.first + 8 * 0) ≠ 0x7033 ∧
     (((t same).copyPieces m).swapLeaves m (upTo m.vals.length)).2 = true ∧ (((t []).copyPieces m).swapLeaves m (upTo m.vals.length)).2 = false) := by
  have one : ∀ (s : State) (m : Move) (e : Nat), m.vals = [e] → m.dst + 4096 ≤ m.first → Memory.wf s.mem = true → (s.copyPieces m).phys64 m.first = s.phys64 m.first := by
    intro s m e hv hd hw
    unfold State.copyPieces
    rw [hv]
    exact phys64_copyFrame hw (by simpa using hd)
  refine ⟨⟨_, rfl⟩, by decide, ⟨by decide, fun n hn => by rw [hn]; rfl⟩, by decide, by decide, by decide, by decide, ⟨rfl, by decide +kernel, by decide, by decide, by decide, by decide⟩,
    rfl, (one _ _ 0x7033 rfl (by decide) (by decide)).trans (by decide), by rw [Nat.mul_zero, Nat.add_zero, one _ _ 0x7033 rfl (by decide) (by decide)]; decide,
    by rw [swapLeaves_one (e := 0x7033) rfl, one _ _ 0x7033 rfl (by decide) (by decide)]; decide,
    by rw [swapLeaves_one (e := 0x7033) rfl, one _ _ 0x7033 rfl (by decide) (by decide)]; decide⟩
end Sys2Proof.Machine.Tests

namespace Sys2Proof.Machine.Tests

theorem witness_DecodeInvertsEncode : ([.add 1 7 127 2, .roti 1 0x1FF 63 2, .fcvt 27 0 1 6 0, .rdc 0 23 0, .msto 31 7 7 6 13 1 2, .wlPrio 31 31 31] : List Instr).all
    (fun i => i.wf && (isWelit i || isWl i)) = true := by decide
theorem witness_DecodedInstructionsAreWellFormed : (∃ w i, decodeWord w = some i) ∧ ∃ w i, decodeWl w = .ok i :=
  ⟨⟨0x21001814, _, rfl⟩, 0x0005A50B, _, rfl⟩

theorem witness_TilesStep :
    let t : TIns := { op := 0, d := 0, a := 0, b := 1, mode := 0, flag := false, k := 1, vsid := 0 }
    let e : Entry := { val := 0x3F8000003F800000, null := false, nmode := false, tag := 1, scl := [], epoch := none }
    let b := withReq (oneBlock (.mma 0 0 0 1 0 0) []) (.tensor t)
    let h : Hart := { core1 with run := .running, blocks := [b], mrows := 1, mcols := 1 }
    let two (s : State) : State := (s.setPort 0 0 { Port.reset with q := [e] }).setPort 0 1 { Port.reset with q := [e] }
    (let s := two (ready0 h)
     (∃ r, s.pendingReq 0 0 0 = some (b, r) ∧ r.kind = .tensor t) ∧ h.isOldest 0 = true ∧ b.vsidTurn 0 = true ∧ h.nodesFree [0] = true ∧
     (∀ k ∈ [0, 1], h.portBusy k = false ∧ (s.mt 0).waits k = false ∧ popsOf (s.hart (otherHart 0)).blocks k = 0) ∧ readSlots b.hdr = [] ∧
     s.streamHead 0 0 = some e ∧ s.streamHead 0 1 = some e ∧ s.mmaCheck 0 t e e = none) ∧
    (let u : TIns := { t with op := 7, d := 0, a := 2, b := 4 }
     h.nodesFree u.regs = true) ∧
    (let o : TOp := { op := 0, md := 0, pa := 0, pb := 1, k := 1, rows := 1, cols := 1, acc := false, ta := 1, tb := 1, ea := [], eb := [], sa := [], sb := [], block := 0, slot := 0, seq := 0, idx := 0, status := 0, book := [] }
     o.stop = false ∧ ({ o with stop := true } : TOp).stop = true ∧ o.qa = 1 ∧ o.qb = 1 ∧ o.ea.length < o.qa ∧ ({ h with nodes := [o] } : Hart).nodes.find? (fun o => o.md / 2 == 0) = some o ∧
     ((two (ready0 h)).streamHead 0 0).isSome = true) ∧
    (let o (op : Nat) : TOp := { op := op, md := 0, pa := 0, pb := 1, k := 1, rows := 1, cols := 1, acc := false, ta := 1, tb := 1, ea := [0], eb := [0], sa := [], sb := [], block := 0, slot := 0, seq := 0, idx := 0, status := 0, book := [] }
     ∀ op ∈ [0, 1], (o op).op = op ∧ (o op).qa ≤ (o op).ea.length ∧ (o op).qb ≤ (o op).eb.length) ∧
    (let o : MOut := { node := 0, acc := 0, port := 8, ents := [e, e], live := true, behind := 0 }
     o.ents = e :: e :: [] ∧ o.live = true ∧ o.behind = 0 ∧ h.storesHeld = false ∧ ((ready0 h).port 0 8).q.length < 16) ∧
    (let s := ((ready0 core1).setPort 0 8 { Port.reset with bind := 1, dx := 1, pport := 0, agreed := true, credit := 1, q := [e] }).setPort 1 0
       { Port.reset with bind := 1, dx := 0xFF, pport := 8, agreed := true, owed := 1 }
     (s.port 0 8).q = [e] ∧ e.epoch = none ∧ (s.port 1 0).bind ≠ 0 ∧ s.agree 0 8 = true ∧ s.peerOf 0 8 = some (1, 0) ∧ (s.port 1 0).linkCredits ≠ 0 ∧ s.agree 1 0 = true ∧ s.peerOf 1 0 = some (0, 8)) ∧
    ({ Port.reset with bind := 1, link := [e] } : Port).link = e :: [] ∧ ({ Port.reset with bind := 1, linkOwed := 1 } : Port).linkOwed ≠ 0 ∧
    (∃ k : Port, k.linkOwed = 0 ∧ k.owed ≠ 0 ∧ k.agreed = true) ∧
    (let g : Age := { Age.reset with state := 1, fetch := some (0, 0x1000) }
     let s := (ready0 core1).setAge 0 0 g
     s.ageHeld 0 = false ∧ ∃ s1, s.readHomeAll 0 0 0 0x1000 8 = (s1, .bytes (List.replicate 8 0)) ∧ s1.age 0 0 = g) ∧
    (let rec_ : List Byte := List.replicate 8 0 ++ [0, 0x10, 0, 0, 0, 0, 0, 0, 10, 1] ++ List.replicate 14 0 ++ [4] ++ List.replicate 95 0
     let g (port : BitVec 4) (part : List Nat) : Age := { Age.reset with state := 1, record := rec_, port := port, part := part }
     let s (n : Nat) (a : Age) : State := ((ready0 core1).setPort 0 n { Port.reset with bind := 2 }).setAge 0 0 a
     (s 0 (g 0 [])).ageRuns 0 0 = true ∧ (g 0 []).isWriter = false ∧ (g 0 []).scaleDue = false ∧ (g 0 []).exhausted = false ∧ (g 0 []).misaligned = false ∧
     (s 8 (g 8 [5])).ageRuns 0 0 = true ∧ (g 8 [5]).isWriter = true ∧ (g 8 [5]).exhausted = false ∧ (g 8 [5]).misaligned = false ∧ (g 8 [5]).out = [] ∧ (s 8 (g 8 [])).ageGoes 0 0 = false ∧
     (let q : State := ((ready0 core1).setPort 0 8 { Port.reset with bind := 2, q := [e] }).setAge 0 0 (g 8 [])
      q.ageGoes 0 0 = true ∧ (g 8 []).part = [] ∧ (g 8 []).out = []) ∧
     -- an element of zone 0 that has been posted, one that no page maps, and an AGE that the fault has stopped
     (let z (va : Dbl) : Age := { g 8 [] with out := [{ (g 8 [5]).store 5 with zone := 0, va := va }] }
      (z 0x1000).part = [] ∧ (s 8 (z 0x1000)).agePick 0 0 = 0 ∧
      (∃ t, (s 8 (z 0x1000)).freshened.writeElem 0 0 0 0x1000 ((g 8 [5]).store 5).data (ageWriter 0 0) = (t, .bytes [])) ∧
      (∃ t, (s 8 (z 0x9000)).freshened.writeElem 0 0 0 0x9000 ((g 8 [5]).store 5).data (ageWriter 0 0) = (t, .fault 0x15 0)) ∧
      (s 8 { z 0x1000 with state := 2 }).ageRuns 0 0 = false ∧ (s 8 { z 0x1000 with state := 2 }).dev.sending 2 0 0 = false ∧
      (s 8 { z 0x1000 with state := 2 }).agePort 0 0 = some 8 ∧ ((ready0 core1).setAge 0 0 { z 0x1000 with state := 2 }).agePort 0 0 = none)) := by
  refine ⟨⟨⟨_, rfl, rfl⟩, by decide, by decide, by decide, by decide, by decide, by decide, by decide, by decide⟩, by decide, by decide, by decide, by decide,
    by decide, by decide, ⟨by decide, ⟨{ Port.reset with owed := 1, agreed := true }, by decide⟩, ⟨by decide, reads_then (by decide) rfl⟩, and4 (by decide) (and4 (by decide) ⟨by decide, by decide, by decide, by decide, by decide, by decide,
      ⟨_, Prod.ext rfl (by decide)⟩, ⟨_, Prod.ext rfl (by decide)⟩, by decide, by decide, by decide, by decide⟩)⟩⟩

/-- No rectangle of a cluster suits a core wider than the cluster. -/
theorem shapes_of_too_wide (w n clu : Nat) (h : 128 < w) : ({ launch0 with whint := w, domsz := n } : Held).shapes clu = [] := by
  have mem : ∀ n i, i ∈ upTo n → i < n := by intro n i hi; simpa [upTo] using hi
  rw [List.eq_nil_iff_forall_not_mem]
  intro r hr
  simp only [Held.shapes, List.mem_flatMap, List.mem_filterMap] at hr
  obtain ⟨r0, h1, c, h2, i, h3, j, h4, h5⟩ := hr
  have k1 := mem _ _ h1
  have k2 := mem _ _ h2
  have k3 := mem _ _ h3
  have k4 := mem _ _ h4
  have area : (i + 1) * (j + 1) ≤ 16 * 8 := Nat.mul_le_mul (by omega) (by omega)
  split at h5
  · rename_i g
    have := g.1
    have : w ≤ Nat.max w 1 := Nat.le_max_left _ _
    simp at *
    omega
  · cases h5

theorem no_candidate (d : Dev) (w n : Nat) (h : 128 < w) : d.candidate { launch0 with whint := w, domsz := n } = none := by
  have k : ∀ clu, d.candidateIn { launch0 with whint := w, domsz := n } [] clu = none := by
    intro clu
    simp only [Dev.candidateIn, shapes_of_too_wide w n clu h]
    rfl
  simp only [Dev.candidate, k]
  simp

/-- The smallest launch. -/
def launch1 : Held := { launch0 with domsz := 1 }

/-- A save pool of four frames, and the Sepia image of `graph0` at 0x400000. -/
def image0 : Image :=
  { addr := 0x400000, ivory := false, taken := false, ctx := 0, tilerev := 1, dmapver := 0, scanver := 1, rows := 1, cols := 2, cut := graph0.cut, absorbed := [],
    graph := { graph0 with state := 2 }, tiles := [{ hart := none, eng := none, mt := Mt.reset, graph := 1 }, { hart := none, eng := none, mt := Mt.reset, graph := 1 }], book := [], refs := [], log := [] }

def withPool (s : State) : State :=
  { withDev s fun d => { d with regs := mset 0 (mset 0 d.regs saveKey 0x5000) (saveKey + 16) 4, images := [image0], pearg := 0x400000 } with mem := [(0x5002, 0x60), (0x500A, 0x80)] }

/-- A launch of a core as wide as a cluster, on a device where cluster 0 alone is open to it and `graph0` stands there. -/
def wide1 : Held := { launch0 with whint := 128, domsz := 1, level := 5, order := 2 }

theorem witness_PlacementUnitSteps :
    let p : Post := { op := 0, record := 0x1000, src := 1, srcN := 0, ctx := none, via := 0, prio := 0 }
    let d : Dev := { Dev.reset with ready := 0x7FFFFF, intake := [p] }
    d.intake = p :: [] ∧ d.ready.getLsbD 15 = true ∧ (d.page 0).en = false ∧ ((d.setPage 0 { Page.reset with en := true }).page 0).en = true ∧
    (let e := (d.setEntry 0 { LTab.reset with en := true, period := 5 }).entry 0
     e.en = true ∧ e.period ≠ 0 ∧ d.timebase.toNat ≤ e.start.toNat + e.slot * e.period.toNat ∧ e.start.toNat + e.slot * e.period.toNat < 2 ^ 64 ∧ e.held = false) ∧
    (let x : Dev := { d with held := [launch0] }
     x.levels = .launch launch0 :: [] ∧ x.plctl.toNat % 2 ^ 16 ≠ 0 ∧ x.held[0]? = some launch0 ∧ launch0.noage = false ∧ launch0.level < launch0.ceiling) ∧
    (∃ r, ({ d with held := [launch1], reserved := [(1, 0)] } : Dev).candidate launch1 = some r) ∧
    (d.reserved.any (fun r => r.1 == 1) = false ∧ (d.reserveFor 1 129).isSome = true ∧ d.candidate { launch0 with whint := 129, domsz := 2000 } = none) ∧
    (let x : Dev := { d with held := [{ launch0 with whint := 129, domsz := 2000 }], reserved := [(1, 0)] }
     x.levels = .launch { launch0 with whint := 129, domsz := 2000 } :: [] ∧ x.candidate { launch0 with whint := 129, domsz := 2000 } = none ∧
     (withDev State.reset fun _ => x).preempt (.launch { launch0 with whint := 129, domsz := 2000 }) = none ∧ x.reserved.any (fun r => r.1 == 1) = true) ∧
    (let s := withDev (withPool (placed core1 Deque.reset Deque.reset)) fun d =>
       { d with graphs := [{ graph0 with eligible := true }], reserved := (upTo 7).map (fun k => (99, k + 1)), held := [wide1] }
     s.dev.levels = .launch wide1 :: [] ∧ s.dev.candidate wide1 = none ∧ (s.preempt (.launch wide1)).isSome = true) ∧
    (Dev.reset.page 0).en = false ∧ Dev.reset.ready.getLsbD 15 = false ∧
    (let s := withDev (placed core1 Deque.reset Deque.reset) fun d => { d with graphs := [{ graph0 with retired := true }] }
     s.dev.graph 1 = some { graph0 with retired := true } ∧ s.graphDone { graph0 with retired := true } = true) := by
  refine ⟨rfl, by decide, by decide, by decide, by decide, by decide, Option.isSome_iff_exists.mp (by decide +kernel), ⟨rfl, by decide +kernel, no_candidate _ _ _ (by decide)⟩,
    ⟨by decide, no_candidate _ _ _ (by decide), ?_, by decide⟩, ⟨by decide, by decide +kernel, by decide +kernel⟩, rfl, by decide, by decide⟩
  unfold State.preempt
  split
  · rfl
  · rfl

theorem witness_PreemptionSteps :
    let cmd : Dbl := 0x8000000000000000
    let c := peCmd cmd.toNat
    let s := withPool (placed core1 Deque.reset Deque.reset)
    let g := graph0
    c.go = true ∧ s.dev.pestat.getLsbD 8 = false ∧ (peCmd (0 : Dbl).toNat).go = false ∧ s.ctxLive c.ctx = true ∧ s.dev.graphAt c.ctx c.clu c.row c.col = some g ∧
    s.dev.shadowOpen g = true ∧ (s.takeSave 2).2.isSome = true ∧ (s.clockStop g).isSome = true ∧
    s.dev.imageAt = some image0 ∧ s.dev.imageBad image0 = none ∧ (image0.recut 0 0).isSome = true ∧ g.places.all (fun x => (mget none s.dev.shadow x).isNone && !s.dev.streaming x) = true ∧
    (let t := withDev s fun d => { d with graphs := [{ graph0 with state := 2 }] }
     t.dev.target image0 c = some (0, 0, 0) ∧ t.dev.canPlace image0 0 0 0 = true ∧ (t.startDrain image0 (0, 0, 0) 7).isSome = true) ∧
    -- a record of one section, a core of width 1 that is idle
    (let bytes : List Byte := natLe 4 0x49565259 ++ natLe 2 1 ++ List.replicate 12 0 ++ natLe 2 1 ++ List.replicate 4 0 ++ natLe 8 80 ++ [0, 0, 1, 1] ++
       List.replicate 28 0 ++ natLe 2 1 ++ [1, 0] ++ natLe 4 8 ++ [0, 0, 1] ++ List.replicate 5 0
     let t : State := { withDev s fun d => { d with graphs := [] } with mem := setBytes [] 0x400000 bytes }
     (∃ i, t.readRecord t.dev.pearg.toNat = .inr i ∧ i.ctx = c.ctx ∧ t.dev.target i c = some (0, 0, 0)) ∧ s.readRecord s.dev.pearg.toNat = .inl 5) ∧
    (let t := withDev s fun d => { d with swaps := [0], shadowOut := [(0, 1, 0x600000)] }
     t.dev.swaps = [0] ∧ t.dev.shadowOut.find? (fun x => x.1 == 0) = some (0, 1, 0x600000) ∧ t.dev.graph 1 = some g) ∧
    (let t := withDev (s.setMt 0 { Mt.reset with nonres := [(125, true)] }) fun d => { d with shadow := [(0, some { hart := none, eng := none, mt := Mt.reset, graph := 1 })] }
     t.dev.swaps.contains 0 = false ∧ mget false (t.mt 0).nonres 125 = true ∧ (mget none t.dev.shadow 0).isSome = true) ∧
    (let t := withDev s fun d => { d with shadowOut := [(0, 1, 0x600000), (1, 1, 0x600000)] }
     t.exchanged 0 = true ∧ (t.dev.shadowOut.erase (0, 1, 0x600000)).any (fun y => y.2.1 == 1) = true) ∧
    (let t := withDev s fun d => { d with shadowOut := [(0, 1, 0x600000)] }
     t.exchanged 0 = true ∧ (t.dev.shadowOut.erase (0, 1, 0x600000)).any (fun y => y.2.1 == 1) = false ∧ t.dev.graph 1 = some g) ∧
    ({ core1 with run := .frozen, blocks := [{ oneBlock (.bri 0) [] with bound := true }] } : Hart).heldBound = true ∧
    (let x : Drain := { image := 0x400000, dest := 0x600000, limit := 7, graph := 1, was := some 2 }
     let dirty : Hart := { core1 with graph := 1, l1d := [{ ctx := 0, zone := 0, line := 0x40, data := [], dirty := 1, bad := 0, home := none }] }
     let t (h : Hart) := withDev (placed h Deque.reset Deque.reset) fun d => { d with drain := some x }
     let ns := graph0.places ++ graph0.places.map fun q => 1024 + q
     (t core1).dev.drain = some x ∧ (t core1).dev.graph x.graph = some graph0 ∧ (t core1).dev.calling graph0 ns = false ∧
     (∀ h ∈ [core1, dirty], ns.any (fun k => ((t h).hart k).heldBound) = false ∧ ns.any (fun k => ((t h).hart k).undrained) = false ∧
       graph0.places.any (fun q => (t h).tileUndrained q) = false) ∧
     (t core1).drainLines graph0 = none ∧ (t dirty).drainLines graph0 = some 0) := by
  refine and4 (by decide) ⟨by decide, by decide, by decide, by decide +kernel, by decide, by decide, by decide, by decide,
    ⟨by decide, by decide, by decide +kernel⟩, ⟨⟨_, rfl, by decide +kernel, by decide +kernel⟩, by decide +kernel⟩, by decide, by decide, by decide, by decide, by decide,
    rfl, rfl, by decide, by decide, by decide, by decide⟩

theorem witness_DebugCommands :
    let b := { withReq (oneBlock (.ldd 0 7 0 0 0 0) []) (.load 8 false) with faults := [{ plainFault 0x15 32 with late := true }] }
    let h : Hart := { core1 with run := .frozen, blocks := [b], thalt := true, cause := 0x15, emul := true, emulHeld := true }
    let p := agentPacket Dev.reset 0 0 0 0 0 0 0 0 0
    h.run = .frozen ∧ h.cause ≠ 0x7F ∧ (ready0 h).dev.hartSending 0 = false ∧ (withDev (ready0 h) fun d => { d with senders := [(0, p)] }).dev.hartSending 0 = true ∧ h.hasBound = false ∧ h.block 0 = some b ∧ (h.heldLoad b 0).isSome = true ∧ h.block 1 = none ∧
    ({ h with blocks := [{ b with bound := true }] } : Hart).hasBound = true ∧ ({ core1 with run := .running, blocks := [b] } : Hart).discardUnbound.blocks = [] ∧
    ({ core1 with run := .running, blocks := [{ b with bound := true }] } : Hart).discardUnbound.blocks ≠ [] ∧
    bitOf (0x4000 : Dbl).toNat 14 = true ∧ b.hasTarget 0 = true ∧ b.tok 0 = none ∧ ((ready0 h).dev.anchorWord 0 h 0x1F8).isSome = true ∧ (ready0 h).dev.coreOf 0 = some 0 ∧
    ({ core1 with traceLost := 1 } : Hart).trace = [] := by decide

theorem witness_PlatformLoaderAndFabric :
    let d : Dev := { Dev.reset with ready := 0x7FFFFF }
    d.ready.getLsbD 22 = true ∧ d.valarm.getLsbD 32 = false ∧ d.valarm.toNat % 2 ^ 16 ≤ 2150 ∧ (d.island 255).capped = false ∧
    (let x : Dev := { d with valarm := d.valarm ||| 0x100000000, lowSamples := 99, overSamples := 20 }
     ({ d with cappedRows := [127] } : Dev).cappedRows = [] ++ [127] ∧ x.valarm.getLsbD 32 = true ∧ 1999 < Nat.min (x.valarm.toNat / 2 ^ 16 % 2 ^ 16) (x.valarm.toNat % 2 ^ 16 - 1) ∧ (x.island 254).actual ≠ 3) ∧
    (Config.deviceTop < Config.regBase + 0x18 + 8 ∧ (Config.regBase + 0x18 - Config.regBase) % 8 = 0) ∧ d.mapFree 5 = true ∧ d.writing ≠ some 0 ∧ ({ d with writing := some 5 } : Dev).writing = some 5 ∧ d.keys.contains 0 = false ∧ d.keys.length < 15 ∧
    (let o : Obj := { ctx := 0, id := 5, base := 0, len := 0, frames := [], pages := [], syms := [], state := 1, slot := 0 }
     ({ d with objs := [o] } : Dev).unloadable 0 5 = some o) ∧
    (Config.deviceTop < Config.windowBase + 8 ∧ Config.deviceTop < Config.sramBase + 0x40000 * (2041 / 16 % 128) + 8 ∧ 2041 % 16 = 9 ∧ Config.deviceTop - 1 < Config.regBase) ∧ d.ready.getLsbD 17 = true ∧ d.ready.getLsbD 16 = true ∧ ({ d with sync := 1 } : Dev).sync = 1 ∧
    (({ d with ready := 0x1000 } : Dev).ready.getLsbD 13 = false ∧ ({ d with ready := 0x1000 } : Dev).ready.getLsbD 12 = true ∧ d.ready.getLsbD 19 = true ∧ Dev.reset.ready.getLsbD 16 = false ∧ Dev.reset.ready.getLsbD 19 = false) ∧
    (let w := d.mgWire Mig.reset 0 1 1 0 0 []
     ({ d with posts := [w] } : Dev).posts.find? (fun w => w.port == 0 && w.ring == 128 + 0) = some w ∧ d.ready.getLsbD 18 = true) ∧
    (d.inTurn (some (0, 0)) = true ∧ d.inTurn (some (0, 1)) = false) ∧
    (∃ st, (ready0 core1).planLoad 0 0x9000 0 0 [] = (st, none)) ∧
    (Config.deviceTop - 8 + 8 ≤ Config.deviceTop ∧ Config.reservedBase - 8 + 8 ≤ Config.reservedBase ∧ d.snoopedRange (Config.deviceTop - 8) 8 = false ∧ d.uncorrAt (Config.deviceTop - 8) 8 = false) ∧
    (peerAtomicOk 10 0x1000 (List.replicate 8 0) = true ∧ peerNew 9 (List.replicate 32 0) (List.replicate 16 0) = some (List.replicate 8 0 ++ 1 :: List.replicate 7 0)) ∧
    (extAtomicOk 9 0x1000 (List.replicate 32 0) = true ∧ extNew 9 (List.replicate 32 0) (List.replicate 16 0) = some (List.replicate 16 0)) ∧
    (let a : Attr := { r := true, w := true, x := false, e := true, cls := 2, size := 0 }
     let s := withDev (ready0 core1) fun d =>
       { d.setPage 0 { Page.reset with en := true } with tlb := [{ ctx := 0, zone := 0, page := 1, frame := 1, attr := a, leaf := 0, dset := true }] }
     (s.dev.page 0).en = true ∧ (∃ t, s.extRange 5 0 0 0x1000 true [1, 2] = (t, .bytes [1, 2])) ∧
     (let r : Ring := { Ring.reset with addr := 0x1000, en := true }
      let u := { withDev s fun d => d.setNetRing 0 0 r with mem := [(0x1000, 1)] }
      (u.dev.netRing 0 0).en = true ∧ (u.dev.netRing 0 0).entry = none ∧ (u.dev.netRing 0 0).headless = false ∧ u.dev.stopctx.contains 0 = false ∧
      ∃ t, u.extRange 7 0 0 0x1000 false (List.replicate 8 0) = (t, .bytes (1 :: List.replicate 7 0)) ∧
          ∃ v, t.extRequest 7 0 0 0x1080 false (List.replicate 64 0) = (v, .bytes (List.replicate 64 0)) ∧
            ∃ w, v.portWrite 0 0 0 0x1040 (natLe 8 1) = (w, true))) ∧
    (let a : Attr := { r := true, w := true, x := false, e := true, cls := 2, size := 0 }
     let s := withDev (ready0 core1) fun d => { d with tlb := [{ ctx := 0, zone := 0, page := 1, frame := 1, attr := a, leaf := 0, dset := true }] }
     let rd : List Byte := [3, 1] ++ List.replicate 2 0 ++ [8, 0, 0, 0] ++ List.replicate 9 0 ++ [0x10] ++ List.replicate 46 0
     let sd : List Byte := List.replicate 41 0 ++ [0x10] ++ List.replicate 22 0
     let ring (e : List Byte) (s : State) : State := withDev s fun d => d.setNetRing 0 0 { Ring.reset with en := true, entry := some e }
     s.dev.readRing 0 0 0x1000 2 = none ∧ (ring rd s).dev.readRing 0 0 0x1000 2 = some 0 ∧ numAt rd 0 1 = 3 ∧ numAt sd 0 1 ≠ 3 ∧ entryReads sd = false ∧
     (ring rd s).dev.wire.any (fun m => m == netMsg 0 rd []) = false ∧ (withDev (ring rd s) fun d => { d with wire := [netMsg 0 rd []] }).dev.wire.any (fun m => m == netMsg 0 rd []) = true ∧ numAt rd 4 4 ≤ 8 ∧
     (∃ t, s.extRange 7 0 0 0x1000 true [1, 2] = (t, .bytes [1, 2])) ∧
     (∃ t, (ring sd s).extRange 7 0 0 0 false [] = (t, .bytes []) ∧ ∃ v, t.portWrite 0 0 0 0x1000 (natLe 8 0) = (v, true)) ∧
     (∃ t, s.extRange 7 0 0 (0x1000 + 64) false (List.replicate 8 0) = (t, .bytes (List.replicate 8 0))) ∧
     ∃ t, s.extAtomic 5 0 0 0x1000 9 (List.replicate 32 0) = (t, .bytes (List.replicate 16 0))) := by
  refine and4 (by decide) (and4 (by decide) (and4 (by decide) (and4 (by decide) ⟨by decide, ⟨rfl, by decide⟩, by decide, ?_, by decide, by decide, by decide,
    ⟨by decide, reads_of (by decide), by decide, by decide, by decide, by decide, reads_then (by decide +kernel) (reads_then (by decide +kernel) (reads_of (by decide +kernel)))⟩,
    and4 (by decide) (and4 (by decide) ⟨reads_of (by decide +kernel), reads_then (by decide +kernel) (reads_of (by decide +kernel)),
    reads_of (by decide +kernel), reads_of (by decide +kernel)⟩)⟩)))
  exact ⟨1, by decide⟩

theorem witness_MigrationSteps :
    let m : Mig := { Mig.reset with used := true, source := true, state := 1, deadline := 5 }
    let s := withDev (placed core1 Deque.reset Deque.reset) fun d => { d with keyHandles := [(0, 0)] }
    let t := s.setMig 0 m
    s.dev.mgstat.getLsbD 8 = false ∧ (s.dev.mig 0).used = false ∧ s.ctxLive 0 = true ∧ s.dev.holdsKey 0 = true ∧ s.dev.holdsKey 15 = false ∧
    bitOf (byteAt s.mem ((s.track 0 0).desc + 20)).toNat 0 = false ∧ s.rangeMapped 0 (s.track 0 0) = true ∧ t.dev.mig 0 = m ∧ m.gone = false ∧ m.state < 5 ∧
    ((s.setMig 0 { m with state := 6 }).dev.mig 0).state = 6 ∧ ((s.setMig 0 { m with source := false, stopped := some (0, 0, []) }).dev.mig 0).stopped = some (0, 0, []) ∧
    (let u := s.setMig 7 { m with source := false, seen := [3] }
     (u.dev.mig 7).source = false ∧ (u.dev.mig 7).seen.contains 3 = true ∧ (u.dev.mig 7).seen.contains 4 = false ∧
     u.storePart 7 0 0 [1] = none ∧ u.pageWaits 7 1 0 [1] = false ∧ (withDev u fun d => { d with bisnp := [64] }).pageWaits 7 1 0 [1] = true ∧ u.dev.sending 8 0 0 = false) ∧
    (let u := (withPool s).setMig 7 { m with source := false }
     (u.storePart 7 0 0 [1]).isSome = true ∧
     (((u.setMig 7 { u.dev.mig 7 with seen := [4] }).note 7 56 8 4).storePart 7 0 0 [1]).isSome = true) ∧
    (let u := s.setMig 7 { m with gone := true, failed := true, state := 5 }
     (u.dev.mig 7).source = true ∧ (u.dev.mig 7).gone = true ∧ (u.dev.mig 7).failed = true) ∧
    (let u := s.setMig 7 { m with source := false, failed := true, state := 4 }
     (u.dev.mig 7).source = false ∧ (u.dev.mig 7).gone = false ∧ (u.dev.mig 7).failed = true) ∧
    (let u := s.setMig 7 { m with source := false, gone := true, state := 5 }
     (u.dev.mig 7).used = true ∧ (u.dev.mig 7).source = false ∧ (u.dev.mig 7).gone = true ∧ (u.dev.mig 7).state < 6 ∧ (u.dev.mig 7).stopped = none) := by
  refine and4 (by decide) (and4 (by decide) ⟨rfl, by decide, by decide, by decide, by decide, by decide +kernel, by decide +kernel, by decide, by decide, by decide⟩)
end Sys2Proof.Machine.Tests
end

/-! Masked writes of bytes (R205, R478), read byte by byte. -/
namespace Sys2Proof.Machine

/-- Reading a byte after a masked write: inside the range the new bits under the mask, outside it what stood there. -/
theorem byteAt_setMasked {m : SMap Byte} (h : Memory.wf m = true) (a i : Nat) (bs : List (Byte × Byte)) :
    byteAt (setMasked m a bs) i =
      if a ≤ i ∧ i < a + bs.length then maskByte (byteAt m i) (bs.getD (i - a) (0, 0)).1 (bs.getD (i - a) (0, 0)).2
      else byteAt m i := by
  induction bs generalizing m a with
  | nil => exact (if_neg (by simp)).symm
  | cons p bs ih =>
    obtain ⟨b, k⟩ := p
    have hstep : byteAt (setMasked m a ((b, k) :: bs)) i =
        byteAt (setMasked (setByte m a (maskByte (byteAt m a) b k)) (a + 1) bs) i := rfl
    rw [hstep, List.length_cons]
    rcases Nat.lt_trichotomy i a with hlt | rfl | hgt
    · rw [if_neg (by omega), byteAt_setMasked_out (Memory.wf_setByte a _ h) _ _ _ (.inl (by omega)),
        byteAt_setByte h, if_neg (by omega)]
    · rw [if_pos (by omega), byteAt_setMasked_out (Memory.wf_setByte i _ h) _ _ _ (.inl (by omega)),
        byteAt_setByte h, if_pos rfl, Nat.sub_self, List.getD_cons_zero]
    · rw [ih (Memory.wf_setByte a _ h), byteAt_setByte h, if_neg (show i ≠ a by omega),
        show i - a = i - (a + 1) + 1 by omega, List.getD_cons_succ]
      exact if_congr (by omega) rfl rfl

/-- Settles O44: the general law of a masked write, with the mask's formula written out. -/
theorem maskedWritesChangeOnlyTheirBits : Obligations.MaskedWritesChangeOnlyTheirBits := by
  unfold Obligations.MaskedWritesChangeOnlyTheirBits
  exact fun _ a i bs h => byteAt_setMasked h a i bs

end Sys2Proof.Machine

/-! Every step keeps the three byte stores canonical (R1, R205, log 1). The invariant is `State.Canonical`. The rules below say how it passes through what
the model's definitions are built of: an update of the device alone, a branch, a fold, a result that carries a state beside its answer, an attempt that may
answer none. Then each operation of the model that answers a state has one lemma, named after it and in the model's own order, so that the proof for an
operation follows its definition: `h.setHart.wake` proves it for a wake after the update of a hart. `h.xlate.of_eq ‹_›` speaks of the state that a match on
`s.xlate …` has named. -/
namespace Sys2Proof.Machine

section Canonical

/-- The three byte stores have the canonical form (log 1). -/
structure State.Canonical (s : State) : Prop where
  mem : Memory.wf s.mem = true
  host : Memory.wf s.host = true
  peer : Memory.wf s.peer = true

/-- The state that an attempt answers, if it answers one, is canonical. -/
structure CanonicalIf (o : Option State) : Prop where
  of_eq : ∀ {t : State}, o = some t → t.Canonical

/-- The next state of an outcome, if it has one, is canonical. -/
structure Out.Canonical (o : Out) : Prop where
  of_eq : ∀ {t : State}, o = .next t → t.Canonical

variable {s t : State} {α β : Type}

/-! Rules of composition -/

/-- The invariant speaks of the byte stores alone. -/
theorem State.Canonical.dev (h : s.Canonical) {d : Dev} {cs : List Choice} : State.Canonical ⟨s.mem, s.host, s.peer, d, cs⟩ :=
  ⟨h.mem, h.host, h.peer⟩

theorem State.Canonical.of_eq {r : State × α} {a : α} (h : r.1.Canonical) (e : r = (t, a)) : t.Canonical := by
  subst e; exact h

theorem State.Canonical.ite {c : Prop} {_ : Decidable c} (hs : s.Canonical) (ht : t.Canonical) : (if c then s else t).Canonical := by
  split <;> assumption

theorem State.Canonical.ite_fst {c : Prop} {_ : Decidable c} {p q : State × α} (hp : p.1.Canonical) (hq : q.1.Canonical) :
    (if c then p else q).1.Canonical := by
  split <;> assumption

theorem State.Canonical.foldl_mem {f : State → α → State} {l : List α} (h : s.Canonical)
    (hf : ∀ t x, x ∈ l → t.Canonical → (f t x).Canonical) : (l.foldl f s).Canonical :=
  l.foldlRecOn f h fun t ht x hx => hf t x hx ht

theorem State.Canonical.foldl {f : State → α → State} {l : List α} (h : s.Canonical) (hf : ∀ t x, t.Canonical → (f t x).Canonical) :
    (l.foldl f s).Canonical :=
  h.foldl_mem fun t x _ => hf t x

theorem State.Canonical.foldl_fst {f : State × β → α → State × β} {l : List α} {p : State × β} (h : p.1.Canonical)
    (hf : ∀ q x, q.1.Canonical → (f q x).1.Canonical) : (l.foldl f p).1.Canonical :=
  l.foldlRecOn (motive := fun q => q.1.Canonical) f h fun q hq x _ => hf q x hq

theorem CanonicalIf.none : CanonicalIf none := ⟨nofun⟩

theorem CanonicalIf.some (h : s.Canonical) : CanonicalIf (some s) := ⟨fun e => Option.some.inj e ▸ h⟩

theorem CanonicalIf.fst_of_eq {o : Option (State × α)} {a : α} (h : CanonicalIf (o.map Prod.fst)) (e : o = Option.some (t, a)) :
    t.Canonical :=
  h.of_eq (congrArg (Option.map Prod.fst) e)

theorem CanonicalIf.ite {c : Prop} {_ : Decidable c} {o p : Option State} (ho : CanonicalIf o) (hp : CanonicalIf p) :
    CanonicalIf (if c then o else p) := by
  split <;> assumption

theorem CanonicalIf.map {o : Option α} {f : α → State} (h : ∀ x, o = Option.some x → (f x).Canonical) : CanonicalIf (o.map f) := by
  cases o with
  | none => exact .none
  | some x => exact .some (h x rfl)

theorem CanonicalIf.bind {o : Option State} {f : State → Option State} (ho : CanonicalIf o) (hf : ∀ t, t.Canonical → CanonicalIf (f t)) :
    CanonicalIf (o.bind f) := by
  cases o with
  | none => exact .none
  | some t => exact hf t (ho.of_eq rfl)

theorem CanonicalIf.getD {o : Option State} (ho : CanonicalIf o) (h : s.Canonical) : (o.getD s).Canonical := by
  cases o with
  | none => exact h
  | some t => exact ho.of_eq rfl

theorem CanonicalIf.findSome? {f : α → Option State} {l : List α} (hf : ∀ x, CanonicalIf (f x)) : CanonicalIf (l.findSome? f) := by
  constructor
  intro t e
  obtain ⟨x, _, hx⟩ := List.exists_of_findSome?_eq_some e
  exact (hf x).of_eq hx

theorem Out.Canonical.next (h : s.Canonical) : Out.Canonical (.next s) := ⟨fun e => Host.Outcome.next.inj e ▸ h⟩

/-! Machine/Ops -/

theorem State.Canonical.setHart (h : s.Canonical) {n : Nat} {k : Hart} : (s.setHart n k).Canonical := h.dev

theorem State.Canonical.setMt (h : s.Canonical) {p : Nat} {m : Mt} : (s.setMt p m).Canonical := h.dev

theorem State.Canonical.setPort (h : s.Canonical) {p n : Nat} {q : Port} : (s.setPort p n q).Canonical := h.setMt

theorem State.Canonical.setAge (h : s.Canonical) {p n : Nat} {a : Age} : (s.setAge p n a).Canonical := h.setMt

theorem State.Canonical.freshened (h : s.Canonical) : s.freshened.Canonical := h.dev

theorem State.Canonical.countSome (h : s.Canonical) {n ev w : Nat} : (s.countSome n ev w).Canonical := .ite h.setHart.freshened h

theorem State.Canonical.ticked (h : s.Canonical) : s.ticked.Canonical := h.dev

theorem State.Canonical.answer (h : s.Canonical) {bs : List Byte} : (s.answer bs).Canonical := h.dev

theorem State.Canonical.fire (h : s.Canonical) {f : Form} {g : Hart → Block → Token → Token → Hart} : (s.fire f g).Canonical := h.setHart

theorem State.Canonical.fireScalar (h : s.Canonical) {pr : BitVec 2} {operands : Nat} {oldest : Bool} {t0 t1 : BitVec 9}
    {k : Hart → Block → Token → Token → Token} :
    (s.fireScalar pr operands oldest t0 t1 k).Canonical := h.fire

/-! Machine/Mem -/

theorem State.Canonical.wake (h : s.Canonical) {l : Loc} {n : Nat} : (s.wake l n).Canonical := .ite h h.dev

theorem State.Canonical.storeLoc (h : s.Canonical) {l : Loc} {data : List (Byte × Byte)} : (s.storeLoc l data).Canonical := by
  cases l with
  | dev pa => exact ⟨Memory.wf_setMasked pa data h.mem, h.host, h.peer⟩
  | peer k => exact ⟨h.mem, h.host, Memory.wf_setMasked k data h.peer⟩
  | host k => exact ⟨h.mem, Memory.wf_setMasked k data h.host, h.peer⟩
  | scr p off => exact h.dev
  | held t off => exact h.dev

theorem State.Canonical.writeLoc (h : s.Canonical) {l : Loc}
    {data : List (Byte × Byte)} : (s.writeLoc l data).Canonical := h.storeLoc.wake

theorem State.Canonical.putDev (h : s.Canonical) {pa : Nat} {bs : List Byte} : (s.putDev pa bs).Canonical where
  mem := by rw [State.putDev_mem]; exact Memory.wf_setBytes pa bs h.mem
  host := by rw [State.putDev_host]; exact h.host
  peer := by rw [State.putDev_peer]; exact h.peer

theorem State.Canonical.setPhys64 (h : s.Canonical) {pa v : Nat} : (s.setPhys64 pa v).Canonical := h.putDev

theorem State.Canonical.fillTlb (h : s.Canonical) {ctx zone page pa : Nat} {a : Attr} {leaf : Nat} :
    (s.fillTlb ctx zone page pa a leaf).Canonical := .dev (.ite h h.setPhys64)

theorem State.Canonical.countAccess (h : s.Canonical) {bank : Nat} {l : Loc} : (s.countAccess bank l).Canonical := by
  unfold State.countAccess
  dsimp only
  split
  exacts [h.dev, h]

theorem State.Canonical.decayCount (h : s.Canonical) {bank frame n : Nat} : (s.decayCount bank frame n).Canonical := h.dev

theorem State.Canonical.reached (h : s.Canonical) {ctx zone page pa : Nat} {a : Attr} : (s.reached ctx zone page pa a).1.Canonical :=
  .ite_fst h h.countAccess

theorem State.Canonical.xlate (h : s.Canonical) {ctx zone va : Nat} {rd wr : Bool} : (s.xlate ctx zone va rd wr).1.Canonical := by
  unfold State.xlate
  dsimp only
  split
  · split
    · exact h
    refine .ite_fst h ?_
    refine .ite_fst h.dev ?_
    split
    exacts [.ite_fst h h.dev, .ite h h.dev]
  · split
    · exact h.reached
    split
    exacts [h, h.fillTlb.reached]
  · split
    · exact h.reached
    split
    exacts [h, h.fillTlb.reached]
  · exact h

theorem State.Canonical.armPage (h : s.Canonical) {ctx page : Nat} : (s.armPage ctx page).Canonical :=
  .ite h (h.foldl fun _ _ hs => .ite hs.putDev hs.putDev).dev

theorem State.Canonical.markDirty (h : s.Canonical) {ctx zone page : Nat} : (s.markDirty ctx zone page).Canonical := by
  unfold State.markDirty
  dsimp only
  split
  exacts [h, .ite (.armPage (.ite h (.dev (.ite h h.setPhys64)))) (.ite h (.dev (.ite h h.setPhys64)))]

theorem State.Canonical.watchWrite (h : s.Canonical) {ctx zone : Nat} {va : Dbl} {data : List (Byte × Byte)} {dbl : Nat} {wr : Writer} :
    (s.watchWrite ctx zone va data dbl wr).Canonical := by
  unfold State.watchWrite
  dsimp only
  refine .ite h ?_
  refine h.foldl fun _ _ hs => ?_
  split
  exacts [.ite hs.dev hs, hs]

theorem State.Canonical.homeWrite (h : s.Canonical) {ctx zone : Nat} {va : Dbl} {l : Loc} {data : List (Byte × Byte)} {w : Writer} :
    (s.homeWrite ctx zone va l data w).Canonical := by
  unfold State.homeWrite
  dsimp only
  split
  exacts [h.markDirty.writeLoc.dev.watchWrite, h.markDirty.writeLoc.dev.watchWrite, h.markDirty.writeLoc.dev]

theorem State.Canonical.learn (h : s.Canonical) {hn zone page : Nat} {a : Attr} : (s.learn hn zone page a).Canonical := .ite h h.setHart

theorem State.Canonical.learnAt (h : s.Canonical) {hn zone : Nat} {va : Dbl} : (s.learnAt hn zone va).Canonical := by
  unfold State.learnAt
  split
  exacts [h, h.learn, h]

theorem State.Canonical.targetFor (h : s.Canonical) {ctx hn zone : Nat} {va : Dbl} {n : Nat} {rd wr use : Bool} :
    (s.targetFor ctx hn zone va n rd wr use).1.Canonical := by
  unfold State.targetFor
  split
  · exact h
  · split <;> exact h
  split
  exacts [h.xlate.of_eq ‹_›, h.xlate.of_eq ‹_›, .ite_fst (h.xlate.of_eq ‹_›) (.ite_fst (h.xlate.of_eq ‹_›) (h.xlate.of_eq ‹_›))]

theorem State.Canonical.target (h : s.Canonical) {ctx hn zone : Nat} {va : Dbl} {n : Nat} {rd wr : Bool} :
    (s.target ctx hn zone va n rd wr).1.Canonical := h.targetFor

theorem State.Canonical.readHome (h : s.Canonical) {ctx hn zone : Nat} {va : Dbl} {n : Nat} :
    (s.readHome ctx hn zone va n).1.Canonical := by
  unfold State.readHome
  split <;> exact h.target.of_eq ‹_›

theorem State.Canonical.writeHome (h : s.Canonical) {ctx hn zone : Nat} {va : Dbl} {data : List (Byte × Byte)} {w : Writer} :
    (s.writeHome ctx hn zone va data w).1.Canonical := by
  unfold State.writeHome
  split
  exacts [.ite_fst (h.targetFor.of_eq ‹_›) (h.targetFor.of_eq ‹_›).homeWrite, h.targetFor.of_eq ‹_›, h.targetFor.of_eq ‹_›]

theorem State.Canonical.writeUnit (h : s.Canonical) {ctx hn zone : Nat} {va : Dbl} {data : List (Byte × Byte)} {w : Writer} :
    (s.writeUnit ctx hn zone va data w).1.Canonical := by
  unfold State.writeUnit
  split
  exacts [(h.targetFor.of_eq ‹_›).homeWrite, h.targetFor.of_eq ‹_›, h.targetFor.of_eq ‹_›]

theorem State.Canonical.writeBack (h : s.Canonical) {ctx hn zone : Nat} {va : Dbl} {data : List (Byte × Byte)} {bad : BitVec 2}
    {seq : Nat} {quiet : Bool} :
    (s.writeBack ctx hn zone va data bad seq quiet).1.Canonical := by
  unfold State.writeBack
  dsimp only
  split
  exacts [.ite_fst (h.target.of_eq ‹_›) (h.target.of_eq ‹_›).homeWrite.dev, h.target.of_eq ‹_›, h.target.of_eq ‹_›]

theorem State.Canonical.writeElem (h : s.Canonical) {ctx hn zone : Nat} {va : Dbl} {data : List (Byte × Byte)} {w : Writer} :
    (s.writeElem ctx hn zone va data w).1.Canonical := by
  unfold State.writeElem
  dsimp only
  refine .ite_fst h.writeHome ?_
  split
  · exact h.targetFor.of_eq ‹_›
  · exact h.targetFor.of_eq ‹_›
  refine .ite_fst (h.targetFor.of_eq ‹_›) ?_
  split
  exacts [((h.targetFor.of_eq ‹_›).writeHome.of_eq ‹_›).homeWrite, (h.targetFor.of_eq ‹_›).writeHome]

theorem State.Canonical.patchOwn (h : s.Canonical) {hn zone va : Nat} {data : List (Byte × Byte)} :
    (s.patchOwn hn zone va data).Canonical := h.setHart

theorem State.Canonical.copyInto (h : s.Canonical) {hn : Nat} {k : Line} : (s.copyInto hn k).Canonical := by
  unfold State.copyInto
  dsimp only
  refine .setHart ?_
  split
  exacts [h.dev, h]

theorem State.Canonical.countWalk (h : s.Canonical) {hn zone : Nat} {va : Dbl} : (s.countWalk hn zone va).Canonical := by
  unfold State.countWalk
  dsimp only
  split
  exacts [.countSome (.ite h h.setHart), .countSome (.ite h h.setHart), h]

theorem State.Canonical.countMiss (h : s.Canonical) {hn : Nat} : (s.countMiss hn).Canonical := h.setHart

theorem State.Canonical.readAs (h : s.Canonical) {hn zone : Nat} {va : Dbl} {n : Nat} : (s.readAs hn zone va n).1.Canonical := by
  unfold State.readAs
  dsimp only
  split
  case h_4 => exact h.readHome
  all_goals
    split
    · exact h
    split
    · exact h.countWalk.xlate.of_eq ‹_›
    · exact h.countWalk.xlate.of_eq ‹_›
    · rename_i s1 l a e1
      have h2 : (s1.learn hn zone (va.toNat / 4096) a).Canonical := (h.countWalk.xlate.of_eq e1).learn
      refine .ite_fst h2 (.ite_fst h2 (.ite_fst h2 (.ite_fst h2 (.ite_fst h2.countMiss.setHart ?_))))
      exact .ite h2.countMiss.copyInto h2

theorem State.Canonical.allocate (h : s.Canonical) {hn zone : Nat} {va : Dbl} {l : Loc} {cls : Nat} :
    (s.allocate hn zone va l cls).Canonical := .ite (.copyInto (.ite h h.countMiss)) h

theorem State.Canonical.storeExcl (h : s.Canonical) {hn : Nat} {k : Line} {w : Loc} {g : BitVec 2} {off : Nat}
    {data : List (Byte × Byte)} :
    (s.storeExcl hn k w g off data).Canonical := h.writeLoc.dev.setHart

theorem State.Canonical.storeHome (h : s.Canonical) {hn zone : Nat} {va : Dbl} {data : List (Byte × Byte)} {w : Writer} :
    (s.storeHome hn zone va data w).1.Canonical := by
  unfold State.storeHome
  dsimp only
  split
  · exact h.countWalk.xlate.of_eq ‹_›
  · exact h.countWalk.xlate.of_eq ‹_›
  · rename_i s1 l a e1
    have h1 : s1.Canonical := h.countWalk.xlate.of_eq e1
    refine .ite_fst h1.learn (.ite_fst h1 (.ite_fst h1 (.ite_fst (.ite_fst h1 ?_) ?_)))
    · exact (State.Canonical.ite h1.countMiss h1).setHart.markDirty.learn
    · exact h1.homeWrite.allocate.learn

theorem State.Canonical.storeAt (h : s.Canonical) {hn zone : Nat} {va : Dbl} {data : List (Byte × Byte)} {seq : Nat} :
    (s.storeAt hn zone va data seq).1.Canonical := by
  unfold State.storeAt
  dsimp only
  split
  · split
    exacts [h.writeLoc, h, h]
  · exact h
  refine .ite_fst ?_ ?_
  · split
    exacts [h.writeElem.of_eq ‹_›, (h.writeElem.of_eq ‹_›).learnAt.learnAt]
  split
  · split
    exacts [.ite_fst h.setHart h.storeHome, .ite_fst h.storeExcl h.storeHome, h.storeHome]
  · exact h.storeHome

theorem State.Canonical.storeAs (h : s.Canonical) {hn zone : Nat} {va : Dbl} {data : List (Byte × Byte)} {seq : Nat} :
    (s.storeAs hn zone va data seq).1.Canonical := by
  unfold State.storeAs
  split
  exacts [(h.storeAt.of_eq ‹_›).patchOwn, h.storeAt]

/-! Machine/Access -/

theorem State.Canonical.fireMem (h : s.Canonical) {f : Form} {zs : BitVec 2} {t0 : BitVec 9}
    {g : Nat → Hart → Block → Token → Token → Hart} :
    (s.fireMem f zs t0 g).Canonical := by
  unfold State.fireMem
  dsimp only
  split
  exacts [h, h.fire]

theorem State.Canonical.readPieces (h : s.Canonical) {hn zone : Nat} {ps : List (Nat × Nat)} : (s.readPieces hn zone ps).1.Canonical := by
  induction ps generalizing s with
  | nil => exact h
  | cons p ps ih =>
    unfold State.readPieces
    split
    · split
      exacts [(ih (h.readAs.of_eq ‹_›)).of_eq ‹_›, ih (h.readAs.of_eq ‹_›)]
    · exact h.readAs

/-! Machine/Count -/

theorem State.Canonical.wordReached (h : s.Canonical) {hn : Nat} : (s.wordReached hn).Canonical := h.countWalk.xlate.learnAt

theorem State.Canonical.holdCounter (h : s.Canonical) {n k : Nat} : (s.holdCounter n k).Canonical := .ite h h.setHart.freshened

theorem State.Canonical.waitOver {n : Nat} (ht : t.Canonical) : (s.waitOver t n).Canonical :=
  .ite ht.countSome ht

theorem State.Canonical.execRdc (h : s.Canonical) {t0 : BitVec 9} {c : BitVec 5} {pr : BitVec 2} : (execRdc t0 c pr s).Canonical :=
  .next (.fire (.ite h.wordReached (.ite h.holdCounter h)))

theorem State.Canonical.execTime (h : s.Canonical) {t0 : BitVec 9} {q pr : BitVec 2} : (execTime t0 q pr s).Canonical :=
  .next (.fireScalar (.ite h.ticked h))

theorem State.Canonical.attrAsks (h : s.Canonical) {z : Nat} : (s.attrAsks z).Canonical := by
  unfold State.attrAsks
  dsimp only
  split
  exacts [h.xlate, h]

theorem State.Canonical.execAttr (h : s.Canonical) {t0 : BitVec 9} {z pr : BitVec 2} : (execAttr t0 z pr s).Canonical :=
  .next (.ite h.attrAsks h.fireMem)

/-! Machine/Home -/

theorem State.Canonical.writeHomeAll (h : s.Canonical) {ctx hn zone : Nat} {va : Dbl} {w : Writer} {bs : List Byte} :
    (s.writeHomeAll ctx hn zone va w bs).1.Canonical := by
  unfold State.writeHomeAll
  dsimp only
  refine h.foldl_fst fun _ _ hs => ?_
  split
  · split
    exacts [hs.writeHome.of_eq ‹_›, hs.writeHome]
  · exact hs

theorem State.Canonical.readHomeAll (h : s.Canonical) {ctx hn zone : Nat} {va : Dbl} {n : Nat} :
    (s.readHomeAll ctx hn zone va n).1.Canonical := by
  unfold State.readHomeAll
  refine h.foldl_fst fun _ _ hs => ?_
  split
  · split
    exacts [hs.readHome.of_eq ‹_›, hs.readHome]
  · exact hs

/-! Machine/Deque -/

theorem State.Canonical.dequeFault (h : s.Canonical) {p ctx : Nat} {m : Miss} : (s.dequeFault p ctx m).Canonical := h.dev

theorem State.Canonical.readDbl (h : s.Canonical) {ctx p : Nat} {va : Dbl} : (s.readDbl ctx p va).1.Canonical := by
  unfold State.readDbl
  split <;> exact h.readHome.of_eq ‹_›

theorem State.Canonical.writeDbls (h : s.Canonical) {ctx p : Nat} {va : Dbl} {xs : List Nat} : (s.writeDbls ctx p va xs).1.Canonical := by
  induction xs generalizing s va with
  | nil => exact h
  | cons x xs ih =>
    unfold State.writeDbls
    split
    exacts [ih (h.writeUnit.of_eq ‹_›), h.writeUnit.of_eq ‹_›, h.writeUnit.of_eq ‹_›]

theorem State.Canonical.readDbls (h : s.Canonical) {ctx p : Nat} {va : Dbl} {n : Nat} : (s.readDbls ctx p va n).1.Canonical := by
  induction n generalizing s va with
  | zero => exact h
  | succ n ih =>
    unfold State.readDbls
    split
    · split
      exacts [(ih (h.readDbl.of_eq ‹_›)).of_eq ‹_›, ih (h.readDbl.of_eq ‹_›)]
    · exact h.readDbl.of_eq ‹_›

theorem State.Canonical.setMtOf (h : s.Canonical) {hn : Nat} {m : Mt} : (s.setMtOf hn m).Canonical := .ite h.setMt h.dev

theorem State.Canonical.setDeque (h : s.Canonical) {p : Nat} {q : Deque} : (s.setDeque p q).Canonical := h.setMt

theorem State.Canonical.takeList (h : s.Canonical) {ctx p : Nat} : (s.takeList ctx p).1.Canonical := by
  unfold State.takeList
  dsimp only
  split
  · refine .ite_fst (h.readDbls.of_eq ‹_›) ?_
    split
    · split <;> exact ((h.readDbls.of_eq ‹_›).readDbl.of_eq ‹_›).writeDbls.of_eq ‹_›
    · exact (h.readDbls.of_eq ‹_›).readDbl.of_eq ‹_›
  · exact h.readDbls.of_eq ‹_›
  · exact h.readDbls.of_eq ‹_›

theorem State.Canonical.returnList (h : s.Canonical) {ctx p : Nat} {seg : Dbl} : (s.returnList ctx p seg).1.Canonical := by
  unfold State.returnList
  dsimp only
  split
  · split
    exacts [((h.readDbls.of_eq ‹_›).writeDbls.of_eq ‹_›).writeDbls, (h.readDbls.of_eq ‹_›).writeDbls]
  · exact h.readDbls.of_eq ‹_›
  · exact h.readDbls.of_eq ‹_›

theorem State.Canonical.stopEngine (h : s.Canonical) {p ctx : Nat} {m : Miss} : (s.stopEngine p ctx m).Canonical := h.setDeque.dequeFault

theorem State.Canonical.takeSeg (h : s.Canonical) {ctx p : Nat} : (s.takeSeg ctx p).1.Canonical := by
  unfold State.takeSeg
  dsimp only
  split
  · exact h.setDeque
  split
  · rename_i s1 a _ e1
    have h1 : s1.Canonical := h.dev.takeList.of_eq e1
    refine .ite_fst h1 ?_
    split
    exacts [(h1.takeList.of_eq ‹_›).setDeque, h1.takeList.of_eq ‹_›]
  · exact h.dev.takeList

theorem State.Canonical.returnAll (h : s.Canonical) {ctx p : Nat} {xs : List Dbl} : (s.returnAll ctx p xs).Canonical := by
  induction xs generalizing s with
  | nil => exact h
  | cons x xs ih =>
    unfold State.returnAll
    split
    exacts [ih (h.returnList.of_eq ‹_›), (h.returnList.of_eq ‹_›).setDeque.stopEngine]

theorem State.Canonical.returnSeg (h : s.Canonical) {ctx p : Nat} {seg : Dbl} : (s.returnSeg ctx p seg).Canonical := by
  unfold State.returnSeg
  dsimp only
  split
  exacts [h.setDeque, h.setDeque.returnAll]

theorem State.Canonical.returnSpares (h : s.Canonical) {ctx p : Nat} : (s.returnSpares ctx p).Canonical := h.setDeque.returnAll

theorem State.Canonical.returnBack (h : s.Canonical) {ctx p : Nat} : (s.returnBack ctx p).Canonical := h.setDeque.returnAll

theorem State.Canonical.spill (h : s.Canonical) {ctx p : Nat} : (s.spill ctx p).Canonical := by
  unfold State.spill
  extract_lets q failed
  have hfailed {t : State} (ht : t.Canonical) (m : Miss) : (failed t m).Canonical := ht.setDeque.dequeFault
  split
  · exact hfailed (h.takeSeg.of_eq ‹_›) _
  · rename_i s1 seg _ e1
    have h1 : s1.Canonical := h.takeSeg.of_eq e1
    split
    · rename_i s2 _ _ e2
      have h2 : s2.Canonical := h1.writeDbls.of_eq e2
      extract_lets link
      have hlink : link.1.Canonical := .ite_fst h2 h2.writeDbls
      clear_value link
      split
      · exact State.Canonical.setDeque (.setHart hlink)
      · exact hfailed (.returnSeg hlink) _
    · exact hfailed (h1.writeDbls.of_eq ‹_›).returnSeg _

theorem State.Canonical.pushFrame (h : s.Canonical) {ctx p : Nat} {xs : List Dbl} : (s.pushFrame ctx p xs).1.Canonical :=
  .ite_fst h.setDeque (.ite_fst h (.ite_fst h.spill h.spill.setDeque))

theorem State.Canonical.unlinkTail (h : s.Canonical) {ctx p : Nat} : (s.unlinkTail ctx p).1.Canonical := by
  unfold State.unlinkTail
  dsimp only
  refine .ite_fst h ?_
  split
  · exact h
  refine .ite_fst h ?_
  split <;> exact h.writeDbls.of_eq ‹_›

theorem State.Canonical.refill (h : s.Canonical) {ctx p : Nat} : (s.refill ctx p).Canonical := by
  unfold State.refill
  dsimp only
  split
  · refine .ite (h.readDbls.of_eq ‹_›) ?_
    split
    · split
      exacts [(((h.readDbls.of_eq ‹_›).readDbls.of_eq ‹_›).unlinkTail.of_eq ‹_›).stopEngine,
        (((h.readDbls.of_eq ‹_›).readDbls.of_eq ‹_›).unlinkTail.of_eq ‹_›).setDeque.returnSeg]
    · exact ((h.readDbls.of_eq ‹_›).readDbls.of_eq ‹_›).stopEngine
  · exact h.readDbls.of_eq ‹_›
  · exact (h.readDbls.of_eq ‹_›).stopEngine

theorem State.Canonical.overflowTake (h : s.Canonical) {ctx p : Nat} : (s.overflowTake ctx p).1.Canonical := by
  unfold State.overflowTake
  dsimp only
  split
  · split
    · split
      · refine .ite (((h.readDbls.of_eq ‹_›).readDbls.of_eq ‹_›).writeDbls.of_eq ‹_›).setDeque.returnSeg ?_
        exact (((h.readDbls.of_eq ‹_›).readDbls.of_eq ‹_›).writeDbls.of_eq ‹_›).setDeque
      · exact (((h.readDbls.of_eq ‹_›).readDbls.of_eq ‹_›).writeDbls.of_eq ‹_›).stopEngine
    · exact ((h.readDbls.of_eq ‹_›).readDbls.of_eq ‹_›).stopEngine
  · exact h.readDbls.of_eq ‹_›
  · exact (h.readDbls.of_eq ‹_›).stopEngine

theorem State.Canonical.joinFault (h : s.Canonical) {hn ctx : Nat} {seg : Dbl} {amount : Nat} {a : Asker} :
    (s.joinFault hn ctx seg amount a).Canonical := h.dev

theorem State.Canonical.holdStep (h : s.Canonical) {push : Bool} {seg : Dbl} {ctx hn : Nat} :
    (s.holdStep push seg ctx hn).Canonical := h.setMtOf

theorem State.Canonical.holdDec (h : s.Canonical) {parent : Dbl} {ctx hn : Nat} : (s.holdDec parent ctx hn).Canonical := h.setMtOf

theorem State.Canonical.pushResume (h : s.Canonical) {hn ctx : Nat} {seg : Dbl} : (s.pushResume hn ctx seg).Canonical := by
  unfold State.pushResume
  dsimp only
  split
  · refine .ite ?_ ?_
    · split
      exacts [(h.readDbl.of_eq ‹_›).pushFrame.of_eq ‹_›, ((h.readDbl.of_eq ‹_›).pushFrame.of_eq ‹_›).holdStep]
    · exact (h.readDbl.of_eq ‹_›).dev
  · exact .ite (h.readDbl.of_eq ‹_›).holdStep.stopEngine (h.readDbl.of_eq ‹_›).holdStep

theorem State.Canonical.retire (h : s.Canonical) {hn ctx : Nat} {seg : Dbl} : (s.retire hn ctx seg).Canonical := by
  unfold State.retire
  dsimp only
  refine .ite h.holdStep ?_
  split
  · exact (h.readDbl.of_eq ‹_›).holdStep.stopEngine
  split
  · exact ((h.readDbl.of_eq ‹_›).readDbl.of_eq ‹_›).holdStep.stopEngine
  refine .ite ?_ ?_
  · split
    exacts [((h.readDbl.of_eq ‹_›).readDbl.of_eq ‹_›).returnSeg.dev, ((h.readDbl.of_eq ‹_›).readDbl.of_eq ‹_›).returnSeg]
  · exact ((h.readDbl.of_eq ‹_›).readDbl.of_eq ‹_›).returnSeg.holdDec

theorem State.Canonical.addJcount (h : s.Canonical) {hn ctx : Nat} {seg : Dbl} {d : Int} {a : Asker} :
    (s.addJcount hn ctx seg d a).1.Canonical := by
  unfold State.addJcount
  dsimp only
  split
  · exact h.readDbl.of_eq ‹_›
  refine .ite_fst (h.readDbl.of_eq ‹_›).joinFault ?_
  split
  · refine .ite_fst ?_ ?_
    · split
      exacts [((h.readDbl.of_eq ‹_›).writeDbls.of_eq ‹_›).pushResume, ((h.readDbl.of_eq ‹_›).writeDbls.of_eq ‹_›).retire,
        (h.readDbl.of_eq ‹_›).writeDbls.of_eq ‹_›]
    · exact (h.readDbl.of_eq ‹_›).writeDbls.of_eq ‹_›
  · exact (h.readDbl.of_eq ‹_›).writeDbls.of_eq ‹_›

theorem State.Canonical.endTask (h : s.Canonical) {hn ctx : Nat} {seg : Dbl} : (s.endTask hn ctx seg).1.Canonical := by
  unfold State.endTask
  dsimp only
  split
  exacts [h.readDbl.of_eq ‹_›, .ite_fst (h.readDbl.of_eq ‹_›).retire (h.readDbl.of_eq ‹_›).writeDbls]

theorem State.Canonical.withdrawnFault (h : s.Canonical) {n kind : Nat} {id : Dbl} : (s.withdrawnFault n kind id).Canonical := h.dev

theorem State.Canonical.startFrame (h : s.Canonical) {n : Nat} : (s.startFrame n).Canonical := by
  unfold State.startFrame
  dsimp only
  split
  · refine .ite ?_ ?_
    · split
      · exact h.dev
      split
      · split
        · split
          exacts [((h.readDbls.of_eq ‹_›).writeDbls.of_eq ‹_›).dev.withdrawnFault, ((h.readDbls.of_eq ‹_›).writeDbls.of_eq ‹_›).dev]
        · exact ((h.readDbls.of_eq ‹_›).writeDbls.of_eq ‹_›).dequeFault
      · exact (h.readDbls.of_eq ‹_›).dequeFault
    split
    · exact (h.takeSeg.of_eq ‹_›).dequeFault
    split
    · split
      · split
        exacts [(((h.takeSeg.of_eq ‹_›).writeDbls.of_eq ‹_›).writeDbls.of_eq ‹_›).dev.withdrawnFault,
          (((h.takeSeg.of_eq ‹_›).writeDbls.of_eq ‹_›).writeDbls.of_eq ‹_›).dev]
      · exact (((h.takeSeg.of_eq ‹_›).writeDbls.of_eq ‹_›).writeDbls.of_eq ‹_›).returnSeg.dequeFault
    · exact ((h.takeSeg.of_eq ‹_›).writeDbls.of_eq ‹_›).returnSeg.dequeFault
  · exact h

theorem State.Canonical.leaveTask {s0 : State} (h : s0.Canonical) {n : Nat} : (s0.leaveTask n).Canonical := by
  unfold State.leaveTask
  dsimp only
  split
  exacts [h.dev.setHart.setDeque, h.dev.setHart.setDeque.setHart.dev.foldl fun _ _ hs => hs.setDeque.setHart]

/-! Machine/Ports -/

theorem State.Canonical.setAgreed (h : s.Canonical) {p n : Nat} {b : Bool} : (s.setAgreed p n b).Canonical := h.setPort

theorem State.Canonical.joinLink (h : s.Canonical) {p n : Nat} {start : Bool} : (s.joinLink p n start).Canonical := by
  unfold State.joinLink
  dsimp only
  split
  exacts [h, .ite h (.ite h.setAgreed.setAgreed.setPort.setPort h.setAgreed.setAgreed)]

theorem State.Canonical.partLink (h : s.Canonical) {p n : Nat} : (s.partLink p n).Canonical := by
  unfold State.partLink
  split
  exacts [.ite (.setAgreed (.ite h h.setAgreed)) h, h]

theorem State.Canonical.stopAge (h : s.Canonical) {p a : Nat} : (s.stopAge p a).Canonical := .ite h.setAge h

theorem State.Canonical.runAge (h : s.Canonical) {p a : Nat} {g : Age} : (s.runAge p a g).Canonical := h.setMt

theorem State.Canonical.unbind (h : s.Canonical) {p n : Nat} : (s.unbind p n).Canonical := .setPort (.ite h.partLink.stopAge h.partLink)

theorem State.Canonical.unbindAge (h : s.Canonical) {p a : Nat} : (s.unbindAge p a).Canonical := h.foldl fun _ _ hs => .ite hs.unbind hs

theorem State.Canonical.ageFault (h : s.Canonical) {p a cause zone : Nat} {va d0 d1 : Dbl} :
    (s.ageFault p a cause zone va d0 d1).Canonical := h.setAge.dev

theorem State.Canonical.injectPorts (h : s.Canonical) {hn : Nat} : (s.injectPorts hn).Canonical := .ite h (.ite h h.setHart)

theorem State.Canonical.lookPorts (h : s.Canonical) {p : Nat} : (s.lookPorts p).Canonical := h.injectPorts.injectPorts

theorem State.Canonical.portsChanged (h : s.Canonical) {p : Nat} : (s.portsChanged p).Canonical := h.lookPorts.waitOver

theorem State.Canonical.commitPops (h : s.Canonical) {p : Nat} {pops : List Nat} : (s.commitPops p pops).Canonical :=
  h.foldl fun _ _ hs => .ite hs hs.setPort

theorem State.Canonical.pushEntry (h : s.Canonical) {p n : Nat} {e : Entry} : (s.pushEntry p n e).Canonical := h.setPort

theorem State.Canonical.forgetPops (h : s.Canonical) {p n : Nat} : (s.forgetPops p n).Canonical := h.setHart.setHart

theorem State.Canonical.clearPort (h : s.Canonical) {p n : Nat} : (s.clearPort p n).Canonical := h.forgetPops.setPort

theorem State.Canonical.payCredits (h : s.Canonical) {p n : Nat} : (s.payCredits p n).Canonical := by
  unfold State.payCredits
  dsimp only
  split
  exacts [.ite h.setPort.setPort h, h]

theorem State.Canonical.continueAge (h : s.Canonical) {p a n : Nat} : (s.continueAge p a n).Canonical := .ite (.ite h.runAge h.ageFault) h

theorem State.Canonical.applyPort (h : s.Canonical) {hn : Nat} {e : Eff} {nm : Bool} : (s.applyPort hn e nm).Canonical := by
  unfold State.applyPort
  dsimp only
  split
  exacts [h.stopAge.unbindAge.unbind.setPort.runAge, h.unbind.setPort.joinLink, h.unbindAge.unbind.setPort.continueAge,
    .ite h.setHart.clearPort.payCredits.unbind h.setHart.clearPort, h]

theorem State.Canonical.applyWaiting (h : s.Canonical) {p : Nat} {e : Nat × Eff × Bool} : (s.applyWaiting p e).Canonical := by
  unfold State.applyWaiting
  dsimp only
  split
  exacts [h.applyPort.setHart.setHart, h.applyPort]

theorem State.Canonical.addWaiting (h : s.Canonical) {hn : Nat} {nm : Bool} {effs : List (Nat × Eff)} :
    (s.addWaiting hn nm effs).Canonical := by
  unfold State.addWaiting
  dsimp only
  split
  exacts [h, h.setMt]

theorem State.Canonical.runWaiting (h : s.Canonical) {p : Nat} : (s.runWaiting p).Canonical := by
  unfold State.runWaiting
  refine .ite h ?_
  extract_lets r
  have hr : r.1.Canonical := State.Canonical.foldl_fst h fun _ _ hq => .ite_fst hq hq.applyWaiting
  exact hr.setMt.portsChanged

theorem State.Canonical.clearPorts (h : s.Canonical) {p : Nat} : (s.clearPorts p).Canonical :=
  (h.foldl fun _ _ hs => hs.unbind.forgetPops).setMt

theorem State.Canonical.clearTile (h : s.Canonical) {p : Nat} : (s.clearTile p).Canonical := h.clearPorts.setMt

theorem State.Canonical.tryLeave (h : s.Canonical) {n : Nat} : (s.tryLeave n).Canonical := .ite h (.ite h h.clearTile.setHart.leaveTask)

theorem State.Canonical.beginTask (h : s.Canonical) {n : Nat} : (s.beginTask n).Canonical := .ite h.startFrame.clearPorts h.startFrame

theorem State.Canonical.take (h : s.Canonical) {n : Nat} {xs : List Dbl} : (s.take n xs).Canonical := by
  unfold State.take
  dsimp only
  split
  exacts [.ite h.setHart.beginTask h.setHart, h.setHart]

theorem State.Canonical.sendEntry (h : s.Canonical) {p n : Nat} : (s.sendEntry p n).Canonical := by
  unfold State.sendEntry
  dsimp only
  split
  exacts [.ite h h.setPort.setPort.tryLeave.waitOver, h]

theorem State.Canonical.landEntry (h : s.Canonical) {p n : Nat} : (s.landEntry p n).Canonical := by
  unfold State.landEntry
  dsimp only
  split
  exacts [.ite h.setPort.portsChanged h, h]

theorem State.Canonical.execPortEntryDeliver (h : s.Canonical) {place port : Nat} : (execPortEntryDeliver place port s).Canonical :=
  .next (.ite h.landEntry h.sendEntry)

theorem State.Canonical.execPortCreditReturn (h : s.Canonical) {place port : Nat} : (execPortCreditReturn place port s).Canonical := by
  unfold Machine.execPortCreditReturn
  dsimp only
  refine .next ?_
  refine .ite h ?_
  refine .ite h.setPort ?_
  refine .ite h ?_
  split
  exacts [h.setPort.setPort, h]

/-! Machine/Move -/

theorem State.Canonical.execRdsys (h : s.Canonical) {t0 : BitVec 9} {sel : BitVec 4} {pr : BitVec 2} :
    (execRdsys t0 sel pr s).Canonical := .next (.fireScalar (.ite h.ticked h))

/-! Machine/Reply -/

theorem State.Canonical.settle (h : s.Canonical) {hn : Nat} {src : Option (Nat × Nat)} {k : Hart} : (s.settle hn src k).Canonical :=
  h.setHart

theorem State.Canonical.landLinks (h : s.Canonical) {hn : Nat} : (s.landLinks hn).Canonical := by
  unfold State.landLinks
  dsimp only
  refine h.foldl fun _ _ hs => ?_
  split
  exacts [hs.settle, hs]

theorem State.Canonical.replied {hn : Nat} {r : Req} (ht : t.Canonical) :
    (s.replied hn r t).Canonical := .ite ht ht.dev

theorem State.Canonical.settleVia (h : s.Canonical) {hn : Nat} {src : Option (Nat × Nat)} {sent k : Hart} :
    (s.settleVia hn src sent k).Canonical := h.setHart

theorem State.Canonical.lateFault (h : s.Canonical) {hn tag : Nat} {r : Req} {f : FaultRec} : (s.lateFault hn tag r f).Canonical := by
  unfold State.lateFault
  dsimp only
  split
  exacts [h.setHart, h]

theorem State.Canonical.performLoad (h : s.Canonical) {hn tag : Nat} {b : Block} {r : Req} {ps : List (Nat × Nat)} {kind size : Nat}
    {g : Hart → Block → List Byte → Hart} :
    (s.performLoad hn tag b r ps kind size g).Canonical := by
  unfold State.performLoad
  dsimp only
  split
  · exact h.lateFault
  refine .ite h ?_
  split
  · exact h.lateFault
  split
  exacts [h.readPieces.of_eq ‹_›, (h.readPieces.of_eq ‹_›).lateFault, (h.readPieces.of_eq ‹_›).settleVia]

theorem State.Canonical.learnPage (h : s.Canonical) {hn zone : Nat} {va : Dbl} {l : Loc} {a : Attr} :
    (s.learnPage hn zone va l a).Canonical := by
  unfold State.learnPage
  split
  exacts [h, h, h.learn]

theorem State.Canonical.beginWait (h : s.Canonical) {hn : Nat} {b : Block} {r : Req} {kind : Option Nat → ReqKind} {cond : Nat}
    {l : Loc} {got : Option (List Byte)} :
    (s.beginWait hn b r kind cond l got).Canonical := h.setHart.dev

theorem State.Canonical.endWait (h : s.Canonical) {wait : Option Nat} : (s.endWait wait).Canonical := by
  unfold State.endWait
  dsimp only
  split
  exacts [h.dev, h]

theorem State.Canonical.performAcq (h : s.Canonical) {hn tag : Nat} {b : Block} {r : Req} {sc : Nat} {wait : Option Nat} :
    (s.performAcq hn tag b r sc wait).Canonical := by
  unfold State.performAcq
  dsimp only
  split
  · exact h.lateFault
  refine .ite h ?_
  split
  · exact h.lateFault
  refine .ite h ?_
  split
  · exact h.countWalk.target.of_eq ‹_›
  · exact (h.countWalk.target.of_eq ‹_›).learnAt.lateFault
  refine .ite (.ite (h.countWalk.target.of_eq ‹_›).learnPage (h.countWalk.target.of_eq ‹_›).learnPage.beginWait) ?_
  split
  exacts [(h.countWalk.target.of_eq ‹_›).learnPage.lateFault, (h.countWalk.target.of_eq ‹_›).learnPage.endWait.settle]

theorem State.Canonical.sendWaitc (h : s.Canonical) {hn tag : Nat} {b : Block} {r : Req} {k : Token} :
    (s.sendWaitc hn tag b r k).Canonical := by
  unfold State.sendWaitc
  dsimp only
  refine .ite h.settle ?_
  split
  exacts [h.lateFault, h.setHart]

theorem State.Canonical.performWaitc (h : s.Canonical) {hn tag : Nat} {b : Block} {r : Req} {kind arg : Nat} {wait : Option Nat} :
    (s.performWaitc hn tag b r kind arg wait).Canonical := by
  unfold State.performWaitc
  dsimp only
  refine .ite h ?_
  split
  · split
    exacts [h.lateFault, .ite h.sendWaitc h]
  · exact .ite h h.sendWaitc
  refine .ite h.sendWaitc ?_
  refine .ite h ?_
  split
  · exact h.lateFault
  refine .ite h ?_
  split
  · exact h.countWalk.target.of_eq ‹_›
  · exact (h.countWalk.target.of_eq ‹_›).learnAt.lateFault
  refine .ite (h.countWalk.target.of_eq ‹_›).learnPage.endWait.sendWaitc ?_
  refine .ite (.sendWaitc (.ite (h.countWalk.target.of_eq ‹_›).learnPage (h.countWalk.target.of_eq ‹_›).learnPage.beginWait)) ?_
  exact .ite (h.countWalk.target.of_eq ‹_›).learnPage (h.countWalk.target.of_eq ‹_›).learnPage.beginWait

theorem State.Canonical.execLoadReply (h : s.Canonical) {hart tag idx : Nat} : (execLoadReply hart tag idx s).Canonical := by
  unfold Machine.execLoadReply
  dsimp only
  refine .next ?_
  split
  · exact h
  refine .replied ?_
  split
  exacts [h.performLoad, h.freshened.performLoad, .ite h.settle h, h.performLoad, .ite h.performLoad h, h.performAcq, h.performWaitc,
    .ite h.settle h, h, h, h]

theorem State.Canonical.tryPage (h : s.Canonical) {hart tag idx page : Nat} : (s.tryPage hart tag idx page).Canonical := by
  unfold State.tryPage
  dsimp only
  refine .next ?_
  split
  · exact h
  split
  exacts [h.performLoad, h]

theorem State.Canonical.dropOwnLine (h : s.Canonical) {hn zone va : Nat} : (s.dropOwnLine hn zone va).Canonical := h.setHart

theorem State.Canonical.pooled (h : s.Canonical) {ctx zone : Nat} {va : Dbl} {op n : Nat} {w : Writer} :
    (s.pooled ctx zone va op n w).Canonical := by
  unfold State.pooled
  refine .ite h ?_
  split
  exacts [h.homeWrite, h]

theorem State.Canonical.atomicAt (h : s.Canonical) {hn tag : Nat} {b : Block} {r : Req} {op n sc : Nat} {v : Quad} {l : Loc} {a : Attr} :
    (s.atomicAt hn tag b r op n sc v l a).Canonical := by
  unfold State.atomicAt
  dsimp only
  refine .ite h.lateFault ?_
  refine .settle ?_
  split
  exacts [h.homeWrite.pooled, h]

theorem State.Canonical.execAtomicPerform (h : s.Canonical) {hart tag idx : Nat} : (execAtomicPerform hart tag idx s).Canonical := by
  unfold Machine.execAtomicPerform
  dsimp only
  refine .next ?_
  split
  · exact h
  refine .replied ?_
  split
  · split
    · exact h.lateFault
    refine .ite h ?_
    refine .ite h ?_
    refine .ite h.setHart ?_
    refine .ite h ?_
    refine .ite h.dropOwnLine ?_
    refine .ite h ?_
    split
    · exact h.lateFault
    split
    exacts [h.countWalk.target.of_eq ‹_›, (h.countWalk.target.of_eq ‹_›).learnAt.lateFault,
      .ite (h.countWalk.target.of_eq ‹_›) (h.countWalk.target.of_eq ‹_›).learnPage.atomicAt]
  · exact h

theorem State.Canonical.execHostAtomicCasRetry (h : s.Canonical) {hart tag idx : Nat} {other : Dbl} :
    (execHostAtomicCasRetry hart tag idx other s).Canonical := by
  unfold Machine.execHostAtomicCasRetry
  dsimp only
  refine .next ?_
  split
  · exact h
  split
  · refine .ite h ?_
    split
    exacts [(h.xlate.of_eq ‹_›).writeLoc, h.xlate.of_eq ‹_›]
  · exact h

/-! Machine/Posted -/

theorem State.Canonical.tellImage (h : s.Canonical) {hn kind : Nat} {w : PWhat} : (s.tellImage hn kind w).Canonical := by
  unfold State.tellImage
  dsimp only
  refine .ite h ?_
  split
  exacts [h.dev, h]

theorem State.Canonical.enterReplay (h : s.Canonical) {hn n : Nat} {p : Posted} {cause : Nat} :
    (s.enterReplay hn n p cause).Canonical := by
  unfold State.enterReplay
  dsimp only
  split
  exacts [h, .ite h.dev h.dev.tellImage]

theorem State.Canonical.armWatches (h : s.Canonical) : s.armWatches.Canonical := h.dev

theorem State.Canonical.itemDone (h : s.Canonical) {hn n : Nat} : (s.itemDone hn n).Canonical := by
  unfold State.itemDone
  dsimp only
  split
  exacts [.ite h.setHart.tellImage.armWatches h.setHart.tellImage, h.setHart]

theorem State.Canonical.finishStore {hn n : Nat} {p : Posted} {r : State × Access} (h : r.1.Canonical) :
    (finishStore hn n p r).Canonical := by
  unfold Machine.finishStore
  split
  exacts [h.itemDone, h.enterReplay, h]

theorem State.Canonical.stopItem (h : s.Canonical) {hn n : Nat} {p : Posted} {m : Miss} : (s.stopItem hn n p m).Canonical :=
  h.setHart.dequeFault

theorem State.Canonical.performSpawn (h : s.Canonical) {hn n : Nat} {p : Posted} {entry seg : Dbl} {args : List Dbl} {st : BitVec 5} :
    (s.performSpawn hn n p entry seg args st).Canonical := by
  unfold State.performSpawn
  dsimp only
  refine .ite ?_ ?_
  · split
    exacts [(h.pushFrame.of_eq ‹_›).setHart, h.pushFrame.of_eq ‹_›]
  split
  · exact (h.readDbl.of_eq ‹_›).stopItem
  refine .ite (.ite (h.readDbl.of_eq ‹_›) (h.readDbl.of_eq ‹_›).setHart.dev) ?_
  split
  · split
    exacts [(((h.readDbl.of_eq ‹_›).addJcount.of_eq ‹_›).setHart.pushFrame.of_eq ‹_›).setHart,
      ((h.readDbl.of_eq ‹_›).addJcount.of_eq ‹_›).setHart.pushFrame.of_eq ‹_›]
  · exact ((h.readDbl.of_eq ‹_›).addJcount.of_eq ‹_›).stopItem

theorem State.Canonical.performItem (h : s.Canonical) {hn n : Nat} {p : Posted} : (s.performItem hn n p).Canonical := by
  unfold State.performItem
  dsimp only
  split
  · exact h.storeAs.finishStore
  · exact h.writeBack.finishStore
  · exact h
  · exact h.setHart
  · exact h.setHart
  · exact .ite h.setHart h.setHart.dev
  · exact .ite h.countWalk.addJcount.learnAt.itemDone h.countWalk.addJcount.learnAt.enterReplay
  · exact h.performSpawn
  · exact h.setHart.dev
  split
  exacts [(h.endTask.of_eq ‹_›).setHart, (h.endTask.of_eq ‹_›).stopItem]

theorem State.Canonical.releaseWork (h : s.Canonical) {hn n : Nat} {p : Posted} : (s.releaseWork hn n p).Canonical := h.setHart

theorem State.Canonical.execPostedStorePerform (h : s.Canonical) {hart n : Nat} : (execPostedStorePerform hart n s).Canonical := by
  unfold Machine.execPostedStorePerform
  refine .next ?_
  refine .tryLeave ?_
  split
  · exact h.enterReplay
  split
  exacts [h, .ite h.releaseWork h.performItem]

theorem State.Canonical.readBinder (h : s.Canonical) {ctx hn z : Nat} {a : Dbl} : (s.readBinder ctx hn z a).1.Canonical := by
  unfold State.readBinder
  dsimp only
  split
  exacts [h.target.of_eq ‹_›, (h.target.of_eq ‹_›).learnAt, (h.target.of_eq ‹_›).learnPage]

theorem State.Canonical.writeWord (h : s.Canonical) {hn : Nat} {p : Posted} {z : Nat} {a v : Dbl} :
    (s.writeWord hn p z a v).1.Canonical := by
  unfold State.writeWord
  split
  exacts [(h.writeHome.of_eq ‹_›).patchOwn, h.writeHome]

theorem State.Canonical.performRel (h : s.Canonical) {hn n : Nat} {p : Posted} {z : Nat} {a v : Dbl} :
    (s.performRel hn n p z a v).Canonical := by
  unfold State.performRel
  refine .ite h.writeWord.finishStore ?_
  split
  exacts [h.readBinder.of_eq ‹_›, (h.readBinder.of_eq ‹_›).enterReplay,
    .ite (h.readBinder.of_eq ‹_›).setHart (h.readBinder.of_eq ‹_›).writeWord.finishStore]

theorem State.Canonical.execRelItemPerform (h : s.Canonical) {hart n : Nat} : (execRelItemPerform hart n s).Canonical := by
  unfold Machine.execRelItemPerform
  refine .next ?_
  split
  · exact .ite h.enterReplay h
  split
  · exact h
  split
  exacts [h.performRel, h]

theorem State.Canonical.execStoreRetryReoffer (h : s.Canonical) {hart n : Nat} : (execStoreRetryReoffer hart n s).Canonical := by
  unfold Machine.execStoreRetryReoffer
  dsimp only
  refine .next ?_
  split
  exacts [.ite h.setHart h, h]

theorem State.Canonical.promoteHold (h : s.Canonical) {bank : Nat} : (s.promoteHold bank).Canonical := by
  unfold State.promoteHold
  dsimp only
  refine .ite h ?_
  split
  · split
    exacts [h.dev, h]
  · exact h

theorem State.Canonical.setRplrun (h : s.Canonical) {bank : Nat} {l : List Dbl} : (s.setRplrun bank l).Canonical := h.dev

theorem State.Canonical.replayOver (h : s.Canonical) {bank : Nat} {sel : Dbl} : (s.replayOver bank sel).Canonical := h.setRplrun

theorem State.Canonical.replayOne (h : s.Canonical) {bank : Nat} {sel : Dbl} {hn n : Nat} {p : Posted} :
    (s.replayOne bank sel hn n p).1.Canonical := by
  unfold State.replayOne
  dsimp only
  split
  · split
    exacts [(h.storeAs.of_eq ‹_›).itemDone.promoteHold, (h.storeAs.of_eq ‹_›).setHart.replayOver, h.storeAs.of_eq ‹_›]
  · split
    exacts [(h.writeBack.of_eq ‹_›).itemDone.promoteHold, (h.writeBack.of_eq ‹_›).setHart.replayOver, h.writeBack.of_eq ‹_›]
  · refine .ite_fst ?_ ?_
    · refine .ite_fst ?_ ?_
      · split
        exacts [(h.writeWord.of_eq ‹_›).itemDone.promoteHold, (h.writeWord.of_eq ‹_›).setHart.replayOver, h.writeWord.of_eq ‹_›]
      · exact h
    split
    · exact h.readBinder.of_eq ‹_›
    · exact (h.readBinder.of_eq ‹_›).setHart.replayOver
    refine .ite_fst (h.readBinder.of_eq ‹_›).setHart ?_
    split
    exacts [((h.readBinder.of_eq ‹_›).writeWord.of_eq ‹_›).itemDone.promoteHold,
      ((h.readBinder.of_eq ‹_›).writeWord.of_eq ‹_›).setHart.replayOver, (h.readBinder.of_eq ‹_›).writeWord.of_eq ‹_›]
  · exact .ite_fst h.addJcount.learnAt.itemDone.promoteHold h.addJcount.learnAt.setHart.replayOver
  · exact h

theorem State.Canonical.replayStep (h : s.Canonical) {bank : Nat} {sels : List Dbl} : (s.replayStep bank sels).Canonical := by
  induction sels generalizing s with
  | nil => exact h
  | cons sel sels ih =>
    unfold State.replayStep
    dsimp only
    split
    · split
      · split
        exacts [h.replayOne.of_eq ‹_›, ih (h.replayOne.of_eq ‹_›)]
      · exact h.replayOver
    · exact h.replayOver

theorem State.Canonical.execRplcmdReplay (h : s.Canonical) {bank : Nat} : (execRplcmdReplay bank s).Canonical := by
  unfold Machine.execRplcmdReplay
  dsimp only
  refine .next ?_
  split
  exacts [.ite h h.setRplrun, h]

theorem State.Canonical.execReplayEntryPerform (h : s.Canonical) {bank : Nat} : (execReplayEntryPerform bank s).Canonical :=
  .next h.replayStep

theorem State.Canonical.execRplcmdDiscard (h : s.Canonical) {bank : Nat} : (execRplcmdDiscard bank s).Canonical := by
  unfold Machine.execRplcmdDiscard
  dsimp only
  refine .next ?_
  split
  exacts [h.setHart.promoteHold.armWatches, h]

theorem State.Canonical.execReplayHwmRead (h : s.Canonical) {bank : Nat} : (execReplayHwmRead bank s).Canonical := .next h.dev.answer

theorem State.Canonical.execL1dEviction (h : s.Canonical) {hart zone line : Nat} : (execL1dEviction hart zone line s).Canonical := by
  unfold Machine.execL1dEviction
  dsimp only
  refine .next ?_
  split
  exacts [h, h.setHart]

theorem State.Canonical.decrement (h : s.Canonical) {p : Nat} {d : Dbl × Nat × Bool} : (s.decrement p d).Canonical :=
  .ite h.setDeque.addJcount h.setDeque.addJcount.holdDec.stopEngine

theorem State.Canonical.redoStep (h : s.Canonical) {p : Nat} {r : Bool × Dbl × Nat × Bool} : (s.redoStep p r).Canonical :=
  .ite h.setDeque.pushResume h.setDeque.retire

theorem State.Canonical.dequeStep (h : s.Canonical) {p : Nat} : (s.dequeStep p).Canonical := by
  unfold State.dequeStep
  dsimp only
  refine .ite h ?_
  split
  exacts [h.decrement, h.redoStep, h]

theorem State.Canonical.execJcountDecrement (h : s.Canonical) : (execJcountDecrement s).Canonical :=
  .next (h.foldl fun _ _ hs => hs.dequeStep)

theorem State.Canonical.execResumeFrameHandoff (h : s.Canonical) : (execResumeFrameHandoff s).Canonical := by
  unfold Machine.execResumeFrameHandoff
  dsimp only
  refine .next ?_
  split
  · exact h
  split
  · exact h.dev
  refine .ite ?_ h.dev
  split
  exacts [h.dev.pushFrame.of_eq ‹_›, (h.dev.pushFrame.of_eq ‹_›).dev]

/-! Machine/Block -/

theorem State.Canonical.fetchPart (h : s.Canonical) {hn : Nat} {va : Dbl} {n : Nat} : (s.fetchPart hn va n).1.Canonical := by
  unfold State.fetchPart
  dsimp only
  split
  · exact h
  split
  · exact h.countWalk.xlate.of_eq ‹_›
  · exact h.countWalk.xlate.of_eq ‹_›
  refine .ite_fst (h.countWalk.xlate.of_eq ‹_›).learn ?_
  split
  exacts [(h.countWalk.xlate.of_eq ‹_›).learn,
    .ite_fst (h.countWalk.xlate.of_eq ‹_›).learn (h.countWalk.xlate.of_eq ‹_›).learn.setHart]

theorem State.Canonical.fetchRows (h : s.Canonical) {hn : Nat} {va : Dbl} {n : Nat} : (s.fetchRows hn va n).1.Canonical := by
  induction n generalizing s va with
  | zero => exact h
  | succ n ih =>
    unfold State.fetchRows
    split
    · split
      exacts [(ih (h.fetchPart.of_eq ‹_›)).of_eq ‹_›, ih (h.fetchPart.of_eq ‹_›)]
    · exact h.fetchPart

theorem State.Canonical.mapBlock (h : s.Canonical) {hn tag : Nat} {addr : Dbl} {hdr code : List Word} {fs : List FaultRec} :
    (s.mapBlock hn tag addr hdr code fs).Canonical := h.setHart.settle.injectPorts

theorem State.Canonical.fetchBlock (h : s.Canonical) {hn tag : Nat} {addr : Dbl} : (s.fetchBlock hn tag addr).Canonical := by
  unfold State.fetchBlock
  split
  · exact h.fetchPart.of_eq ‹_›
  · exact (h.fetchPart.of_eq ‹_›).mapBlock
  split
  · exact (h.fetchPart.of_eq ‹_›).fetchRows.of_eq ‹_›
  · exact ((h.fetchPart.of_eq ‹_›).fetchRows.of_eq ‹_›).mapBlock
  split <;> exact ((h.fetchPart.of_eq ‹_›).fetchRows.of_eq ‹_›).mapBlock

theorem State.Canonical.execBlockFetch (h : s.Canonical) {hart : Nat} {guess : Option Dbl} :
    (execBlockFetch hart guess s).Canonical := by
  unfold Machine.execBlockFetch
  dsimp only
  refine .next ?_
  refine .ite ?_ ?_
  · split
    exacts [h.fetchBlock, h.injectPorts]
  · exact h.injectPorts

theorem State.Canonical.commitStore (h : s.Canonical) {hn : Nat} {t : St} : (s.commitStore hn t).Canonical := by
  unfold State.commitStore
  dsimp only
  refine .ite h.setHart ?_
  refine .ite ?_ ?_
  · refine .ite h.setHart ?_
    split
    exacts [h.storeAs.of_eq ‹_›, h.setHart]
  · exact h.setHart

theorem State.Canonical.storeBook (h : s.Canonical) {ctx : Nat} {bs : List Byte} : (s.storeBook ctx bs).Canonical := h.writeLoc.dev

theorem State.Canonical.finishLeave (h : s.Canonical) {hn : Nat} : (s.finishLeave hn).Canonical := .ite h (.ite h.setHart h.tryLeave)

theorem State.Canonical.commitBlock (h : s.Canonical) {hn : Nat} {b : Block} {idx : Nat} {br : Branch} :
    (s.commitBlock hn b idx br).Canonical := by
  unfold State.commitBlock
  extract_lets p nm s1 s2 s3 s4 effs s4' s5 s6 s6' h7 s7 s8 s9
  have h4 : s4.Canonical := (h.foldl fun _ _ hs => hs.pushEntry).commitPops.setHart.foldl fun _ _ hs => hs.commitStore
  have h4' : s4'.Canonical := h4.foldl fun _ _ hs => by
    split
    exacts [hs.holdCounter, hs]
  have h6 : s6.Canonical := h4'.setHart.foldl fun _ _ hs => by
    split
    exacts [hs.storeBook, hs]
  have h6' : s6'.Canonical := by
    dsimp only [s6']
    split
    exacts [h6.dev, h6.dev, h6.dev, h6]
  have h9 : s9.Canonical := h6'.setHart.addWaiting.runWaiting.settle.lookPorts
  split
  exacts [h9.setHart.dev, h9.finishLeave]

theorem State.Canonical.liveFault (h : s.Canonical) {hn : Nat} {b : Block} {idx : Nat} : (s.liveFault hn b idx).Canonical := h.setHart

theorem State.Canonical.commitOrFreeze (h : s.Canonical) {hn : Nat} {b : Block} {idx : Nat} {br : Branch} :
    (s.commitOrFreeze hn b idx br).Canonical := by
  unfold State.commitOrFreeze
  split
  exacts [h.dev, h.commitBlock]

theorem State.Canonical.execBlockCommit (h : s.Canonical) {hart : Nat} : (execBlockCommit hart s).Canonical := by
  unfold Machine.execBlockCommit
  refine .next ?_
  split
  · exact h
  · rename_i b idx br _
    cases br with
    | join c => exact h
    | taskend => exact .ite h h.commitOrFreeze
    | yield c => exact .ite h.liveFault h.commitOrFreeze
    | _ => exact .ite h h.commitOrFreeze

theorem State.Canonical.execReturnStackSpill (h : s.Canonical) {hart : Nat} : (execReturnStackSpill hart s).Canonical := by
  unfold Machine.execReturnStackSpill
  dsimp only
  refine .next ?_
  split
  · exact h
  refine .ite h ?_
  split
  · exact h.dev
  refine .ite h ?_
  split
  exacts [h.countWalk.writeHome.of_eq ‹_›, (h.countWalk.writeHome.of_eq ‹_›).learnAt.dev,
    (h.countWalk.writeHome.of_eq ‹_›).learnAt.patchOwn.setHart]

theorem State.Canonical.takeBlockFault (h : s.Canonical) {hn : Nat} {b : Block} {f : FaultRec} :
    (s.takeBlockFault hn b f).Canonical := .setHart (.dev (.ite h.setHart h))

theorem State.Canonical.execFaultTake (h : s.Canonical) {hart : Nat} : (execFaultTake hart s).Canonical := by
  unfold Machine.execFaultTake
  dsimp only
  refine .next ?_
  refine .ite ?_ ?_
  · split
    exacts [h.dev, h]
  refine .ite h ?_
  split
  · exact h.dev
  split
  · split
    exacts [h.setHart.dev, h]
  split
  exacts [h.takeBlockFault, .ite h.takeBlockFault h]

theorem State.Canonical.execOchrePacketEnqueue (h : s.Canonical) {row : Nat} : (execOchrePacketEnqueue row s).Canonical := by
  unfold Machine.execOchrePacketEnqueue
  dsimp only
  refine .next ?_
  split
  exacts [.ite (.ite h.dev.runWaiting h.dev) h, h]

theorem State.Canonical.execOchrePacketRead (h : s.Canonical) {row : Nat} : (execOchrePacketRead row s).Canonical := .next h.dev.answer

/-! Machine/TensorOp -/

theorem State.Canonical.streamTake (h : s.Canonical) {hn n : Nat} : (s.streamTake hn n).Canonical := h.setPort

theorem State.Canonical.issueMma (h : s.Canonical) {hn tag : Nat} {b : Block} {r : Req} {t : TIns} :
    (s.issueMma hn tag b r t).Canonical := by
  unfold State.issueMma
  dsimp only
  refine .ite h ?_
  split
  · split
    exacts [h.setHart, .settle (.ite h h.streamTake)]
  · exact h

theorem State.Canonical.execTensorIssue (h : s.Canonical) {hart tag idx : Nat} : (execTensorIssue hart tag idx s).Canonical := by
  unfold Machine.execTensorIssue
  dsimp only
  refine .next ?_
  split
  · exact h
  split
  · refine .ite h ?_
    refine .ite h.issueMma ?_
    refine .ite h ?_
    split
    exacts [h.setHart, h.settle]
  · exact h

theorem State.Canonical.streamFault (h : s.Canonical) {hn : Nat} {o : TOp} {n : Nat} {e : Entry} {cause exp : Nat} :
    (s.streamFault hn o n e cause exp).Canonical := .ite h h.setHart.dev

theorem State.Canonical.consume (h : s.Canonical) {hn : Nat} {o : TOp} {left : Bool} : (s.consume hn o left).Canonical := by
  unfold State.consume
  dsimp only
  split
  exacts [h, .ite h.streamFault (.ite h.streamFault h.streamTake.setHart.runWaiting.portsChanged)]

theorem State.Canonical.execMmaEntryConsume (h : s.Canonical) {hart node : Nat} : (execMmaEntryConsume hart node s).Canonical := by
  unfold Machine.execMmaEntryConsume
  dsimp only
  refine .next ?_
  refine .ite h ?_
  split
  exacts [h, .ite h (.ite h.consume (.ite h.consume h))]

theorem State.Canonical.unbusy (h : s.Canonical) {hn : Nat} : (s.unbusy hn).Canonical := h.countSome.runWaiting

theorem State.Canonical.execTensorOpComplete (h : s.Canonical) {hart node : Nat} : (execTensorOpComplete hart node s).Canonical := by
  unfold Machine.execTensorOpComplete
  dsimp only
  refine .next ?_
  refine .ite h ?_
  split
  exacts [h, .ite h h.setHart.dev.unbusy.portsChanged]

theorem State.Canonical.execMstoEntryPush (h : s.Canonical) {hart node : Nat} : (execMstoEntryPush hart node s).Canonical := by
  unfold Machine.execMstoEntryPush
  dsimp only
  refine .next ?_
  refine .ite h ?_
  split
  · exact h
  split
  exacts [h.setHart.unbusy.portsChanged, .ite h (.ite h.pushEntry.setHart.unbusy.portsChanged h.pushEntry.setHart)]

theorem State.Canonical.execMatrixNodeModeChange (h : s.Canonical) {hart node : Nat} :
    (execMatrixNodeModeChange hart node s).Canonical := by
  unfold Machine.execMatrixNodeModeChange
  dsimp only
  split
  exacts [.next h, .next h.setHart]

/-! Machine/Age -/

theorem State.Canonical.ageAccessFault (h : s.Canonical) {p a cause pa kind size zone : Nat} {va : Dbl} :
    (s.ageAccessFault p a cause pa kind size zone va).Canonical := h.ageFault

theorem State.Canonical.execAgeRecordFetch (h : s.Canonical) {place age : Nat} : (execAgeRecordFetch place age s).Canonical := by
  unfold Machine.execAgeRecordFetch
  dsimp only
  refine .next ?_
  split
  · exact h
  refine .ite h ?_
  split
  · exact h.readHomeAll.of_eq ‹_›
  · exact (h.readHomeAll.of_eq ‹_›).setAge.ageAccessFault
  refine .ite (h.readHomeAll.of_eq ‹_›).setAge ?_
  refine .ite (h.readHomeAll.of_eq ‹_›).setAge.ageFault ?_
  split
  exacts [(h.readHomeAll.of_eq ‹_›).setAge.ageFault, (h.readHomeAll.of_eq ‹_›).setAge]

theorem State.Canonical.ageAdd (h : s.Canonical) {p a x : Nat} {scale : Option Half} : (s.ageAdd p a x scale).Canonical :=
  .ite h.setAge.pushEntry.portsChanged h.setAge

theorem State.Canonical.execAgeElementDeliver (h : s.Canonical) {place age : Nat} : (execAgeElementDeliver place age s).Canonical := by
  unfold Machine.execAgeElementDeliver
  extract_lets g span sc
  have hsc : sc.1.Canonical := by
    refine .ite_fst ?_ h
    split
    exacts [h.readHomeAll.of_eq ‹_›, (h.readHomeAll.of_eq ‹_›).ageAccessFault, h.readHomeAll.of_eq ‹_›]
  clear_value sc
  refine .next (.ite h (.ite h.setAge (.ite h (.ite h.ageAccessFault ?_))))
  split
  · exact hsc
  · rename_i s1 scale
    have h1 : s1.Canonical := hsc
    split
    exacts [h1.readHomeAll.of_eq ‹_›, (h1.readHomeAll.of_eq ‹_›).ageAccessFault, (h1.readHomeAll.of_eq ‹_›).ageAdd]

theorem State.Canonical.agePop (h : s.Canonical) {p a : Nat} : (s.agePop p a).Canonical := by
  unfold State.agePop
  dsimp only
  split
  exacts [h.setAge, h, .ite h (.ite h.ageFault h.setPort.setAge.runWaiting.portsChanged.tryLeave.waitOver)]

theorem State.Canonical.agePost (h : s.Canonical) {p a : Nat} {rest : List Nat} {e : AgeStore} : (s.agePost p a rest e).Canonical :=
  h.setAge

theorem State.Canonical.ageRewind (h : s.Canonical) {p a i : Nat} : (s.ageRewind p a i).Canonical := by
  unfold State.ageRewind
  dsimp only
  split
  exacts [h.setAge, h]

theorem State.Canonical.ageWrote (h : s.Canonical) {p a i : Nat} : (s.ageWrote p a i).Canonical := h.setAge.runWaiting.tryLeave

theorem State.Canonical.agePerform (h : s.Canonical) {p a i : Nat} : (s.agePerform p a i).Canonical := by
  unfold State.agePerform
  dsimp only
  split
  · exact h
  split
  exacts [h.writeElem.of_eq ‹_›, (h.writeElem.of_eq ‹_›).ageRewind.ageAccessFault,
    .ageWrote (.ite (h.writeElem.of_eq ‹_›) (h.writeElem.of_eq ‹_›).ageRewind)]

theorem State.Canonical.ageFlush (h : s.Canonical) {p a : Nat} : (s.ageFlush p a).Canonical := h.foldl fun _ _ hs => hs.agePerform

theorem State.Canonical.execAgeElementWrite (h : s.Canonical) {place age : Nat} : (execAgeElementWrite place age s).Canonical := by
  unfold Machine.execAgeElementWrite
  dsimp only
  refine .next ?_
  refine .ite (.agePerform (.ite h h.freshened)) ?_
  refine .ite h ?_
  refine .ite h.setAge ?_
  split
  exacts [.agePop (.ite h h.freshened), .ite (.ageAccessFault (.ite h h.freshened)) (.agePost (.ite h h.freshened))]

theorem State.Canonical.execAgeResume (h : s.Canonical) {place age : Nat} : (execAgeResume place age s).Canonical := by
  unfold Machine.execAgeResume
  dsimp only
  refine .next ?_
  refine .ite ?_ ?_
  · split
    exacts [.ite h.runAge h.ageFault, h.runAge]
  · exact h

theorem State.Canonical.execAgeStop (h : s.Canonical) {place age : Nat} : (execAgeStop place age s).Canonical := .next h.stopAge

theorem State.Canonical.execCompletionTimeout (h : s.Canonical) {hart tag idx : Nat} :
    (execCompletionTimeout hart tag idx s).Canonical := by
  unfold Machine.execCompletionTimeout
  dsimp only
  refine .next ?_
  refine .ite ?_ ?_
  · split
    · split
      exacts [.ite h.enterReplay h, h]
    · exact h
  refine .ite ?_ ?_
  · split
    exacts [.ite h.ageRewind.ageAccessFault h, h]
  split
  · exact h
  split
  exacts [.ite h.lateFault h, h]

/-! Machine/TaskEv -/

theorem State.Canonical.execJoinWordRead (h : s.Canonical) {hart : Nat} : (execJoinWordRead hart s).Canonical := by
  unfold Machine.execJoinWordRead
  dsimp only
  refine .next ?_
  split
  · refine .ite h.liveFault ?_
    split
    · exact h.dev
    refine .ite h ?_
    split
    exacts [h, (h.countWalk.readHome.of_eq ‹_›).learnAt.setHart, (h.countWalk.readHome.of_eq ‹_›).learnAt.setHart.commitBlock]
  · exact h

theorem State.Canonical.suspendFault (h : s.Canonical) {n cause pa : Nat} {va : Dbl} : (s.suspendFault n cause pa va).Canonical := h.dev

theorem State.Canonical.swapSusp (h : s.Canonical) {n : Nat} : (s.swapSusp n).Canonical := by
  unfold State.swapSusp
  dsimp only
  split
  · exact h
  · exact (h.readHome.of_eq ‹_›).suspendFault
  refine .ite (h.readHome.of_eq ‹_›).setHart ?_
  split
  exacts [h, ((h.readHome.of_eq ‹_›).writeHome.of_eq ‹_›).suspendFault, ((h.readHome.of_eq ‹_›).writeHome.of_eq ‹_›).dev.leaveTask]

theorem State.Canonical.pushYield (h : s.Canonical) {n : Nat} : (s.pushYield n).Canonical := by
  unfold State.pushYield
  dsimp only
  split
  exacts [h.pushFrame.of_eq ‹_›, (h.pushFrame.of_eq ‹_›).leaveTask.setHart]

theorem State.Canonical.execJoinSuspend (h : s.Canonical) {hart : Nat} : (execJoinSuspend hart s).Canonical := by
  unfold Machine.execJoinSuspend
  dsimp only
  refine .next ?_
  split
  · exact h
  refine .ite h ?_
  split
  · exact h.dev
  split
  · exact h
  · exact (h.countWalk.writeHomeAll.of_eq ‹_›).learnAt.suspendFault
  refine .ite (h.countWalk.writeHomeAll.of_eq ‹_›).learnAt.pushYield ?_
  exact (h.countWalk.writeHomeAll.of_eq ‹_›).learnAt.swapSusp

theorem State.Canonical.takeAcquired (h : s.Canonical) {n : Nat} {xs : List Dbl} : (s.takeAcquired n xs).Canonical := h.setHart.take

theorem State.Canonical.popRing (h : s.Canonical) {n : Nat} : (s.popRing n).Canonical :=
  .ite h.setDeque.setHart.takeAcquired h.setDeque.setHart.take

theorem State.Canonical.execOwnerPop (h : s.Canonical) {hart : Nat} : (execOwnerPop hart s).Canonical := by
  unfold Machine.execOwnerPop
  dsimp only
  refine .next ?_
  split
  exacts [h, .ite h (.ite h.popRing (.ite h (.ite (.ite h.refill.popRing h.refill) h)))]

theorem State.Canonical.blacken (h : s.Canonical) {v n : Nat} : (s.blacken v n).Canonical := h.setDeque.setDeque

theorem State.Canonical.emptyReply (h : s.Canonical) {n : Nat} : (s.emptyReply n).Canonical := by
  unfold State.emptyReply
  dsimp only
  split
  exacts [h.setDeque.setHart, h.setDeque.setHart.setHart]

theorem State.Canonical.execTheftRequest (h : s.Canonical) {hart : Nat} : (execTheftRequest hart s).Canonical := by
  unfold Machine.execTheftRequest
  dsimp only
  refine .next ?_
  split
  · exact h
  refine .ite h ?_
  refine .ite h.setDeque ?_
  refine .ite h ?_
  refine .ite ?_ ?_
  · split
    exacts [(h.overflowTake.of_eq ‹_›).setDeque.blacken, (h.overflowTake.of_eq ‹_›).setDeque]
  · exact .ite h.setDeque h.setDeque.setDeque

theorem State.Canonical.execTheftReply (h : s.Canonical) {hart : Nat} : (execTheftReply hart s).Canonical := by
  unfold Machine.execTheftReply
  dsimp only
  refine .next ?_
  split
  · exact h
  · split
    exacts [h.setDeque.setHart.takeAcquired, h.setDeque.setHart]
  · exact h.emptyReply

theorem State.Canonical.execTheftCopyComplete (h : s.Canonical) {hart : Nat} : (execTheftCopyComplete hart s).Canonical := by
  unfold Machine.execTheftCopyComplete
  dsimp only
  refine .next ?_
  split
  · exact h
  split
  exacts [h, .ite h h.setDeque.blacken.setHart.takeAcquired]

theorem State.Canonical.execTheftLapWaitExpiry (h : s.Canonical) {hart : Nat} : (execTheftLapWaitExpiry hart s).Canonical :=
  .next h.setHart

theorem State.Canonical.execPoolTakeRetry (h : s.Canonical) {place : Nat} : (execPoolTakeRetry place s).Canonical := by
  unfold Machine.execPoolTakeRetry
  dsimp only
  refine .next ?_
  split
  exacts [.ite h (.ite (.ite h.beginTask h) (.ite h.setDeque.spill h)), h]

theorem State.Canonical.execDequeSpillResume (h : s.Canonical) {place : Nat} : (execDequeSpillResume place s).Canonical :=
  .next (.ite h (.ite h.returnBack.setHart (.ite h.returnBack.setHart.setDeque.spill h.returnBack.setHart.setDeque)))

theorem State.Canonical.endOneDomwait (h : s.Canonical) {n : Nat} {r : Req} : (s.endOneDomwait n r).Canonical := by
  unfold State.endOneDomwait
  dsimp only
  split
  exacts [h.settle, h]

theorem State.Canonical.endDomwait (h : s.Canonical) {n : Nat} : (s.endDomwait n).Canonical := by
  unfold State.endDomwait
  split
  exacts [h, h.foldl fun _ _ hs => hs.endOneDomwait]

theorem State.Canonical.startRound (h : s.Canonical) {g : Graph} {n : Nat} : (s.startRound g n).Canonical :=
  (h.setDeque.setDeque.foldl fun _ _ hs => hs.setHart).dev

theorem State.Canonical.execQuiescenceTokenForward (h : s.Canonical) {hart : Nat} : (execQuiescenceTokenForward hart s).Canonical := by
  unfold Machine.execQuiescenceTokenForward
  dsimp only
  refine .next ?_
  split
  · exact h
  refine .ite h ?_
  refine .ite (.ite (.ite (h.setDeque.foldl fun _ _ hs => hs.endDomwait).dev h.startRound) (.ite h h.startRound)) ?_
  exact .ite h.setDeque.setDeque h

theorem State.Canonical.execWidenReserve (h : s.Canonical) {hart : Nat} : (execWidenReserve hart s).Canonical := by
  unfold Machine.execWidenReserve
  dsimp only
  refine .next ?_
  split
  exacts [h, .ite h (.ite h.setHart.dev h)]

theorem State.Canonical.execWidenRedistribute (h : s.Canonical) {hart : Nat} : (execWidenRedistribute hart s).Canonical := by
  unfold Machine.execWidenRedistribute
  dsimp only
  refine .next ?_
  split
  exacts [.ite h.setHart h, h]

theorem State.Canonical.kickFault (h : s.Canonical) {place : Nat} {f : FaultRec} : (s.kickFault place f).Canonical := h.setHart.dev

theorem State.Canonical.endKick (h : s.Canonical) {place : Nat} : (s.endKick place).Canonical := h.setMt.endWait

theorem State.Canonical.awaitKick (h : s.Canonical) {place : Nat} {l : Loc} : (s.awaitKick place l).Canonical := .ite h h.setMt.dev

theorem State.Canonical.execEngineKickStart (h : s.Canonical) {place : Nat} : (execEngineKickStart place s).Canonical := by
  unfold Machine.execEngineKickStart
  dsimp only
  refine .next ?_
  refine .ite h ?_
  refine .ite h.kickFault ?_
  split
  · exact h.kickFault
  refine .ite h ?_
  split
  · exact h
  · exact (h.target.of_eq ‹_›).kickFault
  refine .ite (h.target.of_eq ‹_›).awaitKick ?_
  split
  exacts [(h.target.of_eq ‹_›).endKick.kickFault, (h.target.of_eq ‹_›).endKick.setHart]

/-! Machine/Homes -/

theorem State.Canonical.execInvalidationComplete (h : s.Canonical) : (execInvalidationComplete s).Canonical := by
  unfold Machine.execInvalidationComplete
  dsimp only
  refine .next ?_
  split
  exacts [h, h.dev]

theorem State.Canonical.execTinvInvalidate (h : s.Canonical) {ctl : Dbl} : (execTinvInvalidate ctl s).Canonical :=
  .next (.ite h (.ite h.dev h.dev))

theorem State.Canonical.execPageWalkComplete (h : s.Canonical) {ctx zone : Nat} {va : Dbl} :
    (execPageWalkComplete ctx zone va s).Canonical := by
  unfold Machine.execPageWalkComplete
  refine .next ?_
  split
  exacts [h.xlate, h.xlate, h]

theorem State.Canonical.ringTake (h : s.Canonical) {key : Nat} : (s.ringTake key).Canonical := h.dev

theorem State.Canonical.ringGive (h : s.Canonical) {key entry : Nat} : (s.ringGive key entry).Canonical := h.setPhys64.dev

theorem State.Canonical.copyFrame (h : s.Canonical) {src dst : Nat} : (s.copyFrame src dst).Canonical := h.putDev.dev

theorem State.Canonical.copyPieces (h : s.Canonical) {m : Move} : (s.copyPieces m).Canonical := h.foldl fun _ _ hs => hs.copyFrame

theorem State.Canonical.casLeaf (h : s.Canonical) {pa old new : Nat} : CanonicalIf (s.casLeaf pa old new) :=
  .ite (.some h.setPhys64) .none

theorem State.Canonical.swapLeaves (h : s.Canonical) {m : Move} {is : List Nat} : (s.swapLeaves m is).1.Canonical := by
  induction is generalizing s with
  | nil => exact h
  | cons i is ih =>
    unfold State.swapLeaves
    dsimp only
    split
    · exact h
    · have hs := h.casLeaf.of_eq ‹_›
      split
      · exact (ih hs).of_eq ‹_›
      · rename_i s2 e2
        have h2 : s2.Canonical := (ih hs).of_eq e2
        dsimp only
        exact h2.casLeaf.getD h2

theorem State.Canonical.vacate (h : s.Canonical) {m : Move} : (s.vacate m).Canonical := .ite h.ringGive
    (h.foldl fun _ _ hs => hs.ringGive)

theorem State.Canonical.finishMove (h : s.Canonical) {m : Move} : (s.finishMove m).Canonical := by
  unfold State.finishMove
  dsimp only
  split
  exacts [(h.dev.copyPieces.swapLeaves.of_eq ‹_›).dev.vacate, (h.dev.copyPieces.swapLeaves.of_eq ‹_›).ringGive]

theorem State.Canonical.execPageMove (h : s.Canonical) {ctx : Nat} {va : Dbl} {stack : Nat} :
    (execPageMove ctx va stack s).Canonical := by
  unfold Machine.execPageMove
  dsimp only
  refine .next ?_
  split
  · exact .ite h.finishMove h
  split
  exacts [.ite h h.ringTake.dev, h]

theorem State.Canonical.flushLine (h : s.Canonical) {ctx hn : Nat} {quiet : Bool} {l : Line} :
    (s.flushLine ctx hn quiet l).Canonical := by
  unfold State.flushLine
  dsimp only
  refine .ite h ?_
  split
  exacts [h.writeBack.of_eq ‹_›, (h.writeBack.of_eq ‹_›).setHart]

theorem State.Canonical.emptyWatched (h : s.Canonical) {ctx : Nat} {w : Watch} {hn : Nat} : (s.emptyWatched ctx w hn).Canonical :=
  h.setHart.foldl fun _ _ hs => hs.flushLine

theorem State.Canonical.execWatchArm (h : s.Canonical) {ctx n : Nat} : (execWatchArm ctx n s).Canonical :=
  .next (h.foldl fun _ _ hs => hs.emptyWatched).dev

theorem State.Canonical.execWatchDisarm (h : s.Canonical) {ctx n : Nat} : (execWatchDisarm ctx n s).Canonical := .next h.dev

theorem State.Canonical.execAtsTranslationCompletion (h : s.Canonical) {ctx : Nat} {va : Dbl} {rights : Bool × Bool}
    {frameSize : Nat × Nat} :
    (execAtsTranslationCompletion ctx va rights frameSize s).Canonical := by
  unfold Machine.execAtsTranslationCompletion
  dsimp only
  refine .next ?_
  split
  exacts [h, h, h.dev]

theorem State.Canonical.nextOr (h : s.Canonical) {o : Out} (ho : o.Canonical) : (nextOr s o).Canonical := by
  unfold Machine.nextOr
  split
  exacts [ho.of_eq rfl, h]

/-- Whatever waits on a host page keeps the canonical form where it is run again. -/
theorem State.Canonical.hostAccesses (h : t.Canonical) {page : Nat} {run : State → Out} (hrun : run ∈ s.hostAccesses page) :
    (run t).Canonical := by
  unfold State.hostAccesses at hrun
  simp only [List.mem_append, List.mem_flatMap, List.mem_map, List.mem_filterMap] at hrun
  obtain ⟨p, _, ⟨b, _, r, _, e⟩ | ⟨x, _, e⟩⟩ | ⟨p, _, a, _, e⟩ := hrun
  · split at e <;> subst e
    exacts [h.execAtomicPerform, h.tryPage, h.tryPage, h.execLoadReply]
  · split at e
    · obtain rfl := Option.some.inj e
      split
      exacts [h.execRelItemPerform, h.execPostedStorePerform]
    · cases e
  · split at e
    · obtain rfl := Option.some.inj e
      split
      · exact h.execAgeRecordFetch
      split
      exacts [h.execAgeElementWrite, h.execAgeElementDeliver]
    · cases e

theorem State.Canonical.failPage (h : s.Canonical) {q : Pri} : (s.failPage q).Canonical :=
  (h.dev.foldl_mem fun _ _ hrun hs => .ite (hs.nextOr (hs.dev.hostAccesses hrun)) hs).dev

theorem State.Canonical.execPriResponse (h : s.Canonical) {ctx : Nat} {va : Dbl} {code : Nat} :
    (execPriResponse ctx va code s).Canonical := by
  unfold Machine.execPriResponse
  dsimp only
  refine .next ?_
  split
  exacts [.ite h.dev h.dev.failPage, h]

theorem State.Canonical.execAtsInvalidation (h : s.Canonical) {pasid : Nat} {va : Dbl} {pages : Nat} :
    (execAtsInvalidation pasid va pages s).Canonical := by
  unfold Machine.execAtsInvalidation
  dsimp only
  split
  · exact .next h.dev
  · split <;> exact .next h.dev

/-! Machine/Objects -/

theorem State.Canonical.touchPage (h : s.Canonical) {ctx page : Nat} : (s.touchPage ctx page).Canonical := by
  unfold State.touchPage
  split
  exacts [h.setPhys64.armPage, h]

theorem State.Canonical.writeRegistry (h : s.Canonical) {o : Obj} {refcnt : Nat} : (s.writeRegistry o refcnt).Canonical := by
  unfold State.writeRegistry
  dsimp only
  split
  exacts [h.touchPage.putDev, h]

theorem State.Canonical.withdraw (h : s.Canonical) {o : Obj} : (s.withdraw o).Canonical := by
  unfold State.withdraw
  dsimp only
  refine .writeRegistry (.dev (h.foldl fun _ _ hs => ?_))
  split
  exacts [hs.setPhys64.dev, hs]

theorem State.Canonical.countRefs (h : s.Canonical) {ctx : Nat} {refs : List (Dbl × Dbl)} {up : Bool} :
    (s.countRefs ctx refs up).Canonical := by
  unfold State.countRefs
  dsimp only
  refine h.foldl fun _ _ hs => ?_
  split
  exacts [hs, .ite hs.writeRegistry.withdraw hs.writeRegistry]

theorem State.Canonical.mapPage (h : s.Canonical) {ctx page f : Nat} : (s.mapPage ctx page f).Canonical := by
  unfold State.mapPage
  split
  exacts [h.setPhys64, h]

theorem State.Canonical.mapPages (h : s.Canonical) {ctx : Nat} {pages frames : List Nat} : (s.mapPages ctx pages frames).Canonical :=
  h.foldl fun _ _ hs => hs.mapPage

theorem State.Canonical.placePage (h : s.Canonical) {ctx typ page : Nat} {bs : List Byte} :
    (s.placePage ctx typ page bs).Canonical := by
  unfold State.placePage
  dsimp only
  split
  exacts [h, h.dev.putDev.setPhys64.touchPage.dev]

theorem State.Canonical.execObjectLoad (h : s.Canonical) {ctx : Nat} {object : Dbl} {bases : Dbl × Dbl} {frames : List Nat} :
    (execObjectLoad ctx object bases frames s).Canonical := by
  unfold Machine.execObjectLoad
  dsimp only
  refine .next ?_
  split
  exacts [h.dev, (h.mapPages.foldl fun _ _ hs => hs.foldl fun _ _ hs => hs.placePage).dev.writeRegistry]

theorem State.Canonical.execObjectUnload (h : s.Canonical) {ctx : Nat} {object : Dbl} {forced : Bool} :
    (execObjectUnload ctx object forced s).Canonical := by
  unfold Machine.execObjectUnload
  dsimp only
  refine .next ?_
  split
  exacts [h, .ite h.withdraw h.dev.writeRegistry]

theorem State.Canonical.execKeyInstall (h : s.Canonical) {key : Nat} : (execKeyInstall key s).Canonical := .next (.ite h h.dev)

/-! Machine/Ivory -/

theorem State.Canonical.putSaved (h : s.Canonical) {addr k : Nat} {bs : List Byte} : (s.putSaved addr k bs).Canonical :=
  h.foldl fun _ _ hs => .ite hs.putDev hs

/-! Machine/Preempt -/

theorem State.Canonical.takeSave (h : s.Canonical) {n : Nat} : (s.takeSave n).1.Canonical := by
  unfold State.takeSave
  dsimp only
  refine .ite_fst h ?_
  split
  exacts [h, (h.foldl fun _ _ hs => hs.ringTake).dev]

theorem State.Canonical.giveSave (h : s.Canonical) {addr : Nat} : (s.giveSave addr).Canonical := by
  unfold State.giveSave
  dsimp only
  split
  exacts [h, (h.foldl fun _ _ hs => hs.ringGive).dev]

theorem State.Canonical.saveRefs (h : s.Canonical) {g : Graph} {tiles : List Saved} : (s.saveRefs g tiles).Canonical := h.dev.countRefs

theorem State.Canonical.loadTile (h : s.Canonical) {g k : Graph} {v : Saved} {p : Nat} {nonres : SMap Bool} :
    (s.loadTile g k v p nonres).Canonical := h.dev.setMt

theorem State.Canonical.idleTile (h : s.Canonical) {p : Nat} {nonres : SMap Bool} : (s.idleTile p nonres).Canonical := h.dev.setMt

theorem State.Canonical.resend (h : s.Canonical) {n : Nat} : (s.resend n).Canonical := by
  unfold State.resend
  split
  exacts [h.dev, h]

theorem State.Canonical.checkCode (h : s.Canonical) {g : Graph} {n : Nat} : (s.checkCode g n).Canonical := by
  unfold State.checkCode
  dsimp only
  refine .ite h ?_
  split
  · exact h.withdrawnFault
  split
  exacts [h.withdrawnFault, h]

theorem State.Canonical.deliverResume (h : s.Canonical) {g : Graph} {seg : Dbl} : (s.deliverResume g seg).Canonical := by
  unfold State.deliverResume
  dsimp only
  split
  exacts [h.pushFrame.of_eq ‹_›, (h.pushFrame.of_eq ‹_›).dev]

theorem State.Canonical.applyMsg (h : s.Canonical) {g : Graph} {m : Msg} : (s.applyMsg g m).Canonical := .ite h.deliverResume h

theorem State.Canonical.landAll (h : s.Canonical) {k : Graph} : (s.landAll k).Canonical :=
  h.foldl fun _ _ hs => hs.foldl fun _ _ hs => .ite hs hs.landLinks

theorem State.Canonical.revive (h : s.Canonical) {g : Graph} {refs : List (Dbl × Dbl)} {log : List Msg} :
    (s.revive g refs log).Canonical :=
  ((h.dev.countRefs.foldl fun _ _ hs => hs.resend.resend.checkCode).foldl fun _ _ hs => hs.applyMsg).foldl fun _ _ hs => hs.runWaiting.tryLeave

theorem State.Canonical.refillImage (h : s.Canonical) {addr : Dbl} {copies : List Saved} {more : List Dbl} :
    (s.refillImage addr copies more).Canonical := h.dev

theorem State.Canonical.flushAges (h : s.Canonical) {p : Nat} : (s.flushAges p).Canonical := h.foldl fun _ _ hs => hs.ageFlush

theorem State.Canonical.cleanTile {s0 : State} (h : s0.Canonical) {p : Nat} : (s0.cleanTile p).Canonical :=
  h.flushAges.foldl fun _ _ hs => hs.setHart.foldl fun _ _ hs => hs.flushLine

theorem State.Canonical.freshTile (h : s.Canonical) {p : Nat} {live : Saved} {nonres : SMap Bool} :
    (s.freshTile p live nonres).Canonical := h.dev.setMt

theorem State.Canonical.signalSwap (h : s.Canonical) {g : Graph} {state : Nat} {dst : Dbl} : (s.signalSwap g state dst).Canonical := h.dev

theorem State.Canonical.swapTile (h : s.Canonical) {p : Nat} : (s.swapTile p).Canonical := by
  unfold State.swapTile
  refine .ite h ?_
  split
  · exact h
  split
  · exact h
  extract_lets incoming s0 live d s1 onto s2 s3
  clear_value incoming
  have h1 : s1.Canonical := h.cleanTile.dev
  have h2 : s2.Canonical := by
    dsimp only [s2]
    split
    · split
      exacts [h1.loadTile, h1.freshTile]
    · exact h1.freshTile
  have h3 : s3.Canonical := h2.saveRefs
  refine .ite h2 ?_
  split
  · split
    exacts [h3.dev.landAll.revive, h3]
  · exact h3

theorem State.Canonical.execShadowSwap (h : s.Canonical) {place : Nat} : (execShadowSwap place s).Canonical := .next h.swapTile

theorem State.Canonical.execScratchPageExchange (h : s.Canonical) {place page : Nat} :
    (execScratchPageExchange place page s).Canonical := by
  unfold Machine.execScratchPageExchange
  dsimp only
  refine .next ?_
  refine .ite h ?_
  split
  exacts [h.setMt.dev, h.setMt]

theorem State.Canonical.writeSepia (h : s.Canonical) {i : Image} : (s.writeSepia i).Canonical :=
  h.dev.putSaved.foldl fun _ _ hs => hs.putSaved

theorem State.Canonical.execStreamerWriteOut (h : s.Canonical) {place : Nat} : (execStreamerWriteOut place s).Canonical := by
  unfold Machine.execStreamerWriteOut
  dsimp only
  refine .next ?_
  split
  · exact h
  refine .ite h ?_
  refine .ite h.dev ?_
  split
  exacts [h.dev, h.dev.writeSepia.dev]

theorem State.Canonical.command (h : s.Canonical) {cmd : Dbl} {run : State → PeCmd → State}
    (hrun : ∀ t x, t.Canonical → (run t x).Canonical) :
    (s.command cmd run).Canonical := .ite h.dev (.ite h.dev (hrun _ _ h.dev))

theorem State.Canonical.refuse (h : s.Canonical) {status : Nat} : (s.refuse status).Canonical := h.dev

theorem State.Canonical.execPeSwapOut (h : s.Canonical) {cmd : Dbl} : (execPeSwapOut cmd s).Canonical := by
  unfold Machine.execPeSwapOut
  dsimp only
  refine .next ?_
  refine h.command fun _ _ hs => .ite hs.refuse ?_
  split
  · exact hs.refuse
  refine .ite hs.refuse ?_
  split
  exacts [hs.refuse, (hs.takeSave.of_eq ‹_›).signalSwap.dev]

theorem State.Canonical.copyOf (h : s.Canonical) {i : Image} : (s.copyOf i).1.Canonical := .ite_fst h.dev h

theorem State.Canonical.execPePreloadShadow (h : s.Canonical) {cmd : Dbl} : (execPePreloadShadow cmd s).Canonical := by
  unfold Machine.execPePreloadShadow
  dsimp only
  refine .next ?_
  refine h.command fun _ _ hs => .ite hs.refuse ?_
  split
  · exact hs.refuse
  split
  · exact hs.refuse
  split
  exacts [hs.refuse, .ite hs.refuse (.ite hs.refuse hs.dev)]

theorem State.Canonical.clockStop (h : s.Canonical) {g : Graph} : CanonicalIf ((s.clockStop g).map Prod.fst) := by
  unfold State.clockStop
  dsimp only
  split
  · exact .none
  · refine .some (State.Canonical.foldl (.saveRefs (.dev ?_)) fun _ _ hs => hs.idleTile).dev.writeSepia
    exact (h.takeSave.of_eq ‹_›).foldl fun _ _ hs => hs.flushAges

theorem State.Canonical.execPeClockStop (h : s.Canonical) {cmd : Dbl} : (execPeClockStop cmd s).Canonical := by
  unfold Machine.execPeClockStop
  refine .next ?_
  refine h.command fun _ _ hs => .ite hs.refuse ?_
  split
  · exact hs.refuse
  split
  exacts [hs.refuse, (hs.clockStop.fst_of_eq ‹_›).dev]

theorem State.Canonical.applyRecut (h : s.Canonical) {k : Graph} {rc : Recut} : (s.applyRecut k rc).Canonical :=
  (h.foldl fun _ _ hs => .ite hs hs.setHart).foldl fun _ _ hs => hs.setDeque.setHart

theorem State.Canonical.loadImage (h : s.Canonical) {i : Image} {c : Nat × Nat × Nat} {state : Nat} :
    (s.loadImage i c state).1.Canonical := (h.foldl fun _ _ hs => hs.loadTile).dev.applyRecut.landAll

theorem State.Canonical.restoreImage (h : s.Canonical) {i : Image} {c : Nat × Nat × Nat} : (s.restoreImage i c).Canonical :=
  h.copyOf.loadImage.revive

theorem State.Canonical.execPeRestoreSepia (h : s.Canonical) {cmd : Dbl} : (execPeRestoreSepia cmd s).Canonical := by
  unfold Machine.execPeRestoreSepia
  dsimp only
  refine .next ?_
  refine h.command fun _ _ hs => ?_
  split
  · exact hs.refuse
  split
  · exact hs.refuse
  refine .ite hs.refuse ?_
  refine .ite hs.refuse ?_
  split
  exacts [hs.refuse, hs.restoreImage.dev]

theorem State.Canonical.startFrames (h : s.Canonical) {k : Graph} : (s.startFrames k).Canonical :=
  h.foldl fun _ _ hs => .ite hs.beginTask hs

theorem State.Canonical.readParent (h : s.Canonical) {ctx n : Nat} : (s.readParent ctx n).Canonical := by
  unfold State.readParent
  dsimp only
  refine .ite h ?_
  split
  exacts [(h.readDbl.of_eq ‹_›).setHart, h.readDbl.of_eq ‹_›]

theorem State.Canonical.restoreIvory (h : s.Canonical) {i : Image} {c : Nat × Nat × Nat} : (s.restoreIvory i c).Canonical := by
  refine .startFrames (.revive (.foldl (.foldl (.foldl h.copyOf.loadImage.dev ?_) ?_) fun _ _ hs => hs.readParent))
  · exact fun _ _ hs => hs.foldl fun _ _ hs => .ite hs.setPort.joinLink hs.setPort
  · exact fun _ _ hs => hs.foldl fun _ _ hs => .ite hs.runAge hs

theorem State.Canonical.execPeRestoreIvory (h : s.Canonical) {cmd : Dbl} : (execPeRestoreIvory cmd s).Canonical := by
  unfold Machine.execPeRestoreIvory
  dsimp only
  refine .next ?_
  refine h.command fun _ _ hs => ?_
  split
  · exact hs.refuse
  refine .ite hs.refuse ?_
  refine .ite hs.refuse ?_
  split
  exacts [hs.refuse, hs.restoreIvory.dev]

theorem State.Canonical.enterDrain (h : s.Canonical) {p : Nat} : (s.enterDrain p).Canonical := by
  unfold State.enterDrain
  dsimp only
  split
  exacts [h.setHart.setHart.emptyReply, h.setHart.setHart]

theorem State.Canonical.startDrain (h : s.Canonical) {i : Image} {c : Nat × Nat × Nat} {limit : Nat} :
    CanonicalIf (s.startDrain i c limit) := by
  unfold State.startDrain
  dsimp only
  split
  · exact .none
  · refine .some (State.Canonical.foldl ?_ fun _ _ hs => hs.applyMsg).dev
    exact (h.takeSave.of_eq ‹_›).copyOf.loadImage.foldl fun _ _ hs => hs.resend.enterDrain

theorem State.Canonical.execPeDrainIvory (h : s.Canonical) {cmd : Dbl} : (execPeDrainIvory cmd s).Canonical := by
  unfold Machine.execPeDrainIvory
  refine .next ?_
  refine h.command fun _ _ hs => ?_
  split
  · exact hs.refuse
  split
  exacts [hs.refuse, .ite hs.refuse (.ite hs.refuse (.ite hs.refuse (hs.startDrain.getD hs.refuse)))]

theorem State.Canonical.freeDrain (h : s.Canonical) {x : Drain} {status : Nat} {addr : Option Dbl} :
    (s.freeDrain x status addr).Canonical := by
  unfold State.freeDrain
  dsimp only
  split
  exacts [h.dev, .ite (h.foldl fun _ _ hs => hs.idleTile).dev (h.foldl fun _ _ hs => hs.idleTile).dev.giveSave]

theorem State.Canonical.writeIvory (h : s.Canonical) {g : Graph} {dst : Dbl} {tiles : List Saved} {refs : List (Nat × Dbl × Dbl)} :
    (s.writeIvory g dst tiles refs).Canonical := h.dev.putSaved

theorem State.Canonical.execDrainComplete (h : s.Canonical) : (execDrainComplete s).Canonical := by
  unfold Machine.execDrainComplete
  dsimp only
  refine .next ?_
  split
  · exact h
  split
  · exact h
  refine .ite h.freeDrain (.ite h ?_)
  split
  exacts [h.setHart, (h.foldl fun _ _ hs => hs.foldl fun _ _ hs => hs.stopAge).countRefs.countRefs.dev.writeIvory.freeDrain]

theorem State.Canonical.execDrainLimitExpiry (h : s.Canonical) : (execDrainLimitExpiry s).Canonical := by
  unfold Machine.execDrainLimitExpiry
  dsimp only
  refine .next ?_
  split
  · exact h
  refine .ite h ?_
  split
  exacts [h, h.freeDrain]

theorem State.Canonical.keepMsg (h : s.Canonical) {g : Graph} {m : Msg} : (s.keepMsg g m).Canonical := h.dev

theorem State.Canonical.logMsg (h : s.Canonical) {g : Graph} {i : Image} {m : Msg} : (s.logMsg g i m).Canonical :=
  .ite h.keepMsg h.dev.putSaved.putSaved

theorem State.Canonical.deliverMsg (h : s.Canonical) {gid : Nat} {m : Msg} : (s.deliverMsg gid m).Canonical := by
  unfold State.deliverMsg
  dsimp only
  split
  · exact h
  refine .ite ?_ ?_
  · refine .ite h ?_
    split
    exacts [h.logMsg, h]
  refine .ite h.deliverResume ?_
  split
  · split
    exacts [h.dev.logMsg, .ite h.logMsg.deliverResume h.logMsg]
  split
  · refine .ite h.deliverResume ?_
    split
    exacts [h.dev, h.keepMsg]
  · exact .ite h.deliverResume h.keepMsg

theorem State.Canonical.execArrivalLogAppend (h : s.Canonical) {image : Nat} : (execArrivalLogAppend image s).Canonical := by
  unfold Machine.execArrivalLogAppend
  dsimp only
  refine .next ?_
  split
  exacts [h, h.dev.deliverMsg]

theorem State.Canonical.execHeldMessageReoffer (h : s.Canonical) : (execHeldMessageReoffer s).Canonical := by
  unfold Machine.execHeldMessageReoffer
  dsimp only
  refine .next ?_
  split
  exacts [h, h.dev.deliverMsg]

/-! Machine/Launch -/

theorem State.Canonical.unitFault (h : s.Canonical) {ctx cause kind : Nat} {va : Dbl} : (s.unitFault ctx cause kind va).Canonical := h.dev

theorem State.Canonical.writeRecord (h : s.Canonical) {k : Held} {off v : Nat} : (s.writeRecord k off v).Canonical := by
  unfold State.writeRecord
  split
  exacts [h.writeUnit.of_eq ‹_›, (h.writeUnit.of_eq ‹_›).unitFault, h.writeUnit.of_eq ‹_›]

theorem State.Canonical.writeState (h : s.Canonical) {k : Held} {v : Nat} : (s.writeState k v).Canonical := h.writeRecord

theorem State.Canonical.finishLaunch (h : s.Canonical) {k : Held} {v : Nat} : (s.finishLaunch k v).Canonical := h.writeState.dev

theorem State.Canonical.post (h : s.Canonical) {p : Post} : (s.post p).Canonical := by
  unfold State.post
  dsimp only
  split
  · refine .ite (h.dev.readHomeAll.of_eq ‹_›).dev ?_
    refine .ite (h.dev.readHomeAll.of_eq ‹_›).finishLaunch ?_
    exact (h.dev.readHomeAll.of_eq ‹_›).writeRecord.writeState.dev
  · exact (h.dev.readHomeAll.of_eq ‹_›).dev

theorem State.Canonical.cancel (h : s.Canonical) {p : Post} : (s.cancel p).1.Canonical := by
  unfold State.cancel
  dsimp only
  split
  · exact .ite_fst h h.dev.finishLaunch
  split <;> exact h

theorem State.Canonical.reprio (h : s.Canonical) {p : Post} : (s.reprio p).1.Canonical := by
  unfold State.reprio
  dsimp only
  split
  · exact .ite_fst h h.dev
  split
  exacts [.ite_fst h (.ite_fst h h.dev), h]

theorem State.Canonical.commandDone (h : s.Canonical) {p : Post} {rd : BitVec 5} {code : Nat} :
    (s.commandDone p rd code).Canonical := by
  unfold State.commandDone
  dsimp only
  split
  exacts [h.dev, h.dev, h]

theorem State.Canonical.execLaunchPost (h : s.Canonical) : (execLaunchPost s).Canonical := by
  unfold Machine.execLaunchPost
  dsimp only
  refine .next ?_
  split
  · exact h
  refine .ite h ?_
  split
  exacts [h.dev.post, h.dev.cancel.commandDone, h.dev.reprio.commandDone]

theorem State.Canonical.ringBell (h : s.Canonical) {page : Nat} {addr : Dbl} : (s.ringBell page addr).Canonical := .ite h.dev h.dev

theorem State.Canonical.execDoorbellWrite (h : s.Canonical) {page : Nat} {addr : Dbl} : (execDoorbellWrite page addr s).Canonical :=
  .next (.ite h.ringBell h)

theorem State.Canonical.execLaunchPageCancel (h : s.Canonical) {page : Nat} : (execLaunchPageCancel page s).Canonical := .next h.dev

theorem State.Canonical.execLaunchPagePrioset (h : s.Canonical) {page : Nat} {prio : BitVec 5} :
    (execLaunchPagePrioset page prio s).Canonical := .next h.dev

theorem State.Canonical.execLasterrRead (h : s.Canonical) {page : Nat} : (execLasterrRead page s).Canonical := .next h.dev.answer

theorem State.Canonical.execTimeTriggerSlot (h : s.Canonical) {entry : Nat} : (execTimeTriggerSlot entry s).Canonical :=
  .next (.ite h (.ite h.dev h.dev))

theorem State.Canonical.execLaunchTableEnable (h : s.Canonical) {entry : Nat} : (execLaunchTableEnable entry s).Canonical :=
  .next (.ite h h.dev)

theorem State.Canonical.execMissedRead (h : s.Canonical) {entry : Nat} : (execMissedRead entry s).Canonical := .next h.dev.answer

theorem State.Canonical.placeLaunch (h : s.Canonical) {k : Held} {r : Rect} : (s.placeLaunch k r).Canonical :=
  ((h.dev.writeState.foldl fun _ _ hs => hs.setDeque).foldl fun _ _ hs => hs.setHart).setHart.beginTask

theorem State.Canonical.placeImage (h : s.Canonical) {x : Image} {c : Nat × Nat × Nat} : (s.placeImage x c).Canonical :=
  .ite h.restoreIvory h.restoreImage

theorem State.Canonical.tryPlace (h : s.Canonical) {i : Item} : CanonicalIf (s.tryPlace i) := by
  unfold State.tryPlace
  split
  · exact .map fun _ _ => h.placeLaunch
  · split
    exacts [.none, .map fun _ _ => h.placeImage]

theorem State.Canonical.clearPreload (h : s.Canonical) {ps : List Nat} : (s.clearPreload ps).Canonical := by
  unfold State.clearPreload
  dsimp only
  refine .dev (h.foldl fun _ _ hs => ?_)
  split
  exacts [hs.refillImage, hs]

theorem State.Canonical.takeVictim (h : s.Canonical) {g : Graph} : CanonicalIf (s.takeVictim g) := by
  unfold State.takeVictim
  dsimp only
  split
  exacts [.none, .some ((h.takeSave.of_eq ‹_›).clearPreload.signalSwap.foldl fun _ _ hs => hs.swapTile)]

theorem State.Canonical.takeAll (h : s.Canonical) {gs : List Graph} : CanonicalIf (takeAll gs s) := by
  induction gs generalizing s with
  | nil => exact .some h
  | cons g gs ih =>
    unfold Machine.takeAll
    split
    exacts [ih (h.takeVictim.of_eq ‹_›), .none]

theorem State.Canonical.preempt (h : s.Canonical) {i : Item} : CanonicalIf (s.preempt i) := by
  unfold State.preempt
  refine .ite .none ?_
  split
  · exact .none
  split
  · exact .none
  · split
    exacts [.some (h.takeAll.of_eq ‹_›).placeLaunch, .map fun _ _ => (h.takeAll.of_eq ‹_›).placeImage]

theorem State.Canonical.execPlacementDecision (h : s.Canonical) : (execPlacementDecision s).Canonical := by
  unfold Machine.execPlacementDecision
  refine .next (.ite h ?_)
  split
  · exact h
  split
  · exact h.tryPlace.of_eq ‹_›
  split
  · exact h.preempt.of_eq ‹_›
  · exact .ite h (CanonicalIf.getD (.findSome? fun _ => h.tryPlace) h)

theorem State.Canonical.execBackfillReserve (h : s.Canonical) : (execBackfillReserve s).Canonical := by
  unfold Machine.execBackfillReserve
  dsimp only
  refine .next ?_
  split
  · exact h
  refine .ite h ?_
  split
  exacts [h.dev, h]

theorem State.Canonical.execLaunchAgeTick (h : s.Canonical) {n : Nat} : (execLaunchAgeTick n s).Canonical := by
  unfold Machine.execLaunchAgeTick
  dsimp only
  refine .next ?_
  refine .ite h ?_
  split
  · exact h.dev
  split
  exacts [h.dev, h]

theorem State.Canonical.execMinresExpiry (h : s.Canonical) {graph : Nat} : (execMinresExpiry graph s).Canonical := by
  unfold Machine.execMinresExpiry
  refine .next ?_
  split
  exacts [.ite h.dev h, h]

theorem State.Canonical.freeGraph (h : s.Canonical) {g : Graph} : (s.freeGraph g).Canonical :=
  (h.foldl fun _ _ hs => .ite hs.setDeque.setHart hs.setDeque).dev

theorem State.Canonical.addBinder (h : s.Canonical) {g : Graph} : (s.addBinder g).Canonical := by
  unfold State.addBinder
  dsimp only
  split
  · split
    exacts [(h.readHome.of_eq ‹_›).writeUnit.of_eq ‹_›, ((h.readHome.of_eq ‹_›).writeUnit.of_eq ‹_›).unitFault,
      (h.readHome.of_eq ‹_›).writeUnit.of_eq ‹_›]
  · exact (h.readHome.of_eq ‹_›).unitFault
  · exact h.readHome.of_eq ‹_›

theorem State.Canonical.execGraphComplete (h : s.Canonical) {graph : Nat} : (execGraphComplete graph s).Canonical := by
  unfold Machine.execGraphComplete
  dsimp only
  refine .next ?_
  split
  · exact h
  refine .ite h ?_
  refine .ite (h.foldl fun _ _ hs => hs.returnSpares) ?_
  exact (h.foldl fun _ _ hs => hs.returnSpares).addBinder.finishLaunch.freeGraph

theorem State.Canonical.flushPosted (h : s.Canonical) {hn k : Nat} : (s.flushPosted hn k).Canonical := by
  induction k generalizing s with
  | zero => exact h
  | succ k ih =>
    unfold State.flushPosted
    split
    · exact h
    · extract_lets n s1 s2
      have h1 : s1.Canonical := by
        refine .ite ?_ h
        split
        exacts [h.performRel, h.performItem]
      have h2 : s2.Canonical := .ite h1.setHart h1
      exact ih h2

theorem State.Canonical.endTile (h : s.Canonical) {ctx p : Nat} : (s.endTile ctx p).Canonical := by
  unfold State.endTile
  extract_lets stop s1
  have hstop {t : State} (ht : t.Canonical) (n : Nat) : (stop t n).Canonical := .ite ht.flushPosted.setHart ht
  have h1 : s1.Canonical := hstop (hstop h p) (1024 + p)
  exact .ite h1.clearTile (h1.foldl fun _ _ hs => .ite hs.unbindAge.setAge hs)

theorem State.Canonical.endContext (h : s.Canonical) {ctx : Nat} : (s.endContext ctx).Canonical := by
  unfold State.endContext
  extract_lets s1 gs s2 hs s3 s3' s4 ran s5
  have h2 : s2.Canonical := (h.foldl fun _ _ hs => hs.endTile).foldl fun _ _ hs =>
    .dev (.ite (hs.finishLaunch.countRefs.foldl fun _ _ hs => hs.returnSpares).freeGraph hs.finishLaunch.countRefs.dev)
  have h4 : s4.Canonical := (h2.foldl fun _ _ hs => hs.finishLaunch.dev).dev.countRefs.dev
  have h5 : s5.Canonical := .ite h4.dev h4
  exact h5.foldl fun _ _ hs => hs.promoteHold

/-! Machine/Debug -/

theorem State.Canonical.setLast (h : s.Canonical) {n code : Nat} : (s.setLast n code).Canonical := h.setHart

theorem State.Canonical.recheckCode (h : s.Canonical) {n : Nat} : (s.recheckCode n).Canonical := by
  unfold State.recheckCode
  split
  exacts [.ite h h.checkCode, h]

theorem State.Canonical.afterResume (h : s.Canonical) {n : Nat} : (s.afterResume n).Canonical :=
  h.landLinks.settle.portsChanged.finishLeave.recheckCode

theorem State.Canonical.resumeHart (h : s.Canonical) {n : Nat} : (s.resumeHart n).Canonical := h.dev.afterResume

theorem State.Canonical.reexecuteHart (h : s.Canonical) {n : Nat} : (s.reexecuteHart n).Canonical := .ite h.setLast h.setHart.resumeHart

theorem State.Canonical.execDbgResume (h : s.Canonical) {hart : Nat} : (execDbgResume hart s).Canonical :=
  .next (.ite h.resumeHart h.setLast)

theorem State.Canonical.execDbgReexecute (h : s.Canonical) {hart : Nat} : (execDbgReexecute hart s).Canonical :=
  .next (.ite h.reexecuteHart h.setLast)

theorem State.Canonical.execDbgEndContext (h : s.Canonical) {hart : Nat} : (execDbgEndContext hart s).Canonical :=
  .next (.ite h.endContext h.setLast)

theorem State.Canonical.execDbgHalt (h : s.Canonical) {hart : Nat} : (execDbgHalt hart s).Canonical := by
  unfold Machine.execDbgHalt
  dsimp only
  refine .next ?_
  split
  exacts [.ite h.setHart.dev h.setHart, h.setLast, h.setLast]

theorem State.Canonical.execDbgStep (h : s.Canonical) {hart : Nat} : (execDbgStep hart s).Canonical :=
  .next (.ite h.setHart.dev.afterResume h.setLast)

theorem State.Canonical.execDbgResolve (h : s.Canonical) {hart tag lsid : Nat} : (execDbgResolve hart tag lsid s).Canonical := by
  unfold Machine.execDbgResolve
  dsimp only
  refine .next ?_
  refine .ite h.setLast ?_
  split
  · exact h.setLast
  split
  exacts [h.setLast, h.setHart]

theorem State.Canonical.execDbgThaltWrite (h : s.Canonical) {hart : Nat} {on : Bool} : (execDbgThaltWrite hart on s).Canonical :=
  .next (.ite h.setLast (.ite h.setHart h.setHart.landLinks.settle.portsChanged))

theorem State.Canonical.execDbgInject (h : s.Canonical) {hart : Nat} {ctl : Dbl} : (execDbgInject hart ctl s).Canonical := by
  unfold Machine.execDbgInject
  dsimp only
  refine .next ?_
  refine .ite h ?_
  refine .ite h.setLast ?_
  refine .ite h.setLast ?_
  split
  exacts [h.setLast, .ite h.setLast (.ite h.setLast h.settle)]

theorem State.Canonical.execEngineResume (h : s.Canonical) {place : Nat} : (execEngineResume place s).Canonical :=
  .next (.ite h.resumeHart h)

theorem State.Canonical.execEngineReexecute (h : s.Canonical) {place : Nat} : (execEngineReexecute place s).Canonical :=
  .next (.ite h.reexecuteHart h)

theorem State.Canonical.execEngineReturnIdle (h : s.Canonical) {place : Nat} : (execEngineReturnIdle place s).Canonical :=
  .next (.ite h.setHart h)

theorem State.Canonical.portControl (h : s.Canonical) {p n x : Nat} : (s.portControl p n x).Canonical := h.partLink.setPort.joinLink

theorem State.Canonical.markedWrite (h : s.Canonical) {n : Nat} {write : State → State}
    (hwrite : ∀ t, t.Canonical → (write t).Canonical) :
    (s.markedWrite n write).Canonical := .ite h.setLast (.ite h.setLast (hwrite _ h).setHart)

theorem State.Canonical.execPortControlWrite (h : s.Canonical) {place port : Nat} {value : Dbl} :
    (execPortControlWrite place port value s).Canonical := .next (h.markedWrite fun _ hs => hs.portControl)

theorem State.Canonical.setWinWord (h : s.Canonical) {p o x size : Nat} : (s.setWinWord p o x size).Canonical := by
  unfold State.setWinWord
  dsimp only
  refine .ite h ?_
  refine .ite (.ite h (h.markedWrite fun _ hs => hs.setHart)) ?_
  refine .ite ?_ ?_
  · split
    exacts [h.setLast, h.markedWrite fun _ hs => hs.setHart]
  refine .ite (h.markedWrite fun _ hs => hs.portControl) ?_
  refine .ite h ?_
  refine .ite (h.markedWrite fun _ hs => hs.setPort) ?_
  refine .ite h.setMt ?_
  refine .ite h.setMt ?_
  refine .ite h.setMt.endKick ?_
  refine .ite h.setMt ?_
  refine .ite h.setMt.endKick ?_
  refine .ite (.ite h.setHart h) ?_
  refine .ite (.ite h.setHart h) ?_
  refine .ite (.ite h.setHart h) ?_
  refine .ite (.ite h.setHart h) ?_
  refine .ite (.ite h.setHart h) ?_
  refine .ite (.ite h.setHart h) ?_
  exact .ite (.ite h.setHart h) (.ite h.setHart (.ite h.setHart (.ite h.setHart (.ite h.setHart (.ite h.setHart h)))))

theorem State.Canonical.execDbgRegisterWrite (h : s.Canonical) {place offset size : Nat} {value : Dbl} :
    (execDbgRegisterWrite place offset size value s).Canonical := .next (.ite h h.setWinWord)

theorem State.Canonical.sinkRecord (h : s.Canonical) {r : TraceRec} : (s.sinkRecord r).Canonical := .ite h.dev.putDev h.dev

theorem State.Canonical.execTraceGapRecord (h : s.Canonical) {place : Nat} : (execTraceGapRecord place s).Canonical := by
  unfold Machine.execTraceGapRecord
  dsimp only
  refine .next ?_
  refine .ite h ?_
  exact .ite (h.setHart.foldl fun _ _ hs => hs.sinkRecord) (h.setHart.foldl fun _ _ hs => hs.sinkRecord).sinkRecord

/-! Machine/Platform -/

theorem State.Canonical.execIslandPointChange (h : s.Canonical) {n : Nat} : (execIslandPointChange n s).Canonical := .next (.ite h h.dev)

theorem State.Canonical.execPowerSample (h : s.Canonical) {watts : Nat} : (execPowerSample watts s).Canonical :=
  .next (.ite h (.ite h.dev (.ite h.dev h.dev)))

theorem State.Canonical.execValarmCountRead (h : s.Canonical) : (execValarmCountRead s).Canonical := .next h.dev.answer

theorem State.Canonical.execIslandCapStep (h : s.Canonical) {row : Nat} : (execIslandCapStep row s).Canonical := by
  unfold Machine.execIslandCapStep
  dsimp only
  refine .next ?_
  refine .ite (.ite h h.dev) ?_
  split
  exacts [h, h.dev]

theorem State.Canonical.execJunctionOvertemp (h : s.Canonical)
    {die : Nat} : (execJunctionOvertemp die s).Canonical := .next (.ite h h.dev)

theorem State.Canonical.execPtpMessage (h : s.Canonical) {ref : Dbl} : (execPtpMessage ref s).Canonical := .next (.ite h.dev h.dev)

theorem State.Canonical.execPtpHoldoverTimeout (h : s.Canonical) : (execPtpHoldoverTimeout s).Canonical := .next (.ite h.dev h)

theorem State.Canonical.execFunctionReady (h : s.Canonical) {bit : Nat} : (execFunctionReady bit s).Canonical := .next (.ite h h.dev)

theorem State.Canonical.execDumpvClear (h : s.Canonical) : (execDumpvClear s).Canonical := .next h.dev

theorem State.Canonical.execDecodeMapLoad (h : s.Canonical) {image : Nat} : (execDecodeMapLoad image s).Canonical := .next (.ite h.dev h)

theorem State.Canonical.fatal (h : s.Canonical) : s.fatal.Canonical := h.putDev.dev

theorem State.Canonical.scramble (h : s.Canonical) {p core : Nat} : (s.scramble p core).Canonical := h.setHart.setHart.setHart.setMt.dev

theorem State.Canonical.execMachineCheck (h : s.Canonical) {place unit : Nat} : (execMachineCheck place unit s).Canonical :=
  .next h.scramble.dev.fatal

theorem State.Canonical.execWatchdogExpiry (h : s.Canonical) : (execWatchdogExpiry s).Canonical := .next h.fatal

/-! Machine/Fabric -/

theorem State.Canonical.physWrite (h : s.Canonical) {pa : Nat} {bs : List Byte} {w : Writer} : (s.physWrite pa bs w).Canonical :=
  h.writeLoc.dev.foldl fun _ _ hs => hs.armPage.watchWrite

theorem State.Canonical.extFaultAt (h : s.Canonical) {row agent unit ctx cause pa size : Nat} {va : Dbl} :
    (s.extFaultAt row agent unit ctx cause pa size va).Canonical := h.dev

theorem State.Canonical.extFault (h : s.Canonical) {agent unit ctx cause pa size : Nat} {va : Dbl} :
    (s.extFault agent unit ctx cause pa size va).Canonical := h.extFaultAt

theorem State.Canonical.extTarget (h : s.Canonical) {agent unit ctx : Nat} {va : Dbl} {n : Nat} {rd wr consumes : Bool} :
    (s.extTarget agent unit ctx va n rd wr consumes).1.Canonical := by
  unfold State.extTarget
  split
  · exact h.xlate.of_eq ‹_›
  · exact (h.xlate.of_eq ‹_›).extFault
  refine .ite_fst (h.xlate.of_eq ‹_›).extFault ?_
  exact .ite_fst (h.xlate.of_eq ‹_›).extFault (.ite_fst (h.xlate.of_eq ‹_›).extFault (h.xlate.of_eq ‹_›))

theorem State.Canonical.mayHold (h : s.Canonical) {agent pa n : Nat} : (s.mayHold agent pa n).Canonical := .ite h h.dev

theorem State.Canonical.extRequest (h : s.Canonical) {agent unit ctx : Nat} {va : Dbl} {write : Bool} {bs : List Byte} :
    (s.extRequest agent unit ctx va write bs).1.Canonical := by
  unfold State.extRequest
  split
  · exact h.extTarget.of_eq ‹_›
  · exact h.extTarget.of_eq ‹_›
  refine .ite_fst ?_ ?_
  · split
    exacts [(h.extTarget.of_eq ‹_›).mayHold, h.extTarget.of_eq ‹_›]
  · exact .ite_fst (h.extTarget.of_eq ‹_›) (h.extTarget.of_eq ‹_›).homeWrite

theorem State.Canonical.extRange (h : s.Canonical) {agent unit ctx : Nat} {va : Dbl} {write : Bool} {bs : List Byte} :
    (s.extRange agent unit ctx va write bs).1.Canonical := by
  unfold State.extRange
  refine h.foldl_fst fun _ _ hs => ?_
  split
  · split
    exacts [hs.extRequest.of_eq ‹_›, hs.extRequest]
  · exact hs

theorem State.Canonical.extAtomic (h : s.Canonical) {agent unit ctx : Nat} {va : Dbl} {op : Nat} {data : List Byte} :
    (s.extAtomic agent unit ctx va op data).1.Canonical := by
  unfold State.extAtomic
  dsimp only
  refine .ite_fst h ?_
  split
  · exact h.extTarget.of_eq ‹_›
  · exact h.extTarget.of_eq ‹_›
  split
  · exact h.extTarget.of_eq ‹_›
  refine .ite_fst (h.extTarget.of_eq ‹_›).extFault ?_
  exact .ite_fst (h.extTarget.of_eq ‹_›) (h.extTarget.of_eq ‹_›).homeWrite.pooled

theorem State.Canonical.physAccess (h : s.Canonical) {agent unit pa : Nat} {asks : Asks} {data : List Byte} :
    (s.physAccess agent unit pa asks data).1.Canonical := by
  unfold State.physAccess
  extract_lets s n consumes old put
  have hs : s.Canonical := h.countAccess
  clear_value s
  have hput (bs ans : List Byte) : (put bs ans).1.Canonical := by
    refine .ite_fst hs ?_
    dsimp only
    exact hs.physWrite
  refine .ite_fst hs.extFaultAt ?_
  split
  · exact hs.mayHold
  · exact hput _ _
  · refine .ite_fst hs ?_
    split
    exacts [hput _ _, hs]

theorem State.Canonical.answered (h : s.Canonical) {r : State × Access} (hr : r.1.Canonical) : (answered s r).Canonical := by
  unfold Machine.answered
  dsimp only
  split
  exacts [h, hr.dev, hr.dev]

theorem State.Canonical.execPeerAccess (h : s.Canonical) {portPa : Nat × Nat} {asks : Asks} {data : List Byte} :
    (execPeerAccess portPa asks data s).Canonical := .next (h.answered (.ite_fst h h.physAccess))

theorem State.Canonical.execHostApertureAccess (h : s.Canonical) {aperture offset : Nat} {asks : Asks} {data : List Byte} :
    (execHostApertureAccess aperture offset asks data s).Canonical := by
  unfold Machine.execHostApertureAccess
  dsimp only
  refine .next ?_
  refine h.answered (.ite_fst h ?_)
  split
  exacts [h.extAtomic, h.extRange]

theorem State.Canonical.stopRing (h : s.Canonical) {port ring : Nat} : (s.stopRing port ring).Canonical := h.dev

theorem State.Canonical.portWrite (h : s.Canonical) {port ring ctx : Nat} {va : Dbl} {bs : List Byte} :
    (s.portWrite port ring ctx va bs).1.Canonical := by
  unfold State.portWrite
  split
  exacts [h.extRange.of_eq ‹_›, (h.extRange.of_eq ‹_›).stopRing, h]

theorem State.Canonical.readHead (h : s.Canonical) {port ring : Nat} : (s.readHead port ring).Canonical := by
  unfold State.readHead
  dsimp only
  split
  exacts [h, (h.extRange.of_eq ‹_›).stopRing, (h.extRange.of_eq ‹_›).dev]

theorem State.Canonical.sendPost (h : s.Canonical) {port ring : Nat} : (s.sendPost port ring).Canonical := by
  unfold State.sendPost
  dsimp only
  split
  exacts [.ite h.dev h, h]

theorem State.Canonical.execRingEnable (h : s.Canonical) {port ring : Nat} : (execRingEnable port ring s).Canonical :=
  .next (.ite h h.dev.readHead)

theorem State.Canonical.execRingEntryTake (h : s.Canonical) {port ring : Nat} : (execRingEntryTake port ring s).Canonical := by
  unfold Machine.execRingEntryTake
  dsimp only
  refine .next ?_
  refine .ite h ?_
  refine .ite h.readHead ?_
  split
  · exact h
  · exact (h.extRange.of_eq ‹_›).stopRing
  refine .ite (h.extRange.of_eq ‹_›) ?_
  split
  · exact h
  · exact ((h.extRange.of_eq ‹_›).extRequest.of_eq ‹_›).stopRing
  split
  exacts [(((h.extRange.of_eq ‹_›).extRequest.of_eq ‹_›).portWrite.of_eq ‹_›).dev,
    ((h.extRange.of_eq ‹_›).extRequest.of_eq ‹_›).portWrite.of_eq ‹_›]

theorem State.Canonical.execNetworkEntryComplete (h : s.Canonical) {port ring : Nat} :
    (execNetworkEntryComplete port ring s).Canonical := by
  unfold Machine.execNetworkEntryComplete
  dsimp only
  refine .next ?_
  refine .ite h.sendPost ?_
  split
  · exact h
  refine .ite h ?_
  refine .ite h.dev ?_
  refine .ite h ?_
  split
  · exact h
  · exact (h.extRange.of_eq ‹_›).stopRing
  split
  exacts [((h.extRange.of_eq ‹_›).portWrite.of_eq ‹_›).dev, (h.extRange.of_eq ‹_›).portWrite.of_eq ‹_›]

theorem State.Canonical.execNetworkPacketReceive (h : s.Canonical) {port ctx : Nat} {va : Dbl} {packet : Option (Nat × Nat) × List Byte} :
    (execNetworkPacketReceive port ctx va packet s).Canonical := by
  unfold Machine.execNetworkPacketReceive
  dsimp only
  refine .next ?_
  refine .ite ?_ ?_
  · split
    exacts [h, (h.extRange.of_eq ‹_›).dev, (h.extRange.of_eq ‹_›).stopRing, (h.extRange.of_eq ‹_›).dev]
  · exact h

/-! Machine/Migrate -/

theorem State.Canonical.setMig (h : s.Canonical) {n : Nat} {m : Mig} : (s.setMig n m).Canonical := h.dev

theorem State.Canonical.note (h : s.Canonical) {slot off n v : Nat} : (s.note slot off n v).Canonical := h.putDev

theorem State.Canonical.bump (h : s.Canonical) {slot off n : Nat} : (s.bump slot off n).Canonical := h.note

theorem State.Canonical.mgState (h : s.Canonical) {slot v : Nat} : (s.mgState slot v).Canonical := h.setMig.note

theorem State.Canonical.mgResult (h : s.Canonical) {slot v : Nat} : (s.mgResult slot v).Canonical := h.note

theorem State.Canonical.mgDone (h : s.Canonical) {status : Nat} : (s.mgDone status).Canonical := h.dev

theorem State.Canonical.mgCommand (h : s.Canonical) {op slot : Nat} {run : State → State} (hrun : ∀ t, t.Canonical → (run t).Canonical) :
    (s.mgCommand op slot run).Canonical := .ite h.dev (.ite h.dev.mgDone (hrun _ h.dev))

theorem State.Canonical.openMig (h : s.Canonical) {slot : Nat} {m : Mig} : (s.openMig slot m).Canonical := h.setMig.putDev.mgDone

theorem State.Canonical.endMig (h : s.Canonical) {slot result : Nat} : (s.endMig slot result).Canonical := h.mgState.mgResult

theorem State.Canonical.mgSend (h : s.Canonical) {slot typ round arg : Nat} {data : List Byte} :
    CanonicalIf (s.mgSend slot typ round arg data) :=
  .ite .none (.some (.ite h.setMig.dev.note h.setMig.dev))

theorem State.Canonical.beginStop (h : s.Canonical) {slot : Nat} : (s.beginStop slot).Canonical :=
  (h.dev.foldl fun _ _ hs => hs.putDev).setMig.mgState

theorem State.Canonical.backInPlace (h : s.Canonical) {g : Graph} : (s.backInPlace g).Canonical := by
  unfold State.backInPlace
  dsimp only
  split
  · exact h
  refine .ite h ?_
  refine .ite h ?_
  split
  exacts [.ite h.restoreIvory h.restoreImage, h.dev]

theorem State.Canonical.runOn (h : s.Canonical) {slot : Nat} : (s.runOn slot).Canonical := by
  unfold State.runOn
  dsimp only
  refine .setMig (.dev (.foldl ?_ fun _ _ hs => hs.backInPlace))
  split
  exacts [.ite h.freeDrain h, h]

theorem State.Canonical.discardMig (h : s.Canonical) {slot : Nat} : (s.discardMig slot).Canonical :=
  (h.foldl fun _ _ hs => hs.giveSave.dev).setMig

theorem State.Canonical.abortMig (h : s.Canonical) {slot result : Nat} {tell : Bool} : (s.abortMig slot result tell).Canonical :=
  .endMig (.ite (.ite (.ite (h.mgSend.getD h) h) (.runOn (.ite (h.mgSend.getD h) h))) (.discardMig (.ite (h.mgSend.getD h) h)))

theorem State.Canonical.mgSendOr (h : s.Canonical) {slot typ round arg : Nat} {data : List Byte} :
    (s.mgSendOr slot typ round arg data).Canonical := by
  unfold State.mgSendOr
  split
  exacts [h.mgSend.of_eq ‹_›, h.abortMig]

theorem State.Canonical.disarmCore (h : s.Canonical) {ctx lo n hn : Nat} : (s.disarmCore ctx lo n hn).Canonical :=
  h.setHart.foldl fun _ _ hs => hs.flushLine

theorem State.Canonical.harvest (h : s.Canonical) {ctx : Nat} {t : Track} {k : Nat} : (s.harvest ctx t k).1.Canonical :=
  (h.foldl fun _ _ hs => hs.disarmCore).dev.setPhys64

theorem State.Canonical.sendPage (h : s.Canonical) {slot : Nat} {t : Track} {p : Nat} : (s.sendPage slot t p).Canonical := by
  unfold State.sendPage
  dsimp only
  split
  · split
    exacts [((h.readHomeAll.of_eq ‹_›).mgSend.of_eq ‹_›).bump.setMig, (h.readHomeAll.of_eq ‹_›).abortMig]
  · exact (h.readHomeAll.of_eq ‹_›).extFault
  · exact h

theorem State.Canonical.roundStep (h : s.Canonical) {slot : Nat} : (s.roundStep slot).Canonical :=
  .foldl (.setMig (.ite_fst h h.harvest)) fun _ _ hs => .ite hs.sendPage hs

theorem State.Canonical.endRound (h : s.Canonical) {slot : Nat} : (s.endRound slot).Canonical := h.mgSendOr.note

theorem State.Canonical.nextRound (h : s.Canonical) {slot : Nat} : (s.nextRound slot).Canonical := h.setMig.note

theorem State.Canonical.stopNow (h : s.Canonical) {slot : Nat} : (s.stopNow slot).Canonical :=
  .ite h.beginStop (.ite h.beginStop.endRound.nextRound h.beginStop.endRound)

theorem State.Canonical.execMgRound (h : s.Canonical) {slot : Nat} : (execMgRound slot s).Canonical :=
  .next (.ite h (.ite h.roundStep (.ite h.endRound (.ite h.endRound.nextRound.beginStop h.endRound.nextRound))))

theorem State.Canonical.execMgDeadline (h : s.Canonical) {slot : Nat} : (execMgDeadline slot s).Canonical := .next (.ite h h.dev.stopNow)

theorem State.Canonical.reopenMig (h : s.Canonical) {slot : Nat} {m : Mig} : (s.reopenMig slot m).Canonical := h.setMig.mgResult

theorem State.Canonical.execMgOpenSource (h : s.Canonical) {slot : Nat} : (execMgOpenSource slot s).Canonical :=
  .next (h.mgCommand fun _ hs => .ite hs.reopenMig.mgSendOr.mgDone
    (.ite hs.mgDone (.ite hs.mgDone (.ite hs.mgDone (.ite hs.mgDone hs.putDev.putDev.dev.openMig)))))

theorem State.Canonical.execMgOpenTarget (h : s.Canonical) {slot : Nat} : (execMgOpenTarget slot s).Canonical :=
  .next (h.mgCommand fun _ hs => .ite hs.reopenMig.mgDone (.ite hs.mgDone (.ite hs.mgDone (.ite hs.mgDone hs.openMig))))

theorem State.Canonical.execMgAbort (h : s.Canonical) {slot : Nat} : (execMgAbort slot s).Canonical :=
  .next (h.mgCommand fun _ hs => .ite hs.mgDone (.ite hs.endContext.discardMig.endMig.mgDone hs.abortMig.mgDone))

theorem State.Canonical.execMgClose (h : s.Canonical) {slot : Nat} : (execMgClose slot s).Canonical :=
  .next (h.mgCommand fun _ hs => .ite hs.mgDone hs.mgState.dev.mgDone)

theorem State.Canonical.stopFailed (h : s.Canonical) {slot status : Nat} : (s.stopFailed slot status).Canonical := h.runOn.endMig.note

theorem State.Canonical.dropPreload (h : s.Canonical) {g : Graph} : (s.dropPreload g).Canonical := .ite h h.clearPreload

theorem State.Canonical.stopGraph (h : s.Canonical) {slot : Nat} {g : Graph} : (s.stopGraph slot g).Canonical := by
  unfold State.stopGraph
  dsimp only
  refine .ite ?_ ?_
  · refine .ite h ?_
    split
    exacts [h.clockStop.fst_of_eq ‹_›, h.stopFailed]
  split
  · exact h
  refine .ite h ?_
  split
  · exact h.dropPreload.stopFailed
  · exact h.dropPreload.stopFailed
  split
  exacts [(h.dropPreload.startDrain.of_eq ‹_›).setMig, h.dropPreload.stopFailed]

theorem State.Canonical.sendRecord (h : s.Canonical) {slot index addr : Nat} : (s.sendRecord slot index addr).Canonical :=
  .ite (h.foldl fun _ _ hs => .ite hs.mgSendOr hs).note (h.foldl fun _ _ hs => .ite hs.mgSendOr hs)

theorem State.Canonical.sendFinal (h : s.Canonical) {slot : Nat} : (s.sendFinal slot).Canonical := by
  unfold State.sendFinal
  dsimp only
  refine .ite (.mgState (.ite (h.foldl fun _ _ hs => .ite hs.sendRecord hs).mgSendOr (h.foldl fun _ _ hs => .ite hs.sendRecord hs))) ?_
  exact .ite (h.foldl fun _ _ hs => .ite hs.sendRecord hs).mgSendOr (h.foldl fun _ _ hs => .ite hs.sendRecord hs)

theorem State.Canonical.stopStep (h : s.Canonical) {slot : Nat} : (s.stopStep slot).Canonical := by
  unfold State.stopStep
  dsimp only
  refine .ite h ?_
  split
  · split
    exacts [h.setMig, .ite h (.ite h.setMig h.setMig.stopFailed)]
  split
  exacts [h.stopGraph, .ite h.roundStep (.ite h.endRound.sendFinal h.endRound)]

theorem State.Canonical.execMgFinalStop (h : s.Canonical) {slotCmd : Nat × Bool} : (execMgFinalStop slotCmd s).Canonical :=
  .next (.ite (h.mgCommand fun _ hs => .ite hs.stopNow.mgDone hs.mgDone) (.ite h.stopStep h))

theorem State.Canonical.receive (h : s.Canonical) {slot seq : Nat} {source auth : Bool} {run : State → State}
    (hrun : ∀ t, t.Canonical → (run t).Canonical) :
    (s.receive slot seq source auth run).Canonical := by
  unfold State.receive
  dsimp only
  refine .ite h ?_
  refine .ite (.ite h.bump.abortMig (.ite h.bump h.bump.endContext.discardMig.endMig)) ?_
  exact .ite h.bump (hrun _ (.ite h.setMig h.setMig.note))

theorem State.Canonical.tryReady (h : s.Canonical) {slot : Nat} : (s.tryReady slot).Canonical := by
  unfold State.tryReady
  dsimp only
  refine .ite ?_ ?_
  · split
    exacts [(h.mgSend.of_eq ‹_›).mgState, h.abortMig]
  · exact h

theorem State.Canonical.gotPage (h : s.Canonical) {slot round : Nat} : (s.gotPage slot round).Canonical := h.setMig

theorem State.Canonical.writePage (h : s.Canonical) {slot page : Nat} {data : List Byte} :
    (s.writePage slot page data).1.Canonical := h.extRange

theorem State.Canonical.applyPage (h : s.Canonical) {slot page round : Nat} {data : List Byte} :
    (s.applyPage slot page round data).Canonical := by
  unfold State.applyPage
  dsimp only
  refine .ite h.gotPage ?_
  refine .ite h.bump.gotPage ?_
  split
  exacts [(h.writePage.of_eq ‹_›).bump.gotPage.setMig, (h.writePage.of_eq ‹_›).setMig, h]

theorem State.Canonical.execMgPageReceive (h : s.Canonical) {slot seq page round : Nat} {auth : Bool} {data : List Byte} :
    (execMgPageReceive slot seq page round auth data s).Canonical := .next (.ite h (h.receive fun _ hs => hs.applyPage.tryReady))

theorem State.Canonical.execMgRoundendReceive (h : s.Canonical) {slot seq round count : Nat} {auth : Bool} :
    (execMgRoundendReceive slot seq round count auth s).Canonical := .next (h.receive fun _ hs => hs.setMig.note.tryReady)

theorem State.Canonical.growSave (h : s.Canonical) {addr : Nat} : CanonicalIf (s.growSave addr) := by
  unfold State.growSave
  dsimp only
  split
  exacts [.some (h.takeSave.of_eq ‹_›).dev, .none]

theorem State.Canonical.recordRoom (h : s.Canonical) {addr n : Nat} : CanonicalIf (s.recordRoom addr n) :=
  List.foldlRecOn _ _ (.some h) fun _ ho _ _ => ho.bind fun _ ht => ht.growSave

theorem State.Canonical.recordAt (h : s.Canonical) {slot index : Nat} : CanonicalIf ((s.recordAt slot index).map Prod.fst) := by
  unfold State.recordAt
  split
  · exact .some h
  · split
    exacts [.some (h.takeSave.of_eq ‹_›), .none]

theorem State.Canonical.storePart (h : s.Canonical) {slot index offset : Nat} {data : List Byte} :
    CanonicalIf (s.storePart slot index offset data) := by
  unfold State.storePart
  dsimp only
  split
  · exact .none
  · refine .map fun s2 e => ?_
    have h2 : s2.Canonical := (h.recordAt.fst_of_eq ‹_›).recordRoom.of_eq e
    exact .ite h2.putSaved.setMig.bump h2.putSaved.setMig

theorem State.Canonical.execMgIvoryReceive (h : s.Canonical) {slot seq : Nat} {part : Nat × Nat} {auth : Bool} {data : List Byte} :
    (execMgIvoryReceive slot seq part auth data s).Canonical := .next (.ite h (h.receive fun _ hs => (hs.storePart.getD hs).tryReady))

theorem State.Canonical.execMgFinalReceive (h : s.Canonical) {slot seq records : Nat} {entries : List (Dbl × Nat × Nat × Nat)}
    {auth : Bool} :
    (execMgFinalReceive slot seq records entries auth s).Canonical := .next (h.receive fun _ hs => hs.setMig.tryReady)

theorem State.Canonical.execMgReadyReceive (h : s.Canonical) {slot seq : Nat} {auth : Bool} :
    (execMgReadyReceive slot seq auth s).Canonical := by
  unfold Machine.execMgReadyReceive
  dsimp only
  refine .next ?_
  refine h.receive fun _ hs => .ite hs ?_
  split
  exacts [((hs.dev.foldl fun _ _ hs => hs.finishLaunch).dev.mgState.mgSend.of_eq ‹_›).setMig, hs.abortMig]

theorem State.Canonical.carriedLaunch (h : s.Canonical) {ctx : Nat} {e : FinalEntry} : (s.carriedLaunch ctx e).1.Canonical := by
  unfold State.carriedLaunch
  dsimp only
  split
  exacts [(h.readHomeAll.of_eq ‹_›).dev, (h.readHomeAll.of_eq ‹_›).unitFault.dev, (h.readHomeAll.of_eq ‹_›).dev]

theorem State.Canonical.goRecord (h : s.Canonical) {slot : Nat} {r : MgRec} : (s.goRecord slot r).Canonical := by
  unfold State.goRecord
  extract_lets m s0 failed e
  clear_value e
  have h0 : s0.Canonical := h.putSaved
  have hfailed {t : State} (ht : t.Canonical) (st : Nat) : (failed t st).Canonical := ht.mgResult.note
  split
  · exact hfailed h0 _
  · extract_lets l k0 g0 k s2 d2 s1
    have hl : l.1.Canonical := by
      dsimp only [l]
      split
      exacts [h0.carriedLaunch, h0]
    have h1 : s1.Canonical := hl.dev
    refine .ite (hfailed h1 _) ?_
    split
    exacts [hfailed h1.dev _, h1.restoreIvory]

theorem State.Canonical.acceptHeld (h : s.Canonical) {ctx : Nat} {e : FinalEntry} : (s.acceptHeld ctx e).Canonical := by
  unfold State.acceptHeld
  dsimp only
  split
  exacts [(h.readHomeAll.of_eq ‹_›).writeRecord.writeState.dev, (h.readHomeAll.of_eq ‹_›).unitFault, h]

theorem State.Canonical.execMgGoReceive (h : s.Canonical) {slot seq : Nat} {auth : Bool} :
    (execMgGoReceive slot seq auth s).Canonical :=
  .next (h.receive fun _ hs => .ite hs ((hs.foldl fun _ _ hs => hs.goRecord).foldl fun _ _ hs => hs.acceptHeld).setMig.mgState)

theorem State.Canonical.execMgAbortReceive (h : s.Canonical) {slot seq status : Nat} {auth : Bool} :
    (execMgAbortReceive slot seq status auth s).Canonical :=
  .next (h.receive fun _ hs => .ite (.ite hs.endMig hs) hs.abortMig)

theorem State.Canonical.execMgLinkFailure (h : s.Canonical) {slot : Nat} : (execMgLinkFailure slot s).Canonical :=
  .next (.ite h (.ite h.abortMig h.setMig.mgResult))

theorem State.Canonical.execMigrationEngineResume (h : s.Canonical) {slot : Nat} : (execMigrationEngineResume slot s).Canonical := by
  unfold Machine.execMigrationEngineResume
  dsimp only
  refine .next ?_
  split
  exacts [h, .ite h h.setMig.applyPage.tryReady]

/-! Machine/Window -/

theorem State.Canonical.startedBy (h : s.Canonical) {o : Out} (ho : o.Canonical) : (startedBy s o).Canonical := h.nextOr ho

theorem State.Canonical.regWrite (h : s.Canonical) {o : Nat} {v : Dbl} : (s.regWrite o v).Canonical := by
  unfold State.regWrite
  dsimp only
  refine .ite h ?_
  refine .ite (h.startedBy h.execTinvInvalidate) ?_
  refine .ite ?_ ?_
  · split
    exacts [h.startedBy h.execPeSwapOut, h.startedBy h.execPePreloadShadow, h.startedBy h.execPeClockStop, h.startedBy h.execPeDrainIvory,
      h.startedBy h.execPeRestoreSepia, h.startedBy h.execPeRestoreIvory, h.dev]
  refine .ite ?_ ?_
  · split
    exacts [h.startedBy h.execMgOpenSource, h.startedBy h.execMgOpenTarget, h.startedBy h.execMgFinalStop, h.startedBy h.execMgAbort,
      h.startedBy h.execMgClose, h.dev]
  refine .ite (.ite (h.startedBy h.execDumpvClear) h) ?_
  refine .ite (.ite (h.dev.startedBy h.dev.execRingEnable) h.dev) ?_
  refine .ite (.ite (h.dev.startedBy h.dev.execLaunchTableEnable) h.dev) ?_
  refine .ite (.ite h.dev (.ite (h.dev.startedBy h.dev.execWatchArm) (h.dev.startedBy h.dev.execWatchDisarm))) ?_
  refine .ite ?_ ?_
  · split
    exacts [h.startedBy h.execRplcmdReplay, h.startedBy h.execRplcmdDiscard, h]
  refine .ite ?_ ?_
  · split
    exacts [h.ringBell, .ite (h.startedBy h.execLaunchPageCancel) h, h.startedBy h.execLaunchPagePrioset, h.dev]
  · exact h.dev

theorem State.Canonical.regRead (h : s.Canonical) {o : Nat} : (s.regRead o).1.Canonical := by
  unfold State.regRead
  dsimp only
  refine .ite_fst (h.startedBy h.execValarmCountRead) ?_
  refine .ite_fst (h.startedBy h.execMissedRead) ?_
  exact .ite_fst (h.startedBy h.execReplayHwmRead) (.ite_fst (h.startedBy h.execLasterrRead) h)

theorem State.Canonical.windowRead (h : s.Canonical) {p offset size : Nat} : (s.windowRead p offset size).1.Canonical :=
  .ite_fst h (.ite h.setLast (.ite h.ticked h))

theorem State.Canonical.windowWrite (h : s.Canonical) {p offset size : Nat} {v : Dbl} : (s.windowWrite p offset size v).Canonical := by
  unfold State.windowWrite
  refine .ite h (.ite ?_ (.ite ?_ (h.startedBy h.execDbgRegisterWrite)))
  · extract_lets s1 s2
    have h1 : s1.Canonical := h.startedBy h.execDbgRegisterWrite
    have h2 : s2.Canonical := .ite (h1.startedBy h1.execDbgThaltWrite) h1
    split
    exacts [h2.startedBy h2.execDbgResume, h2.startedBy h2.execDbgReexecute, h2.startedBy h2.execDbgEndContext,
      h2.startedBy h2.execDbgHalt, h2.startedBy h2.execDbgStep, h2.startedBy h2.execDbgResolve, h2]
  · refine .ite h (.ite (h.startedBy h.execDbgInject) (.ite ?_ ?_))
    · split
      exacts [h.startedBy h.execEngineResume, h.startedBy h.execEngineReexecute, h.startedBy h.execEngineReturnIdle, h]
    · extract_lets a s1
      have h1 : s1.Canonical := .ite (h.startedBy h.execAgeResume) h
      exact .ite (h1.startedBy h1.execAgeStop) h1

theorem State.Canonical.registerAccess (h : s.Canonical) {put : State → Dbl → State} {o : Nat} {asks : Asks} {data : List Byte}
    (hput : ∀ t x, t.Canonical → (put t x).Canonical) :
    (s.registerAccess put o asks data).Canonical := by
  unfold State.registerAccess
  dsimp only
  refine .ite (.ite h h.answer) ?_
  split
  · exact hput _ _ h
  · exact h.regRead.answer
  split
  exacts [(hput _ _ h.regRead).answer, h.regRead.answer]

theorem State.Canonical.hostRegWrite (h : s.Canonical) {o : Nat} {v : Dbl} : (s.hostRegWrite o v).Canonical := .ite h.dev h.regWrite

theorem State.Canonical.windowAccess (h : s.Canonical) {o : Nat} {write : Bool} {data : List Byte} :
    (s.windowAccess o write data).Canonical := .ite h.windowWrite h.windowRead.answer

theorem State.Canonical.sramAccess (h : s.Canonical) {o : Nat} {asks : Asks} {data : List Byte} :
    (s.sramAccess o asks data).Canonical := by
  unfold State.sramAccess
  dsimp only
  split
  · exact h.answer
  · exact h.dev
  split
  exacts [h.dev.answer, h.answer]

theorem State.Canonical.execRiscVCoreAccess (h : s.Canonical) {agent pa : Nat} {asks : Asks} {data : List Byte} :
    (execRiscVCoreAccess agent pa asks data s).Canonical := by
  unfold Machine.execRiscVCoreAccess
  dsimp only
  refine .next ?_
  refine .ite (h.answered h) ?_
  refine .ite (h.answered h.physAccess) ?_
  refine .ite (h.registerAccess fun _ _ hs => .ite hs.hostRegWrite hs.regWrite) ?_
  exact .ite h.windowAccess (.ite h.sramAccess (.ite h h.answer))

/-! Machine/WlIsa -/

theorem State.Canonical.wlTrap (h : s.Canonical) {core cause : Nat} {tval : Dbl} : (s.wlTrap core cause tval).Canonical := h.dev

theorem State.Canonical.illegalWl (h : s.Canonical) {core : Nat} : (s.illegalWl core).Canonical := h.dev.wlTrap

theorem State.Canonical.wlRet (h : s.Canonical) {core : Nat} {rd : BitVec 5} {v : Dbl} : (s.wlRet core rd v).Canonical := h.dev

theorem State.Canonical.wlHold (h : s.Canonical) {core : Nat} {w : WlWait} : (s.wlHold core w).Canonical := h.dev

theorem State.Canonical.wlInterrupt (h : s.Canonical) {core : Nat} : (s.wlInterrupt core).Canonical := h.dev

theorem State.Canonical.wl (h : s.Canonical) {kind : Nat} {rd rs1 rs2 : BitVec 5} {f : State → Nat → App → State}
    (hf : ∀ t x y, t.Canonical → (f t x y).Canonical) :
    (s.wl kind rd rs1 rs2 f).Canonical := by
  unfold State.wl
  dsimp only
  refine .ite h ?_
  refine .ite h.illegalWl ?_
  split
  exacts [.ite (hf _ _ _ h) (.ite (hf _ _ _ h.wlInterrupt) h), hf _ _ _ h]

theorem State.Canonical.wlState (h : s.Canonical) {a : App} {record : Dbl} : (s.wlState a record).1.Canonical := h.readHome

theorem State.Canonical.wlReads (h : s.Canonical) {a : App} {recs : List Dbl} : (s.wlReads a recs).1.Canonical :=
  h.foldl_fst fun _ _ hs => hs.wlState

theorem State.Canonical.wlQueue (h : s.Canonical) {core op : Nat} {rd : BitVec 5} {record : Dbl} {prio : Nat} :
    (s.wlQueue core op rd record prio).Canonical := h.dev

theorem State.Canonical.wlctxAccess (h : s.Canonical) {core f3 : Nat} {rd rs1 : BitVec 5} :
    (s.wlctxAccess core f3 rd rs1).Canonical := .ite h (.ite h.illegalWl h.dev.wlRet)

theorem State.Canonical.riscVLeaves (h : s.Canonical) {core : Nat} {r : RiscV} : (s.riscVLeaves core r).Canonical := .ite h h.dev

theorem State.Canonical.riscVWord (h : s.Canonical) {core : Nat} : (s.riscVWord core).Canonical := h.dev.riscVLeaves

theorem State.Canonical.slateLeaves (h : s.Canonical) {row : Nat} {r : Slate} : (s.slateLeaves row r).Canonical := h.dev

theorem State.Canonical.execWlLaunch (h : s.Canonical) {rs1 rd : BitVec 5} : (execWlLaunch rs1 rd s).Canonical :=
  .next (h.wl fun _ _ _ hs => .ite hs.wlTrap (.ite hs.wlHold hs.wlQueue.dev.wlRet))

theorem State.Canonical.execWlFence (h : s.Canonical) {rs1 rd : BitVec 5} : (execWlFence rs1 rd s).Canonical := by
  unfold Machine.execWlFence
  dsimp only
  refine .next ?_
  refine h.wl fun _ _ _ hs => ?_
  split
  exacts [hs.wlReads.wlTrap, .ite hs.wlReads.wlRet hs.wlReads.wlHold]

theorem State.Canonical.execWlPoll (h : s.Canonical) {rs1 rd : BitVec 5} : (execWlPoll rs1 rd s).Canonical := by
  unfold Machine.execWlPoll
  refine .next ?_
  refine h.wl fun _ _ _ hs => ?_
  split
  exacts [(hs.wlState.of_eq ‹_›).wlRet, (hs.wlState.of_eq ‹_›).wlTrap, hs]

theorem State.Canonical.wlUnread (h : s.Canonical) {core : Nat} {a : App} {rd : BitVec 5} {record : Dbl} :
    (s.wlUnread core a rd record).Canonical := .ite h.dev.wlRet h.wlTrap

theorem State.Canonical.execWlWait (h : s.Canonical) {rs2 rs1 rd : BitVec 5} : (execWlWait rs2 rs1 rd s).Canonical := by
  unfold Machine.execWlWait
  dsimp only
  refine .next ?_
  refine h.wl fun _ _ _ hs => ?_
  split
  exacts [.ite (hs.wlState.of_eq ‹_›).wlRet (hs.wlState.of_eq ‹_›).wlHold, (hs.wlState.of_eq ‹_›).wlUnread, hs]

theorem State.Canonical.wlCommand (h : s.Canonical) {core : Nat} {a : App} {op : Nat} {rd rs1 rs2 : BitVec 5} {prio : Nat} :
    (s.wlCommand core a op rd rs1 rs2 prio).Canonical := by
  unfold State.wlCommand
  split
  exacts [.ite h (.ite h h.wlQueue.wlHold), .ite h.wlHold h.wlQueue.wlHold]

theorem State.Canonical.execWlCancel (h : s.Canonical) {rs1 rd : BitVec 5} : (execWlCancel rs1 rd s).Canonical :=
  .next (h.wl fun _ _ _ hs => hs.wlCommand)

theorem State.Canonical.execWlStatus (h : s.Canonical) {rs1 rd : BitVec 5} : (execWlStatus rs1 rd s).Canonical :=
  .next (h.wl fun _ _ _ hs => hs.dev.wlRet)

theorem State.Canonical.execWlPrio (h : s.Canonical) {rs2 rs1 rd : BitVec 5} : (execWlPrio rs2 rs1 rd s).Canonical :=
  .next (h.wl fun _ _ _ hs => hs.wlCommand)

theorem State.Canonical.execWlWaitDeadline (h : s.Canonical) {core : Nat} : (execWlWaitDeadline core s).Canonical := by
  unfold Machine.execWlWaitDeadline
  dsimp only
  refine .next ?_
  split
  · exact h
  refine .ite h ?_
  split
  exacts [(h.dev.wlState.of_eq ‹_›).wlRet, (h.dev.wlState.of_eq ‹_›).wlUnread, h.dev]

/-! The instructions and events, and one step -/

/-- An instruction of a block sets the blocks in flight of its core and nothing of the memories; what does more has its lemma
above. -/
theorem State.Canonical.exec (h : s.Canonical) (i : Instr) : Out.Canonical (Machine.exec i s) := by
  cases i with
  | rdsys => exact h.execRdsys
  | rdc => exact h.execRdc
  | time => exact h.execTime
  | attr => exact h.execAttr
  | wlLaunch => exact h.execWlLaunch
  | wlFence => exact h.execWlFence
  | wlPoll => exact h.execWlPoll
  | wlWait => exact h.execWlWait
  | wlCancel => exact h.execWlCancel
  | wlStatus => exact h.execWlStatus
  | wlPrio => exact h.execWlPrio
  | blockFetch => exact h.execBlockFetch
  | returnStackSpill => exact h.execReturnStackSpill
  | blockCommit => exact h.execBlockCommit
  | faultTake => exact h.execFaultTake
  | ochrePacketEnqueue => exact h.execOchrePacketEnqueue
  | ochrePacketRead => exact h.execOchrePacketRead
  | loadReply => exact h.execLoadReply
  | atomicPerform => exact h.execAtomicPerform
  | hostAtomicCasRetry => exact h.execHostAtomicCasRetry
  | postedStorePerform => exact h.execPostedStorePerform
  | relItemPerform => exact h.execRelItemPerform
  | storeRetryReoffer => exact h.execStoreRetryReoffer
  | replayEntryPerform => exact h.execReplayEntryPerform
  | rplcmdReplay => exact h.execRplcmdReplay
  | rplcmdDiscard => exact h.execRplcmdDiscard
  | replayHwmRead => exact h.execReplayHwmRead
  | pageWalkComplete => exact h.execPageWalkComplete
  | l1dEviction => exact h.execL1dEviction
  | invalidationComplete => exact h.execInvalidationComplete
  | pageMove => exact h.execPageMove
  | widenReserve => exact h.execWidenReserve
  | widenRedistribute => exact h.execWidenRedistribute
  | tensorIssue => exact h.execTensorIssue
  | mmaEntryConsume => exact h.execMmaEntryConsume
  | tensorOpComplete => exact h.execTensorOpComplete
  | mstoEntryPush => exact h.execMstoEntryPush
  | matrixNodeModeChange => exact h.execMatrixNodeModeChange
  | portEntryDeliver => exact h.execPortEntryDeliver
  | portCreditReturn => exact h.execPortCreditReturn
  | ageRecordFetch => exact h.execAgeRecordFetch
  | ageElementDeliver => exact h.execAgeElementDeliver
  | ageElementWrite => exact h.execAgeElementWrite
  | ownerPop => exact h.execOwnerPop
  | theftRequest => exact h.execTheftRequest
  | theftCopyComplete => exact h.execTheftCopyComplete
  | theftReply => exact h.execTheftReply
  | theftLapWaitExpiry => exact h.execTheftLapWaitExpiry
  | poolTakeRetry => exact h.execPoolTakeRetry
  | joinWordRead => exact h.execJoinWordRead
  | joinSuspend => exact h.execJoinSuspend
  | jcountDecrement => exact h.execJcountDecrement
  | resumeFrameHandoff => exact h.execResumeFrameHandoff
  | graphComplete => exact h.execGraphComplete
  | quiescenceTokenForward => exact h.execQuiescenceTokenForward
  | engineKickStart => exact h.execEngineKickStart
  | launchPost => exact h.execLaunchPost
  | placementDecision => exact h.execPlacementDecision
  | launchAgeTick => exact h.execLaunchAgeTick
  | backfillReserve => exact h.execBackfillReserve
  | timeTriggerSlot => exact h.execTimeTriggerSlot
  | launchTableEnable => exact h.execLaunchTableEnable
  | missedRead => exact h.execMissedRead
  | doorbellWrite => exact h.execDoorbellWrite
  | lasterrRead => exact h.execLasterrRead
  | tinvInvalidate => exact h.execTinvInvalidate
  | peSwapOut => exact h.execPeSwapOut
  | pePreloadShadow => exact h.execPePreloadShadow
  | peClockStop => exact h.execPeClockStop
  | peDrainIvory => exact h.execPeDrainIvory
  | peRestoreSepia => exact h.execPeRestoreSepia
  | peRestoreIvory => exact h.execPeRestoreIvory
  | shadowSwap => exact h.execShadowSwap
  | streamerWriteOut => exact h.execStreamerWriteOut
  | scratchPageExchange => exact h.execScratchPageExchange
  | arrivalLogAppend => exact h.execArrivalLogAppend
  | heldMessageReoffer => exact h.execHeldMessageReoffer
  | drainComplete => exact h.execDrainComplete
  | drainLimitExpiry => exact h.execDrainLimitExpiry
  | dbgResume => exact h.execDbgResume
  | dbgReexecute => exact h.execDbgReexecute
  | dbgEndContext => exact h.execDbgEndContext
  | dbgHalt => exact h.execDbgHalt
  | dbgStep => exact h.execDbgStep
  | dbgResolve => exact h.execDbgResolve
  | dbgThaltWrite => exact h.execDbgThaltWrite
  | dbgInject => exact h.execDbgInject
  | dbgRegisterWrite => exact h.execDbgRegisterWrite
  | portControlWrite => exact h.execPortControlWrite
  | engineResume => exact h.execEngineResume
  | engineReexecute => exact h.execEngineReexecute
  | engineReturnIdle => exact h.execEngineReturnIdle
  | ageResume => exact h.execAgeResume
  | ageStop => exact h.execAgeStop
  | watchArm => exact h.execWatchArm
  | traceGapRecord => exact h.execTraceGapRecord
  | islandPointChange => exact h.execIslandPointChange
  | powerSample => exact h.execPowerSample
  | valarmCountRead => exact h.execValarmCountRead
  | islandCapStep => exact h.execIslandCapStep
  | junctionOvertemp => exact h.execJunctionOvertemp
  | ptpMessage => exact h.execPtpMessage
  | ptpHoldoverTimeout => exact h.execPtpHoldoverTimeout
  | functionReady => exact h.execFunctionReady
  | machineCheck => exact h.execMachineCheck
  | watchdogExpiry => exact h.execWatchdogExpiry
  | decodeMapLoad => exact h.execDecodeMapLoad
  | keyInstall => exact h.execKeyInstall
  | objectLoad => exact h.execObjectLoad
  | objectUnload => exact h.execObjectUnload
  | atsTranslationCompletion => exact h.execAtsTranslationCompletion
  | priResponse => exact h.execPriResponse
  | atsInvalidation => exact h.execAtsInvalidation
  | completionTimeout => exact h.execCompletionTimeout
  | hostApertureAccess => exact h.execHostApertureAccess
  | peerAccess => exact h.execPeerAccess
  | ringEnable => exact h.execRingEnable
  | ringEntryTake => exact h.execRingEntryTake
  | networkEntryComplete => exact h.execNetworkEntryComplete
  | networkPacketReceive => exact h.execNetworkPacketReceive
  | mgOpenSource => exact h.execMgOpenSource
  | mgOpenTarget => exact h.execMgOpenTarget
  | mgFinalStop => exact h.execMgFinalStop
  | mgAbort => exact h.execMgAbort
  | mgClose => exact h.execMgClose
  | mgKeyExchange => exact .next h.dev.freshened
  | mgRound => exact h.execMgRound
  | mgDeadline => exact h.execMgDeadline
  | mgPageReceive => exact h.execMgPageReceive
  | mgRoundendReceive => exact h.execMgRoundendReceive
  | mgIvoryReceive => exact h.execMgIvoryReceive
  | mgFinalReceive => exact h.execMgFinalReceive
  | mgReadyReceive => exact h.execMgReadyReceive
  | mgGoReceive => exact h.execMgGoReceive
  | mgAbortReceive _ _ status => exact h.execMgAbortReceive (status := status)
  | mgLinkFailure => exact h.execMgLinkFailure
  | riscVCoreAccess => exact h.execRiscVCoreAccess
  | minresExpiry => exact h.execMinresExpiry
  | wlWaitDeadline => exact h.execWlWaitDeadline
  | dequeSpillResume => exact h.execDequeSpillResume
  | migrationEngineResume => exact h.execMigrationEngineResume
  | ldb | ldbs | ldh | ldhs | ldw | ldws | ldd | ldq | stb | sth | stw | std | stq | stn4 | ldv | ldvStr | ldvIdx | stv | stvStr | stvIdx
    | aadd | aand | aor | axor | amin | amax | aminn | amaxn | aswp | acas | afadd | acq | rel | wbr | invr | lncfg | cbld | alinv =>
    exact .next h.fireMem
  | _ => exact .next h.dev

theorem State.Canonical.setFocus (h : s.Canonical) {hart tag idx : Nat} : (setFocus s hart tag idx).Canonical := h.dev

theorem State.Canonical.runLive (h : s.Canonical) {c : Choice} : (runLive c s).Canonical := by
  cases c with
  | fire hart tag idx =>
    dsimp only [Machine.runLive]
    split
    exacts [h.setFocus.exec _, .next h]
  | app core w =>
    dsimp only [Machine.runLive]
    split
    · exact h.setFocus.exec _
    split
    · exact .next h
    split
    · exact .next h.illegalWl
    split
    exacts [.next h.wlctxAccess, .next h.riscVWord]
  | event i => exact h.exec i
  | riscV core r => exact .next h.riscVLeaves
  | slate row r => exact .next h.slateLeaves
  | decay bank frame n => exact .next h.decayCount
  | hostStore pa bs =>
    have hw : State.Canonical { s with host := setBytes s.host pa bs } := ⟨h.mem, Memory.wf_setBytes pa bs h.host, h.peer⟩
    exact .next hw.wake
  | peerStore node pa bs =>
    have hw : State.Canonical { s with peer := setBytes s.peer (peerKey node pa) bs } :=
      ⟨h.mem, h.host, Memory.wf_setBytes (peerKey node pa) bs h.peer⟩
    exact .next hw.wake

theorem State.Canonical.runChoice (h : s.Canonical) {c : Choice} : (runChoice c s).Canonical := by
  unfold Machine.runChoice
  split
  exacts [.next h, h.runLive]

theorem State.Canonical.runOwn (h : s.Canonical) {o : Own} : (runOwn o s).Canonical := by
  cases o with
  | fire hart tag idx => exact h.runLive (c := (.fire hart tag idx))
  | wl core w => exact h.runLive (c := (.app core w))
  | blockFetch => exact h.execBlockFetch
  | faultTake => exact h.execFaultTake
  | loadReply => exact h.execLoadReply
  | atomicPerform => exact h.execAtomicPerform
  | tensorIssue => exact h.execTensorIssue
  | postedStorePerform => exact h.execPostedStorePerform
  | relItemPerform => exact h.execRelItemPerform
  | storeRetryReoffer => exact h.execStoreRetryReoffer
  | returnStackSpill => exact h.execReturnStackSpill
  | joinWordRead => exact h.execJoinWordRead
  | joinSuspend => exact h.execJoinSuspend
  | blockCommit => exact h.execBlockCommit
  | mmaEntryConsume => exact h.execMmaEntryConsume
  | tensorOpComplete => exact h.execTensorOpComplete
  | mstoEntryPush => exact h.execMstoEntryPush
  | matrixNodeModeChange => exact h.execMatrixNodeModeChange
  | replayEntryPerform => exact h.execReplayEntryPerform
  | widenReserve => exact h.execWidenReserve
  | widenRedistribute => exact h.execWidenRedistribute
  | theftCopyComplete => exact h.execTheftCopyComplete
  | theftReply => exact h.execTheftReply
  | ownerPop => exact h.execOwnerPop
  | theftLapWaitExpiry => exact h.execTheftLapWaitExpiry
  | theftRequest => exact h.execTheftRequest
  | quiescenceTokenForward => exact h.execQuiescenceTokenForward
  | shadowSwap => exact h.execShadowSwap
  | poolTakeRetry => exact h.execPoolTakeRetry
  | engineKickStart => exact h.execEngineKickStart
  | portEntryDeliver => exact h.execPortEntryDeliver
  | portCreditReturn => exact h.execPortCreditReturn
  | ageRecordFetch => exact h.execAgeRecordFetch
  | ageElementDeliver => exact h.execAgeElementDeliver
  | ageElementWrite => exact h.execAgeElementWrite
  | scratchPageExchange => exact h.execScratchPageExchange
  | streamerWriteOut => exact h.execStreamerWriteOut
  | traceGapRecord => exact h.execTraceGapRecord
  | ochrePacketEnqueue => exact h.execOchrePacketEnqueue
  | invalidationComplete => exact h.execInvalidationComplete
  | atsInvalidation => exact h.execAtsInvalidation
  | jcountDecrement => exact h.execJcountDecrement
  | resumeFrameHandoff => exact h.execResumeFrameHandoff
  | launchPost => exact h.execLaunchPost
  | placementDecision => exact h.execPlacementDecision
  | graphComplete => exact h.execGraphComplete
  | arrivalLogAppend => exact h.execArrivalLogAppend
  | heldMessageReoffer => exact h.execHeldMessageReoffer
  | drainComplete => exact h.execDrainComplete
  | ringEntryTake => exact h.execRingEntryTake
  | networkEntryComplete => exact h.execNetworkEntryComplete
  | mgRound => exact h.execMgRound
  | mgFinalStop => exact h.execMgFinalStop
  | islandPointChange => exact h.execIslandPointChange
  | functionReady => exact h.execFunctionReady

theorem State.Canonical.step (h : s.Canonical) : Out.Canonical (Machine.step s) := by
  unfold Machine.step
  split
  · exact h.dev.runChoice
  split
  exacts [h.dev.runOwn, .next h]

end Canonical

/-- Settles O40: the invariant passes through the step, whatever choice of the agenda or step of the device's own it runs. -/
theorem everyStepKeepsTheMemoriesCanonical : Obligations.EveryStepKeepsTheMemoriesCanonical := by
  unfold Obligations.EveryStepKeepsTheMemoriesCanonical
  rintro s t ⟨hmem, hhost, hpeer⟩ hstep
  have h : s.Canonical := ⟨hmem, hhost, hpeer⟩
  obtain ⟨tmem, thost, tpeer⟩ := h.step.of_eq hstep
  exact ⟨tmem, thost, tpeer⟩

end Sys2Proof.Machine

/-! Effects of a firing on its block (R23, R24). What an effect reads of the core stands as it did before the firing was counted and the block marked. -/
namespace Sys2Proof.Machine

/-- The block in which the instruction `idx` has been marked as fired (R23). -/
def Block.markFired (b : Block) (idx : Nat) : Block := { b with fired := b.fired ++ [idx] }

/-- An effect that reads the core may be computed from what stood there before the firing was counted and marked. -/
theorem State.fired_eq_firedBlock {s : State} {b : Block} {k : Hart → Block → Block} {g : Block → Block}
    (hk : k (((s.hart s.dev.focus.hart).count 5 1).putBlock (b.markFired s.dev.focus.idx)) (b.markFired s.dev.focus.idx) =
      g (b.markFired s.dev.focus.idx)) :
    s.fired b (fun h b1 => h.putBlock (k h b1)) = s.firedBlock b g := by
  unfold Block.markFired at hk
  unfold State.firedBlock State.fired
  dsimp only
  rw [hk]

/-- Counting the firing and marking it in its block change nothing that the numeric environment reads (R39, R40). -/
theorem Hart.nenv_count_putBlock (h : Hart) (ev n : Nat) (b : Block) (idx : Nat) :
    ((h.count ev n).putBlock b).nenv idx = h.nenv idx := by
  unfold Hart.count
  split <;> rfl

theorem Hart.cwidth_count_putBlock (h : Hart) (ev n : Nat) (b : Block) : ((h.count ev n).putBlock b).cwidth = h.cwidth := by
  unfold Hart.count
  split <;> rfl

/-- Replacing a block leaves the blocks older than it. -/
theorem Hart.olderBlocks_putBlock (h : Hart) (b : Block) : (h.putBlock b).olderBlocks b.tag = h.olderBlocks b.tag := by
  unfold Hart.olderBlocks Hart.putBlock
  induction h.blocks with
  | nil => rfl
  | cons c cs ih =>
    rw [List.map_cons, List.takeWhile_cons, List.takeWhile_cons]
    by_cases hc : c.tag = b.tag
    · simp [hc]
    · simp only [if_neg hc, ih]

/-- A block finds the same vector context after its firing has been counted and marked (R139). -/
theorem Block.ctxOf_markFired (h : Hart) (ev n idx : Nat) (b : Block) :
    (b.markFired idx).ctxOf ((h.count ev n).putBlock (b.markFired idx)) = b.ctxOf h := by
  have hcount : (h.count ev n).vecBefore b = h.vecBefore b := by
    unfold Hart.count
    split <;> rfl
  have hput : ((h.count ev n).putBlock (b.markFired idx)).vecBefore (b.markFired idx) = (h.count ev n).vecBefore b := by
    unfold Hart.vecBefore
    rw [Hart.olderBlocks_putBlock]
    rfl
  unfold Block.ctxOf
  rw [hput, hcount]
  rfl

theorem State.bookOf_markFired (s : State) (hn idx : Nat) (b : Block) : s.bookOf hn (b.markFired idx) = s.bookOf hn b := rfl

end Sys2Proof.Machine

/-! Two-operand integer instructions (R56, R126). The model's operation on numbers is matched with the operation on words that the spec names; an instruction
of the two-operand form then sends the word operation's result. Which operation an instruction has, and its form and targets, are read off the model by `rfl`. -/
namespace Sys2Proof.Machine

/-- On the W-bit strings of its operands the operation `f` on numbers is the operation `F` on words, at every width. -/
def IsWordOp (f : Nat → Nat → Nat → Nat) (F : (w : Nat) → BitVec w → BitVec w → BitVec w) : Prop :=
  ∀ (w : Nat), 0 < w → ∀ x y : BitVec w, BitVec.ofNat w (f w x.toNat y.toNat) = F w x y

/-- An instruction of the two-operand form sends the result of its word operation. -/
theorem IsWordOp.sends {f F} (h : IsWordOp f F) {i : Instr} {w : BitVec 1} {t0 t1 : BitVec 9} {pr : BitVec 2}
    (hexec : ∀ s, exec i s = intBin s w t0 t1 pr f) (hform : formOf i false = ⟨pr, 2, false, none, none, .whole⟩)
    (ht : targetsOf i = [t0, t1]) :
    Sends i false (fun _ l r => res (F (widthOf w) (opd w l) (opd w r))) :=
  intBin_sends hexec hform ht (congrArg Form.operands hform) (h (widthOf w) (widthOf_pos w))

/-- An operation that keeps W-bit strings is a word operation by its values alone. -/
theorem IsWordOp.of_toNat {f F} (h : ∀ w (x y : BitVec w), f w x.toNat y.toNat = (F w x y).toNat) : IsWordOp f F := by
  intro w _ x y
  rw [h, BitVec.ofNat_toNat, BitVec.setWidth_eq]

theorem isWordOp_add : IsWordOp opAdd fun _ x y => x + y := fun _ _ => ofNat_opAdd
theorem isWordOp_sub : IsWordOp opSub fun _ x y => x - y := fun _ _ => ofNat_opSub
theorem isWordOp_mul : IsWordOp opMul fun _ x y => x * y := fun _ _ => ofNat_opMul

/-! High halves of products -/

theorem isWordOp_mulh : IsWordOp (fun w a b => opMulHigh w (sval w a) (sval w b))
    fun w x y => BitVec.ofInt w (x.toInt * y.toInt / 2 ^ w) := by
  intro w hw x y
  simp only [sval_toNat hw, ofNat_opMulHigh]

theorem isWordOp_mulhn : IsWordOp (fun w a b => opMulHigh w a b)
    fun w x y => BitVec.ofNat w (x.toNat * y.toNat / 2 ^ w) := fun _ _ => ofNat_opMulHigh_nat

theorem isWordOp_mulhsn : IsWordOp (fun w a b => opMulHigh w (sval w a) b)
    fun w x y => BitVec.ofInt w (x.toInt * y.toNat / 2 ^ w) := by
  intro w hw x y
  simp only [sval_toNat hw, ofNat_opMulHigh]

/-! Minimum and maximum -/

theorem ofNat_ite_toNat {w : Nat} (x y : BitVec w) (p : Prop) [Decidable p] :
    BitVec.ofNat w (if p then x.toNat else y.toNat) = if p then x else y := by
  split <;> rw [BitVec.ofNat_toNat, BitVec.setWidth_eq]

theorem isWordOp_min : IsWordOp (fun w a b => if sval w a ≤ sval w b then a else b)
    fun _ x y => if x.toInt ≤ y.toInt then x else y := by
  intro w hw x y
  simp only [sval_toNat hw, ofNat_ite_toNat]

theorem isWordOp_max : IsWordOp (fun w a b => if sval w a ≤ sval w b then b else a)
    fun _ x y => if x.toInt ≤ y.toInt then y else x := by
  intro w hw x y
  simp only [sval_toNat hw, ofNat_ite_toNat]

theorem isWordOp_minn : IsWordOp (fun _ a b => if a ≤ b then a else b) fun _ x y => if x ≤ y then x else y :=
  fun _ _ x y => ofNat_ite_toNat x y (x ≤ y)

theorem isWordOp_maxn : IsWordOp (fun _ a b => if a ≤ b then b else a) fun _ x y => if x ≤ y then y else x :=
  fun _ _ x y => ofNat_ite_toNat y x (x ≤ y)

/-! Bitwise operations -/

theorem isWordOp_and : IsWordOp (fun _ a b => a &&& b) fun _ x y => x &&& y := .of_toNat fun _ x y => (BitVec.toNat_and x y).symm
theorem isWordOp_or : IsWordOp (fun _ a b => a ||| b) fun _ x y => x ||| y := .of_toNat fun _ x y => (BitVec.toNat_or x y).symm
theorem isWordOp_xor : IsWordOp (fun _ a b => a ^^^ b) fun _ x y => x ^^^ y := .of_toNat fun _ x y => (BitVec.toNat_xor x y).symm
theorem isWordOp_andn : IsWordOp (fun w a b => a &&& opNot w b) fun _ x y => x &&& ~~~y := fun _ _ => ofNat_and_not
theorem isWordOp_orn : IsWordOp (fun w a b => a ||| opNot w b) fun _ x y => x ||| ~~~y := fun _ _ => ofNat_or_not
theorem isWordOp_xnor : IsWordOp (fun w a b => opNot w (a ^^^ b)) fun _ x y => ~~~(x ^^^ y) := fun _ _ => ofNat_xnor

/-- LEA: the shifted addend wraps as the sum does. -/
theorem isWordOp_lea (c : Nat) : IsWordOp (fun w a b => (a + b * 2 ^ c) % 2 ^ w) fun _ x y => x + (y <<< c) := by
  refine .of_toNat fun w x y => ?_
  rw [BitVec.toNat_add, BitVec.toNat_shiftLeft, Nat.shiftLeft_eq, Nat.add_mod_mod]

/-- Settles O1: each instruction's operation is the word operation that R126 names. -/
theorem integerTwoOperandResults : Obligations.IntegerTwoOperandResults := by
  unfold Obligations.IntegerTwoOperandResults
  intro w t0 t1 pr
  refine ⟨?add, ?sub, ?mul, ?mulh, ?mulhn, ?mulhsn, ?min, ?max, ?minn, ?maxn, ?and, ?or, ?xor, ?andn, ?orn, ?xnor, fun c => ?lea⟩
  case add => exact isWordOp_add.sends (fun _ => rfl) rfl rfl
  case sub => exact isWordOp_sub.sends (fun _ => rfl) rfl rfl
  case mul => exact isWordOp_mul.sends (fun _ => rfl) rfl rfl
  case mulh => exact isWordOp_mulh.sends (fun _ => rfl) rfl rfl
  case mulhn => exact isWordOp_mulhn.sends (fun _ => rfl) rfl rfl
  case mulhsn => exact isWordOp_mulhsn.sends (fun _ => rfl) rfl rfl
  case min => exact isWordOp_min.sends (fun _ => rfl) rfl rfl
  case max => exact isWordOp_max.sends (fun _ => rfl) rfl rfl
  case minn => exact isWordOp_minn.sends (fun _ => rfl) rfl rfl
  case maxn => exact isWordOp_maxn.sends (fun _ => rfl) rfl rfl
  case and => exact isWordOp_and.sends (fun _ => rfl) rfl rfl
  case or => exact isWordOp_or.sends (fun _ => rfl) rfl rfl
  case xor => exact isWordOp_xor.sends (fun _ => rfl) rfl rfl
  case andn => exact isWordOp_andn.sends (fun _ => rfl) rfl rfl
  case orn => exact isWordOp_orn.sends (fun _ => rfl) rfl rfl
  case xnor => exact isWordOp_xnor.sends (fun _ => rfl) rfl rfl
  case lea => exact (isWordOp_lea c.toNat).sends (fun _ => rfl) rfl rfl

/-! Division -/

theorem isWordOp_div : IsWordOp opDiv
    fun w x y => if y = 0 then BitVec.allOnes w else BitVec.ofInt w (x.toInt.tdiv y.toInt) := fun _ hw x y => ofNat_opDiv x y hw
theorem isWordOp_divn : IsWordOp opDivn fun w x y => if y = 0 then BitVec.allOnes w else x / y := fun _ _ => ofNat_opDivn
theorem isWordOp_rem : IsWordOp opRem
    fun w x y => if y = 0 then x else BitVec.ofInt w (x.toInt.tmod y.toInt) := fun _ hw x y => ofNat_opRem x y hw
theorem isWordOp_remn : IsWordOp (fun _ a b => opRemn a b) fun _ x y => if y = 0 then x else x % y := fun _ _ => ofNat_opRemn

/-- Settles O2: quotients and remainders of words, with R126's results for a divisor of zero. -/
theorem integerDivision : Obligations.IntegerDivision := by
  unfold Obligations.IntegerDivision
  intro w t0 t1 pr
  exact ⟨isWordOp_div.sends (fun _ => rfl) rfl rfl, isWordOp_divn.sends (fun _ => rfl) rfl rfl,
    isWordOp_rem.sends (fun _ => rfl) rfl rfl, isWordOp_remn.sends (fun _ => rfl) rfl rfl⟩

end Sys2Proof.Machine

/-! Token moves and constants (R123, R124). -/
namespace Sys2Proof.Machine

/-- An immediate appended below a shifted word (R124): the two share no bit, so their union is their sum. -/
theorem shiftLeft_or_setWidth (x : BitVec 64) (i : BitVec 14) :
    x <<< 14 ||| i.setWidth 64 = BitVec.ofNat 64 (x.toNat * 2 ^ 14 + i.toNat) := by
  have hsum : x.toNat * 2 ^ 14 + i.toNat = x.toNat * 2 ^ 14 ||| i.toNat := by
    rw [← Nat.shiftLeft_eq, Nat.shiftLeft_add_eq_or_of_lt i.isLt]
  have hhigh : BitVec.ofNat 64 (x.toNat * 2 ^ 14) = x <<< 14 := by
    apply BitVec.eq_of_toNat_eq
    simp [Nat.shiftLeft_eq]
  rw [hsum, BitVec.ofNat_or, hhigh, BitVec.ofNat_toNat]

/-- A PAIR that can fire joins its operands, and sends a null PAIR where one is null (R111). -/
theorem exec_pair_of_fires {t0 t1 : BitVec 9} {pr : BitVec 2} {s : State} {b : Block} {l r : Token}
    (h : Fires s (formOf (.pair t0 t1 pr) false) b l r) :
    exec (.pair t0 t1 pr) s = .next (s.sends b [t0, t1]
      (if l.null = true ∨ r.null = true then { tokNull with pair := true } else tokPair (r.lo ++ l.lo))) := by
  have hexec : exec (.pair t0 t1 pr) s = .next (s.fire (formOf (.pair t0 t1 pr) false) (onBlock fun _ b l r =>
      b.deliverAll [t0, t1] (if l.null || r.null then tokNullPair else tokPair (r.lo ++ l.lo)))) := rfl
  rw [hexec, fire_of_fires h]
  refine congrArg _ (State.fired_eq_firedBlock ?_)
  simp only [Bool.or_eq_true, tokNullPair]

/-- Settles O8: six of the moves are scalar instructions, and PAIR has its own null token. -/
theorem tokenMoves : Obligations.TokenMoves := by
  unfold Obligations.TokenMoves
  intro t0 t1 i pr
  refine ⟨?mov, ?null, ?plo, ?phi, ?const, ?app, fun _ _ _ _ => exec_pair_of_fires⟩
  case mov => exact sends_of (fun _ => rfl) rfl (.inl rfl) rfl fun _ _ _ _ _ _ => rfl
  case null => exact sends_of (fun _ => rfl) rfl (.inl rfl) rfl fun _ _ _ _ _ _ => rfl
  case plo => exact sends_of (fun _ => rfl) rfl (.inl rfl) rfl fun _ _ _ _ _ _ => rfl
  case phi => exact sends_of (fun _ => rfl) rfl (.inl rfl) rfl fun _ _ _ _ _ _ => rfl
  case const => exact sends_of (fun _ => rfl) rfl (.inr ⟨rfl, rfl⟩) rfl fun _ _ _ _ _ _ => rfl
  case app =>
    exact sends_of (fun _ => rfl) rfl (.inr ⟨rfl, rfl⟩) rfl fun _ _ _ l _ _ => congrArg tokOf (shiftLeft_or_setWidth l.lo i)

end Sys2Proof.Machine

/-! Scalar floating point (R46 to R55, R131 to R135). -/
namespace Sys2Proof.Machine

/-- The value that a floating operand of format code `f` has in its token (R43, R51, R110). -/
def floatOperand (e : NEnv) (f : BitVec 2) (y : Dbl) : Ex := operand e (fmtTag f) (fpBits (fmtTag f) y)

/-- The result of format code `f` for the exact value `x` (R46, R110). -/
def floatResult (e : NEnv) (f : BitVec 2) (m : BitVec 3) (x : Ex) : Dbl := BitVec.ofNat 64 (roundTo e (fmtTag f) m.toNat false 0 x)

/-! Rounding instructions -/

/-- What a firing of rounding instruction `i` leaves (R55, R111): its targets have the result `k`, or a null token for a null operand, and its block
is marked if it drew stochastically in rounding mode `mode`. -/
def State.rounded (s : State) (b : Block) (i : Instr) (mode : Nat) (l r : Token) (k : Dbl) : State :=
  let e := (s.hart s.dev.focus.hart).nenv s.dev.focus.idx
  let nul : Bool := l.null || (operandCount i == 2 && r.null)
  s.firedBlock b fun b1 =>
    { b1.deliverAll (targetsOf i) (if nul then tokNull else tokOf k) with sr := b1.sr || (!nul && drawsSr e mode) }

/-- A rounding instruction that can fire sends its result and marks a block in which it drew; a null operand gives a null token and no mark. -/
theorem rounding_of_fires (k : NEnv → Token → Token → Dbl) {i : Instr} {s : State} {b : Block} {l r : Token} (h : Fires s (formOf i true) b l r)
    {pr : BitVec 2} {n mode : Nat} {t0 t1 : BitVec 9} (hexec : exec i s = fpRound s pr n mode t0 t1 fun e l r => tokOf (k e l r))
    (hform : formOf i true = scalarForm pr n true)
    (ht : targetsOf i = [t0, t1] ∨ (targetsOf i = [t0] ∧ t1 = noTarget)) (hn : n = 1 ∨ n = 2) :
    exec i s = .next (s.rounded b i mode l r (k ((s.hart s.dev.focus.hart).nenv s.dev.focus.idx) l r)) := by
  have hnul : ((decide (1 ≤ n) && l.null) || (decide (2 ≤ n) && r.null)) = (l.null || (operandCount i == 2 && r.null)) := by
    rw [show operandCount i = n from congrArg Form.operands hform]
    obtain rfl | rfl := hn <;> rfl
  have htargets : ∀ (b1 : Block) (x : Token), b1.deliverAll [t0, t1] x = b1.deliverAll (targetsOf i) x := by
    intro b1 x
    obtain ht | ⟨ht, rfl⟩ := ht
    · rw [ht]
    · rw [ht, Block.deliverAll_one]
  rw [hform] at h
  rw [hexec]
  unfold fpRound State.rounded
  rw [fire_of_fires h]
  refine congrArg _ (State.fired_eq_firedBlock ?_)
  dsimp only
  rw [Hart.nenv_count_putBlock, hnul, htargets]

/-- The two-operand arithmetic that can fire rounds its exact result once (R131). -/
theorem fpBin_of_fires (op : NEnv → Nat → Ex → Ex → Ex) {i : Instr} {s : State} {b : Block} {l r : Token} (h : Fires s (formOf i true) b l r)
    {f : BitVec 2} {m : BitVec 3} {pr : BitVec 2} {t0 t1 : BitVec 9} (hexec : exec i s = fpBin s f m t0 t1 pr op)
    (hform : formOf i true = scalarForm pr 2 true) (ht : targetsOf i = [t0, t1]) :
    let e := (s.hart s.dev.focus.hart).nenv s.dev.focus.idx
    exec i s = .next (s.rounded b i m.toNat l r (floatResult e f m (op e m.toNat (floatOperand e f l.lo) (floatOperand e f r.lo)))) :=
  rounding_of_fires (fun e l r => floatResult e f m (op e m.toNat (floatOperand e f l.lo) (floatOperand e f r.lo)))
    h hexec hform (.inl ht) (.inr rfl)

/-- Settles O12: each instruction rounds the exact result that is named here; FMA takes its factors from the halves of its left operand. -/
theorem floatRoundedResults : Obligations.FloatRoundedResults := by
  unfold Obligations.FloatRoundedResults
  intro f m x sat t0 t1 pr s b l r
  refine ⟨fun h => ?fadd, fun h => ?fsub, fun h => ?fmul, fun h => ?fdiv, fun h => ?fma, fun h => ?fsqrt, fun h => ?fcvt⟩
  case fadd => exact fpBin_of_fires exAdd h rfl rfl rfl
  case fsub => exact fpBin_of_fires (fun e m p q => exAdd e m p q.negate) h rfl rfl rfl
  case fmul => exact fpBin_of_fires (fun _ _ p q => exMul p q) h rfl rfl rfl
  case fdiv => exact fpBin_of_fires (fun _ _ p q => exDiv p q) h rfl rfl rfl
  case fma =>
    exact rounding_of_fires (fun e l r =>
      floatResult e f m (exFma e m.toNat (floatOperand e f l.lo) (floatOperand e f l.hi) (floatOperand e f r.lo)))
      h rfl rfl (.inl rfl) (.inr rfl)
  case fsqrt =>
    exact rounding_of_fires (fun e l _ => floatResult e f m (exSqrt (floatOperand e f l.lo))) h rfl rfl (.inl rfl) (.inl rfl)
  case fcvt =>
    exact rounding_of_fires (fun e l _ => cvtResult e (cvtPair x.toNat).2 m.toNat (sat = 1) (cvtSource e (cvtPair x.toNat).1 l.lo))
      h rfl rfl (.inr ⟨rfl, rfl⟩) (.inl rfl)

/-! Choices, compares and signs -/

/-- The formats of the scalar instructions carry their sign in the top bit (R41, R43). -/
theorem signBit_fmtTag (f : BitVec 2) : signBit (fmtTag f) = 2 ^ (tagBits (fmtTag f) - 1) := by
  revert f; decide

theorem tagBits_fmtTag_pos (f : BitVec 2) : 0 < tagBits (fmtTag f) := by
  revert f; decide

theorem xor_two_pow_of_lt {n y : Nat} (hy : y < 2 ^ n) : y ^^^ 2 ^ n = y + 2 ^ n := by
  have hdiv : (y ^^^ 2 ^ n) / 2 ^ n = 1 := by
    rw [Nat.xor_div_two_pow, Nat.div_eq_of_lt hy, Nat.div_self (Nat.two_pow_pos n), Nat.zero_xor]
  have hmod : (y ^^^ 2 ^ n) % 2 ^ n = y := by
    rw [Nat.xor_mod_two_pow, Nat.mod_self, Nat.xor_zero, Nat.mod_eq_of_lt hy]
  rw [← Nat.mod_add_div (y ^^^ 2 ^ n) (2 ^ n), hdiv, hmod, Nat.mul_one]

/-- Inverting the top bit of a string of `n + 1` bits is adding it modulo the string's size. -/
theorem xor_top_eq_add_mod {n x : Nat} (hx : x < 2 ^ (n + 1)) : x ^^^ 2 ^ n = (x + 2 ^ n) % 2 ^ (n + 1) := by
  rw [Nat.pow_succ] at hx ⊢
  rcases Nat.lt_or_ge x (2 ^ n) with hlow | hhigh
  · rw [xor_two_pow_of_lt hlow, Nat.mod_eq_of_lt (by omega)]
  · obtain ⟨y, rfl⟩ := Nat.exists_eq_add_of_le' hhigh
    have hy : y < 2 ^ n := by omega
    rw [← xor_two_pow_of_lt hy, Nat.xor_xor_cancel_right, xor_two_pow_of_lt hy, Nat.add_assoc, ← Nat.mul_two,
      Nat.add_mod_right, Nat.mod_eq_of_lt (by omega)]

/-- FNEG's inverted sign bit as a sum (R134). -/
theorem fpBits_xor_signBit (f : BitVec 2) (x : Dbl) : fpBits (fmtTag f) x ^^^ signBit (fmtTag f) =
    (fpBits (fmtTag f) x + 2 ^ (tagBits (fmtTag f) - 1)) % 2 ^ tagBits (fmtTag f) := by
  have hw := Nat.sub_add_cancel (tagBits_fmtTag_pos f)
  have hlt : fpBits (fmtTag f) x < 2 ^ (tagBits (fmtTag f) - 1 + 1) := by
    rw [hw]; exact Nat.mod_lt _ (Nat.two_pow_pos _)
  rw [signBit_fmtTag, xor_top_eq_add_mod hlt, hw]

/-- A two-operand instruction of the oldest block that reads the numeric environment sends its result. -/
theorem numeric_sends (k : NEnv → Dbl → Dbl → Token) {i : Instr} {t0 t1 : BitVec 9} {pr : BitVec 2}
    (hexec : ∀ s, exec i s = .next (s.fireScalar pr 2 true t0 t1 fun h _ l r => k (h.nenv 0) l.lo r.lo))
    (hform : formOf i true = ⟨pr, 2, true, none, none, .whole⟩) (ht : targetsOf i = [t0, t1]) :
    Sends i true (fun h l r => k (h.nenv 0) l.lo r.lo) :=
  sends_of (k := fun _ h _ l r => k (h.nenv 0) l.lo r.lo) hexec hform (.inl ht) (congrArg Form.operands hform)
    fun _ _ _ _ _ _ => by rw [Hart.nenv_count_putBlock]

/-- A choice among encodings reads both operands flushed (R51, R132). -/
theorem fpPick_sends (op : NEnv → Nat → Nat → Nat → Nat) {i : Instr} {f : BitVec 2} {t0 t1 : BitVec 9} {pr : BitVec 2}
    (hexec : ∀ s, exec i s = fpPick s f t0 t1 pr op)
    (hform : formOf i true = ⟨pr, 2, true, none, none, .whole⟩) (ht : targetsOf i = [t0, t1]) :
    let t := fmtTag f
    Sends i true (fun h l r =>
      fpTok (op (h.nenv 0) t (flushBits (h.nenv 0) t (fpBits t l.lo)) (flushBits (h.nenv 0) t (fpBits t r.lo)))) :=
  numeric_sends (fun e x y => fpTok (op e (fmtTag f) (flushBits e (fmtTag f) (fpBits (fmtTag f) x))
    (flushBits e (fmtTag f) (fpBits (fmtTag f) y)))) hexec hform ht

/-- A bit form sends its function of the operand's bits as they stand (R134). -/
theorem fpBitsUn_sends (op : Nat → Nat → Nat) {i : Instr} {f : BitVec 2} {t0 t1 : BitVec 9} {pr : BitVec 2}
    (hexec : ∀ s, exec i s = fpBitsUn s f t0 t1 pr op)
    (hform : formOf i false = ⟨pr, 1, false, none, none, .whole⟩) (ht : targetsOf i = [t0, t1]) :
    Sends i false (fun _ l _ => fpTok (op (fmtTag f) (fpBits (fmtTag f) l.lo))) :=
  sends_of (k := fun _ _ _ l _ => fpTok (op (fmtTag f) (fpBits (fmtTag f) l.lo))) hexec hform (.inl ht) (congrArg Form.operands hform)
    fun _ _ _ _ _ _ => rfl

/-- Settles O13: choices and FCMP read flushed operands; the bit forms are restated with the sign as the format's top bit. -/
theorem floatChoicesComparesAndSigns : Obligations.FloatChoicesComparesAndSigns := by
  unfold Obligations.FloatChoicesComparesAndSigns
  intro f c t0 t1 pr
  refine ⟨?fmin, ?fmax, ?fminnum, ?fmaxnum, ?fcmp, ?fabs, ?fneg, ?fclass, ?fcopysign⟩
  case fmin => exact fpPick_sends (fun e t => fminmax e t false) (fun _ => rfl) rfl rfl
  case fmax => exact fpPick_sends (fun e t => fminmax e t true) (fun _ => rfl) rfl rfl
  case fminnum => exact fpPick_sends (fun e t => fminmaxNum e t false) (fun _ => rfl) rfl rfl
  case fmaxnum => exact fpPick_sends (fun e t => fminmaxNum e t true) (fun _ => rfl) rfl rfl
  case fcmp =>
    exact numeric_sends (fun e x y => tokOf (boolDbl (fcmpHolds c.toNat (floatOperand e f x) (floatOperand e f y))))
      (fun _ => rfl) rfl rfl
  case fabs =>
    rw [← signBit_fmtTag]
    exact fpBitsUn_sends (fun t x => x % signBit t) (fun _ => rfl) rfl rfl
  case fneg =>
    have h := fpBitsUn_sends (i := .fneg f t0 t1 pr) (fun t x => x ^^^ signBit t) (fun _ => rfl) rfl rfl
    simp only [fpBits_xor_signBit] at h
    exact h
  case fclass => exact fpBitsUn_sends fclassOf (fun _ => rfl) rfl rfl
  case fcopysign =>
    rw [← signBit_fmtTag]
    exact sends_of (k := fun _ _ _ l r => fpTok (fpBits (fmtTag f) l.lo % signBit (fmtTag f) +
      fpBits (fmtTag f) r.lo / signBit (fmtTag f) * signBit (fmtTag f))) (fun _ => rfl) rfl (.inl rfl) rfl fun _ _ _ _ _ _ => rfl

end Sys2Proof.Machine

/-! Vector instructions (R139, R141) and the function instructions (R154). -/
namespace Sys2Proof.Machine

/-- A vector instruction whose body answers `G` wherever its tag checks hold acts as `G` says (R139, R141). -/
theorem fireVec_acts {i : Instr} {v : BitVec 5} {pr : BitVec 2} {n : Nat} {t0 : BitVec 9} {g : VEnv → Vec → Token → VRes}
    {ok : VEnv → Vec → Prop} {G : VEnv → Vec → Token → Vec × Option Token × Bool}
    (hexec : ∀ s, exec i s = .next (s.fireVec v pr n t0 g))
    (hform : formOf i true = ⟨pr, n, true, none, some v.toNat, .whole⟩)
    (ht : targetsOf i = [t0] ∨ (targetsOf i = [] ∧ t0 = noTarget))
    (hg : ∀ e x l, ok e x → g e x l = .ok (G e x l).1 (G e x l).2.1 (G e x l).2.2) :
    VecActs i ok G := by
  intro s b l r h
  have hn : operandCount i = n := congrArg Form.operands hform
  have hv : vsidOf i = some v.toNat := congrArg Form.vsid hform
  have htargets : ∀ (b1 : Block) (k : Token), b1.deliver t0 k = b1.deliverAll (targetsOf i) k := by
    intro b1 k
    obtain ht | ⟨ht, rfl⟩ := ht <;> rw [ht]
    · rfl
    · exact Block.deliver_noTarget b1 k
  rw [hform] at h
  rw [hexec, hn]
  unfold State.fireVec State.vecFired
  dsimp only
  rw [fire_of_fires h, hv]
  refine ⟨fun hnull => congrArg _ (State.fired_eq_firedBlock ?null), fun hlive hok => congrArg _ (State.fired_eq_firedBlock ?live)⟩
  case null =>
    dsimp only
    rw [if_pos hnull, htargets]
  case live =>
    dsimp only
    rw [if_neg hlive, Hart.nenv_count_putBlock, Hart.cwidth_count_putBlock, Block.ctxOf_markFired, State.bookOf_markFired]
    have hbody := hg _ _ l hok
    unfold State.vecEnv at hbody ⊢
    dsimp only at hbody ⊢
    rw [hbody]
    dsimp only
    cases (G _ _ l).2.1 with
    | none => rfl
    | some k => exact htargets _ k

/-- A register that carries an accepted VTYPE passes the check of the working format (R141). -/
theorem needWork_of_carries {ts : List Nat} {rs : List (BitVec 5)} {x : Vec} (h : carries ts rs x) {a : BitVec 5} (ha : a ∈ rs)
    (e : VEnv) : needWork e x a.toNat ts = none := by
  obtain ⟨hts, hrs⟩ := h
  unfold needWork needTag
  rw [if_pos (List.contains_iff_mem.mpr hts), if_pos (hrs a ha)]

/-- A function instruction rounds its value at each element of the source once with RNE (R154). -/
theorem vfunc_acts {i : Instr} {v d a : BitVec 5} {pr : BitVec 2} {k : Nat} (hexec : ∀ s, exec i s = vfunc s v d a pr k)
    (hform : formOf i true = ⟨pr, 0, true, none, some v.toNat, .whole⟩) (ht : targetsOf i = []) :
    VecActs i (fun _ x => carries funcTags [a] x) fun e x _ =>
      let t := x.vtype.toNat
      (x.write d.toNat t ((upTo (lenN x e.cw t)).map fun j =>
        roundTo e.n t 0 false 0 (vfuncOf k (operand e.n t (x.elem a.toNat t j)))), none, false) := by
  refine fireVec_acts hexec hform (.inr ⟨ht, rfl⟩) fun e x _ hcarries => ?_
  have hwork : needWork e x a.toNat funcTags = none := needWork_of_carries hcarries (List.mem_singleton_self a) e
  simp only [hwork, whenTags, firstClash, Vec.elems, List.map_map]
  rfl

/-- Settles O25: eight instructions of one form; the function values are the model's fixed-point ones (log 5). -/
theorem vectorFunctions : Obligations.VectorFunctions := by
  unfold Obligations.VectorFunctions
  intro v d a pr
  refine ⟨?exp2, ?log2, ?rcp, ?rsq, ?sqrt, ?tanh, ?sigm, ?erf⟩
  case exp2 => exact vfunc_acts (fun _ => rfl) rfl rfl
  case log2 => exact vfunc_acts (fun _ => rfl) rfl rfl
  case rcp => exact vfunc_acts (fun _ => rfl) rfl rfl
  case rsq => exact vfunc_acts (fun _ => rfl) rfl rfl
  case sqrt => exact vfunc_acts (fun _ => rfl) rfl rfl
  case tanh => exact vfunc_acts (fun _ => rfl) rfl rfl
  case sigm => exact vfunc_acts (fun _ => rfl) rfl rfl
  case erf => exact vfunc_acts (fun _ => rfl) rfl rfl

end Sys2Proof.Machine

/-! Encoding and decoding (R74 to R82, R406). A word is a list of fields packed from bit 0 upward, so cutting it at the same widths gives the fields back;
what remains is that each instruction is the row which its own fields pick. -/
namespace Sys2Proof.Machine

/-! Packed fields -/

/-- The value of every field (width, value) fits its width. -/
def Fits (fs : List (Nat × Nat)) : Prop := ∀ f ∈ fs, f.2 < 2 ^ f.1

theorem fits_nil : Fits [] := List.forall_mem_nil _

theorem fits_cons {n v : Nat} {fs : List (Nat × Nat)} : Fits ((n, v) :: fs) ↔ v < 2 ^ n ∧ Fits fs := List.forall_mem_cons

theorem fits_reverse {fs : List (Nat × Nat)} : Fits fs.reverse ↔ Fits fs := by simp only [Fits, List.mem_reverse]

/-- The bits that the fields take together. -/
def fieldBits (fs : List (Nat × Nat)) : Nat := (fs.map Prod.fst).sum

theorem fieldBits_reverse {fs : List (Nat × Nat)} : fieldBits fs.reverse = fieldBits fs := by
  rw [fieldBits, List.map_reverse, List.sum_reverse, fieldBits]

/-- Cutting at the widths of the leading fields gives their values back, whatever follows them. -/
theorem unpackFields_packFields_append {fs : List (Nat × Nat)} (h : Fits fs) (gs : List (Nat × Nat)) :
    unpackFields (fs.map Prod.fst) (packFields (fs ++ gs)) = fs.map Prod.snd := by
  induction fs with
  | nil => rfl
  | cons f fs ih =>
    obtain ⟨hv, hfs⟩ := List.forall_mem_cons.mp h
    simp only [List.map_cons, List.cons_append, packFields, unpackFields, Nat.add_mul_mod_self_left, Nat.mod_eq_of_lt hv,
      Nat.add_mul_div_left _ _ (Nat.two_pow_pos f.1), Nat.div_eq_of_lt hv, Nat.zero_add, ih hfs]

/-- Shifting the leading fields out leaves what follows them. -/
theorem packFields_append_div {fs : List (Nat × Nat)} (h : Fits fs) (gs : List (Nat × Nat)) :
    packFields (fs ++ gs) / 2 ^ fieldBits fs = packFields gs := by
  induction fs with
  | nil => exact Nat.div_one _
  | cons f fs ih =>
    obtain ⟨hv, hfs⟩ := List.forall_mem_cons.mp h
    rw [fieldBits, List.map_cons, List.sum_cons, Nat.pow_add, ← Nat.div_div_eq_div_mul, List.cons_append, packFields,
      Nat.add_mul_div_left _ _ (Nat.two_pow_pos f.1), Nat.div_eq_of_lt hv, Nat.zero_add]
    exact ih hfs

theorem packFields_lt {fs : List (Nat × Nat)} (h : Fits fs) : packFields fs < 2 ^ fieldBits fs := by
  have hdiv := packFields_append_div h []
  rw [List.append_nil] at hdiv
  exact (Nat.div_eq_zero_iff_lt (Nat.two_pow_pos _)).mp hdiv

/-- Fields that fit and take 32 bits are the whole of the instruction's word. -/
theorem toNat_encode {i : Instr} (hfits : Fits i.fields) (hbits : fieldBits i.fields = 32) : (encode i).toNat = packFields i.fields :=
  (BitVec.toNat_ofNat _ _).trans (Nat.mod_eq_of_lt (hbits ▸ packFields_lt hfits))

/-! The words of the blocks (R77, R79) -/

/-- The major opcode, the highest field of a block's word (R77). -/
def majorOf (i : Instr) : Nat := (i.fields.getLastD (0, 0)).2

/-- The major opcode lies in a range of the opcode map (R79). -/
def majorIn (lo hi : Nat) (i : Instr) : Bool := decide (lo ≤ majorOf i ∧ majorOf i < hi)

theorem majorIn_iff {lo hi : Nat} {i : Instr} : majorIn lo hi i = true ↔ lo ≤ majorOf i ∧ majorOf i < hi := decide_eq_true_iff

/-- The words of the blocks are those with a major opcode above 0. -/
theorem isWelit_eq_majorIn (i : Instr) : isWelit i = majorIn 1 0x80 i := by cases i <;> rfl

/-- The instruction's word holds the major opcode `op` above the 25 bits of the fields `fs`, listed highest first; the opcode's layout cuts it at these fields,
and their values pick the instruction's own row. -/
structure IsRow (i : Instr) (op : Nat) (fs : List (Nat × Nat)) : Prop where
  fields : i.fields.reverse = (7, op) :: fs
  bits : fieldBits fs = 25
  cut : layout op = (fs.map Prod.fst).reverse
  fits : Fits ((7, op) :: fs)
  row : rowOf op (fs.map Prod.snd).reverse = some i

/-- The number of a counter is cut into three fields (R363). -/
theorem join_counter (n : Nat) : n / 8 * 8 + n / 4 % 2 * 4 + n % 4 = n := by omega

/-! Scalar instructions: control, token moves, integer and floating point. Where the fixed fields of a row are all that tells it apart, evaluating `rowOf`
finds it, and what is left to prove is that the fields of its operands read back as the operands. -/

theorem isRow_scalar {i : Instr} (h : majorIn 0x1 0x40 i = true) : ∃ op fs, IsRow i op fs := by
  cases i with
  | br | call | bri | calli | ret | scall | brk | trap | mov | null | pair | plo | phi | const | app | rdsys | wrsys | add | sub | mul | mulh | mulhn
      | mulhsn | div | divn | rem | remn | min | max | minn | maxn | and | or | xor | andn | orn | xnor | shl | shr | shra | rol | ror | clz | ctz
      | popc | brev | bswp | neg | abs | not | sextb | sexth | sextw | zextb | zexth | zextw | bfx | bfxs | bfi | lea | addi | muli | andi | ori
      | xori | shli | shri | shrai | roti | tcmp | tcmpi | fadd | fsub | fmul | fma | fdiv | fsqrt | fmin | fmax | fminnum | fmaxnum | fcmp | fcvt
      | fabs | fneg | fclass | fcopysign =>
    refine ⟨_, _, rfl, rfl, rfl, by simp only [fits_cons, fits_nil, and_true]; omega, ?_⟩
    change some _ = some _
    simp only [BitVec.ofNat_toNat, BitVec.setWidth_eq]
  | _ => exact absurd h Bool.false_ne_true

/-! Memory instructions and fences -/

theorem isRow_memory {i : Instr} (h : majorIn 0x40 0x60 i = true) : ∃ op fs, IsRow i op fs := by
  cases i with
  | ldb | ldbs | ldh | ldhs | ldw | ldws | ldd | ldq | stb | sth | stw | std | stq | stn4 | ldv | ldvStr | ldvIdx | stv | stvStr | stvIdx | aadd
      | aand | aor | axor | amin | amax | aminn | amaxn | aswp | acas | afadd | fenceFull | fenceAcq | fenceRel | fenceSs | acq | rel | wbr | invr
      | pref | ibar | lncfg =>
    refine ⟨_, _, rfl, rfl, rfl, by simp only [fits_cons, fits_nil, and_true]; omega, ?_⟩
    change some _ = some _
    simp only [BitVec.ofNat_toNat, BitVec.setWidth_eq]
  | _ => exact absurd h Bool.false_ne_true

/-! Vector instructions -/

theorem isRow_vector {i : Instr} (h : majorIn 0x60 0x70 i = true) : ∃ op fs, IsRow i op fs := by
  cases i with
  | vsetl | vgetl | vbcast | vidx | vextr | vadd | vsub | vrsub | vmul | vdiv | vmin | vmax | vabsd | vfma | vfms | vfnma | vfnms | vdoti8 | vdoti4
      | vand | vor | vxor | vandn | vshl | vshr | vshra | vnot | vcmp | vmov | vsel | vcmpct | vpermx | vslideup | vslidedn | vzip | vunzip | rsum
      | rmax | rmin | rsumw | rcount | rfirst | vscanSum | vscanMax | vscanMin | vscanSegsum | exp2 | log2 | rcp | rsq | sqrt | tanh | sigm | erf
      | vcvt | vdeq | vscl | vqnt | vamax | pack | unpklo | unpkhi | gettag | settag | clrtag =>
    refine ⟨_, _, rfl, rfl, rfl, by simp only [fits_cons, fits_nil, and_true]; omega, ?_⟩
    change some _ = some _
    simp only [Nat.div_add_mod', BitVec.ofNat_toNat, BitVec.setWidth_eq]
  | _ => exact absurd h Bool.false_ne_true

/-! Tensor, task, port, counter and table instructions. Some of their rows are told apart by the sub-opcode only after fields that hold operands; `simp` goes through these
opcodes' rows. -/

theorem isRow_system {i : Instr} (h : majorIn 0x70 0x80 i = true) : ∃ op fs, IsRow i op fs := by
  cases i with
  | mma | mmas | mmav | mmavSub | mldv | mrdv | msto | maddm | mtrn | mcopy =>
    refine ⟨_, _, rfl, rfl, rfl, by simp only [fits_cons, fits_nil, and_true]; omega, ?_⟩
    change some _ = some _
    simp only [Nat.div_add_mod', BitVec.ofNat_toNat, BitVec.setWidth_eq]
  | mshape | mzero | mwait | mstat | mtscl =>
    refine ⟨_, _, rfl, rfl, rfl, by simp only [fits_cons, fits_nil, and_true]; omega, ?_⟩
    change rows70 _ _ _ _ _ _ = some _
    simp [rows70, Nat.div_add_mod']
  | spawn | spawna | join | taskend | yield | taskid | width | launch | domwait =>
    refine ⟨_, _, rfl, rfl, rfl, by simp only [fits_cons, fits_nil, and_true]; omega, ?_⟩
    change rows78 _ _ _ _ _ = some _
    simp [rows78]
  | chcfg | chcfgAge | chlen | chclr =>
    refine ⟨_, _, rfl, rfl, rfl, by simp only [fits_cons, fits_nil, and_true]; omega, ?_⟩
    change rows79 _ _ _ _ _ _ = some _
    simp [rows79]
  | waitc | waitcAge | waitcJoin | rdc | jadd | pcfg | time =>
    refine ⟨_, _, rfl, rfl, rfl, by simp only [fits_cons, fits_nil, and_true]; omega, ?_⟩
    change rows7A _ _ _ _ _ _ _ = some _
    simp [rows7A, Nat.div_add_mod', join_counter]
  | cbld | alinv | attr | dmapq =>
    refine ⟨_, _, rfl, rfl, rfl, by simp only [fits_cons, fits_nil, and_true]; omega, ?_⟩
    change rows7B _ _ _ _ _ _ = some _
    simp [rows7B]
  | _ => exact absurd h Bool.false_ne_true

/-! Every word of a block -/

theorem isRow_of_isWelit {i : Instr} (h : isWelit i = true) : ∃ op fs, IsRow i op fs := by
  rw [isWelit_eq_majorIn] at h
  obtain hscalar | hmemory | hvector | hsystem : majorIn 0x1 0x40 i = true ∨ majorIn 0x40 0x60 i = true ∨ majorIn 0x60 0x70 i = true ∨
      majorIn 0x70 0x80 i = true := by
    simp only [majorIn_iff] at h ⊢
    omega
  · exact isRow_scalar hscalar
  · exact isRow_memory hmemory
  · exact isRow_vector hvector
  · exact isRow_system hsystem

/-- A row of the opcode map is found again from its own word; its well-formedness is then checked. -/
theorem IsRow.decode_encode {i : Instr} {op : Nat} {fs : List (Nat × Nat)} (h : IsRow i op fs) : decode (encode i) = checked (some i) := by
  obtain ⟨hfields, hbits, hlayout, hfits, hrow⟩ := h
  have hlow : Fits fs.reverse := fits_reverse.mpr (fits_cons.mp hfits).2
  have hlowBits : fieldBits fs.reverse = 25 := fieldBits_reverse.trans hbits
  have hlist : i.fields = ((7, op) :: fs).reverse := List.reverse_eq_iff.mp hfields
  have hword : (encode i).toNat = packFields (fs.reverse ++ [(7, op)]) := by
    rw [toNat_encode (hlist ▸ fits_reverse.mpr hfits) (hlist ▸ fieldBits_reverse.trans (congrArg (7 + ·) hbits)), hlist, List.reverse_cons]
  have hmajor : (encode i).toNat / 2 ^ 25 = op := by
    rw [hword, ← hlowBits, packFields_append_div hlow]
    rfl
  have hvals : unpackFields (layout op) (encode i).toNat = (fs.map Prod.snd).reverse := by
    rw [hword, hlayout, ← List.map_reverse, unpackFields_packFields_append hlow, List.map_reverse]
  have hne : encode i ≠ 0 := by
    intro hzero
    obtain rfl : op = 0 := by rw [← hmajor, hzero]; rfl
    obtain rfl : fs = [] := List.map_eq_nil_iff.mp (List.reverse_eq_nil_iff.mp hlayout.symm)
    cases hbits
  rw [decode, if_neg hne, hmajor, hvals, hrow]

/-! The custom-0 words (R406) -/

/-- A custom-0 instruction is found again from the fields of its word. -/
theorem decodeWl_encode_of_fields {i : Instr} {rd f3 rs1 rs2 : Nat} (hfields : i.fields = [(7, 11), (5, rd), (3, f3), (5, rs1), (5, rs2), (7, 0)])
    (hfits : Fits [(7, 11), (5, rd), (3, f3), (5, rs1), (5, rs2), (7, 0)]) (hrow : rowsWl 11 rd f3 rs1 rs2 0 = some i) :
    decodeWl (encode i) = checked (some i) := by
  have hcut : unpackFields [7, 5, 3, 5, 5, 7] (encode i).toNat = [11, rd, f3, rs1, rs2, 0] := by
    rw [toNat_encode (hfields ▸ hfits) (hfields ▸ rfl), hfields]
    exact unpackFields_packFields_append hfits []
  rw [decodeWl, hcut, ← hrow]

theorem decodeWl_encode {i : Instr} (h : isWl i = true) : decodeWl (encode i) = checked (some i) := by
  cases i with
  | wlLaunch | wlFence | wlPoll | wlWait | wlCancel | wlStatus | wlPrio =>
    refine decodeWl_encode_of_fields rfl (by simp only [fits_cons, fits_nil, and_true]; omega) ?_
    change some _ = some _
    simp only [BitVec.ofNat_toNat, BitVec.setWidth_eq]
  | _ => exact absurd h Bool.false_ne_true

/-! The check of the fields (R75, R81) -/

theorem checked_of_wf {i : Instr} (h : i.wf = true) : checked (some i) = .ok i := if_pos h

theorem checked_of_not_wf {i : Instr} (h : ¬ i.wf = true) : checked (some i) = .no .reserved := if_neg h

theorem wf_of_checked {o : Option Instr} {i : Instr} (h : checked o = .ok i) : i.wf = true := by
  cases o with
  | none => cases h
  | some j =>
    by_cases hj : j.wf = true
    · rw [checked_of_wf hj] at h
      cases h
      exact hj
    · rw [checked_of_not_wf hj] at h
      cases h

theorem decodeWord_eq_some {w : Word} {i : Instr} : decodeWord w = some i ↔ decode w = .ok i := by
  unfold decodeWord
  cases decode w <;> simp

theorem wf_of_decode {w : Word} {i : Instr} (h : decode w = .ok i) : i.wf = true := by
  unfold decode at h
  split at h
  next => cases h
  next => exact wf_of_checked h

theorem wf_of_decodeWl {w : Word} {i : Instr} (h : decodeWl w = .ok i) : i.wf = true := wf_of_checked h

/-- Settles O35: each instruction is the row that its own fields pick, and its word is cut at those fields. -/
theorem decodeInvertsEncode : Obligations.DecodeInvertsEncode := by
  unfold Obligations.DecodeInvertsEncode
  refine fun i hwf => ⟨fun hwelit => ?_, fun hwl => ?_⟩
  · obtain ⟨_, _, hrow⟩ := isRow_of_isWelit hwelit
    exact decodeWord_eq_some.mpr (hrow.decode_encode.trans (checked_of_wf hwf))
  · exact (decodeWl_encode hwl).trans (checked_of_wf hwf)

/-- Settles O36: both decoders keep a row only when its fields are well formed. -/
theorem decodedInstructionsAreWellFormed : Obligations.DecodedInstructionsAreWellFormed := by
  unfold Obligations.DecodedInstructionsAreWellFormed
  rintro w i (hblock | hwl)
  · exact wf_of_decode (decodeWord_eq_some.mp hblock)
  · exact wf_of_decodeWl hwl

/-- Settles O37, by evaluation of the decoder on each of the words. -/
theorem sampleWordsDecode : Obligations.SampleWordsDecode := by
  unfold Obligations.SampleWordsDecode
  refine ⟨?add, ?ldw, ?vadd, ?taskend, ?filler, ?unassigned, ?reserved⟩
  all_goals decide

end Sys2Proof.Machine

/-! The machine right after reset (R95, R105, R434). -/
namespace Sys2Proof.Machine

/-- Right after reset every hart is at its reset value but for its run state: one that no tile holds does not run. -/
theorem hart_reset (n : Nat) : ∃ r, State.reset.hart n = { Hart.reset with run := r } ∧ (n < 2048 → r = .idle) := by
  have himages : Dev.reset.imageTile n = none := by
    simp [Dev.imageTile, Dev.reset]
  by_cases hlive : n < 2048
  · exact ⟨.idle, if_pos hlive, fun _ => rfl⟩
  · refine ⟨.ending, (if_neg hlive).trans ?_, fun h => absurd h hlive⟩
    unfold Dev.heldHart
    rw [show State.reset.dev = Dev.reset from rfl, himages]
    exact ite_self _

/-- The Reset column of R105: SRSTATE has a seed, the registers a program reads beside it are zero. -/
theorem sysreg_reset (n k : Nat) (r : Run) (hk : k < 12) :
    Dev.reset.sysreg n { Hart.reset with run := r } k = if k = 8 then 0x9E3779B9 else 0 := by
  match k with
  | 0 | 3 | 5 | 8 | 10 | 11 => rfl
  | 1 | 2 | 4 | 6 | 7 | 9 => exact ite_self _
  | k + 12 => exact absurd hk (Nat.not_lt.mpr (Nat.le_add_left 12 k))

/-- Settles O41: every register is read off the reset state of its hart or tile. -/
theorem resetLeavesTheStatedValues : Obligations.ResetLeavesTheStatedValues := by
  unfold Obligations.ResetLeavesTheStatedValues
  intro n r l
  obtain ⟨run, hhart, hrun⟩ := hart_reset n
  dsimp only
  rw [hhart]
  have hreg : ({ Hart.reset with run := run } : Hart).reg r = 0 := ite_self _
  exact ⟨hreg, rfl, rfl, rfl, rfl, rfl, rfl, fun k => sysreg_reset n k run, rfl, rfl, hrun, rfl, rfl, rfl, rfl, rfl, rfl,
    rfl, rfl, rfl, rfl, rfl, Memory.wf_reset⟩

end Sys2Proof.Machine

/-! System registers (R104, R105, R136, R304, R360). -/
namespace Sys2Proof.Machine

theorem Dev.sysreg_count_putBlock (d : Dev) (n : Nat) (h : Hart) (ev k : Nat) (b : Block) (sel : Nat) :
    d.sysreg n ((h.count ev k).putBlock b) sel = d.sysreg n h sel := by
  unfold Hart.count
  split <;> rfl

/-- The instruction in focus fires now where it can fire. -/
theorem State.goes_of_fires {s : State} {f : Form} {b : Block} {l r : Token} (h : Fires s f b l r) : s.goes f = true := by
  unfold State.goes
  dsimp only
  rw [h.block]
  dsimp only
  rw [Hart.ready_of_fires h]
  rfl

/-- Time passing changes nothing that firing asks. -/
theorem Fires.ticked {s : State} {f : Form} {b : Block} {l r : Token} (h : Fires s f b l r) : Fires s.ticked f b l r :=
  ⟨h.block, h.running, h.free, h.alive, h.once, h.unspeculated, h.unfaulted, h.oldest, h.turn, h.context, h.predicate,
    h.left, h.right, h.marked, h.format⟩

/-- A scalar instruction without operands that can fire sends its token. -/
theorem State.fireScalar_sends {s : State} {pr : BitVec 2} {old : Bool} {t0 : BitVec 9} {b : Block} {l r k : Token}
    {g : Hart → Block → Token → Token → Token} (h : Fires s ⟨pr, 0, old, none, none, .whole⟩ b l r)
    (hk : g (((s.hart s.dev.focus.hart).count 5 1).putBlock (b.markFired s.dev.focus.idx)) (b.markFired s.dev.focus.idx) l r = k) :
    s.fireScalar pr 0 old t0 noTarget g = s.sends b [t0] k := by
  rw [State.fireScalar_of_fires h, ← hk]
  refine State.fired_eq_firedBlock ?_
  exact (Block.deliverAll_one _ _ _).symm

/-- RDSYS that can fire sends its register, which for TIMEBASE is read once time has passed (R360). -/
theorem exec_rdsys_of_fires {t0 : BitVec 9} {sel : BitVec 4} {pr : BitVec 2} {s : State} {b : Block} {l r : Token}
    (h : Fires s (formOf (.rdsys t0 sel pr) true) b l r) :
    let u := if sel = 10 then s.ticked else s
    exec (.rdsys t0 sel pr) s =
      .next (u.sends b [t0] (tokOf (u.dev.sysreg s.dev.focus.hart (s.hart s.dev.focus.hart) sel.toNat))) := by
  have hsends : ∀ u : State, Fires u (formOf (.rdsys t0 sel pr) true) b l r →
      u.fireScalar pr 0 true t0 noTarget (fun h _ _ _ => tokOf (u.dev.sysreg u.dev.focus.hart h sel.toNat)) =
        u.sends b [t0] (tokOf (u.dev.sysreg u.dev.focus.hart (u.hart u.dev.focus.hart) sel.toNat)) :=
    fun u hu => State.fireScalar_sends hu (congrArg tokOf (Dev.sysreg_count_putBlock ..))
  have hgoes : s.goes (scalarForm pr 0 true) = true := State.goes_of_fires h
  change execRdsys t0 sel pr s = _
  unfold execRdsys
  simp only [hgoes, and_true]
  split
  · exact congrArg _ (hsends s.ticked h.ticked)
  · exact congrArg _ (hsends s h)

/-- Settles O9: what is sent is the model's system register, read here selector by selector. -/
theorem systemRegisterReads : Obligations.SystemRegisterReads := by
  unfold Obligations.SystemRegisterReads
  intro t0 sel pr s b l r h
  dsimp only
  rw [exec_rdsys_of_fires h]
  refine congrArg (fun v => Host.Outcome.next (State.sends _ b [t0] (tokOf v))) ?_
  by_cases htime : sel = 10
  · subst htime
    rfl
  · simp only [if_neg htime]
    have hlt := sel.isLt
    generalize sel.toNat = k at hlt ⊢
    match k with
    | 0 | 1 | 2 | 3 | 4 | 5 | 6 | 7 | 8 | 9 | 10 | 11 | 12 => rfl
    | 13 | 14 | 15 => exact ite_self _
    | k + 16 => exact absurd hlt (Nat.not_lt.mpr (Nat.le_add_left 16 k))

end Sys2Proof.Machine

/-! Tensor configuration (R105, R166 to R171). -/
namespace Sys2Proof.Machine

/-- The granted shape with the request's fields written as quotients and remainders (R167). -/
theorem grantShape_eq (cw req : Nat) : grantShape cw req =
    (if req % 2 ^ 6 = 0 then 32 else Nat.min (req % 2 ^ 6) 32,
      if req / 2 ^ 8 % 2 ^ 10 = 0 then 32 * cw else Nat.min (req / 2 ^ 8 % 2 ^ 10) (32 * cw)) := by
  have hrows : bitsOf req 5 0 = req % 2 ^ 6 := congrArg (· % 2 ^ 6) (Nat.div_one req)
  unfold grantShape
  rw [hrows]
  rfl

theorem mstatWord_count_putBlock (h : Hart) (ev n : Nat) (b : Block) : mstatWord ((h.count ev n).putBlock b) = mstatWord h := by
  unfold Hart.count
  split <;> rfl

/-- An instruction that can fire and acts on its block alone leaves the block so, whatever it reads of the core standing as before. -/
theorem exec_onBlock_of_fires {i : Instr} {old : Bool} {s : State} {b : Block} {l r : Token}
    (h : Fires s (formOf i old) b l r) {g : Hart → Block → Token → Token → Block} (k : Block → Block)
    (hexec : exec i s = .next (s.fire (formOf i old) (onBlock g)))
    (hk : g (((s.hart s.dev.focus.hart).count 5 1).putBlock (b.markFired s.dev.focus.idx)) (b.markFired s.dev.focus.idx) l r =
      k (b.markFired s.dev.focus.idx)) :
    exec i s = .next (s.firedBlock b k) := by
  rw [hexec, fire_of_fires h]
  exact congrArg _ (State.fired_eq_firedBlock hk)

theorem exec_mshape_of_fires {t0 : BitVec 9} {pr : BitVec 2} {s : State} {b : Block} {l r : Token}
    (h : Fires s (formOf (.mshape t0 pr) true) b l r) :
    let g := grantShape (s.hart s.dev.focus.hart).cwidth.toNat l.lo.toNat
    exec (.mshape t0 pr) s = .next (s.firedBlock b fun b1 =>
      if l.null then b1.deliver t0 tokNull
      else (b1.addEff s.dev.focus.idx (.mshape g.1 g.2)).deliver t0 (tokOf (BitVec.ofNat 64 (g.2 + 2 ^ 9 * g.1)))) := by
  refine exec_onBlock_of_fires h _ rfl ?_
  dsimp only
  rw [Hart.cwidth_count_putBlock]

theorem exec_mzero_of_fires {m : BitVec 8} {pr : BitVec 2} {s : State} {b : Block} {l r : Token}
    (h : Fires s (formOf (.mzero m pr) true) b l r) :
    exec (.mzero m pr) s = .next (s.firedBlock b fun b1 => b1.addEff s.dev.focus.idx (.mzero (regMask m))) := by
  refine exec_onBlock_of_fires h _ rfl ?_
  rw [if_neg (by simp)]
  exact Block.deliver_noTarget _ _

theorem exec_mwait_of_fires {t0 : BitVec 9} {m : BitVec 8} {pr : BitVec 2} {s : State} {b : Block} {l r : Token}
    (h : Fires s (formOf (.mwait t0 m pr) true) b l r) :
    exec (.mwait t0 m pr) s = .next (s.firedBlock b fun b1 =>
      b1.addReq { idx := s.dev.focus.idx, lsid := 0, ord := 0, zone := 0, va := 0, t0 := t0, kind := .mwait (regMask m) }) :=
  exec_onBlock_of_fires h _ rfl rfl

theorem exec_mstat_of_fires {t0 : BitVec 9} {pr : BitVec 2} {s : State} {b : Block} {l r : Token}
    (h : Fires s (formOf (.mstat t0 pr) true) b l r) :
    let c := s.hart s.dev.focus.hart
    exec (.mstat t0 pr) s =
      .next (s.sends b [t0] (tokOf (mstatWord c + BitVec.ofNat 64 (2 ^ 32 * (32 * c.cwidth.toNat))))) := by
  refine congrArg Host.Outcome.next (State.fireScalar_sends h ?_)
  rw [mstatWord_count_putBlock, Hart.cwidth_count_putBlock]

theorem exec_mtscl_of_fires {k : BitVec 3} {pr : BitVec 2} {s : State} {b : Block} {l r : Token}
    (h : Fires s (formOf (.mtscl k pr) true) b l r) :
    exec (.mtscl k pr) s = .next (s.firedBlock b fun b1 =>
      if l.null then b1 else b1.addEff s.dev.focus.idx (.mtscl k.toNat (l.lo.setWidth 32) (l.hi.setWidth 32))) := by
  refine exec_onBlock_of_fires h _ rfl ?_
  simp only [true_and, Block.deliver_noTarget]

/-- Settles O29: each instruction acts on its block alone, by what its core holds as it fires. -/
theorem tensorConfiguration : Obligations.TensorConfiguration := by
  unfold Obligations.TensorConfiguration
  intro t0 m k pr s b l r
  refine ⟨fun h => ?mshape, exec_mzero_of_fires, exec_mwait_of_fires, exec_mstat_of_fires, fun h => ?mtscl⟩
  case mshape =>
    rw [exec_mshape_of_fires h, grantShape_eq]
  case mtscl =>
    rw [exec_mtscl_of_fires h, Token.lo, Token.hi, BitVec.setWidth_setWidth_of_le _ (by decide), BitVec.setWidth_setWidth_of_le _ (by decide)]

end Sys2Proof.Machine

/-! The debug window (R109, R376 to R383, R475, R479). A command is named by what `exec` does where its hart takes it; what else can happen to it is one refusal. -/
namespace Sys2Proof.Machine

/-! Commands to a frozen hart (R376, R369, R283) -/

theorem State.takesCommand_eq_true {s : State} {n : Nat} :
    s.takesCommand n = true ↔ (s.hart n).run = .frozen ∧ (s.hart n).cause ≠ 0x7F ∧ s.dev.hartSending n = false := by
  simp [State.takesCommand, and_assoc]

/-- A hart that is not frozen takes no command. -/
theorem State.takesCommand_of_running {s : State} {n : Nat} (h : (s.hart n).run = .running) : s.takesCommand n = false := by
  simp [State.takesCommand, h]

/-- Neither does one whose packet still waits for room (R283). -/
theorem State.takesCommand_of_sending {s : State} {n : Nat} (h : s.dev.hartSending n = true) : s.takesCommand n = false := by
  simp [State.takesCommand, h]

theorem State.reexecuteHart_of_hasBound {s : State} {n : Nat} (h : (s.hart n).hasBound = true) : s.reexecuteHart n = s.setLast n 1 :=
  if_pos h

/-- What `exec` answers to a command of hart `n`: `t` where the hart takes it, LAST 2 where not. -/
def Commands (i : Instr) (s : State) (n : Nat) (t : State) : Prop :=
  exec i s = .next (if s.takesCommand n then t else s.setLast n 2)

theorem Commands.taken {i : Instr} {s t : State} {n : Nat} (h : Commands i s n t) (htakes : s.takesCommand n = true) :
    exec i s = .next t := by
  rw [h, if_pos htakes]

theorem Commands.refused {i : Instr} {s t : State} {n : Nat} (h : Commands i s n t) (htakes : s.takesCommand n = false) :
    exec i s = .next (s.setLast n 2) := by
  rw [h, htakes]
  rfl

/-- A single step: the core resumes and stops again after the next commit (R376). -/
def State.stepHart (s : State) (n : Nat) : State :=
  let s1 := s.setHart n { s.hart n with stepping := true }
  ({ s1 with dev := s1.dev.resumeCore n } : State).afterResume n

/-- The load that EMUL holds is resolved (R379); with no such load LAST is 5. -/
def State.resolveHart (s : State) (n tag lsid : Nat) : State :=
  let h := s.hart n
  match h.block tag with
  | none => s.setLast n 5
  | some b =>
    match h.heldLoad b lsid with
    | none => s.setLast n 5
    | some r =>
      let b1 := (b.dropReq r.idx).resolveL r.idx (some lsid)
      s.setHart n { h.putBlock { b1 with faults := b1.faults.filter (fun f => f.word != 32 + r.idx) } with last := 0 }

theorem commands_dbgResume (s : State) (n : Nat) : Commands (.dbgResume n) s n (s.resumeHart n) := rfl
theorem commands_dbgReexecute (s : State) (n : Nat) : Commands (.dbgReexecute n) s n (s.reexecuteHart n) := rfl
theorem commands_dbgStep (s : State) (n : Nat) : Commands (.dbgStep n) s n (s.stepHart n) := rfl
theorem commands_dbgResolve (s : State) (n tag lsid : Nat) : Commands (.dbgResolve n tag lsid) s n (s.resolveHart n tag lsid) := by
  change execDbgResolve n tag lsid s = _
  unfold execDbgResolve State.resolveHart
  cases s.takesCommand n <;> rfl

theorem State.resolveHart_of_none {s : State} {n tag lsid : Nat} (h : (s.hart n).block tag = none) :
    s.resolveHart n tag lsid = s.setLast n 5 := by
  simp only [State.resolveHart, h]

theorem State.resolveHart_of_some {s : State} {n tag lsid : Nat} {b : Block} {r : Req} (hb : (s.hart n).block tag = some b)
    (hr : (s.hart n).heldLoad b lsid = some r) :
    let b1 := (b.dropReq r.idx).resolveL r.idx (some lsid)
    s.resolveHart n tag lsid =
      s.setHart n { (s.hart n).putBlock { b1 with faults := b1.faults.filter fun f => f.word != 32 + r.idx } with last := 0 } := by
  simp only [State.resolveHart, hb, hr]

/-- The commands that a hart refuses with LAST 2 where it takes none (R376, log 60). -/
theorem commands_refused {s : State} {n : Nat} (h : s.takesCommand n = false) (tag lsid : Nat) :
    ∀ i ∈ [Instr.dbgResume n, .dbgReexecute n, .dbgStep n, .dbgResolve n tag lsid], exec i s = .next (s.setLast n 2) := by
  simp only [List.forall_mem_cons]
  exact ⟨(commands_dbgResume s n).refused h, (commands_dbgReexecute s n).refused h, (commands_dbgStep s n).refused h,
    (commands_dbgResolve s n tag lsid).refused h, List.forall_mem_nil _⟩

/-! End, halt and THALT (R376, R377) -/

theorem exec_dbgEndContext (s : State) (n : Nat) : exec (.dbgEndContext n) s =
    .next (if (s.hart n).run = .frozen then s.endContext (s.hart n).ctxid.toNat else s.setLast n 2) := rfl

/-- A running core keeps its bound blocks and halts once none is left. -/
theorem exec_dbgHalt_of_running {s : State} {n : Nat} (h : (s.hart n).run = .running) :
    let t := s.setHart n { (s.hart n).discardUnbound with halting := true, last := 0 }
    exec (.dbgHalt n) s = .next (if (s.hart n).discardUnbound.blocks = [] then
      { t with dev := t.dev.takeFault n none (plainFault 0x74 0xFFFF) false } else t) := by
  change execDbgHalt n s = _
  unfold execDbgHalt
  simp only [h, List.isEmpty_iff]

theorem exec_dbgHalt_of_frozen {s : State} {n : Nat} (h : (s.hart n).run = .frozen) :
    exec (.dbgHalt n) s = .next (s.setLast n 0) := by
  change execDbgHalt n s = _
  unfold execDbgHalt
  simp only [h]

theorem exec_dbgThaltWrite_set (s : State) (n : Nat) : exec (.dbgThaltWrite n true) s =
    .next (if (s.hart n).run = .frozen then s.setHart n { s.hart n with thalt := true, last := 0 } else s.setLast n 2) := by
  change execDbgThaltWrite n true s = _
  unfold execDbgThaltWrite
  by_cases hrun : (s.hart n).run = .frozen <;> simp [hrun]

/-! Injection (R379) -/

theorem exec_dbgInject_of_flowing {s : State} {n : Nat} {ctl : Dbl} (hgo : bitOf ctl.toNat 14 = true)
    (h : (s.hart n).thalt = false) : exec (.dbgInject n ctl) s = .next (s.setLast n 6) := by
  change execDbgInject n ctl s = _
  unfold execDbgInject
  simp only [hgo, h, Bool.not_true, Bool.not_false, Bool.false_eq_true, if_false, if_true]

/-- The token that the INJECT area holds. -/
def Hart.injected (h : Hart) (x : Nat) : Token :=
  { val := if bitOf x 13 then h.inj1 ++ h.inj0 else h.inj0.setWidth 128, pair := bitOf x 13, null := bitOf x 12, mark := none }

/-- A token is injected at a target of a held block that has none yet. -/
theorem exec_dbgInject_of_target {s : State} {n : Nat} {ctl : Dbl} {b : Block} (hgo : bitOf ctl.toNat 14 = true)
    (hhalt : (s.hart n).thalt = true) (hno : BitVec.ofNat 9 ctl.toNat ≠ noTarget)
    (hb : (s.hart n).block (bitsOf ctl.toNat 11 9) = some b) (ht : b.hasTarget (BitVec.ofNat 9 ctl.toNat) = true)
    (hfree : b.tok (BitVec.ofNat 9 ctl.toNat).toNat = none) :
    exec (.dbgInject n ctl) s = .next (s.settle n none
      { (s.hart n).putBlock (b.deliver (BitVec.ofNat 9 ctl.toNat) ((s.hart n).injected ctl.toNat)) with last := 0 }) := by
  change execDbgInject n ctl s = _
  unfold execDbgInject Hart.injected
  simp only [hgo, hhalt, hb, ht, hfree, if_neg hno, Bool.not_true, Bool.false_eq_true, if_false, Option.isSome_none]

/-! Engine harts (R376) -/

theorem exec_engineResume_of_takes {s : State} {p : Nat} (h : s.takesCommand (1024 + p) = true) :
    exec (.engineResume p) s = .next (s.resumeHart (1024 + p)) := congrArg Host.Outcome.next (if_pos h)

theorem exec_engineReexecute_of_takes {s : State} {p : Nat} (h : s.takesCommand (1024 + p) = true) :
    exec (.engineReexecute p) s = .next (s.reexecuteHart (1024 + p)) := congrArg Host.Outcome.next (if_pos h)

theorem Hart.count_posted (h : Hart) (ev n : Nat) : (h.count ev n).posted = h.posted := by
  unfold Hart.count
  split <;> rfl

theorem Hart.undoTensor_posted (h : Hart) : h.undoTensor.posted = h.posted := by
  unfold Hart.undoTensor
  cases h.ckpt <;> rfl

theorem Hart.discardFrom_posted (h : Hart) (tag : Nat) : (h.discardFrom tag).posted = h.posted := by
  have hkeep : ∀ (g : Hart) (k : Nat), (g.keepBlocks k).posted = g.posted := fun g k => Hart.count_posted g 3 _
  unfold Hart.discardFrom
  dsimp only
  rw [hkeep]
  split
  · exact h.undoTensor_posted
  · rfl

/-- Discarding every block leaves what has been released (R27). -/
theorem Hart.discardAll_posted (h : Hart) : h.discardAll.posted = h.posted := by
  unfold Hart.discardAll
  split
  · rfl
  · exact h.discardFrom_posted _

theorem Hart.discardAll_blocks (h : Hart) : h.discardAll.blocks = [] := by
  unfold Hart.discardAll
  split
  next hnil => exact hnil
  next b bs hcons =>
    have holder : h.olderBlocks b.tag = [] := by simp [Hart.olderBlocks, hcons]
    unfold Hart.discardFrom
    rw [holder]
    exact List.take_zero (l := h.undoTensor.blocks)

theorem exec_engineReturnIdle_of_frozen {s : State} {p : Nat} (hrun : (s.hart (1024 + p)).run = .frozen)
    (hsent : s.dev.hartSending (1024 + p) = false) :
    exec (.engineReturnIdle p) s = .next (s.setHart (1024 + p)
      { (s.hart (1024 + p)).discardAll with run := .idle, kicked := false, leaving := false, cause := 0, packet := none,
                                             thalt := false, marked := false, stepping := false, halting := false }) :=
  congrArg Host.Outcome.next (if_pos ⟨hrun, hsent⟩)

/-! Writes of a frozen core's areas (R109, R475, R479) -/

/-- A write into a frozen core without bound blocks takes place and marks the core (R109). -/
theorem State.markedWrite_of_frozen {s : State} {n : Nat} (hrun : (s.hart n).run = .frozen) (hbound : (s.hart n).hasBound = false)
    (htorn : s.dev.torn (placeOfHart n) = false) (write : State → State) :
    s.markedWrite n write = (write s).setHart n { (write s).hart n with marked := true, last := 0 } := by
  simp [State.markedWrite, hrun, hbound, htorn]

/-- Digits of `w` bits written one above the other. -/
theorem foldl_digits_lt {w : Nat} {f : Nat → Nat} (hf : ∀ i, f i < 2 ^ w) (k : Nat) :
    (upTo k).foldl (fun x i => x + f i * 2 ^ (w * i)) 0 < 2 ^ (w * k) := by
  induction k with
  | zero => exact Nat.two_pow_pos _
  | succ k ih =>
    unfold upTo at ih ⊢
    rw [List.range_succ, List.foldl_append, List.foldl_cons, List.foldl_nil]
    calc _ < 2 ^ (w * k) + f k * 2 ^ (w * k) := Nat.add_lt_add_right ih _
      _ = (f k + 1) * 2 ^ (w * k) := by rw [Nat.add_mul, Nat.one_mul, Nat.add_comm]
      _ ≤ 2 ^ w * 2 ^ (w * k) := Nat.mul_le_mul_right _ (hf k)
      _ = 2 ^ (w * (k + 1)) := by rw [← Nat.pow_add, Nat.mul_succ, Nat.add_comm]

theorem Hart.stackWord_lt (h : Hart) (k : Nat) : h.stackWord k < 2 ^ 64 := by
  unfold Hart.stackWord
  split
  · exact BitVec.isLt _
  · split <;> exact BitVec.isLt _

/-- What stands in the register areas is a double. -/
theorem Dev.anchorWord_lt {d : Dev} {n : Nat} {h : Hart} {o x : Nat} (hx : d.anchorWord n h o = some x) : x < 2 ^ 64 := by
  unfold Dev.anchorWord at hx
  split_ifs at hx <;> cases hx
  · exact BitVec.isLt _
  · exact BitVec.isLt _
  · exact Nat.lt_trans (foldl_digits_lt (w := 8) (fun _ => BitVec.isLt _) 4) (by decide)
  · exact foldl_digits_lt (w := 4) (fun _ => BitVec.isLt _) 16
  · exact foldl_digits_lt (w := 8) (fun _ => Nat.lt_trans (BitVec.isLt _) (by decide)) 8
  · exact h.stackWord_lt _

/-- A write of all eight bytes replaces a double. -/
theorem patchDbl_whole {old : Nat} (h : old < 2 ^ 64) (v : Dbl) : patchDbl old 0 8 v.toNat = v.toNat := by
  have hold : bitsOf old 63 0 = old := by
    unfold bitsOf
    rw [Nat.pow_zero, Nat.div_one, Nat.mod_eq_of_lt h]
  have hset : patchDbl old 0 8 v.toNat = old - bitsOf old 63 0 * 2 ^ 0 + v.toNat % 2 ^ 64 * 2 ^ 0 := rfl
  rw [hset, hold, Nat.pow_zero, Nat.mul_one, Nat.mul_one, Nat.sub_self, Nat.zero_add, Nat.mod_eq_of_lt v.isLt]

section RegisterWrite
variable {s : State} {n o : Nat}

/-- The register areas lie below the control areas, which alone a window may not show (R376). -/
theorem State.not_blind (ho : o < 0x2000) (p : Nat) : s.blind p o = false := by
  have hcontrol : controlArea o = false := by
    simp only [controlArea, Bool.or_eq_false_iff, Bool.and_eq_false_iff, beq_eq_false_iff_ne, decide_eq_false_iff_not]
    omega
  unfold State.blind
  rw [hcontrol, Bool.false_and]

/-- The anchor's window shows the register areas of its core. -/
theorem State.winWord_anchor (ho : o < 0x2000) (hcore : s.dev.coreOf n = some n) :
    s.winWord n o = (s.dev.anchorWord n (s.hart n) o).getD 0 := by
  simp only [State.winWord, State.not_blind ho, hcore, ho, if_true, Bool.false_eq_true, if_false, ne_eq, not_true, false_and]

theorem State.winHeld_anchor (ho : o < 0x2000) (hcore : s.dev.coreOf n = some n) :
    s.winHeld n o = (s.dev.anchorWord n (s.hart n) o).getD 0 := by
  unfold State.winHeld
  rw [if_neg (by omega), State.winWord_anchor ho hcore]

theorem State.winHeld_lt (ho : o < 0x2000) (hcore : s.dev.coreOf n = some n) : s.winHeld n o < 2 ^ 64 := by
  rw [State.winHeld_anchor ho hcore]
  cases hword : s.dev.anchorWord n (s.hart n) o with
  | none => exact Nat.two_pow_pos 64
  | some x => exact Dev.anchorWord_lt hword

theorem State.setWinWord_anchor (ho : o < 0x2000) (hcore : s.dev.coreOf n = some n)
    (hword : (s.dev.anchorWord n (s.hart n) o).isSome = true) (x size : Nat) :
    s.setWinWord n o x size = s.markedWrite n fun s => s.setHart n (s.dev.setAnchorWord n (s.hart n) o x) := by
  have hsome : (s.dev.anchorWord n (s.hart n) o).isNone = false := by
    rw [← Option.not_isSome, hword, Bool.not_true]
  simp only [State.setWinWord, State.not_blind ho, hcore, ho, hsome, Option.getD_some, bne_self_eq_false, Bool.false_and, Bool.or_self,
    Bool.false_eq_true, if_false, if_true]

/-- A write of a whole register of the anchor's window. -/
theorem exec_dbgRegisterWrite_anchor (ho : o < 0x2000) (halign : o % 8 = 0) (hcore : s.dev.coreOf n = some n)
    (hword : (s.dev.anchorWord n (s.hart n) o).isSome = true) (v : Dbl) :
    exec (.dbgRegisterWrite n o 8 v) s =
      .next (s.markedWrite n fun s => s.setHart n (s.dev.setAnchorWord n (s.hart n) o v.toNat)) := by
  have hrange : unassigned o = false := by
    simp only [unassigned, Bool.or_eq_false_iff, Bool.and_eq_false_iff, decide_eq_false_iff_not]
    omega
  have hassigned : (!([1, 2, 4, 8].contains 8) || o % 8 != 0 || decide (0x10040 ≤ o) || unassigned o) = false := by
    rw [hrange, halign, decide_eq_false (show ¬ 0x10040 ≤ o by omega)]
    rfl
  have hbase : o / 8 * 8 = o := Nat.div_mul_cancel (Nat.dvd_of_mod_eq_zero halign)
  change execDbgRegisterWrite n o 8 v s = _
  unfold execDbgRegisterWrite
  rw [hassigned]
  dsimp only
  rw [if_neg Bool.false_ne_true, hbase, halign, patchDbl_whole (State.winHeld_lt ho hcore), State.setWinWord_anchor ho hcore hword]

end RegisterWrite

/-! Trace (R383) -/

theorem exec_traceGapRecord_of_lost {s : State} {p : Nat} (htrace : (s.hart p).trace = []) (hlost : (s.hart p).traceLost ≠ 0) :
    exec (.traceGapRecord p) s = .next ((s.setHart p { s.hart p with trace := [], traceLost := 0 }).sinkRecord
      { typ := 3, sel := 0, place := p, slot := 0, null := false, seq := 0, val := BitVec.ofNat 64 (s.hart p).traceLost }) := by
  change execTraceGapRecord p s = _
  unfold execTraceGapRecord
  simp only [htrace, hlost, and_false, if_false, List.foldl_nil]

/-- Settles O58: a command acts where its hart takes it; each write and injection has its own conditions. -/
theorem debugCommands : Obligations.DebugCommands := by
  unfold Obligations.DebugCommands
  intro n port tag lsid offset ctl value s h last takes
  have htakes : ∀ k, takes k → s.takesCommand k = true := fun _ => State.takesCommand_eq_true.mpr
  refine ⟨fun hn => ?taken, fun hrun => ?running, fun _ hsend => commands_refused (State.takesCommand_of_sending hsend) tag lsid,
    exec_dbgHalt_of_frozen, fun hrun => ?ended, fun hrun hempty => ?halted, fun hrun hbound => ?halting, fun hrun => ?thalt,
    rfl, fun hgo => ⟨exec_dbgInject_of_flowing hgo, fun b hhalt hno hb ht hfree => exec_dbgInject_of_target hgo hhalt hno hb ht hfree⟩,
    ⟨fun he => ⟨exec_engineResume_of_takes (htakes _ he), exec_engineReexecute_of_takes (htakes _ he)⟩, fun hrun hsent => ?idle⟩,
    fun hrun hbound htorn => ?write, exec_traceGapRecord_of_lost⟩
  case taken =>
    refine ⟨(commands_dbgResume s n).taken (htakes n hn), fun hfree => ?_, fun hbound => ?_,
      ⟨s.stepHart n, (commands_dbgStep s n).taken (htakes n hn), rfl⟩, fun b r hb hr => ?_, fun hnone => ?_⟩
    · exact (commands_dbgReexecute s n).taken (htakes n hn)
    · rw [(commands_dbgReexecute s n).taken (htakes n hn), State.reexecuteHart_of_hasBound hbound]
      rfl
    · rw [(commands_dbgResolve s n tag lsid).taken (htakes n hn), State.resolveHart_of_some hb hr]
    · rw [(commands_dbgResolve s n tag lsid).taken (htakes n hn), State.resolveHart_of_none hnone]
      rfl
  case running =>
    have hlive : (s.hart n).run ≠ .frozen := fun hfrozen => nomatch hrun.symm.trans hfrozen
    have hrefused := commands_refused (State.takesCommand_of_running hrun) tag lsid
    simp only [List.forall_mem_cons] at hrefused ⊢
    obtain ⟨hresume, hreexecute, hstep, hresolve, hnil⟩ := hrefused
    refine ⟨hresume, hreexecute, hstep, ?_, hresolve, ?_, List.forall_mem_nil _⟩
    · rw [exec_dbgEndContext, if_neg hlive]
      rfl
    · rw [exec_dbgThaltWrite_set, if_neg hlive]
      rfl
  case ended => rw [exec_dbgEndContext, if_pos hrun]
  case halted => rw [exec_dbgHalt_of_running hrun, if_pos hempty]
  case halting => rw [exec_dbgHalt_of_running hrun, if_neg hbound]
  case thalt => rw [exec_dbgThaltWrite_set, if_pos hrun]
  case idle =>
    exact ⟨_, exec_engineReturnIdle_of_frozen hrun hsent, rfl, Hart.discardAll_blocks _, Hart.discardAll_posted _, rfl, rfl, rfl⟩
  case write =>
    refine ⟨congrArg Host.Outcome.next (State.markedWrite_of_frozen hrun hbound htorn _), fun ho halign hcore hword => ?_⟩
    rw [exec_dbgRegisterWrite_anchor ho halign hcore hword, State.markedWrite_of_frozen hrun hbound htorn]

end Sys2Proof.Machine

/-! Shifts, rotates and immediates (R126, R129). The right operand of the word operation is a token's or the immediate. -/
namespace Sys2Proof.Machine

/-- By an amount below the width the operation `f` on numbers is the shift or rotation `F` of words, at every width. -/
def IsWordShift (f : Nat → Nat → Nat → Nat) (F : (w : Nat) → BitVec w → Nat → BitVec w) : Prop :=
  ∀ (w : Nat), 0 < w → ∀ (x : BitVec w) (n : Nat), n < w → BitVec.ofNat w (f w x.toNat n) = F w x n

theorem isWordShift_shl : IsWordShift opShl fun _ x n => x <<< n := fun _ _ x n _ => ofNat_opShl x n
theorem isWordShift_shr : IsWordShift (fun _ a n => opShr a n) fun _ x n => x >>> n := fun _ _ x n _ => ofNat_opShr x n
theorem isWordShift_shra : IsWordShift opShra fun _ x n => x.sshiftRight n := fun _ hw x n _ => ofNat_opShra x hw n
theorem isWordShift_rol : IsWordShift opRol fun _ x n => x.rotateLeft n := fun _ _ => ofNat_opRol

/-- With the amount taken modulo the width from a right operand it is a word operation. -/
theorem IsWordShift.modulo {f F} (h : IsWordShift f F) : IsWordOp (fun w a b => f w a (b % w)) fun w x y => F w x (y.toNat % w) :=
  fun w hw x y => h w hw x (y.toNat % w) (Nat.mod_lt _ hw)

/-- An instruction of the shift-immediate form sends the operand shifted by its immediate, where that is below the width (R129). -/
theorem IsWordShift.sends_immediate {f F} (h : IsWordShift f F) {i : Instr} {w : BitVec 1} {t0 imm : BitVec 9} {pr : BitVec 2}
    (himm : imm.toNat < widthOf w) (hexec : ∀ s, exec i s = intSh s w t0 imm pr f)
    (hform : formOf i false = ⟨pr, 1, false, none, none, .whole⟩) (ht : targetsOf i = [t0]) :
    Sends i false (fun _ l _ => res (F (widthOf w) (opd w l) imm.toNat)) := by
  refine intSh_sends (F := fun x => F (widthOf w) x imm.toNat) hexec hform ht (congrArg Form.operands hform) fun x => ?_
  rw [Nat.mod_eq_of_lt himm]
  exact h (widthOf w) (widthOf_pos w) x imm.toNat himm

/-! The rotations of words reduce their amount themselves. -/

theorem isWordOp_rol : IsWordOp (fun w a b => opRol w a (b % w)) fun _ x y => x.rotateLeft y.toNat :=
  fun _ hw x y => ofNat_opRol_mod x hw y.toNat
theorem isWordOp_ror : IsWordOp (fun w a b => opRol w a ((w - b % w) % w)) fun _ x y => x.rotateRight y.toNat :=
  fun _ hw x y => ofNat_opRor x hw y.toNat

/-- Settles O3: each operation is the shift or rotation of words by an amount modulo W. -/
theorem integerShiftsAndRotates : Obligations.IntegerShiftsAndRotates := by
  unfold Obligations.IntegerShiftsAndRotates
  intro w t0 t1 i pr
  refine ⟨?shl, ?shr, ?shra, ?rol, ?ror, fun himm => ⟨?shli, ?shri, ?shrai, ?roti⟩⟩
  case shl => exact isWordShift_shl.modulo.sends (fun _ => rfl) rfl rfl
  case shr => exact isWordShift_shr.modulo.sends (fun _ => rfl) rfl rfl
  case shra => exact isWordShift_shra.modulo.sends (fun _ => rfl) rfl rfl
  case rol => exact isWordOp_rol.sends (fun _ => rfl) rfl rfl
  case ror => exact isWordOp_ror.sends (fun _ => rfl) rfl rfl
  case shli => exact isWordShift_shl.sends_immediate himm (fun _ => rfl) rfl rfl
  case shri => exact isWordShift_shr.sends_immediate himm (fun _ => rfl) rfl rfl
  case shrai => exact isWordShift_shra.sends_immediate himm (fun _ => rfl) rfl rfl
  case roti => exact isWordShift_rol.sends_immediate himm (fun _ => rfl) rfl rfl

/-- An instruction of the immediate form sends the result of its word operation on the sign-extended immediate (R129). -/
theorem IsWordOp.sends_immediate {f F} (h : IsWordOp f F) {i : Instr} {w : BitVec 1} {t0 imm : BitVec 9} {pr : BitVec 2}
    (hexec : ∀ s, exec i s = intImm s w t0 imm pr f) (hform : formOf i false = ⟨pr, 1, false, none, none, .whole⟩)
    (ht : targetsOf i = [t0]) :
    Sends i false (fun _ l _ => res (F (widthOf w) (opd w l) (imm.signExtend (widthOf w)))) :=
  intImm_sends hexec hform ht (congrArg Form.operands hform) (h (widthOf w) (widthOf_pos w))

/-- Settles O6: the word operations of the two-operand forms, with the immediate as right operand. -/
theorem integerImmediates : Obligations.IntegerImmediates := by
  unfold Obligations.IntegerImmediates
  intro w t0 i pr
  refine ⟨?addi, ?muli, ?andi, ?ori, ?xori⟩
  case addi => exact isWordOp_add.sends_immediate (fun _ => rfl) rfl rfl
  case muli => exact isWordOp_mul.sends_immediate (fun _ => rfl) rfl rfl
  case andi => exact isWordOp_and.sends_immediate (fun _ => rfl) rfl rfl
  case ori => exact isWordOp_or.sends_immediate (fun _ => rfl) rfl rfl
  case xori => exact isWordOp_xor.sends_immediate (fun _ => rfl) rfl rfl

end Sys2Proof.Machine

/-! One-operand integer instructions (R127). -/
namespace Sys2Proof.Machine

/-- On a W-bit string the operation `f` on numbers is the operation `F` on words, at every width. -/
def IsWordUnaryOp (f : Nat → Nat → Nat) (F : (w : Nat) → BitVec w → BitVec w) : Prop :=
  ∀ (w : Nat), 0 < w → ∀ x : BitVec w, BitVec.ofNat w (f w x.toNat) = F w x

/-- An instruction of the one-operand form sends the result of its word operation. -/
theorem IsWordUnaryOp.sends {f F} (h : IsWordUnaryOp f F) {i : Instr} {w : BitVec 1} {t0 t1 : BitVec 9} {pr : BitVec 2}
    (hexec : ∀ s, exec i s = intUn s w t0 t1 pr f) (hform : formOf i false = ⟨pr, 1, false, none, none, .whole⟩)
    (ht : targetsOf i = [t0, t1]) :
    Sends i false (fun _ l _ => res (F (widthOf w) (opd w l))) :=
  intUn_sends hexec hform ht (congrArg Form.operands hform) (h (widthOf w) (widthOf_pos w))

/-! Counts: the leading run of zeros, from the top or from the bottom, and the ones -/

theorem bitOf_toNat {w : Nat} (x : BitVec w) (k : Nat) : bitOf x.toNat k = x.getLsbD k := by
  rw [BitVec.getLsbD, Nat.testBit_eq_decide_div_mod_eq]
  rfl

/-- A run of indices on which `p` holds, up to the first on which it does not or to the end. -/
theorem length_takeWhile_range {p : Nat → Bool} {n m : Nat} (hm : m ≤ n) (hrun : ∀ k < m, p k = true) (hstop : m < n → p m = false) :
    ((List.range n).takeWhile p).length = m := by
  obtain ⟨d, rfl⟩ := Nat.exists_eq_add_of_le hm
  have hall : ∀ k ∈ List.range m, p k = true := fun k hk => hrun k (List.mem_range.mp hk)
  rw [List.range_add, List.takeWhile_append_of_pos hall]
  cases d with
  | zero => simp
  | succ d => simp [List.range_succ_eq_map, hstop (by omega)]

/-- The bits of a number above its highest one are zero. -/
theorem length_leadingZeros {w : Nat} (x : BitVec w) :
    ((List.range w).takeWhile fun k => !x.getMsbD k).length = opClz w x.toNat := by
  unfold opClz
  by_cases hzero : x.toNat = 0
  · obtain rfl : x = 0#w := BitVec.eq_of_toNat_eq hzero
    rw [if_pos hzero]
    exact length_takeWhile_range (Nat.le_refl w) (fun k _ => by simp) fun h => absurd h (Nat.lt_irrefl w)
  · have hlog : x.toNat.log2 < w := (Nat.log2_lt hzero).mpr x.isLt
    rw [if_neg hzero]
    refine length_takeWhile_range (by omega) (fun k hk => ?_) fun _ => ?_
    · have habove : x.toNat < 2 ^ (w - 1 - k) := (Nat.log2_lt hzero).mp (by omega)
      simp [BitVec.getMsbD, BitVec.getLsbD, Nat.testBit_lt_two_pow habove]
    · have htop : w - 1 - (w - 1 - x.toNat.log2) = x.toNat.log2 := by omega
      simp [BitVec.getMsbD, BitVec.getLsbD, htop, Nat.testBit_log2 hzero]
      omega

theorem length_trailingZeros {w : Nat} (x : BitVec w) :
    ((List.range w).takeWhile fun k => !x.getLsbD k).length = opCtz w x.toNat := by
  unfold opCtz upTo
  simp only [bitOf_toNat]
  cases hfind : (List.range w).find? fun k => x.getLsbD k with
  | none => exact length_takeWhile_range (Nat.le_refl w) (List.find?_range_eq_none.mp hfind) fun h => absurd h (Nat.lt_irrefl w)
  | some m =>
    obtain ⟨hone, hmem, hzeros⟩ := List.find?_range_eq_some.mp hfind
    exact length_takeWhile_range (Nat.le_of_lt (List.mem_range.mp hmem)) hzeros fun _ => by simp [hone]

theorem isWordUnaryOp_clz : IsWordUnaryOp opClz
    fun w x => BitVec.ofNat w ((List.range w).takeWhile fun k => !x.getMsbD k).length :=
  fun w _ x => congrArg (BitVec.ofNat w) (length_leadingZeros x).symm
theorem isWordUnaryOp_ctz : IsWordUnaryOp opCtz
    fun w x => BitVec.ofNat w ((List.range w).takeWhile fun k => !x.getLsbD k).length :=
  fun w _ x => congrArg (BitVec.ofNat w) (length_trailingZeros x).symm

theorem isWordUnaryOp_popc : IsWordUnaryOp opPopc
    fun w x => BitVec.ofNat w ((List.range w).filter fun k => x.getLsbD k).length := by
  intro w _ x
  unfold opPopc upTo
  simp only [bitOf_toNat]

/-! Reversals -/

/-- Collecting the low `n` bits of a number, lowest first, puts them in reverse order. -/
theorem testBit_collectedBits (a n k : Nat) :
    ((List.range n).foldl (fun x i => 2 * x + a / 2 ^ i % 2) 0).testBit k = (decide (k < n) && a.testBit (n - 1 - k)) := by
  induction n generalizing k with
  | zero => simp
  | succ n ih =>
    rw [List.range_succ, List.foldl_append, List.foldl_cons, List.foldl_nil]
    have hbit : a / 2 ^ n % 2 < 2 ^ 1 := Nat.mod_lt _ Nat.two_pos
    rw [← Nat.pow_one 2, Nat.testBit_two_pow_mul_add _ hbit]
    cases k with
    | zero => simp [Nat.testBit_eq_decide_div_mod_eq]
    | succ k =>
      rw [if_neg (by omega), Nat.add_sub_cancel, ih, show n + 1 - 1 - (k + 1) = n - 1 - k by omega]
      simp

theorem isWordUnaryOp_brev : IsWordUnaryOp opBrev fun _ x => x.reverse := by
  intro w _ x
  refine BitVec.eq_of_getLsbD_eq fun k hk => ?_
  rw [BitVec.getLsbD_ofNat, BitVec.getLsbD_reverse, BitVec.getMsbD, BitVec.getLsbD, opBrev, upTo, testBit_collectedBits,
    decide_eq_true hk, Bool.true_and]

theorem isWordUnaryOp_bswp : IsWordUnaryOp opBswp fun w x => BitVec.ofNat w (leNat (natLe (w / 8) x.toNat).reverse) :=
  fun _ _ _ => rfl

/-! Negation, magnitude and complement -/

theorem isWordUnaryOp_neg : IsWordUnaryOp (fun w a => opSub w 0 a) fun _ x => -x := by
  intro w _ x
  change BitVec.ofNat w (opSub w (0#w).toNat x.toNat) = -x
  rw [ofNat_opSub, BitVec.zero_sub]

theorem isWordUnaryOp_abs : IsWordUnaryOp opAbs fun _ x => if x.toInt < 0 then -x else x := by
  intro w hw x
  rw [opAbs, ofNat_wrap, sval_toNat hw]
  dsimp only
  split
  next hneg => rw [Int.ofNat_natAbs_of_nonpos (Int.le_of_lt hneg), BitVec.ofInt_neg, BitVec.ofInt_toInt]
  next hpos => rw [Int.natAbs_of_nonneg (Int.not_lt.mp hpos), BitVec.ofInt_toInt]

theorem isWordUnaryOp_not : IsWordUnaryOp opNot fun _ x => ~~~x := fun _ _ => ofNat_opNot

/-! Extensions: of the operand's low bits to W bits, and then to the token's 64 -/

/-- The two's-complement value of a string of any length, empty included, is its sign extension. -/
theorem ofNat_wrap_sval {k : Nat} (w : Nat) (y : BitVec k) : BitVec.ofNat w (wrap w (sval k y.toNat)) = y.signExtend w := by
  rw [ofNat_wrap]
  rcases Nat.eq_zero_or_pos k with rfl | hk
  · rw [BitVec.eq_nil y]
    rfl
  · rw [sval_toNat hk]
    rfl

theorem isWordUnaryOp_sext (k : Nat) : IsWordUnaryOp (fun w a => opSext w k a) fun w x => (x.setWidth k).signExtend w := by
  intro w _ x
  dsimp only
  rw [← ofNat_wrap_sval, BitVec.toNat_setWidth]
  simp only [opSext, sval, Nat.mod_mod]

theorem isWordUnaryOp_zext (k : Nat) : IsWordUnaryOp (fun _ a => a % 2 ^ k) fun w x => (x.setWidth k).setWidth w := by
  intro w _ x
  dsimp only
  rw [← BitVec.toNat_setWidth, BitVec.ofNat_toNat]

/-- The low bits of an operand are the token's, at either width. -/
theorem setWidth_opd {w : BitVec 1} {k : Nat} (hk : k ≤ widthOf w) (l : Token) : (opd w l).setWidth k = l.val.setWidth k :=
  BitVec.setWidth_setWidth_of_le _ hk

theorem res_signExtend {w : BitVec 1} {k : Nat} (hk : k ≤ widthOf w) (y : BitVec k) :
    res (y.signExtend (widthOf w)) = tokOf (y.signExtend 64) := by
  refine congrArg tokOf (congrArg (BitVec.ofInt 64) ?_)
  exact BitVec.toInt_signExtend_of_le hk

theorem res_setWidth {w : BitVec 1} {k : Nat} (hk : k < widthOf w) (y : BitVec k) :
    res (y.setWidth (widthOf w)) = tokOf (y.setWidth 64) := by
  have hvalue : (y.setWidth (widthOf w)).toInt = y.toNat := by
    rw [← BitVec.setWidth'_eq (Nat.le_of_lt hk), BitVec.toInt_setWidth'_of_lt hk]
  rw [res, BitVec.signExtend, hvalue, BitVec.ofInt_natCast, BitVec.ofNat_toNat]

/-- SEXTB, SEXTH and SEXTW send the operand's low bits sign-extended to 64 bits, whatever the width of the instruction. -/
theorem sext_sends {i : Instr} {w : BitVec 1} {t0 t1 : BitVec 9} {pr : BitVec 2} {k : Nat} (hk : k ≤ widthOf w)
    (hexec : ∀ s, exec i s = intUn s w t0 t1 pr fun w a => opSext w k a)
    (hform : formOf i false = ⟨pr, 1, false, none, none, .whole⟩) (ht : targetsOf i = [t0, t1]) :
    Sends i false (fun _ l _ => tokOf ((l.val.setWidth k).signExtend 64)) := by
  have h := (isWordUnaryOp_sext k).sends hexec hform ht
  simp only [res_signExtend hk, setWidth_opd hk] at h
  exact h

/-- ZEXTB, ZEXTH and ZEXTW send the operand's low bits zero-extended to 64 bits: fewer than W, so that the result's sign bit is zero. -/
theorem zext_sends {i : Instr} {w : BitVec 1} {t0 t1 : BitVec 9} {pr : BitVec 2} {k : Nat} (hk : k < widthOf w)
    (hexec : ∀ s, exec i s = intUn s w t0 t1 pr fun _ a => a % 2 ^ k)
    (hform : formOf i false = ⟨pr, 1, false, none, none, .whole⟩) (ht : targetsOf i = [t0, t1]) :
    Sends i false (fun _ l _ => tokOf ((l.val.setWidth k).setWidth 64)) := by
  have h := (isWordUnaryOp_zext k).sends hexec hform ht
  simp only [res_setWidth hk, setWidth_opd (Nat.le_of_lt hk)] at h
  exact h

/-- Settles O4: each operation is one of words; bytes, halves and words of an operand are extended to the whole token. -/
theorem integerOneOperandResults : Obligations.IntegerOneOperandResults := by
  unfold Obligations.IntegerOneOperandResults
  intro w t0 t1 pr
  have hwidth : 32 ≤ widthOf w := by
    obtain h | h := widthOf_cases w <;> omega
  refine ⟨?clz, ?ctz, ?popc, ?brev, ?bswp, ?neg, ?abs, ?not, ?sextb, ?sexth, ?sextw, ?zextb, ?zexth, ?zextw⟩
  case clz => exact isWordUnaryOp_clz.sends (fun _ => rfl) rfl rfl
  case ctz => exact isWordUnaryOp_ctz.sends (fun _ => rfl) rfl rfl
  case popc => exact isWordUnaryOp_popc.sends (fun _ => rfl) rfl rfl
  case brev => exact isWordUnaryOp_brev.sends (fun _ => rfl) rfl rfl
  case bswp => exact isWordUnaryOp_bswp.sends (fun _ => rfl) rfl rfl
  case neg => exact isWordUnaryOp_neg.sends (fun _ => rfl) rfl rfl
  case abs => exact isWordUnaryOp_abs.sends (fun _ => rfl) rfl rfl
  case not => exact isWordUnaryOp_not.sends (fun _ => rfl) rfl rfl
  case sextb => exact sext_sends (k := 8) (by omega) (fun _ => rfl) rfl rfl
  case sexth => exact sext_sends (k := 16) (by omega) (fun _ => rfl) rfl rfl
  case sextw => exact sext_sends (w := 1) (k := 32) (by decide) (fun _ => rfl) rfl rfl
  case zextb => exact zext_sends (k := 8) (by omega) (fun _ => rfl) rfl rfl
  case zexth => exact zext_sends (k := 16) (by omega) (fun _ => rfl) rfl rfl
  case zextw => exact zext_sends (w := 1) (k := 32) (by decide) (fun _ => rfl) rfl rfl

end Sys2Proof.Machine


/-! Bit fields (R128). -/
namespace Sys2Proof.Machine

theorem fieldOf_eq_clippedField (n : Nat) (r : Token) : fieldOf n r = clippedField n r := by
  have hpos : bitsOf r.lo.toNat 7 0 = (r.val.setWidth 8).toNat := by
    simp only [bitsOf, Token.lo, BitVec.toNat_setWidth]
    omega
  have hwid : bitsOf r.lo.toNat 15 8 = ((r.val >>> 8).setWidth 8).toNat := by
    simp only [bitsOf, Token.lo, BitVec.toNat_setWidth, BitVec.toNat_ushiftRight, Nat.shiftRight_eq_div_pow]
    omega
  unfold fieldOf clippedField
  simp only [hpos, hwid]
  generalize (r.val.setWidth 8).toNat = pos
  generalize ((r.val >>> 8).setWidth 8).toNat = wid
  split
  · rfl
  · refine congrArg (Prod.mk pos) ?_
    rw [show Nat.min wid (n - pos) = min wid (n - pos) from rfl]
    split <;> omega

theorem toNat_field {n : Nat} (x : BitVec n) (p k : Nat) : ((x >>> p).setWidth k).toNat = x.toNat / 2 ^ p % 2 ^ k := by
  rw [BitVec.toNat_setWidth, BitVec.toNat_ushiftRight, Nat.shiftRight_eq_div_pow]

theorem ofNat_opBfx {n : Nat} (x : BitVec n) (r : Token) :
    BitVec.ofNat n (opBfx n x.toNat r) = ((x >>> (clippedField n r).1).setWidth (clippedField n r).2).setWidth n := by
  unfold opBfx
  rw [fieldOf_eq_clippedField]
  dsimp only
  rw [← toNat_field, BitVec.ofNat_toNat]

theorem ofNat_opBfxs {n : Nat} (x : BitVec n) (r : Token) :
    BitVec.ofNat n (opBfxs n x.toNat r) = ((x >>> (clippedField n r).1).setWidth (clippedField n r).2).signExtend n := by
  unfold opBfxs
  rw [fieldOf_eq_clippedField]
  dsimp only
  generalize (clippedField n r).1 = p
  generalize (clippedField n r).2 = k
  split
  next hempty =>
    subst hempty
    rw [BitVec.eq_nil (BitVec.setWidth 0 _)]
    rfl
  next => rw [← toNat_field, ofNat_wrap_sval]

/-- A number with the field of `k` bits at `p` taken out and the low bits of another put there, bit by bit. -/
theorem testBit_insertField (base ins p k j : Nat) :
    (base - base / 2 ^ p % 2 ^ k * 2 ^ p + ins % 2 ^ k * 2 ^ p).testBit j =
      if p ≤ j ∧ j < p + k then ins.testBit (j - p) else base.testBit j := by
  have hbase : base = 2 ^ p * (2 ^ k * (base / 2 ^ p / 2 ^ k) + base / 2 ^ p % 2 ^ k) + base % 2 ^ p := by
    rw [Nat.div_add_mod, Nat.div_add_mod]
  have hlow : base % 2 ^ p < 2 ^ p := Nat.mod_lt _ (Nat.two_pow_pos p)
  have hins : ins % 2 ^ k < 2 ^ k := Nat.mod_lt _ (Nat.two_pow_pos k)
  have hsplit : base - base / 2 ^ p % 2 ^ k * 2 ^ p + ins % 2 ^ k * 2 ^ p =
      2 ^ p * (2 ^ k * (base / 2 ^ p / 2 ^ k) + ins % 2 ^ k) + base % 2 ^ p := by
    have hcut : base - base / 2 ^ p % 2 ^ k * 2 ^ p = 2 ^ p * (2 ^ k * (base / 2 ^ p / 2 ^ k)) + base % 2 ^ p := by
      conv_lhs => lhs; rw [hbase]
      rw [Nat.mul_add, Nat.mul_comm (base / 2 ^ p % 2 ^ k)]
      omega
    rw [hcut, Nat.mul_add]
    ring
  rw [hsplit, Nat.testBit_two_pow_mul_add _ hlow, Nat.testBit_two_pow_mul_add _ hins, Nat.testBit_mod_two_pow, Nat.testBit_mod_two_pow,
    Nat.testBit_div_two_pow, Nat.testBit_div_two_pow]
  by_cases hbelow : j < p
  · simp [hbelow, Nat.not_le.mpr hbelow]
  · by_cases hin : j - p < k
    · simp [hbelow, hin, show p ≤ j ∧ j < p + k by omega]
    · have hout : ¬(p ≤ j ∧ j < p + k) := by omega
      simp only [hbelow, hin, hout, if_false]
      congr 1
      omega

/-- The ones of a field of `k` bits at `p`. -/
theorem getLsbD_fieldMask {n p k j : Nat} (hj : j < n) :
    (((BitVec.allOnes k).setWidth n) <<< p).getLsbD j = decide (p ≤ j ∧ j < p + k) := by
  have hfield : (p ≤ j ∧ j < p + k) ↔ (¬ j < p ∧ j - p < k) := by omega
  rw [decide_eq_decide.mpr hfield, Bool.decide_and, decide_not]
  simp [BitVec.getLsbD_allOnes, hj]

/-- Words with a field replaced, by masks as R128 has it and by numbers as the model computes it. -/
theorem ofNat_insertField {n : Nat} (x y : BitVec n) (p k : Nat) :
    BitVec.ofNat n (x.toNat - x.toNat / 2 ^ p % 2 ^ k * 2 ^ p + y.toNat % 2 ^ k * 2 ^ p) =
      (x &&& ~~~(((BitVec.allOnes k).setWidth n) <<< p)) ||| ((y <<< p) &&& (((BitVec.allOnes k).setWidth n) <<< p)) := by
  refine BitVec.eq_of_getLsbD_eq fun j hj => ?_
  rw [BitVec.getLsbD_ofNat, testBit_insertField, BitVec.getLsbD_or, BitVec.getLsbD_and, BitVec.getLsbD_and, BitVec.getLsbD_not,
    getLsbD_fieldMask hj, decide_eq_true hj]
  split
  next hin => simp [hin, hj, BitVec.getLsbD]
  next hout => simp [hout, hj, BitVec.getLsbD]

/-- BFI's result: its base and the value to insert are the low W bits of the halves of its PAIR. -/
theorem ofNat_opBfi {n : Nat} (hn : n ≤ 64) (l r : Token) :
    let f := clippedField n r
    let field : BitVec n := ((BitVec.allOnes f.2).setWidth n) <<< f.1
    BitVec.ofNat n (opBfi n l r) = (l.val.setWidth n &&& ~~~field) ||| (((l.val >>> 64).setWidth n) <<< f.1 &&& field) := by
  have hlow : l.lo.toNat % 2 ^ n = (l.val.setWidth n).toNat := by
    rw [← BitVec.toNat_setWidth, Token.lo, BitVec.setWidth_setWidth_of_le _ hn]
  have hhigh : l.hi.toNat % 2 ^ n = ((l.val >>> 64).setWidth n).toNat := by
    rw [← BitVec.toNat_setWidth, Token.hi, BitVec.setWidth_setWidth_of_le _ hn]
  dsimp only
  rw [← ofNat_insertField, opBfi, fieldOf_eq_clippedField, hlow, hhigh]
  dsimp only
  generalize (clippedField n r).1 = p
  generalize (clippedField n r).2 = k
  congr 3
  by_cases hempty : k = 0
  · subst hempty
    simp [Nat.mod_one]
  · rw [if_neg hempty, bitsOf, show p + k - 1 + 1 - p = k by omega]

/-- Settles O5: the model's field is the clipped one, and its arithmetic on numbers the masking of words. -/
theorem bitFields : Obligations.BitFields := by
  unfold Obligations.BitFields
  intro w t0 t1 pr
  refine ⟨?bfx, ?bfxs, ?bfi⟩
  case bfx =>
    refine sends_of (fun _ => rfl) rfl (.inl rfl) rfl fun _ _ _ l r _ => ?_
    rw [intTok_eq, intA_eq, ofNat_opBfx]
  case bfxs =>
    refine sends_of (fun _ => rfl) rfl (.inl rfl) rfl fun _ _ _ l r _ => ?_
    rw [intTok_eq, intA_eq, ofNat_opBfxs]
  case bfi =>
    refine sends_of (fun _ => rfl) rfl (.inl rfl) rfl fun _ _ _ l r _ => ?_
    rw [intTok_eq, ofNat_opBfi (widthOf_le w)]
    rfl

end Sys2Proof.Machine

/-! Integer compares (R130). -/
namespace Sys2Proof.Machine

/-- The word of a block's instruction is its fields, packed. -/
theorem toNat_encode_of_isWelit {i : Instr} (h : isWelit i = true) : (encode i).toNat = packFields i.fields := by
  obtain ⟨op, fs, hrow⟩ := isRow_of_isWelit h
  have hlist : i.fields = ((7, op) :: fs).reverse := List.reverse_eq_iff.mp hrow.fields
  exact toNat_encode (hlist ▸ fits_reverse.mpr hrow.fits) (hlist ▸ fieldBits_reverse.trans (congrArg (7 + ·) hrow.bits))

/-- The word of an ill-formed instruction is no instruction (R75, R81). -/
theorem decodeWord_encode_of_not_wf {i : Instr} (h : isWelit i = true) (hwf : ¬ i.wf = true) : decodeWord (encode i) = none := by
  obtain ⟨_, _, hrow⟩ := isRow_of_isWelit h
  rw [decodeWord, hrow.decode_encode, checked_of_not_wf hwf]

theorem toNat_encode_tcmp (w : BitVec 1) (c : BitVec 4) (t0 t1 : BitVec 9) (pr : BitVec 2) :
    (encode (.tcmp w c t0 t1 pr)).toNat =
      0x30 * 2 ^ 25 + w.toNat * 2 ^ 24 + c.toNat * 2 ^ 20 + t0.toNat * 2 ^ 11 + t1.toNat * 2 ^ 2 + pr.toNat := by
  rw [toNat_encode_of_isWelit rfl]
  simp only [Instr.fields, packFields]
  omega

theorem toNat_encode_tcmpi (w : BitVec 1) (c : BitVec 4) (t0 i : BitVec 9) (pr : BitVec 2) :
    (encode (.tcmpi w c t0 i pr)).toNat =
      0x31 * 2 ^ 25 + w.toNat * 2 ^ 24 + c.toNat * 2 ^ 20 + t0.toNat * 2 ^ 11 + i.toNat * 2 ^ 2 + pr.toNat := by
  rw [toNat_encode_of_isWelit rfl]
  simp only [Instr.fields, packFields]
  omega

theorem wf_tcmp_iff {w : BitVec 1} {c : BitVec 4} {t0 t1 : BitVec 9} {pr : BitVec 2} :
    (Instr.tcmp w c t0 t1 pr).wf = true ↔ ¬ pr = 3 ∧ c.toNat ≤ 9 := by
  simp [Instr.wf, BitVec.le_def]

theorem wf_tcmpi_iff {w : BitVec 1} {c : BitVec 4} {t0 i : BitVec 9} {pr : BitVec 2} :
    (Instr.tcmpi w c t0 i pr).wf = true ↔ ¬ pr = 3 ∧ c.toNat ≤ 9 := by
  simp [Instr.wf, BitVec.le_def]

/-- The ten conditions on numbers are those on W-bit strings (R130). -/
theorem tcmpHolds_eq_condition {w : Nat} (hw : 0 < w) (c : Nat) (x y : BitVec w) : tcmpHolds w c x.toNat y.toNat = condition c x y := by
  unfold tcmpHolds condition
  simp only [Nat.mod_eq_of_lt x.isLt, Nat.mod_eq_of_lt y.isLt, sval_toNat hw]
  match c with
  | 0 => simp [BitVec.toNat_eq]
  | 1 => simp [BitVec.toNat_eq, bne]
  | 2 | 3 | 4 | 5 => rfl
  | 6 | 7 | 8 => rfl
  | n + 9 => rfl

/-- Settles O7: words, conditions on W-bit strings, and the check of the condition field. -/
theorem integerCompares : Obligations.IntegerCompares := by
  unfold Obligations.IntegerCompares
  intro w c t0 t1 i pr
  refine ⟨toNat_encode_tcmp w c t0 t1 pr, toNat_encode_tcmpi w c t0 i pr, fun _ => ⟨?tcmp, ?tcmpi⟩, fun hc => ⟨?noTcmp, ?noTcmpi⟩⟩
  case tcmp =>
    refine sends_of (fun _ => rfl) rfl (.inl rfl) rfl fun _ _ _ l r _ => ?_
    rw [intA_eq, intA_eq, tcmpHolds_eq_condition (widthOf_pos w)]
    rfl
  case tcmpi =>
    refine sends_of (fun _ => rfl) rfl (.inr ⟨rfl, rfl⟩) rfl fun _ _ _ l _ _ => ?_
    rw [intA_eq, simm_mod, tcmpHolds_eq_condition (widthOf_pos w)]
    rfl
  case noTcmp => exact decodeWord_encode_of_not_wf rfl fun hwf => absurd (wf_tcmp_iff.mp hwf).2 (by omega)
  case noTcmpi => exact decodeWord_encode_of_not_wf rfl fun hwf => absurd (wf_tcmpi_iff.mp hwf).2 (by omega)

end Sys2Proof.Machine

/-! CONST and APP (R124). -/
namespace Sys2Proof.Machine

theorem toNat_encode_const (i : BitVec 14) (t0 : BitVec 9) (pr : BitVec 2) :
    (encode (.const i t0 pr)).toNat = 5 * 2 ^ 25 + i.toNat * 2 ^ 11 + t0.toNat * 2 ^ 2 + pr.toNat := by
  rw [toNat_encode_of_isWelit rfl]
  simp only [Instr.fields, packFields]
  omega

theorem toNat_encode_app (i : BitVec 14) (t0 : BitVec 9) (pr : BitVec 2) :
    (encode (.app i t0 pr)).toNat = 6 * 2 ^ 25 + i.toNat * 2 ^ 11 + t0.toNat * 2 ^ 2 + pr.toNat := by
  rw [toNat_encode_of_isWelit rfl]
  simp only [Instr.fields, packFields]
  omega

/-- Appending to the bits of `v` above position `n + 14` the 14 bits below them gives its bits above position `n`. -/
theorem append_next_bits (v : Dbl) (n : Nat) :
    BitVec.ofNat 64 ((v >>> (n + 14)).toNat * 2 ^ 14 + ((v >>> n).setWidth 14).toNat) = v >>> n := by
  rw [BitVec.shiftRight_add, BitVec.toNat_ushiftRight (v >>> n), BitVec.toNat_setWidth, Nat.shiftRight_eq_div_pow, Nat.mul_comm,
    Nat.div_add_mod, BitVec.ofNat_toNat, BitVec.setWidth_eq]

/-- The top eight bits of a value fit a CONST, whose sign bit they leave clear. -/
theorem signExtend_top_bits (v : Dbl) : ((v >>> 56).setWidth 14).signExtend 64 = v >>> 56 := by
  have htop : (v >>> 56).toNat < 2 ^ 8 := by
    rw [BitVec.toNat_ushiftRight, Nat.shiftRight_eq_div_pow]
    omega
  have hfits : ((v >>> 56).setWidth 14).toNat = (v >>> 56).toNat := by
    rw [BitVec.toNat_setWidth]
    omega
  have hmsb : ((v >>> 56).setWidth 14).msb = false := by
    rw [BitVec.msb_eq_false_iff_two_mul_lt, hfits]
    omega
  rw [BitVec.signExtend_eq_setWidth_of_msb_false hmsb, ← BitVec.ofNat_toNat, hfits, BitVec.ofNat_toNat, BitVec.setWidth_eq]

/-- Settles O45: the moves send what R124 says, and a value is built from its top eight bits by appending the others, 14 at a time. -/
theorem constAndAppBuildAnyValue : Obligations.ConstAndAppBuildAnyValue := by
  unfold Obligations.ConstAndAppBuildAnyValue
  refine ⟨fun i t0 pr => ?_, fun v => ?_⟩
  · obtain ⟨-, -, -, -, hconst, happ, -⟩ := tokenMoves t0 noTarget i pr
    exact ⟨toNat_encode_const i t0 pr, rfl, toNat_encode_app i t0 pr, rfl, hconst, happ⟩
  · refine ⟨(v >>> 56).setWidth 14, (v >>> 42).setWidth 14, (v >>> 28).setWidth 14, (v >>> 14).setWidth 14, (v >>> 0).setWidth 14, ?_⟩
    dsimp only
    rw [signExtend_top_bits, append_next_bits v 42, append_next_bits v 28, append_next_bits v 14, append_next_bits v 0]
    exact BitVec.ushiftRight_zero v

end Sys2Proof.Machine

/-! Branch-class instructions, BREAK and TRAP (R114 to R122). Each acts on its block alone; what it reads of the core stands as it did before the firing was counted. -/
namespace Sys2Proof.Machine

/-! The one exit of a block (R25) -/

/-- A branch-class instruction other than `idx` that has fired makes the block one that has its exit. -/
theorem Block.exited_of_fired {b : Block} {idx j : Nat} {i : Instr} (hmem : j ∈ b.fired) (hne : j ≠ idx)
    (hdecode : decodeWord (b.code.getD j 0) = some i) (hbranch : isBranch i = true) (hgo : predVerdict (predField i) b j = .go) :
    b.exited idx = true := by
  unfold Block.exited
  refine Bool.or_eq_true_iff.mpr (.inr (List.any_eq_true.mpr ⟨j, hmem, ?_⟩))
  rw [hdecode]
  simp [hne, hbranch, hgo]

/-- A second branch-class instruction leaves the token conflict and no exit. -/
theorem Block.setBranch_takeExit_of_exited {b : Block} {idx : Nat} (h : b.exited idx = true) (br : Branch) :
    (b.takeExit idx).setBranch idx br = b.fault 0x03 idx 0 0 := by
  have hfaulted : (b.fault 0x03 idx 0 0).exited idx = true := h
  rw [Block.takeExit, if_pos h, Block.setBranch, if_pos hfaulted]

/-! Targets and the room on the return stack -/

/-- The alignment to 128 bytes, as a mask and as a remainder (R114). -/
theorem and_0x7F_eq_zero_iff (a : Dbl) : a &&& 0x7F = 0 ↔ a.toNat % 128 = 0 := by
  rw [← BitVec.toNat_inj, BitVec.toNat_and]
  exact iff_of_eq (congrArg (· = 0) (Nat.and_two_pow_sub_one_eq_mod a.toNat 7))

theorem goodTarget_eq (k : Token) : goodTarget k = (!k.null && k.lo.toNat % 128 == 0) := by
  rw [goodTarget, Bool.eq_iff_iff]
  simp only [Bool.and_eq_true, beq_iff_eq, and_0x7F_eq_zero_iff]

theorem and_not_eq_zero_iff {n : Nat} (x m : BitVec n) : x &&& ~~~m = 0#n ↔ x &&& m = x := by
  have hsplit : x &&& ~~~m ||| x &&& m = x := by
    rw [← BitVec.and_or_distrib_left, BitVec.or_comm, BitVec.or_not_self, BitVec.and_allOnes]
  constructor
  · intro hzero
    rwa [hzero, BitVec.zero_or] at hsplit
  · intro hself
    rw [← hself, BitVec.and_assoc, BitVec.and_not_self]
    exact BitVec.and_zero

/-- LIM is 0 where STKLIM above its low four bits is (R105, R119). -/
theorem limit_eq_zero_iff (x : Dbl) : x &&& ~~~(0xF : Dbl) = 0 ↔ x.toNat / 16 = 0 := by
  have hlow : (x &&& 0xF).toNat = x.toNat % 16 := Nat.and_two_pow_sub_one_eq_mod x.toNat 4
  refine (and_not_eq_zero_iff x 0xF).trans ?_
  rw [← BitVec.toNat_inj, hlow]
  omega

theorem pushFault_eq (h : Hart) :
    pushFault h = (h.spilled == 0xFFFFFFFF || (decide (8 ≤ h.rstk.length) && h.stklim.toNat / 16 == 0)) := by
  rw [pushFault, Bool.eq_iff_iff]
  simp only [Bool.or_eq_true, Bool.and_eq_true, beq_iff_eq, limit_eq_zero_iff]

theorem relTarget_takeExit (b : Block) (idx : Nat) (off : BitVec 21) : relTarget (b.takeExit idx) off = relTarget b off := by
  unfold Block.takeExit
  split <;> rfl

theorem nextSeq_takeExit (b : Block) (idx : Nat) : nextSeq (b.takeExit idx) = nextSeq b := by
  unfold Block.takeExit
  split <;> rfl

/-! What the firing changes of the core, a call and a RET do not read. -/

theorem callBlock_count_putBlock (h : Hart) (ev n : Nat) (b b1 : Block) (idx : Nat) (target ra : Token) :
    callBlock ((h.count ev n).putBlock b) b1 idx target ra = callBlock h b1 idx target ra := by
  unfold Hart.count
  split <;> rfl

theorem retBlock_count_putBlock (h : Hart) (ev n : Nat) (b b1 : Block) (idx : Nat) :
    retBlock ((h.count ev n).putBlock b) b1 idx = retBlock h b1 idx := by
  unfold Hart.count
  split <;> rfl

/-! Each instruction, wherever it can fire -/

section Fire
variable {s : State} {b : Block} {l r : Token} {off : BitVec 21} {ht pr : BitVec 2}

theorem exec_br_of_fires (h : Fires s (formOf (.br off ht pr) false) b l r) :
    exec (.br off ht pr) s = .next (s.firedBlock b fun b1 =>
      (b1.takeExit s.dev.focus.idx).setBranch s.dev.focus.idx (.goto (b.addr + off.signExtend 64 * 128))) := by
  refine exec_onBlock_of_fires h _ rfl ?_
  dsimp only
  rw [relTarget_takeExit]
  rfl

theorem exec_call_of_fires (h : Fires s (formOf (.call off ht pr) true) b l r) :
    exec (.call off ht pr) s = .next (s.firedBlock b fun b1 =>
      callBlock (s.hart s.dev.focus.hart) (b1.takeExit s.dev.focus.idx) s.dev.focus.idx (tokOf (b.addr + off.signExtend 64 * 128)) l) := by
  refine exec_onBlock_of_fires h _ rfl ?_
  dsimp only
  rw [callBlock_count_putBlock, relTarget_takeExit]
  rfl

theorem exec_bri_of_fires (h : Fires s (formOf (.bri pr) false) b l r) :
    exec (.bri pr) s = .next (s.firedBlock b fun b1 =>
      if goodTarget l then (b1.takeExit s.dev.focus.idx).setBranch s.dev.focus.idx (.goto l.lo)
      else (b1.takeExit s.dev.focus.idx).fault 0x05 s.dev.focus.idx (badTargetDetail l) 0) :=
  exec_onBlock_of_fires h _ rfl rfl

theorem exec_calli_of_fires (h : Fires s (formOf (.calli pr) true) b l r) :
    exec (.calli pr) s = .next (s.firedBlock b fun b1 =>
      callBlock (s.hart s.dev.focus.hart) (b1.takeExit s.dev.focus.idx) s.dev.focus.idx l r) :=
  exec_onBlock_of_fires h _ rfl (callBlock_count_putBlock ..)

theorem exec_ret_of_fires (h : Fires s (formOf (.ret pr) true) b l r) :
    exec (.ret pr) s = .next (s.firedBlock b fun b1 =>
      retBlock (s.hart s.dev.focus.hart) (b1.takeExit s.dev.focus.idx) s.dev.focus.idx) :=
  exec_onBlock_of_fires h _ rfl (retBlock_count_putBlock ..)

theorem exec_scall_of_fires (h : Fires s (formOf (.scall pr) false) b l r) :
    exec (.scall pr) s = .next (s.firedBlock b fun b1 =>
      if l.null then (b1.takeExit s.dev.focus.idx).fault 0x05 s.dev.focus.idx 0 0
      else (b1.takeExit s.dev.focus.idx).setBranch s.dev.focus.idx (.scall (nextSeq b) l.lo)) := by
  refine exec_onBlock_of_fires h _ rfl ?_
  dsimp only
  rw [nextSeq_takeExit]
  rfl

theorem exec_brk_of_fires (h : Fires s (formOf (.brk pr) false) b l r) :
    exec (.brk pr) s = .next (s.firedBlock b fun b1 => { b1 with breaks := b1.breaks ++ [s.dev.focus.idx] }) :=
  exec_onBlock_of_fires h _ rfl rfl

theorem exec_trap_of_fires (h : Fires s (formOf (.trap pr) false) b l r) :
    exec (.trap pr) s = .next (s.firedBlock b fun b1 => if l.null then b1 else b1.fault 0x72 s.dev.focus.idx l.lo 0) :=
  exec_onBlock_of_fires h _ rfl rfl

end Fire

/-! Choices that do not look at the block -/

theorem State.firedBlock_ite (s : State) (b : Block) (c : Prop) [Decidable c] (g k : Block → Block) :
    s.firedBlock b (fun b1 => if c then g b1 else k b1) = if c then s.firedBlock b g else s.firedBlock b k := by
  split <;> rfl

/-- What a call leaves: the target is looked at before the return address, and then the room on the return stack. -/
theorem State.firedBlock_callBlock (s : State) (b : Block) (h : Hart) (idx : Nat) (t ra : Token) :
    s.firedBlock b (fun b1 => callBlock h (b1.takeExit idx) idx t ra) =
      if !goodTarget t then s.firedBlock b fun b1 => (b1.takeExit idx).fault 0x05 idx (badTargetDetail t) 0
      else if !goodTarget ra then s.firedBlock b fun b1 => (b1.takeExit idx).fault 0x05 idx (badTargetDetail ra) 0
      else if pushFault h then s.firedBlock b fun b1 => (b1.takeExit idx).fault 0x06 idx (depthWord h.rstk.length h.spilled) 0
      else s.firedBlock b fun b1 => (b1.takeExit idx).setBranch idx (.call t.lo ra.lo) := by
  simp only [callBlock, State.firedBlock_ite]

/-- What a RET leaves: the exit to the top resident entry, or the refill of the newest spilled one. -/
theorem State.firedBlock_retBlock (s : State) (b : Block) (h : Hart) (idx : Nat) :
    s.firedBlock b (fun b1 => retBlock h (b1.takeExit idx) idx) =
      match h.rstk.getLast? with
      | some a =>
        if a.toNat % 128 = 0 then s.firedBlock b fun b1 => (b1.takeExit idx).setBranch idx (.ret a false)
        else s.firedBlock b fun b1 => (b1.takeExit idx).fault 0x05 idx a 0
      | none =>
        if h.spilled = 0 then s.firedBlock b fun b1 => (b1.takeExit idx).fault 0x06 idx 0 0
        else s.firedBlock b fun b1 => (b1.takeExit idx).addReq
          { idx := idx, lsid := 0, ord := 0, zone := 0, va := spillSlot h (h.spilled.toNat - 1), t0 := noTarget, kind := .refill } := by
  unfold retBlock
  cases h.rstk.getLast? with
  | some a => simp only [beq_iff_eq, and_0x7F_eq_zero_iff, State.firedBlock_ite]
  | none =>
    simp only [State.firedBlock_ite]
    rfl

/-- Settles O11: what each instruction does to its block, with the choices that it makes by its operands and its core. -/
theorem branchesHoldTheirExit : Obligations.BranchesHoldTheirExit := by
  unfold Obligations.BranchesHoldTheirExit
  intro off ht pr s b l r
  dsimp only
  simp only [← goodTarget_eq, ← pushFault_eq]
  refine ⟨exec_br_of_fires, fun h => ?bri, fun h => ?call, fun h => ?calli, fun h => ?scall, exec_brk_of_fires, exec_trap_of_fires,
    fun h => ?ret, fun b1 br j i hmem hne hdecode hbranch hgo => ?second⟩
  case bri =>
    rw [exec_bri_of_fires h, State.firedBlock_ite]
    rfl
  case call =>
    rw [exec_call_of_fires h, State.firedBlock_callBlock]
    rfl
  case calli =>
    rw [exec_calli_of_fires h, State.firedBlock_callBlock]
    rfl
  case scall =>
    rw [exec_scall_of_fires h, State.firedBlock_ite]
    rfl
  case ret => exact (exec_ret_of_fires h).trans (congrArg Host.Outcome.next (State.firedBlock_retBlock ..))
  case second => exact Block.setBranch_takeExit_of_exited (Block.exited_of_fired hmem hne hdecode hbranch hgo) br

end Sys2Proof.Machine

/-! Vector arithmetic, fused forms, dot products, logic, shifts and compares (R141, R145 to R149). Each form of the model has one lemma, which says what an
instruction of that form does wherever its tag checks hold; an instruction's own operation is then read off the model by `rfl`. -/
namespace Sys2Proof.Machine

/-! Tag checks (R42, R141) -/

theorem needTag_of_eq {x : Vec} {r t : Nat} (h : x.tagOf r = t) (e : VEnv) : needTag e x r t = none := if_pos h

theorem needIn_of_mem {x : Vec} {r : Nat} {ts : List Nat} (h : x.tagOf r ∈ ts) (e : VEnv) : needIn e x r ts = none :=
  if_pos (List.contains_iff_mem.mpr h)

theorem whenTags_of_pass {cs : List (Option Dbl)} (h : ∀ k ∈ cs, k = none) (body : VRes) : whenTags cs body = body := by
  have hclash : firstClash cs = none := by
    induction cs with
    | nil => rfl
    | cons k cs ih =>
      obtain ⟨rfl, hcs⟩ := List.forall_mem_cons.mp h
      exact ih hcs
  unfold whenTags
  rw [hclash]

/-- A vector instruction whose tag checks pass wherever `ok` holds acts as its body says. -/
theorem tagged_acts {i : Instr} {v : BitVec 5} {pr : BitVec 2} {n : Nat} {t0 : BitVec 9} {checks : VEnv → Vec → List (Option Dbl)}
    {ok : VEnv → Vec → Prop} {G : VEnv → Vec → Token → Vec × Option Token × Bool}
    (hexec : ∀ s, exec i s = .next (s.fireVec v pr n t0 fun e x l =>
      whenTags (checks e x) (.ok (G e x l).1 (G e x l).2.1 (G e x l).2.2)))
    (hform : formOf i true = ⟨pr, n, true, none, some v.toNat, .whole⟩)
    (ht : targetsOf i = [t0] ∨ (targetsOf i = [] ∧ t0 = noTarget))
    (hpass : ∀ e x, ok e x → ∀ k ∈ checks e x, k = none) : VecActs i ok G :=
  fireVec_acts hexec hform ht fun e x _ hok => whenTags_of_pass (hpass e x hok) _

/-- What an instruction does may be said in other words wherever its checks hold. -/
theorem VecActs.congr {i : Instr} {ok : VEnv → Vec → Prop} {G K : VEnv → Vec → Token → Vec × Option Token × Bool}
    (h : VecActs i ok G) (heq : ∀ e x l, ok e x → G e x l = K e x l) : VecActs i ok K := by
  intro s b l r hfires
  obtain ⟨hnull, hlive⟩ := h s b l r hfires
  exact ⟨hnull, fun hl hok => heq _ _ l hok ▸ hlive hl hok⟩

/-! Two operands under VTYPE (R145) -/

theorem pass_of_carries₂ {ts : List Nat} {a b : BitVec 5} {x : Vec} (h : carries ts [a, b] x) (e : VEnv) :
    ∀ k ∈ [needWork e x a.toNat ts, needTag e x b.toNat x.vtype.toNat], k = none := by
  have ha : needWork e x a.toNat ts = none := needWork_of_carries h (by simp) e
  have hb : needTag e x b.toNat x.vtype.toNat = none := needTag_of_eq (h.2 b (by simp)) e
  simp [ha, hb]

theorem varith_acts {i : Instr} {v d a b : BitVec 5} {pr : BitVec 2} {ff : VEnv → Nat → Nat → Nat → Nat → Nat} {fi : Int → Int → Int}
    {rounds : Bool} (hexec : ∀ s, exec i s = varith s v d a b pr ff fi rounds)
    (hform : formOf i true = ⟨pr, 0, true, none, some v.toNat, .whole⟩) (ht : targetsOf i = []) :
    VecActs i (fun _ x => carries arithTags [a, b] x) fun e x _ =>
      let t := x.vtype.toNat
      let n := lenN x e.cw t
      (x.write d.toNat t ((upTo n).map fun k =>
        let p := x.elem a.toNat t k
        let q := x.elem b.toNat t k
        if isIntTag t then wrap (tagBits t) (fi (sval (tagBits t) p) (sval (tagBits t) q)) else ff e t k p q), none, rounds && srUsed e t n) :=
  tagged_acts hexec hform (.inr ⟨ht, rfl⟩) fun e _ h => pass_of_carries₂ h e

theorem minInt_eq : (fun p q : Int => if p ≤ q then p else q) = fun p q => if p ≤ q ↔ false = false then p else q := by
  simp only [iff_true]

theorem maxInt_eq : (fun p q : Int => if p ≤ q then q else p) = fun p q => if p ≤ q ↔ true = false then p else q := by
  simp only [Bool.true_eq_false, iff_false, ite_not]

/-- Settles O20: eight instructions of one form; VMIN and VMAX choose among encodings and round nothing. -/
theorem vectorArithmetic : Obligations.VectorArithmetic := by
  unfold Obligations.VectorArithmetic
  intro v d a b pr
  refine ⟨?vadd, ?vsub, ?vrsub, ?vmul, ?vdiv, ?vabsd, ?vmin, ?vmax⟩
  case vadd => exact varith_acts (ff := vf2 exAdd) (fi := (fun p q => p + q)) (rounds := true) (fun _ => rfl) rfl rfl
  case vsub => exact varith_acts (ff := vf2 (fun n m p q => exAdd n m p q.negate)) (fi := (fun p q => p - q)) (rounds := true) (fun _ => rfl) rfl rfl
  case vrsub => exact varith_acts (ff := vf2 (fun n m p q => exAdd n m q p.negate)) (fi := (fun p q => q - p)) (rounds := true) (fun _ => rfl) rfl rfl
  case vmul => exact varith_acts (ff := vf2 (fun _ _ p q => exMul p q)) (fi := (fun p q => p * q)) (rounds := true) (fun _ => rfl) rfl rfl
  case vdiv => exact varith_acts (ff := vf2 (fun _ _ p q => exDiv p q)) (fi := idiv) (rounds := true) (fun _ => rfl) rfl rfl
  case vabsd => exact varith_acts (ff := vf2 (fun n m p q => (exAdd n m p q.negate).abs)) (fi := (fun p q => (p - q).natAbs)) (rounds := true) (fun _ => rfl) rfl rfl
  case vmin =>
    exact varith_acts (ff := vfPick false) (fi := fun p q => if p ≤ q ↔ false = false then p else q) (rounds := false)
      (fun _ => minInt_eq ▸ rfl) rfl rfl
  case vmax =>
    exact varith_acts (ff := vfPick true) (fi := fun p q => if p ≤ q ↔ true = false then p else q) (rounds := false)
      (fun _ => maxInt_eq ▸ rfl) rfl rfl

/-! Fused forms and dot products (R146, R147) -/

theorem vfused_acts {i : Instr} {v d a b : BitVec 5} {pr : BitVec 2} {np na : Bool} (hexec : ∀ s, exec i s = vfused s v d a b pr np na)
    (hform : formOf i true = ⟨pr, 0, true, none, some v.toNat, .whole⟩) (ht : targetsOf i = []) :
    VecActs i (fun _ x => carries wideFloatTags [a, b, d] x) fun e x _ =>
      let t := x.vtype.toNat
      let n := lenN x e.cw t
      let val (r : BitVec 5) (k : Nat) : Ex := operand e.n t (x.elem r.toNat t k)
      (x.write d.toNat t ((upTo n).map fun k =>
        let p := exMul (val a k) (val b k)
        roundTo e.n t 6 false k (exAdd e.n 6 (if np then p.negate else p) (if na then (val d k).negate else val d k))),
       none, srUsed e t n) := by
  refine tagged_acts hexec hform (.inr ⟨ht, rfl⟩) fun e x h => ?_
  have ha : needWork e x a.toNat wideFloatTags = none := needWork_of_carries h (by simp) e
  have hb : needTag e x b.toNat x.vtype.toNat = none := needTag_of_eq (h.2 b (by simp)) e
  have hd : needTag e x d.toNat x.vtype.toNat = none := needTag_of_eq (h.2 d (by simp)) e
  simp [ha, hb, hd]

/-- Adding up those terms that meet a condition is the sum over them. -/
theorem foldl_add_if_eq_sum (p : Nat → Prop) [DecidablePred p] (f : Nat → Int) (xs : List Nat) :
    xs.foldl (fun acc q => if p q then acc + f q else acc) 0 = ((xs.filter fun q => decide (p q)).map f).sum := by
  rw [List.sum_eq_foldl, List.foldl_map, List.foldl_filter]
  simp only [decide_eq_true_eq]

theorem vdot_acts {i : Instr} {v d a b : BitVec 5} {pr : BitVec 2} {t : Nat} (hexec : ∀ s, exec i s = vdot s v d a b pr t)
    (hform : formOf i true = ⟨pr, 0, true, none, some v.toNat, .whole⟩) (ht : targetsOf i = []) :
    VecActs i (fun _ x => carries [t] [a, b] x ∧ x.tagOf d.toNat = tagI32) fun e x _ =>
      let k := lanesOf t
      let n := lenN x e.cw t
      (x.write d.toNat tagI32 ((upTo ((n + k - 1) / k)).map fun j =>
        wrap 32 (sval 32 (x.lane d.toNat j) + (((upTo k).filter fun q => decide (j * k + q < n)).map fun q =>
          sval (tagBits t) (x.elem a.toNat t (j * k + q)) * sval (tagBits t) (x.elem b.toNat t (j * k + q))).sum)), none, false) := by
  simp only [← foldl_add_if_eq_sum]
  refine tagged_acts hexec hform (.inr ⟨ht, rfl⟩) fun e x h => ?_
  obtain ⟨⟨hts, hrs⟩, hd⟩ := h
  have hvt : x.vtype.toNat = t := List.mem_singleton.mp hts
  have ha : needTag e x a.toNat t = none := needTag_of_eq ((hrs a (by simp)).trans hvt) e
  have hb : needTag e x b.toNat t = none := needTag_of_eq ((hrs b (by simp)).trans hvt) e
  simp [hvt, ha, hb, needTag_of_eq hd e]

/-- Settles O21: four instructions of the fused form and two of the dot product form. -/
theorem vectorFusedAndDotProducts : Obligations.VectorFusedAndDotProducts := by
  unfold Obligations.VectorFusedAndDotProducts
  intro v d a b pr
  refine ⟨?vfma, ?vfms, ?vfnma, ?vfnms, ?vdoti8, ?vdoti4⟩
  case vfma => exact vfused_acts (fun _ => rfl) rfl rfl
  case vfms => exact vfused_acts (fun _ => rfl) rfl rfl
  case vfnma => exact vfused_acts (fun _ => rfl) rfl rfl
  case vfnms => exact vfused_acts (fun _ => rfl) rfl rfl
  case vdoti8 => exact vdot_acts (fun _ => rfl) rfl rfl
  case vdoti4 => exact vdot_acts (fun _ => rfl) rfl rfl
end Sys2Proof.Machine

/-! Vector logic, shifts, compares and permutes (R148 to R150). -/
namespace Sys2Proof.Machine

/-! Bitwise forms (R148) -/

theorem vlogic_acts {i : Instr} {v d a b : BitVec 5} {pr : BitVec 2} {f : Nat → Nat → Nat → Nat}
    (hexec : ∀ s, exec i s = vlogic s v d a b pr f) (hform : formOf i true = ⟨pr, 0, true, none, some v.toNat, .whole⟩)
    (ht : targetsOf i = []) :
    VecActs i (fun _ x => x.tagOf a.toNat ∈ logicTags ∧ x.tagOf b.toNat = x.tagOf a.toNat ∧
        (x.tagOf a.toNat ≠ tagMask → x.tagOf a.toNat = x.vtype.toNat)) fun e x _ =>
      let t := x.tagOf a.toNat
      (x.write d.toNat t ((upTo (if t = tagMask then lenM x e.cw x.vtype.toNat else lenN x e.cw t)).map fun k =>
        f (tagBits t) (x.elem a.toNat t k) (x.elem b.toNat t k)), none, false) := by
  refine tagged_acts hexec hform (.inr ⟨ht, rfl⟩) fun e x h => ?_
  obtain ⟨hin, hb, hwork⟩ := h
  have hvtype : (if x.tagOf a.toNat = tagMask then none else needTag e x a.toNat x.vtype.toNat) = none := by
    split
    · rfl
    next hmask => exact needTag_of_eq (hwork hmask) e
  simp [needIn_of_mem hin e, needTag_of_eq hb e, hvtype]

/-! Shifts (R148): on an element's bits the shift of numbers is the shift of words. -/

theorem IsWordShift.eq_toNat {f F} (h : IsWordShift f F) {w x n : Nat} (hw : 0 < w) (hx : x < 2 ^ w) (hn : n < w) (hf : f w x n < 2 ^ w) :
    f w x n = (F w (BitVec.ofNat w x) n).toNat := by
  have hword := h w hw (BitVec.ofNat w x) n hn
  rw [BitVec.toNat_ofNat, Nat.mod_eq_of_lt hx] at hword
  rw [← hword, BitVec.toNat_ofNat, Nat.mod_eq_of_lt hf]

theorem wrap_lt (w : Nat) (i : Int) : wrap w i < 2 ^ w := by
  rw [wrap_eq]
  exact BitVec.isLt _

theorem Vec.elem_lt (x : Vec) (r i : Nat) {t : Nat} (ht : t ≠ tagF64) : x.elem r t i < 2 ^ tagBits t := by
  unfold Vec.elem
  rw [if_neg ht]
  exact Nat.mod_lt _ (Nat.two_pow_pos _)

theorem tagBits_pos_and_ne_F64_of_shiftTag {t : Nat} (ht : t ∈ [tagI32, tagI16, tagI8]) : 0 < tagBits t ∧ t ≠ tagF64 := by
  revert t
  decide

theorem vshift_acts {i : Instr} {v d a b : BitVec 5} {pr : BitVec 2} {f F} (hF : IsWordShift f F)
    (hlt : ∀ w x n, x < 2 ^ w → f w x n < 2 ^ w) (hexec : ∀ s, exec i s = vshift s v d a b pr f)
    (hform : formOf i true = ⟨pr, 0, true, none, some v.toNat, .whole⟩) (ht : targetsOf i = []) :
    VecActs i (fun _ x => carries [tagI32, tagI16, tagI8] [a, b] x) fun e x _ =>
      let t := x.vtype.toNat
      let w := tagBits t
      (x.write d.toNat t ((upTo (lenN x e.cw t)).map fun k =>
        (F w (BitVec.ofNat w (x.elem a.toNat t k)) (x.elem b.toNat t k % w)).toNat), none, false) := by
  have hacts : VecActs i (fun _ x => carries [tagI32, tagI16, tagI8] [a, b] x) fun e x _ =>
      (x.write d.toNat x.vtype.toNat ((upTo (lenN x e.cw x.vtype.toNat)).map fun k =>
        f (tagBits x.vtype.toNat) (x.elem a.toNat x.vtype.toNat k) (x.elem b.toNat x.vtype.toNat k % tagBits x.vtype.toNat)), none, false) :=
    tagged_acts hexec hform (.inr ⟨ht, rfl⟩) fun e _ h => pass_of_carries₂ h e
  refine hacts.congr fun e x _ h => ?_
  obtain ⟨hbits, hwide⟩ := tagBits_pos_and_ne_F64_of_shiftTag h.1
  have helem (k : Nat) := x.elem_lt a.toNat k hwide
  simp only [hF.eq_toNat hbits (helem _) (Nat.mod_lt _ hbits) (hlt _ _ _ (helem _))]

/-! Compares (R149) -/

theorem vcmp_acts (v d a b : BitVec 5) (c : BitVec 3) (pr : BitVec 2) :
    VecActs (.vcmp v d a b c pr) (fun _ x => carries arithTags [a, b] x) fun e x _ =>
      let t := x.vtype.toNat
      (x.write d.toNat tagMask ((upTo (lenM x e.cw t)).map fun k =>
        let p := x.elem a.toNat t k
        let q := x.elem b.toNat t k
        if (if isIntTag t then vcmpInt c.toNat (tagBits t) p q else vcmpFloat c.toNat (operand e.n t p) (operand e.n t q))
        then 0xFFFFFFFF else 0), none, false) :=
  tagged_acts (fun _ => rfl) rfl (.inr ⟨rfl, rfl⟩) fun e _ h => pass_of_carries₂ h e

/-- Settles O22: five bitwise forms, three shifts, which on elements are the shifts of words, and VCMP. -/
theorem vectorLogicShiftsAndCompares : Obligations.VectorLogicShiftsAndCompares := by
  unfold Obligations.VectorLogicShiftsAndCompares
  intro v d a b c pr
  refine ⟨?vand, ?vor, ?vxor, ?vandn, ?vnot, ?vshl, ?vshr, ?vshra, vcmp_acts v d a b c pr⟩
  case vand => exact vlogic_acts (f := fun _ p q => p &&& q) (fun _ => rfl) rfl rfl
  case vor => exact vlogic_acts (f := fun _ p q => p ||| q) (fun _ => rfl) rfl rfl
  case vxor => exact vlogic_acts (f := fun _ p q => p ^^^ q) (fun _ => rfl) rfl rfl
  case vandn => exact vlogic_acts (f := fun w p q => p &&& (2 ^ w - 1 - q)) (fun _ => rfl) rfl rfl
  case vnot => exact vlogic_acts (b := a) (f := fun w p _ => 2 ^ w - 1 - p) (fun _ => rfl) rfl rfl
  case vshl => exact vshift_acts isWordShift_shl (fun w _ _ _ => Nat.mod_lt _ (Nat.two_pow_pos w)) (fun _ => rfl) rfl rfl
  case vshr => exact vshift_acts isWordShift_shr (fun _ x _ hx => (Nat.div_le_self x _).trans_lt hx) (fun _ => rfl) rfl rfl
  case vshra => exact vshift_acts isWordShift_shra (fun w _ _ _ => wrap_lt w _) (fun _ => rfl) rfl rfl

/-! Permutes (R150) -/

/-- A permute whose tag checks pass wherever `ok` holds writes its list `xs` of elements under the tag of `a`. -/
theorem vperm_acts {i : Instr} {v d a : BitVec 5} {pr : BitVec 2} {checks : VEnv → Vec → Nat → List (Option Dbl)} {ok : Vec → Prop}
    {f : VEnv → Vec → Nat → List Nat} {xs : VEnv → Vec → List Nat} (hexec : ∀ s, exec i s = vperm s v d a pr checks f)
    (hform : formOf i true = ⟨pr, 0, true, none, some v.toNat, .whole⟩) (ht : targetsOf i = [])
    (hpass : ∀ e x, ok x → ∀ k ∈ checks e x (x.tagOf a.toNat), k = none) (hxs : ∀ e x, f e x (x.tagOf a.toNat) = xs e x) :
    VecActs i (fun _ x => ok x) fun e x _ => (x.write d.toNat (x.tagOf a.toNat) (xs e x), none, false) := by
  simp only [← hxs]
  exact tagged_acts hexec hform (.inr ⟨ht, rfl⟩) hpass

theorem pass_of_tag {x : Vec} {r t : Nat} (h : x.tagOf r = t) (e : VEnv) : ∀ k ∈ [needTag e x r t], k = none :=
  List.forall_mem_singleton.mpr (needTag_of_eq h e)

/-- A mask lane is true where it is not zero (R42). -/
theorem maskAt_iff {x : Vec} {r k : Nat} : x.maskAt r k = true ↔ x.lane r k ≠ 0 := bne_iff_ne

theorem maskAt_eq_decide (x : Vec) (r : Nat) : x.maskAt r = fun k => decide (x.lane r k ≠ 0) :=
  funext fun _ => by rw [Bool.eq_iff_iff, maskAt_iff, decide_eq_true_iff]

/-- VMOV writes every lane of its register, whatever the tag of `a`. -/
theorem vmov_acts (v d a : BitVec 5) (pr : BitVec 2) : VecActs (.vmov v d a pr) (fun _ _ => True) fun e x _ =>
    (((upTo (64 * e.cw)).foldl (fun q i => q.setLane d.toNat i (x.lane a.toNat i)) x).setTag d.toNat (x.tagOf a.toNat), none, false) :=
  fireVec_acts (fun _ => rfl) rfl (.inr ⟨rfl, rfl⟩) fun _ _ _ _ => rfl

/-- Settles O23: VMOV moves lanes, the other seven are of one form; the two masks are read lane by lane, and in VZIP an odd place `i` takes element
`(i - 1) / 2` of `b`. -/
theorem vectorPermutes : Obligations.VectorPermutes := by
  unfold Obligations.VectorPermutes
  intro v d a b n pr
  dsimp only
  refine ⟨vmov_acts v d a pr, ?vsel, ?vcmpct, ?vpermx, ?vslideup, ?vslidedn, ?vzip, ?vunzip⟩
  case vsel =>
    refine vperm_acts (fun s => show execVsel v d a b pr s = _ from rfl) rfl rfl (fun e x h => ?pass) fun e x => ?elems
    case pass =>
      obtain ⟨hmask, hsame⟩ := h
      simp [needTag_of_eq hmask e, needTag_of_eq hsame e]
    case elems => simp only [maskAt_iff]
  case vcmpct =>
    refine vperm_acts (fun s => show execVcmpct v d a b pr s = _ from rfl) rfl rfl (fun e _ h => pass_of_tag h e) fun e x => ?_
    simp only [maskAt_eq_decide, List.length_map]
  case vpermx =>
    exact vperm_acts (fun s => show execVpermx v d a b pr s = _ from rfl) rfl rfl (fun e _ h => pass_of_tag h e) fun _ _ => rfl
  case vslideup =>
    exact vperm_acts (fun s => show execVslideup v d a n pr s = _ from rfl) rfl rfl (fun _ _ _ => List.forall_mem_nil _) fun _ _ => rfl
  case vslidedn =>
    exact vperm_acts (fun s => show execVslidedn v d a n pr s = _ from rfl) rfl rfl (fun _ _ _ => List.forall_mem_nil _) fun _ _ => rfl
  case vzip =>
    refine vperm_acts (fun s => show execVzip v d a b pr s = _ from rfl) rfl rfl (fun e _ h => pass_of_tag h e) fun e x => ?_
    refine List.map_congr_left fun k _ => ?_
    split
    · rfl
    next hodd => rw [show (k - 1) / 2 = k / 2 by omega]
  case vunzip =>
    exact vperm_acts (fun s => show execVunzip v d a b pr s = _ from rfl) rfl rfl (fun e _ h => pass_of_tag h e) fun _ _ => rfl

end Sys2Proof.Machine

/-! Vector reductions and scans (R151 to R153). -/
namespace Sys2Proof.Machine

/-! Sums (R151, R152) -/

theorem isum_eq_sum (t : Nat) (xs : List Nat) : isum t xs = (xs.map (sval (tagBits t))).sum := by
  rw [List.sum_eq_foldl, List.foldl_map]
  rfl

/-- The format of a widened sum: F64 for the two wide formats, F32 for the halves. -/
theorem wideSum_eq {t : Nat} (ht : t ∈ arithTags) (hint : isIntTag t = false) :
    wideSum t = if t = tagF32 ∨ t = tagF64 then tagF64 else tagF32 := by
  revert t
  decide

/-! Reductions (R151) -/

theorem pass_of_carries {ts : List Nat} {a : BitVec 5} {x : Vec} (h : carries ts [a] x) (e : VEnv) :
    ∀ k ∈ [needWork e x a.toNat ts], k = none :=
  List.forall_mem_singleton.mpr (needWork_of_carries h (List.mem_singleton_self a) e)

theorem vred_acts {i : Instr} {v a : BitVec 5} {t0 : BitVec 9} {pr : BitVec 2} {rounds : Bool} {f : VEnv → Nat → List Nat → Token}
    (hexec : ∀ s, exec i s = vred s v a t0 pr rounds f) (hform : formOf i true = ⟨pr, 0, true, none, some v.toNat, .whole⟩)
    (ht : targetsOf i = [t0]) :
    VecActs i (fun _ x => carries arithTags [a] x) fun e x _ =>
      let t := x.vtype.toNat
      let n := lenN x e.cw t
      (x, some (f e t ((upTo n).map (x.elem a.toNat t))), rounds && srUsed e t n) := by
  have hacts : VecActs i (fun _ x => carries arithTags [a] x) fun e x _ =>
      let t := x.vtype.toNat
      let xs := x.elems a.toNat t (lenN x e.cw t)
      (x, some (f e t xs), rounds && srUsed e t xs.length) :=
    tagged_acts hexec hform (.inl ht) fun e _ h => pass_of_carries h e
  refine hacts.congr fun e x _ _ => ?_
  simp only [Vec.elems, List.length_map, upTo, List.length_range]

/-- RSUMW adds into the wider format of its group (R151). -/
theorem rsumw_acts (v a : BitVec 5) (t0 : BitVec 9) (pr : BitVec 2) :
    VecActs (.rsumw v t0 a pr) (fun _ x => carries arithTags [a] x) fun e x _ =>
      let t := x.vtype.toNat
      let n := lenN x e.cw t
      let xs := (upTo n).map (x.elem a.toNat t)
      (x, some (tokOf (BitVec.ofNat 64 (
        if isIntTag t then wrap 64 (xs.map (sval (tagBits t))).sum
        else roundTo e.n (if t = tagF32 ∨ t = tagF64 then tagF64 else tagF32) 6 false 0 (exSum e.n 6 (xs.map (operand e.n t)))))),
       true && srUsed e t n) := by
  refine (vred_acts (f := fun e t xs => if isIntTag t then tokOf (BitVec.ofNat 64 (wrap 64 (isum t xs)))
    else tokOf (BitVec.ofNat 64 (sumInto e t (wideSum t) 0 xs))) (fun _ => rfl) rfl rfl).congr fun e x _ h => ?_
  obtain ⟨htag, _⟩ := h
  dsimp only
  cases hint : isIntTag x.vtype.toNat with
  | true => simp only [if_true, isum_eq_sum]
  | false =>
    rw [← wideSum_eq htag hint]
    rfl

/-! Mask reductions (R151) -/

theorem vredMask_acts {i : Instr} {v a : BitVec 5} {t0 : BitVec 9} {pr : BitVec 2} {f : List Bool → Dbl}
    (hexec : ∀ s, exec i s = vredMask s v a t0 pr f) (hform : formOf i true = ⟨pr, 0, true, none, some v.toNat, .whole⟩)
    (ht : targetsOf i = [t0]) :
    VecActs i (fun _ x => x.tagOf a.toNat = tagMask) fun e x _ =>
      (x, some (tokOf (f ((upTo (lenM x e.cw x.vtype.toNat)).map fun j => decide (x.lane a.toNat j ≠ 0)))), false) := by
  simp only [← maskAt_eq_decide]
  exact tagged_acts hexec hform (.inl ht) fun e _ h => pass_of_tag h e

theorem exec_rcount_eq_vredMask (v a : BitVec 5) (t0 : BitVec 9) (pr : BitVec 2) (s : State) :
    exec (.rcount v t0 a pr) s = vredMask s v a t0 pr fun ms => BitVec.ofNat 64 (ms.count true) := by
  have hcount (ms : List Bool) : ms.count true = (ms.filter id).length := by
    rw [List.count_eq_countP, List.countP_eq_length_filter]
    simp only [beq_true]
    rfl
  simp only [hcount]
  rfl

/-- The first place of a list that holds `true`. -/
theorem find?_upTo_getD (ms : List Bool) :
    (upTo ms.length).find? (fun i => ms.getD i false) = if true ∈ ms then some (ms.idxOf true) else none := by
  unfold upTo
  induction ms with
  | nil => rfl
  | cons m ms ih =>
    rw [List.length_cons, List.range_succ_eq_map]
    cases m with
    | true => simp
    | false =>
      have hrest : (fun i => (false :: ms).getD i false) ∘ Nat.succ = fun i => ms.getD i false := rfl
      simp only [List.find?_cons, List.getD_cons_zero, List.find?_map, hrest, ih, List.mem_cons, List.idxOf_cons]
      split <;> simp_all

theorem exec_rfirst_eq_vredMask (v a : BitVec 5) (t0 : BitVec 9) (pr : BitVec 2) (s : State) :
    exec (.rfirst v t0 a pr) s = vredMask s v a t0 pr fun ms =>
      if true ∈ ms then BitVec.ofNat 64 (ms.idxOf true) else 0xFFFFFFFFFFFFFFFF := by
  show execRfirst v t0 a pr s = _
  unfold execRfirst
  simp only [find?_upTo_getD]
  congr 1
  funext ms
  by_cases htrue : true ∈ ms
  · simp only [if_pos htrue]
  · simp only [if_neg htrue]

/-! Scans (R153) -/

theorem take_elems {x : Vec} {r t n m : Nat} (h : m ≤ n) : (x.elems r t n).take m = (upTo m).map (x.elem r t) := by
  unfold Vec.elems upTo
  rw [← List.map_take, List.take_range, Nat.min_eq_left h]

/-- A scan writes at each place its value of the elements up to there. -/
theorem vscan_acts {i : Instr} {v d a : BitVec 5} {pr : BitVec 2} {rounds : Bool} {f : VEnv → Nat → List Nat → Nat}
    (hexec : ∀ s, exec i s = vscan s v d a pr rounds fun e t _ xs => f e t xs)
    (hform : formOf i true = ⟨pr, 0, true, none, some v.toNat, .whole⟩) (ht : targetsOf i = []) :
    VecActs i (fun _ x => carries arithTags [a] x) fun e x _ =>
      let t := x.vtype.toNat
      let n := lenN x e.cw t
      (x.write d.toNat t ((upTo n).map fun j => f e t ((upTo (j + 1)).map (x.elem a.toNat t))), none, rounds && srUsed e t n) := by
  have hacts : VecActs i (fun _ x => carries arithTags [a] x) fun e x _ =>
      let t := x.vtype.toNat
      let n := lenN x e.cw t
      (x.write d.toNat t ((upTo n).map fun j => f e t ((x.elems a.toNat t n).take (j + 1))), none, rounds && srUsed e t n) :=
    tagged_acts hexec hform (.inr ⟨ht, rfl⟩) fun e _ h => pass_of_carries h e
  refine hacts.congr fun e x _ _ => ?_
  dsimp only
  congr 2
  refine List.map_congr_left fun j hj => ?_
  rw [take_elems (List.mem_range.mp hj)]

/-! Segments (R153): an element's segment begins at the last head up to it. -/

/-- The last entry that meets a condition, 0 where none does. -/
theorem foldl_last_eq_getLast? (p : Nat → Bool) (xs : List Nat) :
    xs.foldl (fun acc j => if p j then j else acc) 0 = (xs.filter p).getLast?.getD 0 := by
  induction xs using List.reverseRecOn with
  | nil => rfl
  | append_singleton xs y ih =>
    rw [List.foldl_append, List.filter_append, ih]
    cases hy : p y <;> simp [hy]

theorem drop_upTo (m k : Nat) : (upTo m).drop k = (upTo m).filter fun j => decide (k ≤ j) := by
  unfold upTo
  induction m with
  | zero => simp
  | succ m ih =>
    rw [List.range_succ, List.filter_append, ← ih]
    by_cases hk : k ≤ m
    · rw [List.drop_append_of_le_length (by simpa using hk)]
      simp [hk]
    · simp [hk, List.drop_eq_nil_of_le, Nat.le_of_lt, Nat.lt_of_not_le hk]

theorem vscanSegsum_acts (v d a b : BitVec 5) (pr : BitVec 2) :
    VecActs (.vscanSegsum v d a b pr) (fun _ x => carries arithTags [a] x ∧ x.tagOf b.toNat = tagMask) fun e x _ =>
      let t := x.vtype.toNat
      let n := lenM x e.cw t
      (x.write d.toNat t ((upTo n).map fun k =>
        let heads := (upTo (k + 1)).filter fun j => decide (x.lane b.toNat j ≠ 0)
        let from' := heads.getLast?.getD 0
        scanSum e t (((upTo (k + 1)).filter fun j => decide (from' ≤ j)).map (x.elem a.toNat t))), none, srUsed e t n) := by
  have hacts : VecActs (.vscanSegsum v d a b pr) (fun _ x => carries arithTags [a] x ∧ x.tagOf b.toNat = tagMask) fun e x _ =>
      let t := x.vtype.toNat
      let n := lenM x e.cw t
      (x.write d.toNat t ((upTo n).map fun k =>
        let head := (upTo (k + 1)).foldl (fun acc j => if x.maskAt b.toNat j then j else acc) 0
        scanSum e t (((x.elems a.toNat t n).take (k + 1)).drop head)), none, srUsed e t n) := by
    refine tagged_acts (fun _ => rfl) rfl (.inr ⟨rfl, rfl⟩) fun e x h => ?_
    obtain ⟨hcarries, hmask⟩ := h
    exact List.forall_mem_cons.mpr ⟨needWork_of_carries hcarries (List.mem_singleton_self a) e, pass_of_tag hmask e⟩
  refine hacts.congr fun e x _ _ => ?_
  dsimp only
  congr 2
  refine List.map_congr_left fun k hk => ?_
  rw [take_elems (List.mem_range.mp hk), foldl_last_eq_getLast?, maskAt_eq_decide, ← List.map_drop, drop_upTo]

/-- The sum of a list of elements in their own format (R151, R152). -/
theorem scanSum_eq (e : VEnv) (t : Nat) (xs : List Nat) : scanSum e t xs =
    if isIntTag t then wrap (tagBits t) (xs.map (sval (tagBits t))).sum else roundTo e.n t 6 false 0 (exSum e.n 6 (xs.map (operand e.n t))) := by
  unfold scanSum
  rw [isum_eq_sum]
  rfl

/-- Settles O24: four reductions of one form, two of masks, three scans of one form, and VSCAN.SEGSUM. -/
theorem vectorReductionsAndScans : Obligations.VectorReductionsAndScans := by
  unfold Obligations.VectorReductionsAndScans
  intro v d a b t0 pr
  dsimp only
  simp only [← scanSum_eq]
  refine ⟨?rsum, ?rmax, ?rmin, rsumw_acts v a t0 pr, ?rcount, ?rfirst, ?scanSum, ?scanMax, ?scanMin, vscanSegsum_acts v d a b pr⟩
  case rsum => exact vred_acts (rounds := true) (f := fun e t xs => elemTok t (scanSum e t xs)) (fun _ => rfl) rfl rfl
  case rmax => exact vred_acts (rounds := false) (f := fun e t xs => elemTok t (pickAll e t true xs)) (fun _ => rfl) rfl rfl
  case rmin => exact vred_acts (rounds := false) (f := fun e t xs => elemTok t (pickAll e t false xs)) (fun _ => rfl) rfl rfl
  case rcount => exact vredMask_acts (f := fun ms => BitVec.ofNat 64 (ms.count true)) (exec_rcount_eq_vredMask v a t0 pr) rfl rfl
  case rfirst =>
    exact vredMask_acts (f := fun ms => if true ∈ ms then BitVec.ofNat 64 (ms.idxOf true) else 0xFFFFFFFFFFFFFFFF)
      (exec_rfirst_eq_vredMask v a t0 pr) rfl rfl
  case scanSum => exact vscan_acts (rounds := true) (f := scanSum) (fun _ => rfl) rfl rfl
  case scanMax => exact vscan_acts (rounds := false) (f := fun e t => pickAll e t true) (fun _ => rfl) rfl rfl
  case scanMin => exact vscan_acts (rounds := false) (f := fun e t => pickAll e t false) (fun _ => rfl) rfl rfl

end Sys2Proof.Machine

/-! Vector conversions, scales and widths (R155 to R158). -/
namespace Sys2Proof.Machine

/-- The conversions take every tag but NONE, CB2 and MASK (R155). -/
theorem convertible_of_not_mem {t : Nat} (h : t ∉ [tagNone, tagCB2, tagMask]) : ¬(t = tagNone ∨ t = tagCB2 ∨ t = tagMask) := by
  simpa using h

theorem vcvt_acts (v d a : BitVec 5) (t4 : BitVec 4) (m : BitVec 3) (pr : BitVec 2) :
    VecActs (.vcvt v d a t4 m pr) (fun _ x => x.tagOf a.toNat ∉ [tagNone, tagCB2, tagMask]) fun e x _ =>
      let src := x.tagOf a.toNat
      let n := Nat.min x.vl.toNat (Nat.min (cap e.cw src) (cap e.cw t4.toNat))
      (x.write d.toNat t4.toNat ((upTo n).map fun j => cvtElem e src t4.toNat m.toNat j (x.elem a.toNat src j)), none,
        decide (0 < n) && !(isIntTag src && isIntTag t4.toNat) && drawsSr e.n m.toNat) :=
  fireVec_acts (fun _ => rfl) rfl (.inr ⟨rfl, rfl⟩) fun _ _ _ h => if_neg (convertible_of_not_mem h)

theorem vdeq_acts (v d a : BitVec 5) (k : BitVec 3) (pr : BitVec 2) :
    VecActs (.vdeq v d a k pr) (fun _ x => x.tagOf a.toNat = tagCB2 ∧ x.vtype.toNat = tagBF16) fun e x _ =>
      (x.write d.toNat tagBF16 ((upTo (lenN x e.cw tagBF16)).map fun j =>
        let idx := x.elem a.toNat tagCB2 (16 * e.cw * k.toNat + j / 8)
        roundTo { e.n with ftz := false } tagBF16 0 false j (weightEx ((cb2Weights4 (e.book.getD (idx / 256) 0) idx).getD (j % 8) 0))),
       none, false) := by
  refine tagged_acts (fun _ => rfl) rfl (.inr ⟨rfl, rfl⟩) fun e x h => ?_
  obtain ⟨ha, hvtype⟩ := h
  simp [needTag_of_eq ha e, hvtype]

theorem vscl_acts (v d a b : BitVec 5) (pr : BitVec 2) :
    VecActs (.vscl v d a b pr) (fun _ x => carries funcTags [a] x ∧ x.tagOf b.toNat = tagI16) fun e x _ =>
      let t := x.vtype.toNat
      let n := lenN x e.cw t
      (x.write d.toNat t ((upTo n).map fun j =>
        scaled e t t 6 j (x.elem a.toNat t j) (x.elem b.toNat tagI16 (j / 32)) false false), none, srUsed e t n) := by
  refine tagged_acts (fun _ => rfl) rfl (.inr ⟨rfl, rfl⟩) fun e x h => ?_
  obtain ⟨hcarries, hb⟩ := h
  exact List.forall_mem_cons.mpr ⟨needWork_of_carries hcarries (List.mem_singleton_self a) e, pass_of_tag hb e⟩

theorem vqnt_acts (v d a b : BitVec 5) (pr : BitVec 2) :
    VecActs (.vqnt v d a b pr) (fun _ x => x.tagOf a.toNat ∈ funcTags ∧ x.tagOf b.toNat = tagI16 ∧ x.vtype.toNat ∈ quantTags) fun e x _ =>
      let t := x.tagOf a.toNat
      let u := x.vtype.toNat
      let n := Nat.min (lenN x e.cw u) (cap e.cw t)
      (x.write d.toNat u ((upTo n).map fun j =>
        scaled e t u 6 j (x.elem a.toNat t j) (x.elem b.toNat tagI16 (j / 32)) true true), none, decide (0 < n) && drawsSr e.n 6) := by
  refine tagged_acts (fun _ => rfl) rfl (.inr ⟨rfl, rfl⟩) fun e x h => ?_
  obtain ⟨ha, hb, hvtype⟩ := h
  simp [needIn_of_mem ha e, needTag_of_eq hb e, hvtype]

theorem vamax_acts (v d a : BitVec 5) (pr : BitVec 2) :
    VecActs (.vamax v d a pr) (fun _ x => x.tagOf a.toNat ∈ funcTags ∧ x.vtype.toNat ∈ quantTags) fun e x _ =>
      let t := x.tagOf a.toNat
      let n := Nat.min x.vl.toNat (cap e.cw t)
      (x.write d.toNat tagI16 ((upTo ((n + 31) / 32)).map fun g =>
        groupScale e t x.vtype.toNat ((((upTo n).map (x.elem a.toNat t)).drop (32 * g)).take 32)), none, false) := by
  refine tagged_acts (fun _ => rfl) rfl (.inr ⟨rfl, rfl⟩) fun e x h => ?_
  obtain ⟨ha, hvtype⟩ := h
  simp [needIn_of_mem ha e, hvtype]

theorem pack_acts (v d a b : BitVec 5) (pr : BitVec 2) (u : Nat) :
    VecActs (.pack v d a b pr) (fun _ x => widerOf x.vtype.toNat = some u ∧ x.tagOf a.toNat = u ∧ x.tagOf b.toNat = u) fun e x _ =>
      let t := x.vtype.toNat
      let half := cap e.cw t / 2
      (x.write d.toNat t ((upTo (2 * half)).map fun j =>
        narrowElem e u t j (if j < half then x.elem a.toNat u j else x.elem b.toNat u (j - half))), none,
       !isIntTag t && drawsSr e.n 6) := by
  refine fireVec_acts (fun _ => rfl) rfl (.inr ⟨rfl, rfl⟩) fun e x _ h => ?_
  obtain ⟨hwider, ha, hb⟩ := h
  have hpass : ∀ k ∈ [needTag e x a.toNat u, needTag e x b.toNat u], k = none :=
    List.forall_mem_cons.mpr ⟨needTag_of_eq ha e, pass_of_tag hb e⟩
  simp only [hwider]
  exact whenTags_of_pass hpass _

/-- UNPKLO and UNPKHI widen a half of their register into the wider partner of its format (R156). -/
theorem vunpack_acts {i : Instr} {v d a : BitVec 5} {pr : BitVec 2} {hi : Bool} (hexec : ∀ s, exec i s = vunpack s v d a pr hi)
    (hform : formOf i true = ⟨pr, 0, true, none, some v.toNat, .whole⟩) (ht : targetsOf i = []) (u : Nat) :
    VecActs i (fun _ x => widerOf (x.tagOf a.toNat) = some u) fun e x _ =>
      let t := x.tagOf a.toNat
      let half := cap e.cw t / 2
      (x.write d.toNat u ((upTo half).map fun j => widenElem e t u (x.elem a.toNat t (if hi then half + j else j))), none, false) := by
  refine fireVec_acts hexec hform (.inr ⟨ht, rfl⟩) fun e x _ hwider => ?_
  simp only [hwider]

/-- Settles O26: each conversion by its own lemma; the two unpacking forms share one. -/
theorem vectorConversions : Obligations.VectorConversions := by
  unfold Obligations.VectorConversions
  intro v d a b t4 m k pr
  exact ⟨vcvt_acts v d a t4 m pr, vdeq_acts v d a k pr, vscl_acts v d a b pr, vqnt_acts v d a b pr, vamax_acts v d a pr, pack_acts v d a b pr,
    vunpack_acts (hi := false) (fun _ => rfl) rfl rfl, vunpack_acts (hi := true) (fun _ => rfl) rfl rfl⟩

end Sys2Proof.Machine

/-! The vector length, broadcasts, indices, extraction and tags (R139, R140, R143, R144, R159). -/
namespace Sys2Proof.Machine

/-! VSETL (R139, R143) -/

theorem exec_vsetl_of_fires {v : BitVec 5} {t0 : BitVec 9} {t4 : BitVec 4} {pr : BitVec 2} {s : State} {b : Block} {l r : Token}
    (h : Fires s (formOf (.vsetl v t0 t4 pr) false) b l r) :
    let grant := Nat.min l.lo.toNat (cap (s.hart s.dev.focus.hart).cwidth.toNat t4.toNat)
    exec (.vsetl v t0 t4 pr) s = .next (s.firedBlock b fun b1 =>
      if l.null then (b1.resolveV s.dev.focus.idx (some v.toNat)).deliver t0 tokNull
      else ((b1.leave (.len (BitVec.ofNat 13 grant) t4)).resolveV s.dev.focus.idx (some v.toNat)).deliver t0 (tokOf (BitVec.ofNat 64 grant))) := by
  refine exec_onBlock_of_fires h _ rfl ?_
  dsimp only
  rw [Hart.cwidth_count_putBlock]

/-- What a VSETL or an LDV leaves is over whatever the block has left before. -/
theorem Block.vecOver_leave (b : Block) (x : VEarly) (y : Vec) : (b.leave x).vecOver y = x.over (b.vecOver y) := by
  unfold Block.leave Block.vecOver
  cases b.vec with
  | some c => rfl
  | none => simp only [Option.getD_none, List.foldl_append, List.foldl_cons, List.foldl_nil]

/-! Elements and tags (R143, R144, R159) -/

theorem vgetl_acts (v : BitVec 5) (t0 : BitVec 9) (t4 : BitVec 4) (pr : BitVec 2) :
    VecActs (.vgetl v t0 t4 pr) (fun _ _ => True) fun e x _ =>
      (x, some (tokOf (BitVec.ofNat 64 (cap e.cw (if t4 = 0 then x.vtype.toNat else t4.toNat)))), false) :=
  fireVec_acts (fun _ => rfl) rfl (.inl rfl) fun _ _ _ _ => rfl

theorem vbcast_acts (v a : BitVec 5) (pr : BitVec 2) :
    VecActs (.vbcast v a pr) (fun _ x => x.vtype.toNat ≠ tagNone) fun e x l =>
      (x.write a.toNat x.vtype.toNat (List.replicate (lenN x e.cw x.vtype.toNat) (tokElem x.vtype.toNat l.lo)), none, false) :=
  fireVec_acts (fun _ => rfl) rfl (.inr ⟨rfl, rfl⟩) fun _ _ _ h => if_neg h

theorem vidx_acts (v a : BitVec 5) (pr : BitVec 2) :
    VecActs (.vidx v a pr) (fun _ x => x.vtype.toNat ∉ [tagNone, tagCB2, tagMask]) fun e x _ =>
      let t := x.vtype.toNat
      (x.write a.toNat t ((upTo (lenN x e.cw t)).map fun i =>
        if isIntTag t then i % 2 ^ tagBits t else roundTo e.n t 0 true i (Ex.ofInt i)), none, false) :=
  fireVec_acts (fun _ => rfl) rfl (.inr ⟨rfl, rfl⟩) fun _ _ _ h => if_neg (convertible_of_not_mem h)

theorem vextr_acts (v : BitVec 5) (t0 : BitVec 9) (a : BitVec 5) (pr : BitVec 2) :
    VecActs (.vextr v t0 a pr) (fun _ _ => True) fun e x l =>
      let t := x.tagOf a.toNat
      (x, some (if l.lo.toNat < cap e.cw t then elemTok t (x.elem a.toNat t l.lo.toNat) else tokOf 0), false) :=
  fireVec_acts (fun _ => rfl) rfl (.inl rfl) fun _ _ _ _ => rfl

theorem gettag_acts (v : BitVec 5) (t0 : BitVec 9) (a : BitVec 5) (pr : BitVec 2) :
    VecActs (.gettag v t0 a pr) (fun _ _ => True) fun _ x _ => (x, some (tokOf (BitVec.ofNat 64 (x.tagOf a.toNat))), false) :=
  fireVec_acts (fun _ => rfl) rfl (.inl rfl) fun _ _ _ _ => rfl

/-- The low four bits of a token as a tag (R159). -/
theorem setTag_low_bits (x : Vec) (r : Nat) (y : Dbl) : x.setTag r (y.toNat % 16) = { x with tag := mset 0 x.tag r (y.setWidth 4) } := by
  have hbits : BitVec.ofNat 4 (y.toNat % 16) = y.setWidth 4 := by
    apply BitVec.eq_of_toNat_eq
    simp
  unfold Vec.setTag
  rw [hbits]

theorem settag_acts (v a : BitVec 5) (pr : BitVec 2) :
    VecActs (.settag v a pr) (fun _ _ => True) fun _ x l => ({ x with tag := mset 0 x.tag a.toNat (l.lo.setWidth 4) }, none, false) := by
  simp only [← setTag_low_bits]
  exact fireVec_acts (fun _ => rfl) rfl (.inr ⟨rfl, rfl⟩) fun _ _ _ _ => rfl

theorem clrtag_acts (v a : BitVec 5) (pr : BitVec 2) :
    VecActs (.clrtag v a pr) (fun _ _ => True) fun _ x _ => ({ x with tag := mset 0 x.tag a.toNat 0 }, none, false) :=
  fireVec_acts (fun _ => rfl) rfl (.inr ⟨rfl, rfl⟩) fun _ _ _ _ => rfl

/-- Settles O27: VSETL acts in any block and reads nothing of its context; the others act in the oldest block. -/
theorem vectorLengthElementsAndTags : Obligations.VectorLengthElementsAndTags := by
  unfold Obligations.VectorLengthElementsAndTags
  intro v a t0 t4 pr
  exact ⟨fun s b l r h => ⟨exec_vsetl_of_fires h, fun y => b.vecOver_leave _ y⟩, vgetl_acts v t0 t4 pr, vbcast_acts v a pr, vidx_acts v a pr,
    vextr_acts v t0 a pr, gettag_acts v t0 a pr, settag_acts v a pr, clrtag_acts v a pr⟩

end Sys2Proof.Machine

/-! Tensor instructions at fire (R163, R173). -/
namespace Sys2Proof.Machine

/-- Block `b` with the tensor instruction `i` fired, whose fields are `t`: its VSID is resolved, where its K is null or zero, or it waits to issue. -/
def State.tensorFired (s : State) (b : Block) (i : Instr) (l : Token) (t : TIns) : State :=
  s.firedBlock b fun b1 =>
    if operandCount i = 1 ∧ (l.null = true ∨ l.lo = 0) then b1.resolveV s.dev.focus.idx (some t.vsid)
    else b1.addReq { idx := s.dev.focus.idx, lsid := 0, ord := 0, zone := 0, va := 0, t0 := noTarget, kind := .tensor t }

section TensorFire
variable {i : Instr} {v : BitVec 5} {t : Dbl → TIns} {s : State} {b : Block} {l r : Token}
  (hexec : exec i s = tensorFire s v (predField i) (operandCount i) t)
  (hform : formOf i true = { pr := predField i, operands := operandCount i, oldest := true, lsid := none, vsid := some v.toNat })
  (hvsid : (t l.lo).vsid = v.toNat)
include hexec hform hvsid

theorem exec_tensor_of_fires (h : Fires s (formOf i true) b l r) : exec i s = .next (s.tensorFired b i l (t l.lo)) := by
  unfold tensorFire at hexec
  rw [← hform, ← hvsid] at hexec
  exact exec_onBlock_of_fires h _ hexec rfl

/-- Without an operand there is no K: it stands as zero. -/
theorem exec_tensor_of_fires_without_operand (hn : operandCount i = 0) (h : Fires s (formOf i true) b l r) :
    exec i s = .next (s.tensorFired b i l (t 0)) := by
  have hl : l = tokNull := (if_pos hn).mp h.left
  have hlo : l.lo = 0 := by rw [hl]; rfl
  rw [exec_tensor_of_fires hexec hform hvsid h, hlo]

end TensorFire

/-- Settles O30: MMA and MMAS keep the K of their operand, the others have none. -/
theorem tensorInstructionsWaitToIssue : Obligations.TensorInstructionsWaitToIssue := by
  unfold Obligations.TensorInstructionsWaitToIssue
  intro v a5 b5 d5 r5 d a b3 c g pr s b l r
  exact ⟨exec_tensor_of_fires (t := tins 0 d.toNat a.toNat b3.toNat 0 (c == 1) v.toNat) rfl rfl rfl,
    exec_tensor_of_fires (t := tins 1 d.toNat a.toNat b3.toNat 0 (c == 1) v.toNat) rfl rfl rfl,
    exec_tensor_of_fires_without_operand (t := tins 2 d.toNat a5.toNat b5.toNat 0 false v.toNat) rfl rfl rfl rfl,
    exec_tensor_of_fires_without_operand (t := tins 3 d.toNat a5.toNat b5.toNat 0 true v.toNat) rfl rfl rfl rfl,
    exec_tensor_of_fires_without_operand (t := tins 4 d.toNat a5.toNat r5.toNat 0 false v.toNat) rfl rfl rfl rfl,
    exec_tensor_of_fires_without_operand (t := tins 5 d5.toNat d.toNat r5.toNat 0 false v.toNat) rfl rfl rfl rfl,
    exec_tensor_of_fires_without_operand (t := tins 6 d.toNat (a.toNat + 8) g.toNat b3.toNat (c == 1) v.toNat) rfl rfl rfl rfl,
    exec_tensor_of_fires_without_operand (t := tins 7 d.toNat a.toNat b3.toNat 0 false v.toNat) rfl rfl rfl rfl,
    exec_tensor_of_fires_without_operand (t := tins 8 d.toNat a.toNat 0 0 false v.toNat) rfl rfl rfl rfl,
    exec_tensor_of_fires_without_operand (t := tins 9 d.toNat a.toNat 0 0 false v.toNat) rfl rfl rfl rfl⟩

end Sys2Proof.Machine

/-! Tensor operations at issue (R163, R173 to R176). -/
namespace Sys2Proof.Machine

/-! The hart that a step has stored -/

/-- A value other than the default is read back where it was written, whatever the store holds. -/
theorem mget_mset_same {α : Type} [DecidableEq α] {d a : α} (ha : a ≠ d) (m : SMap α) (k : Nat) : mget d (mset d m k a) k = a := by
  induction m with
  | nil => simp [mset, mget, ha]
  | cons p m ih =>
    obtain ⟨j, x⟩ := p
    unfold mset
    rw [if_neg ha, if_neg ha]
    split
    · simp [mget]
    · split
      · simp [mget]
      · next hne =>
        unfold mget
        rwa [if_neg (Ne.symm hne)]

theorem State.hart_setHart_same {n : Nat} (hn : n < 2048) (s : State) (h : Hart) : (s.setHart n h).hart n = h := by
  unfold State.setHart State.hart Dev.setHart Dev.hart Dev.liveHart
  simp only [if_pos hn, mget_mset_same (Option.some_ne_none h)]

theorem Hart.count_nodes (h : Hart) (ev n : Nat) : (h.count ev n).nodes = h.nodes := by
  unfold Hart.count
  split <;> rfl

/-- What resolves and is discarded leaves the tensor operations that have issued. -/
theorem Hart.forward_nodes (h : Hart) : h.forward.nodes = h.nodes := by
  unfold Hart.forward
  split
  · rfl
  · exact Hart.count_nodes _ 3 _

theorem Hart.traced_nodes (old new : Hart) (prod : Option (Nat × Nat)) : (old.traced new prod).nodes = new.nodes := by
  unfold Hart.traced
  split <;> rfl

theorem State.settle_nodes {n : Nat} (hn : n < 2048) (s : State) (src : Option (Nat × Nat)) (h : Hart) :
    ((s.settle n src h).hart n).nodes = h.nodes := by
  unfold State.settle
  rw [State.hart_setHart_same hn, Hart.traced_nodes, Hart.forward_nodes]

/-! The issue of an MMA or MMAS -/

/-- A hart that is held off the tiles stands as under THALT, or there is none and nothing is in flight (R388). -/
theorem Dev.heldHart_quiet (d : Dev) (n : Nat) : (d.heldHart n).thalt = true ∨ (d.heldHart n).blocks = [] := by
  unfold Dev.heldHart
  dsimp only
  split <;> split <;> simp [Saved.heldHart, Hart.reset]

/-- A request that is answered is one of a block in flight, and under THALT one whose reply comes from elsewhere. -/
theorem State.pendingReq_inv {s : State} {n tag idx : Nat} {b : Block} {r : Req} (h : s.pendingReq n tag idx = some (b, r)) :
    (s.hart n).block tag = some b ∧
      ((s.hart n).thalt = true → (if n < 2048 then r.kind.replies else r.kind.asksHome) = true) := by
  unfold State.pendingReq at h
  obtain ⟨-, h⟩ := Option.ite_none_left_eq_some.mp h
  split at h
  · cases h
  · next hblock =>
    obtain ⟨-, h⟩ := Option.ite_none_left_eq_some.mp h
    split at h
    · obtain ⟨hanswers, h⟩ := Option.ite_none_left_eq_some.mp h
      obtain ⟨rfl, rfl⟩ := Prod.mk.inj (Option.some.inj h)
      exact ⟨hblock, fun hthalt => by simpa [hthalt] using hanswers⟩
    · cases h

/-- Only a live hart issues a tensor instruction: its request asks no home, so that none of a held hart is answered. -/
theorem State.lt_of_pendingReq_tensor {s : State} {n tag idx : Nat} {b : Block} {r : Req} {t : TIns}
    (h : s.pendingReq n tag idx = some (b, r)) (hkind : r.kind = .tensor t) : n < 2048 := by
  by_contra hn
  have hheld : s.hart n = s.dev.heldHart n := if_neg hn
  obtain ⟨hblock, hanswers⟩ := State.pendingReq_inv h
  rw [hheld] at hblock hanswers
  obtain hthalt | hblocks := s.dev.heldHart_quiet n
  · simpa [hn, hkind, ReqKind.asksHome, ReqKind.replies] using hanswers hthalt
  · simp [Hart.block, hblocks] at hblock

/-- An operation without elements of A to take begins with none (log 56). -/
def TOp.begun (o : TOp) : TOp := if decide (o.qa = 0) then { o with ea := [], sa := [] } else o

theorem TOp.begun_eq (o : TOp) :
    o.begun = { o with ea := if o.qa = 0 then [] else o.ea, sa := if o.qa = 0 then [] else o.sa } := by
  unfold TOp.begun
  by_cases hqa : o.qa = 0 <;> simp [hqa]

/-- The operation that an MMA or MMAS begins with the head entries `ea` and `eb` of its ports (R173 to R175). -/
def State.mmaBegun (s : State) (hn : Nat) (b : Block) (idx : Nat) (t : TIns) (ea eb : Entry) : TOp :=
  let h := s.hart hn
  TOp.begun
    { op := t.op, md := t.d, pa := t.a, pb := t.b, k := t.k.toNat, rows := h.mrows.toNat, cols := h.mcols.toNat, acc := t.flag,
      ta := ea.tag.toNat, tb := eb.tag.toNat, ea := unpackEntry ea.tag.toNat ea.val, eb := [], sa := ea.scl, sb := [],
      block := b.addr, slot := b.tag, seq := b.seq, idx := idx, status := h.status, book := s.bookOf hn b }

/-- What the issue of any other tensor instruction leaves: the mismatch it has met, or its effect, with its VSID resolved. -/
def State.issued (s : State) (hn tag idx : Nat) (b : Block) (vsid : Nat) (x : TRes) : State :=
  match x with
  | .clash d => s.setHart hn ((s.hart hn).putBlock ((b.dropReq idx).fault 0x40 idx d 0))
  | .ok h1 b1 => s.settle hn (some (tag, idx)) (h1.putBlock ((b1.dropReq idx).resolveV idx (some vsid)))

section Issue
variable {s : State} {hn tag idx : Nat} {b : Block} {r : Req} {t : TIns} (hreq : s.pendingReq hn tag idx = some (b, r))
  (hkind : r.kind = .tensor t) (hold : (s.hart hn).isOldest tag = true) (hturn : b.vsidTurn t.vsid = true)
include hreq hkind hold hturn

theorem exec_tensorIssue_of_stream (hop : t.op ≤ 1) : exec (.tensorIssue hn tag idx) s = .next (s.issueMma hn tag b r t) := by
  show execTensorIssue hn tag idx s = _
  simp [execTensorIssue, hreq, hkind, hold, hturn, hop]

/-- The others issue where their nodes are free, an MSTO with the node's buffer empty too (R161, log 56). -/
theorem exec_tensorIssue_of_free (hop : 2 ≤ t.op) (hnodes : (s.hart hn).nodesFree t.regs = true)
    (hbuffer : t.op = 6 → (s.hart hn).mout.any (fun o => o.node == t.d / 2) = false) :
    exec (.tensorIssue hn tag idx) s = .next (s.issued hn tag idx b t.vsid (issueNow (s.hart hn) b t ((s.hart hn).nenv idx))) := by
  have hfree : (t.op == 6 && (s.hart hn).mout.any fun o => o.node == t.d / 2) = false := by simpa using hbuffer
  show execTensorIssue hn tag idx s = _
  cases hnow : issueNow (s.hart hn) b t ((s.hart hn).nenv idx) <;>
    simp [execTensorIssue, State.issued, hreq, hkind, hold, hturn, Nat.not_le.mpr hop, hnodes, hfree, hnow]

end Issue

section Begin
variable {s : State} {hn tag idx : Nat} {b : Block} {r : Req} {t : TIns} {ea eb : Entry}
  (hnode : (s.hart hn).nodesFree [t.d] = true)
  (hports : ∀ k ∈ [t.a, t.b], (s.hart hn).portBusy k = false ∧ (s.mt (placeOfHart hn)).waits k = false ∧
    popsOf (s.hart (otherHart hn)).blocks k = 0 ∧ (readSlots b.hdr).all (fun x => x.reg != 0x40 + k || b.injected.contains x.k) = true)
  (hea : s.streamHead hn t.a = some ea) (heb : s.streamHead hn t.b = some eb) (hcheck : s.mmaCheck hn t ea eb = none)
include hnode hports hea heb hcheck

/-- An MMA or MMAS that finds its node and its ports free and passes its checks puts its operation on the node. -/
theorem State.issueMma_of_check (tag : Nat) (r : Req) :
    ∃ (u : State) (h1 : Hart), s.issueMma hn tag b r t = u.settle hn (some (tag, r.idx)) h1 ∧ s.mmaBegun hn b r.idx t ea eb ∈ h1.nodes := by
  obtain ⟨⟨ha1, ha2, ha3, ha4⟩, hb1, hb2, hb3, hb4⟩ := (List.forall_mem_cons.mp hports).imp_right fun h => List.forall_mem_singleton.mp h
  unfold State.issueMma
  simp only [hnode, ha1, ha2, ha3, ha4, hb1, hb2, hb3, hb4, hea, heb, hcheck, beq_self_eq_true, Bool.not_true, Bool.not_false, Bool.and_self,
    Bool.or_self, Bool.false_eq_true, if_false]
  exact ⟨_, _, rfl, List.mem_append_right _ (List.mem_singleton.mpr rfl)⟩

theorem exec_tensorIssue_begins (hreq : s.pendingReq hn tag idx = some (b, r)) (hkind : r.kind = .tensor t)
    (hold : (s.hart hn).isOldest tag = true) (hturn : b.vsidTurn t.vsid = true) (hop : t.op ≤ 1) :
    ∃ u, exec (.tensorIssue hn tag idx) s = .next u ∧ s.mmaBegun hn b r.idx t ea eb ∈ (u.hart hn).nodes := by
  obtain ⟨u, h1, hissue, hmem⟩ := State.issueMma_of_check hnode hports hea heb hcheck tag r
  refine ⟨_, exec_tensorIssue_of_stream hreq hkind hold hturn hop, ?_⟩
  rwa [hissue, State.settle_nodes (State.lt_of_pendingReq_tensor hreq hkind)]

end Begin

/-! Tensor operations on their nodes (R163, R176, R185) -/

section Node
variable {s : State} {hn node : Nat} {o : TOp} (hlive : hn < 2048) (hflows : (s.hart hn).thalt = false)
  (hnode : (s.hart hn).nodes.find? (fun o => o.md / 2 == node) = some o)
include hlive hflows hnode

/-- An operation that has not stopped takes its next entry of A where one is there, else of B. -/
theorem exec_mmaEntryConsume_of_node : exec (.mmaEntryConsume hn node) s =
    .next (if o.stop then s
      else if o.ea.length < o.qa ∧ (s.streamHead hn o.pa).isSome = true then s.consume hn o true
      else if o.eb.length < o.qb then s.consume hn o false else s) := by
  show execMmaEntryConsume hn node s = _
  unfold execMmaEntryConsume
  simp only [hflows, Nat.not_le.mpr hlive, hnode, decide_false, Bool.or_self, Bool.false_eq_true, if_false]

/-- An operation whose streams have been taken whole completes; scales that nobody delivered are free values (log 3). -/
theorem exec_tensorOpComplete_of_taken (ha : o.qa ≤ o.ea.length) (hb : o.qb ≤ o.eb.length) :
    let done := s.setHart hn ((s.hart hn).finishMma o s.dev.fresh)
    let used := if o.op = 1 ∧ (o.sa.length < o.groups * o.rows ∨ o.sb.length < o.groups * o.cols) then o.groups * (o.rows + o.cols) else 0
    exec (.tensorOpComplete hn node) s =
      .next ((({ done with dev := { done.dev with fresh := done.dev.fresh + used } } : State).unbusy hn).portsChanged (placeOfHart hn)) := by
  show execTensorOpComplete hn node s = _
  unfold execTensorOpComplete
  simp only [hflows, Nat.not_le.mpr hlive, hnode, Nat.not_lt.mpr ha, Nat.not_lt.mpr hb, or_self, decide_false, Bool.or_self, Bool.false_eq_true, if_false]

end Node

/-! The output of an MSTO (R181, R182): the one snapshot of its node, whose block has committed and follows no change of its port -/

/-- Nothing of the snapshot is left to push: it leaves its node and frees its accumulator. -/
def State.mstoDone (s : State) (hn : Nat) (h : Hart) (acc : Nat) : State :=
  ((s.setHart hn (({ h with mout := [] } : Hart).opDone acc)).unbusy hn).portsChanged (placeOfHart hn)

section Push
variable {s : State} {hn node : Nat} {o : MOut} (hlive : hn < 2048) (hmout : (s.hart hn).mout = [o]) (hcommitted : o.live = true)
  (hbehind : o.behind = 0) (hnode : o.node = node)
include hlive hmout hcommitted hbehind hnode

theorem exec_mstoEntryPush_of_empty (hents : o.ents = []) :
    exec (.mstoEntryPush hn node) s = .next (s.mstoDone hn (s.hart hn) o.acc) := by
  show execMstoEntryPush hn node s = _
  simp [execMstoEntryPush, State.mstoDone, Nat.not_le.mpr hlive, hmout, hcommitted, hbehind, hnode, hents]

variable {e : Entry} {es : List Entry} (hents : o.ents = e :: es) (hheld : (s.hart hn).storesHeld = false)
  (hroom : (s.port (placeOfHart hn) o.port).q.length < 16)
include hents hheld hroom

theorem exec_mstoEntryPush_of_room : exec (.mstoEntryPush hn node) s =
    .next (let t := s.pushEntry (placeOfHart hn) o.port e
      if es.isEmpty then t.mstoDone hn (s.hart hn) o.acc
      else t.setHart hn { s.hart hn with mout := [{ o with ents := es }] }) := by
  show execMstoEntryPush hn node s = _
  simp [execMstoEntryPush, State.mstoDone, Nat.not_le.mpr hlive, hmout, hcommitted, hbehind, hnode, hents, hheld, Nat.not_le.mpr hroom]

end Push

/-! The mode of a node (R185, R434) -/

theorem exec_matrixNodeModeChange_of_running {s : State} {hn node : Nat}
    (h : (s.hart hn).nodes.any (fun o => o.md / 2 == node && !o.atBoundary) = true) : exec (.matrixNodeModeChange hn node) s = .next s := by
  show execMatrixNodeModeChange hn node s = _
  simp [execMatrixNodeModeChange, h]

theorem exec_matrixNodeModeChange_of_boundary {s : State} {hn node : Nat} (hlive : hn < 2048)
    (h : (s.hart hn).nodes.any (fun o => o.md / 2 == node && !o.atBoundary) = false) :
    let c := s.hart hn
    let slow : BitVec 4 := if s.dev.valarm.getLsbD 32 then c.slow ||| BitVec.ofNat 4 (2 ^ node) else c.slow &&& ~~~BitVec.ofNat 4 (2 ^ node)
    exec (.matrixNodeModeChange hn node) s =
      .next (s.setHart hn { c with slow := slow, narrow := if slow = 0xF then true else if slow = 0 then false else c.narrow }) := by
  show execMatrixNodeModeChange hn node s = _
  unfold execMatrixNodeModeChange
  simp only [h, Nat.not_le.mpr hlive, decide_false, Bool.or_self, Bool.false_eq_true, if_false]

end Sys2Proof.Machine

/-! Port entries and credits on their way (R277, R299, R395). -/
namespace Sys2Proof.Machine

/-! An inbound port -/

theorem exec_portEntryDeliver_lands {s : State} {p n : Nat} {e : Entry} {es : List Entry} (hn : n < 8) (hbind : (s.port p n).bind ≠ 0)
    (hlink : (s.port p n).link = e :: es) (hroom : (s.port p n).q.length < 16) :
    let q := s.port p n
    exec (.portEntryDeliver p n) s =
      .next ((s.setPort p n (({ q with link := es, linkOwed := q.linkOwed + 1 } : Port).enq e)).portsChanged p) := by
  show execPortEntryDeliver p n s = _
  simp only [execPortEntryDeliver, State.landEntry, if_pos hn, hlink, if_pos (And.intro hbind hroom)]

theorem exec_portCreditReturn_of_linkOwed {s : State} {p n : Nat} (hn : n < 8) (howed : (s.port p n).linkOwed ≠ 0) :
    exec (.portCreditReturn p n) s = .next (s.setPort p n { s.port p n with linkOwed := (s.port p n).linkOwed - 1 }) := by
  show execPortCreditReturn p n s = _
  simp [execPortCreditReturn, Nat.not_le.mpr hn, howed]

/-! A port of an agreed binding -/

section Agreed
variable {s : State} {p n r m : Nat} (hagreed : (s.port p n).agreed = true) (hagree : s.agree p n = true)
  (hpeer : s.peerOf p n = some (r, m))
include hagreed hagree hpeer

theorem exec_portEntryDeliver_sends {e : Entry} {es : List Entry} (hn : 8 ≤ n) (hcredit : (s.port p n).credit ≠ 0)
    (hlink : (s.port r m).linkCredits ≠ 0) (hq : (s.port p n).q = e :: es) (hepoch : e.epoch = none ∨ e.epoch = some (s.port p n).key) :
    let t := s.setPort p n { s.port p n with q := es, credit := (s.port p n).credit - 1 }
    let i := t.port r m
    exec (.portEntryDeliver p n) s =
      .next (s.waitOver ((t.setPort r m { i with link := i.link ++ [{ e with epoch := none }] }).tryLeave p) p) := by
  have hkey : ¬(e.epoch.isSome = true ∧ e.epoch ≠ some (s.port p n).key) := by
    rintro ⟨hsome, hne⟩
    obtain hnone | hsame := hepoch
    · simp [hnone] at hsome
    · exact hne hsame
  show execPortEntryDeliver p n s = _
  simp only [execPortEntryDeliver, State.sendEntry, if_neg (Nat.not_lt.mpr hn), hagreed, hagree, hpeer, hcredit, hlink, hq, hkey,
    Bool.true_eq_false, or_self, if_false]

theorem exec_portCreditReturn_of_owed (hn : n < 8) (hlink : (s.port p n).linkOwed = 0) (howed : (s.port p n).owed ≠ 0) :
    let t := s.setPort p n { s.port p n with owed := (s.port p n).owed - 1 }
    let o := t.port r m
    exec (.portCreditReturn p n) s =
      .next (t.setPort r m { o with credit := if o.credit.toNat < 16 then o.credit + 1 else o.credit }) := by
  show execPortCreditReturn p n s = _
  simp [execPortCreditReturn, Nat.not_le.mpr hn, hlink, howed, hagreed, hagree, hpeer]

end Agreed

end Sys2Proof.Machine

/-! AGEs (R255 to R258). -/
namespace Sys2Proof.Machine

/-! The record between two reads of its seal (R255) -/

section Fetch
variable {s s1 : State} {p a zone : Nat} {rec : Dbl} {bs : List Byte} (hfetch : (s.age p a).fetch = some (zone, rec))
  (hstate : (s.age p a).state = 1) (hfree : s.ageHeld p = false)
  (hread : s.readHomeAll (s.age p a).ctx p zone (rec + BitVec.ofNat 64 0) 8 = (s1, .bytes bs))
  (hsame : s1.age p a = s.age p a)
include hfetch hstate hfree hread hsame

theorem exec_ageRecordFetch_of_nothing (hrec : (s.age p a).record = []) :
    exec (.ageRecordFetch p a) s = .next (s1.setAge p a { s.age p a with record := bs }) := by
  show execAgeRecordFetch p a s = _
  simp only [execAgeRecordFetch, hfetch, hstate, hfree, hrec, hread, hsame, ne_eq, not_true_eq_false, Bool.false_eq_true, or_self, if_false,
    List.length_nil, OfNat.zero_ne_ofNat, Nat.zero_lt_succ, if_true, List.nil_append]

theorem exec_ageRecordFetch_of_whole (hrec : (s.age p a).record.length = 128) (hseal : bs = (s.age p a).record.take 8)
    (hvalid : (s.age p a).invalid = none) :
    exec (.ageRecordFetch p a) s = .next (s1.setAge p a { s.age p a with fetch := none }) := by
  subst hseal
  show execAgeRecordFetch p a s = _
  simp only [execAgeRecordFetch, hfetch, hstate, hfree, hrec, hread, hsame, hvalid, ne_eq, not_true_eq_false, Bool.false_eq_true, or_self, if_false,
    Nat.reduceEqDiff, Nat.lt_irrefl]

end Fetch

/-! Readers (R257) -/

theorem exec_ageElementDeliver_of_runs {s s1 : State} {p a : Nat} {bs : List Byte} (hruns : s.ageRuns p a = true)
    (hfetch : (s.age p a).fetch = none) (hreader : (s.age p a).isWriter = false) (hmore : (s.age p a).exhausted = false)
    (haligned : (s.age p a).misaligned = false) (hroom : (s.port p (s.age p a).port.toNat).q.length < 16) (hscale : (s.age p a).scaleDue = false)
    (hread : let g := s.age p a
      let span := bitSpan g.bitAddr g.bits
      s.readHomeAll g.ctx p g.zone span.1 span.2.1 = (s1, .bytes bs)) :
    let g := s.age p a
    exec (.ageElementDeliver p a) s = .next (s1.ageAdd p a (leNat bs / 2 ^ (bitSpan g.bitAddr g.bits).2.2 % 2 ^ g.bits) none) := by
  show execAgeElementDeliver p a s = _
  simp [execAgeElementDeliver, hruns, hfetch, hreader, hmore, haligned, Nat.not_le.mpr hroom, hscale, hread]

/-! Writers (R257) -/

theorem State.ageWrites_of_runs {s : State} {p a : Nat} (hruns : s.ageRuns p a = true) (hfetch : (s.age p a).fetch = none)
    (hwriter : (s.age p a).isWriter = true) : s.ageWrites p a = true := by
  unfold State.ageWrites
  rw [hruns, hfetch, hwriter]
  rfl

theorem State.ageGoes_of_part {s : State} {p a x : Nat} {rest : List Nat} (hwrites : s.ageWrites p a = true)
    (hmore : (s.age p a).exhausted = false) (hpart : (s.age p a).part = x :: rest) : s.ageGoes p a = true := by
  simp [State.ageGoes, hwrites, hmore, hpart]

/-! A writer that can go on does so while nothing is posted, or beside what is posted where the free value says so (log 34). -/

section GoesOn
variable {s : State} {p a : Nat} (hgoes : s.ageGoes p a = true)
  (hfree : (s.age p a).out = [] ∨ (Config.freeValue s.dev.fresh).getLsbD 63 = false)
include hgoes

theorem State.ageWrites_of_goes : s.ageWrites p a = true ∧ (s.age p a).exhausted = false := by
  unfold State.ageGoes at hgoes
  simp only [Bool.and_eq_true, Bool.not_eq_true'] at hgoes
  exact hgoes.1

include hfree

theorem State.age_goes_on : (!(s.age p a).out.isEmpty && (!s.ageGoes p a || (Config.freeValue s.dev.fresh).getLsbD 63)) = false := by
  obtain h | h := hfree
  · rw [h]; rfl
  · rw [hgoes, h]; exact Bool.and_false _

theorem exec_ageElementWrite_pops (hpart : (s.age p a).part = []) :
    exec (.ageElementWrite p a) s = .next ((if (s.age p a).out = [] then s else s.freshened).agePop p a) := by
  obtain ⟨hwrites, hmore⟩ := State.ageWrites_of_goes hgoes
  show execAgeElementWrite p a s = _
  simp only [execAgeElementWrite, State.age_goes_on hgoes hfree, hwrites, hmore, hpart, Bool.not_true, Bool.false_eq_true, if_false,
    List.isEmpty_iff]

theorem exec_ageElementWrite_posts {x : Nat} {rest : List Nat} (hpart : (s.age p a).part = x :: rest)
    (haligned : (s.age p a).misaligned = false) : exec (.ageElementWrite p a) s =
      .next ((if (s.age p a).out = [] then s else s.freshened).agePost p a rest ((s.age p a).store x)) := by
  obtain ⟨hwrites, hmore⟩ := State.ageWrites_of_goes hgoes
  show execAgeElementWrite p a s = _
  simp only [execAgeElementWrite, State.age_goes_on hgoes hfree, hwrites, hmore, hpart, haligned, Bool.not_true, Bool.false_eq_true, if_false,
    List.isEmpty_iff]

end GoesOn

/-! Else one of those posted is performed. -/

theorem exec_ageElementWrite_performs {s : State} {p a : Nat} {e : AgeStore} (hpick : (s.age p a).out[s.agePick p a]? = some e)
    (hturn : s.ageGoes p a = false ∨ (Config.freeValue s.dev.fresh).getLsbD 63 = true) :
    exec (.ageElementWrite p a) s = .next (s.freshened.agePerform p a (s.agePick p a)) := by
  have hout : (s.age p a).out.isEmpty = false := by
    refine List.isEmpty_eq_false_iff.mpr fun hnil => ?_
    simp [hnil] at hpick
  have hperforms : (!s.ageGoes p a || (Config.freeValue s.dev.fresh).getLsbD 63) = true := by
    obtain h | h := hturn
    · rw [h]; rfl
    · rw [h, Bool.or_true]
  show execAgeElementWrite p a s = _
  simp only [execAgeElementWrite, hout, hperforms, Bool.not_false, Bool.and_self, Bool.false_eq_true, if_true, if_false]

section Perform
variable {s s1 : State} {p a i : Nat} {e : AgeStore} (hpick : (s.age p a).out[i]? = some e)
include hpick

theorem State.agePerform_of_bytes {bs : List Byte} (hwrite : s.writeElem (s.age p a).ctx p e.zone e.va e.data (ageWriter p a) = (s1, .bytes bs))
    (hsame : (s1.age p a).state = (s.age p a).state) : s.agePerform p a i = s1.ageWrote p a i := by
  simp only [State.agePerform, hpick, hwrite, hsame, if_true]

theorem State.agePerform_of_fault {c pa : Nat}
    (hwrite : s.writeElem (s.age p a).ctx p e.zone e.va e.data (ageWriter p a) = (s1, .fault c pa)) :
    s.agePerform p a i = (s1.ageRewind p a i).ageAccessFault p a c pa 6 e.data.length e.zone e.va := by
  simp only [State.agePerform, hpick, hwrite]

end Perform

/-! Resume and stop (R258, R280, R376) -/

theorem exec_ageResume_unbound {s : State} {p a : Nat} (hstate : (s.age p a).state = 2) (hsent : s.dev.sending 2 p a = false)
    (hport : s.agePort p a = none) : exec (.ageResume p a) s = .next (s.runAge p a (s.age p a)) := by
  show execAgeResume p a s = _
  simp only [execAgeResume, hstate, hsent, hport, true_or, and_self, if_true]

theorem exec_ageResume_bound {s : State} {p a n : Nat} (hstate : (s.age p a).state = 2 ∨ (s.age p a).state = 3)
    (hsent : s.dev.sending 2 p a = false) (hport : s.agePort p a = some n) (hside : n < 8 ↔ (s.age p a).port.toNat < 8) :
    exec (.ageResume p a) s = .next (s.runAge p a { s.age p a with port := BitVec.ofNat 4 n }) := by
  show execAgeResume p a s = _
  simp only [execAgeResume, hstate, hsent, hport, hside, Option.isSome_some, and_true, and_self, if_true]

theorem exec_ageStop_of_active {s : State} {p a : Nat} (hstate : (s.age p a).state = 1) :
    exec (.ageStop p a) s = .next (s.setAge p a { s.age p a with state := 3 }) :=
  congrArg Host.Outcome.next (if_pos hstate)

end Sys2Proof.Machine

/-! The steps of tensor nodes, ports and AGEs. -/
namespace Sys2Proof.Machine

/-- Settles O55: each clause is what its event does under the conditions that the clause names. -/
theorem tilesStep : Obligations.TilesStep := by
  unfold Obligations.TilesStep
  intro hart tag idx node p a n s s1 b r t bs
  refine ⟨?issue, ?node, ?push, ?running, ?boundary, ?port, ?age⟩
  case issue =>
    intro hreq hkind hold hturn
    refine ⟨?stream, ?now⟩
    case stream =>
      intro ea eb hop hnode hports hea heb hcheck
      obtain ⟨u, hexec, hmem⟩ := exec_tensorIssue_begins hnode hports hea heb hcheck hreq hkind hold hturn hop
      rw [State.mmaBegun, TOp.begun_eq] at hmem
      exact ⟨u, hexec, _, hmem, rfl, rfl, rfl, rfl, rfl, rfl, rfl, rfl, rfl, rfl, rfl, rfl, rfl, rfl, rfl⟩
    case now =>
      intro hop hnodes hbuffer
      have hissue := exec_tensorIssue_of_free hreq hkind hold hturn hop hnodes hbuffer
      exact ⟨fun h1 b1 hnow => by rw [hissue, hnow]; rfl, fun x hnow => by rw [hissue, hnow]; rfl⟩
  case node =>
    intro o hlive hflows hnode
    have hconsume := exec_mmaEntryConsume_of_node hlive hflows hnode
    refine ⟨fun hstop => ?stopped, fun hstop ha hhead => ?left, fun hstop ha hb => ?right, fun hop ha hb => ?mma, fun hop ha hb => ?mmas⟩
    case stopped => rw [hconsume, if_pos hstop]
    case left => rw [hconsume, if_neg (ne_true_of_eq_false hstop), if_pos ⟨ha, hhead⟩]
    case right => rw [hconsume, if_neg (ne_true_of_eq_false hstop), if_neg (by omega), if_pos hb]
    case mma =>
      rw [exec_tensorOpComplete_of_taken hlive hflows hnode ha hb, if_neg (by omega)]
      rfl
    case mmas =>
      rw [exec_tensorOpComplete_of_taken hlive hflows hnode ha hb]
      simp only [hop, true_and]
  case push =>
    intro o e hlive hmout hcommitted hbehind hnode
    exact ⟨exec_mstoEntryPush_of_empty hlive hmout hcommitted hbehind hnode, fun hheld hroom =>
      ⟨fun hents => exec_mstoEntryPush_of_room hlive hmout hcommitted hbehind hnode hents hheld hroom,
        fun e2 es hents => exec_mstoEntryPush_of_room hlive hmout hcommitted hbehind hnode hents hheld hroom⟩⟩
  case running => exact exec_matrixNodeModeChange_of_running
  case boundary => exact fun hlive h => ⟨_, exec_matrixNodeModeChange_of_boundary hlive h, rfl, rfl, rfl⟩
  case port =>
    refine ⟨fun e es => exec_portEntryDeliver_lands, exec_portCreditReturn_of_linkOwed, fun r m hagreed hagree hpeer => ?_⟩
    exact ⟨fun e es => exec_portEntryDeliver_sends hagreed hagree hpeer, exec_portCreditReturn_of_owed hagreed hagree hpeer⟩
  case age =>
    refine ⟨?fetch, ?run, fun hgoes hpart hfree => exec_ageElementWrite_pops hgoes hfree hpart, ?perform, exec_ageResume_unbound, exec_ageResume_bound, exec_ageStop_of_active⟩
    case fetch =>
      intro zone rec hfetch hstate hfree
      exact ⟨fun hrec hread hsame => exec_ageRecordFetch_of_nothing hfetch hstate hfree hread hsame hrec,
        fun hrec hread hsame => exec_ageRecordFetch_of_whole hfetch hstate hfree hread hsame hrec rfl⟩
    case run =>
      intro hruns hfetch hmore haligned
      refine ⟨fun hreader hroom hscale => exec_ageElementDeliver_of_runs hruns hfetch hreader hmore haligned hroom hscale, ?first, ?beside⟩
      case first =>
        intro x rest hwriter hpart hout
        have hgoes := State.ageGoes_of_part (State.ageWrites_of_runs hruns hfetch hwriter) hmore hpart
        rw [exec_ageElementWrite_posts hgoes (.inl hout) hpart haligned, if_pos hout]
        simp only [State.agePost, hout, List.nil_append]
      case beside =>
        intro x rest hwriter hpart hout hfree
        have hgoes := State.ageGoes_of_part (State.ageWrites_of_runs hruns hfetch hwriter) hmore hpart
        rw [exec_ageElementWrite_posts hgoes (.inr hfree) hpart haligned, if_neg hout]
        rfl
    case perform =>
      intro e c pa hpick hturn
      have hpick' : (s.freshened.age p a).out[s.agePick p a]? = some e := hpick
      rw [exec_ageElementWrite_performs hpick hturn]
      exact ⟨fun hwrite hsame => congrArg _ (State.agePerform_of_bytes hpick' hwrite hsame),
        fun hwrite => congrArg _ (State.agePerform_of_fault hpick' hwrite)⟩

end Sys2Proof.Machine

/-! Memory instructions at fire (R193, R213, R232 to R241). What the checks at fire read of the core stands as it did before the firing was counted; an access
that meets no fault there leaves its request or holds its stores. -/
namespace Sys2Proof.Machine

theorem fireCauses_count_putBlock (d : Dev) (hn : Nat) (h : Hart) (ev n : Nat) (b : Block) (ps : List Probe) :
    fireCauses d hn ((h.count ev n).putBlock b) ps = fireCauses d hn h ps := by
  unfold Hart.count
  split <;> rfl

theorem aligned_eq_decide (va : Dbl) (n : Nat) : aligned va n = decide (va.toNat % n = 0) := beq_eq_decide _ _

/-- The core of the focus once the firing has been counted and its block marked (R23, R359). -/
def State.countedHart (s : State) (b : Block) : Hart := ((s.hart s.dev.focus.hart).count 5 1).putBlock (b.markFired s.dev.focus.idx)

/-- The counted core meets no fault where the core before meets none. -/
theorem fireCauses_countedHart_of_clear {s : State} {ps : List Probe} (h : clear s ps) (b : Block) :
    fireCauses s.dev s.dev.focus.hart (s.countedHart b) ps = none :=
  (fireCauses_count_putBlock ..).trans h

/-- A firing may be told by what its effect makes of the counted core and the marked block. -/
theorem State.fired_congr {s : State} {b : Block} {g k : Hart → Block → Hart}
    (h : g (s.countedHart b) (b.markFired s.dev.focus.idx) = k (s.countedHart b) (b.markFired s.dev.focus.idx)) :
    s.fired b g = s.fired b k := by
  unfold State.countedHart Block.markFired at h
  unfold State.fired
  dsimp only
  rw [h]

theorem State.firedBlock_congr {s : State} {b : Block} {g k : Block → Block}
    (h : g (b.markFired s.dev.focus.idx) = k (b.markFired s.dev.focus.idx)) : s.firedBlock b g = s.firedBlock b k :=
  State.fired_congr (congrArg _ h)

/-- An operand that the form has is null (R111, R233). -/
def nullOperand (operands : Nat) (l r : Token) : Bool := (decide (1 ≤ operands) && l.null) || (decide (2 ≤ operands) && r.null)

theorem nullOperand_one (l r : Token) : nullOperand 1 l r = l.null := Bool.or_false _

/-- What a memory instruction with a null operand makes of its block: its identifiers resolve, and it sends a null token (R233). -/
def Block.sendNull (b : Block) (idx : Nat) (f : Form) (t0 : BitVec 9) : Block := ((b.resolveL idx f.lsid).resolveV idx f.vsid).deliver t0 tokNull

section FireMem
variable {s : State} {f : Form} {b : Block} {l r : Token} {zone : Nat} {zs : BitVec 2} {t0 : BitVec 9}
  (h : Fires s f b l r) (hzone : (s.hart s.dev.focus.hart).zoneFor s.dev.focus.tag zs.toNat = some zone)
include h hzone

/-- A memory instruction that can fire with its zone decided has its own effect, but for a null operand (R233). -/
theorem State.fireMem_of_fires (g : Nat → Hart → Block → Token → Token → Hart) :
    s.fireMem f zs t0 g = s.fired b fun h1 b1 =>
      if nullOperand f.operands l r then h1.putBlock (b1.sendNull s.dev.focus.idx f t0) else g zone h1 b1 l r := by
  rw [State.fireMem]
  simp only [hzone]
  exact fire_of_fires h _

/-- The effect on live operands may be told by what it makes of the counted core and the marked block. -/
theorem State.fireMem_of_fires_of_eq {g : Nat → Hart → Block → Token → Token → Hart} {k : Hart → Block → Hart}
    (hlive : nullOperand f.operands l r = false →
      g zone (s.countedHart b) (b.markFired s.dev.focus.idx) l r = k (s.countedHart b) (b.markFired s.dev.focus.idx)) :
    s.fireMem f zs t0 g = s.fired b fun h1 b1 =>
      if nullOperand f.operands l r then h1.putBlock (b1.sendNull s.dev.focus.idx f t0) else k h1 b1 := by
  rw [State.fireMem_of_fires h hzone]
  refine State.fired_congr ?_
  cases hnull : nullOperand f.operands l r with
  | true => rfl
  | false => exact hlive hnull

/-- An access that meets no fault leaves its request. -/
theorem State.fireMem_issue_of_clear {kind : Nat} {ps : List Probe} {req : Req} {probes : Nat → Token → Token → List Probe}
    {leave : Nat → Token → Token → Req} (hps : probes zone l r = ps) (hreq : leave zone l r = req)
    (hclear : nullOperand f.operands l r = true ∨ clear s ps) :
    s.fireMem f zs t0 (fun z h b l r => issue s.dev s.dev.focus.hart h b kind (probes z l r) (leave z l r)) = s.firedBlock b fun b1 =>
      if nullOperand f.operands l r then b1.sendNull s.dev.focus.idx f t0 else b1.addReq req := by
  rw [State.fireMem_of_fires_of_eq h hzone (k := fun h1 b1 => h1.putBlock (b1.addReq req))]
  · simp only [State.firedBlock, apply_ite]
  · intro hlive
    have hnone := fireCauses_countedHart_of_clear (hclear.resolve_left (ne_true_of_eq_false hlive)) b
    simp only [hps, hreq, issue, hnone]

/-- Stores that meet no fault are held, their LSID resolves, and each is looked for in what the younger blocks have loaded (R212, R213). -/
theorem State.fireMem_hold_of_clear {lsid : Nat} {ps : List Probe} {ts : List St} {g : Nat → Hart → Block → Token → Token → Hart}
    {held : Block → Block}
    (hg : nullOperand f.operands l r = false → g zone (s.countedHart b) (b.markFired s.dev.focus.idx) l r =
      holdStores s s.dev.focus.hart (s.countedHart b) (held (b.markFired s.dev.focus.idx)) s.dev.focus.idx lsid ps ts)
    (hclear : nullOperand f.operands l r = true ∨ clear s ps) :
    s.fireMem f zs t0 g = s.fired b fun h1 b1 =>
      if nullOperand f.operands l r then h1.putBlock (b1.sendNull s.dev.focus.idx f t0)
      else ts.foldl (fun h t => h.violate (s.namesOf s.dev.focus.hart) (held b1).tag t.zone t.va t.size)
        (h1.putBlock (({ held b1 with stores := (held b1).stores ++ ts } : Block).resolveL s.dev.focus.idx (some lsid))) := by
  refine State.fireMem_of_fires_of_eq h hzone fun hlive => (hg hlive).trans ?_
  have hnone := fireCauses_countedHart_of_clear (hclear.resolve_left (ne_true_of_eq_false hlive)) b
  simp only [holdStores, hnone]

end FireMem

end Sys2Proof.Machine

/-! Scalar stores, STN4 and REL (R212, R238, R239, R247). -/
namespace Sys2Proof.Machine

/-- What a store of `n` bytes asks at fire (R234, R235). -/
def storeProbe (zone : Nat) (va : Dbl) (n : Nat) : Probe :=
  { zone := zone, va := va, size := n, good := inLine va n, rd := false, wr := true, stack := true }

/-- What a REL asks at fire: it names a whole line and reads as well as writes (R218, R247). -/
def relProbe (zone : Nat) (va : Dbl) : Probe :=
  { zone := zone, va := va, size := 64, good := aligned va 64, rd := true, wr := true, stack := true }

/-- Block `b` holding one store `t`, for which `n` bytes are looked for in what the younger blocks have loaded (R212, R213); a null operand holds none. -/
def State.storeFired (s : State) (b : Block) (l r : Token) (t : St) (n : Nat) : State :=
  s.fired b fun h b1 =>
    if l.null || r.null then h.putBlock (b1.resolveL s.dev.focus.idx (some t.lsid))
    else (h.putBlock (({ b1 with stores := b1.stores ++ [t] } : Block).resolveL s.dev.focus.idx (some t.lsid))).violate
      (s.namesOf s.dev.focus.hart) b1.tag t.zone t.va n

section ScalarStore
variable {s : State} {b : Block} {l r : Token} {zone : Nat} {lsid : BitVec 5} {z o pr : BitVec 2}
  (h : Fires s ⟨pr, 2, false, some lsid.toNat, none, .whole⟩ b l r)
  (hzone : (s.hart s.dev.focus.hart).zoneFor s.dev.focus.tag z.toNat = some zone)
include h hzone

theorem scalarStore_of_fires {off : Dbl} {data : Token → List (Byte × Byte)} {bs : List (Byte × Byte)} (hdata : data r = bs)
    (hclear : l.null = true ∨ r.null = true ∨ clear s [storeProbe zone (l.lo + off) bs.length]) :
    scalarStore s lsid z o pr off data = .next (s.storeFired b l r
      ⟨s.dev.focus.idx, lsid.toNat, 2 ^ o.toNat - 1, zone, l.lo + off, bs, false⟩ bs.length) := by
  subst hdata
  rw [← or_assoc, ← Bool.or_eq_true] at hclear
  unfold scalarStore
  dsimp only
  rw [State.fireMem_hold_of_clear h hzone (held := id) (fun _ => rfl) hclear]
  rfl

theorem exec_rel_of_fires {off : BitVec 14} (hclear : l.null = true ∨ r.null = true ∨ clear s [relProbe zone (l.lo + off.signExtend 64)]) :
    exec (.rel lsid z o off pr) s = .next (s.storeFired b l r
      ⟨s.dev.focus.idx, lsid.toNat, 2 ^ o.toNat - 1, zone, l.lo + off.signExtend 64, full (natLe 8 r.lo.toNat), true⟩ 8) := by
  rw [← or_assoc, ← Bool.or_eq_true] at hclear
  show execRel lsid z o off pr s = _
  unfold execRel
  dsimp only
  rw [State.fireMem_hold_of_clear h hzone (held := id) (fun _ => rfl) hclear]
  rfl

end ScalarStore

theorem nibbleData_eq (hi : BitVec 1) (k : Token) : nibbleData (hi == 1) k =
    if hi = 1 then [(BitVec.ofNat 8 (16 * (k.val.toNat % 16)), 0xF0)] else [(BitVec.ofNat 8 (k.val.toNat % 16), 0x0F)] := by
  unfold nibbleData
  simp only [beq_iff_eq]

/-- Settles O15: five stores of one form, the nibble of STN4, and the eight bytes that REL will write. -/
theorem storesAreHeldInTheirBlock : Obligations.StoresAreHeldInTheirBlock := by
  unfold Obligations.StoresAreHeldInTheirBlock
  intro lsid z o pr off off13 hi s b l r zone c hzone
  refine ⟨fun h hclear => ?stb, fun h hclear => ?sth, fun h hclear => ?stw, fun h hclear => ?std, fun h hclear => ?stq,
    fun h hclear => ?stn4, fun h hclear => ?rel⟩
  case stb => exact scalarStore_of_fires h hzone rfl hclear
  case sth => exact scalarStore_of_fires h hzone rfl hclear
  case stw => exact scalarStore_of_fires h hzone rfl hclear
  case std => exact scalarStore_of_fires h hzone rfl hclear
  case stq => exact scalarStore_of_fires h hzone rfl hclear
  case stn4 => exact scalarStore_of_fires h hzone (nibbleData_eq hi r) hclear
  case rel =>
    rw [← aligned_eq_decide] at hclear
    exact exec_rel_of_fires h hzone hclear

end Sys2Proof.Machine

/-! Vector stores (R240, R241). -/
namespace Sys2Proof.Machine

/-- A vector store resolves its VSID, holds the stores `ts`, and each is looked for in what the younger blocks have loaded; a null address holds none. -/
def State.vecStoreFired (s : State) (b : Block) (l : Token) (lsid v : BitVec 5) (zone : Nat) (ts : List St) : State :=
  s.fired b fun h b1 =>
    if l.null then h.putBlock ((b1.resolveL s.dev.focus.idx (some lsid.toNat)).resolveV s.dev.focus.idx (some v.toNat))
    else
      let b2 := b1.resolveV s.dev.focus.idx (some v.toNat)
      ts.foldl (fun h t => h.violate (s.namesOf s.dev.focus.hart) b1.tag zone t.va t.data.length)
        (h.putBlock (({ b2 with stores := b2.stores ++ ts } : Block).resolveL s.dev.focus.idx (some lsid.toNat)))

theorem Block.resolveV_tag (b : Block) (idx : Nat) (n : Option Nat) : (b.resolveV idx n).tag = b.tag := by
  unfold Block.resolveV
  split
  · rfl
  · split <;> rfl

/-- The stores of one vector store all write their own data, in one zone. -/
theorem foldl_violate_vecStores (names : Nat → Dbl → Nat × Dbl) (h : Hart) (tag idx lsid ord zone : Nat) (xs : List (Dbl × List (Byte × Byte))) :
    let ts : List St := xs.map fun p => ⟨idx, lsid, ord, zone, p.1, p.2, false⟩
    ts.foldl (fun h t => h.violate names tag t.zone t.va t.size) h = ts.foldl (fun h t => h.violate names tag zone t.va t.data.length) h := by
  intro ts
  rw [List.foldl_map, List.foldl_map]
  rfl

/-- An instruction of the store form, wherever it can fire in the oldest block, with what it asks and what it holds. -/
theorem vecStore_of_fires {s : State} {b : Block} {l r : Token} {zone : Nat} {lsid v d : BitVec 5} {z o pr : BitVec 2} {form : Nat}
    (h : Fires s ⟨pr, 1, true, some lsid.toNat, some v.toNat, .whole⟩ b l r)
    (hzone : (s.hart s.dev.focus.hart).zoneFor s.dev.focus.tag z.toNat = some zone) :
    let c := s.dev.focus
    let e : VEnv := ⟨(s.hart c.hart).nenv c.idx, (s.hart c.hart).cwidth.toNat, []⟩
    let x := b.ctxOf (s.hart c.hart)
    let index := (d.toNat + 1) % 32
    let ts : List St := ((vecStores x e.cw index d.toNat form l.lo l.hi).flatMap fun p => cutLine p.1 p.2).map fun p =>
      ⟨c.idx, lsid.toNat, 2 ^ o.toNat - 1, zone, p.1, p.2, false⟩
    (l.null = true ∨ firstClash (vecChecks e x index form d.toNat true) = none ∧ clear s (vecProbes x e.cw index form zone l.lo l.hi true)) →
    vecStore s lsid v d z o pr form = .next (s.vecStoreFired b l lsid v zone ts) := by
  intro c e x index ts hclear
  rw [← nullOperand_one l r] at hclear
  unfold vecStore
  dsimp only
  rw [State.fireMem_hold_of_clear h hzone (held := fun b1 => b1.resolveV c.idx (some v.toNat)) (lsid := lsid.toNat)
    (ps := vecProbes x e.cw index form zone l.lo l.hi true) (ts := ts) ?held (hclear.imp_right And.right)]
  case held =>
    intro hlive
    have hpass := (hclear.resolve_left (ne_true_of_eq_false hlive)).1
    simp only [State.countedHart, Hart.nenv_count_putBlock, Hart.cwidth_count_putBlock, Block.ctxOf_markFired]
    simp only [e, c, x, index] at hpass
    simp only [hpass]
    rfl
  unfold State.vecStoreFired
  simp only [ts, foldl_violate_vecStores, Block.resolveV_tag, Block.sendNull, Block.deliver_noTarget, nullOperand_one]
  rfl

/-- Settles O16: three instructions of one form. -/
theorem vectorStoresAreHeldInElementOrder : Obligations.VectorStoresAreHeldInElementOrder := by
  unfold Obligations.VectorStoresAreHeldInElementOrder
  intro lsid v d z o pr s b l r zone c e x index hzone
  exact ⟨fun h hclear => vecStore_of_fires h hzone hclear, fun h hclear => vecStore_of_fires h hzone hclear,
    fun h hclear => vecStore_of_fires h hzone hclear⟩

end Sys2Proof.Machine

/-! Atomics and ACQ (R219, R234, R242). -/
namespace Sys2Proof.Machine

/-- Block `b` with its request `q` waiting; a null operand resolves the LSID and sends null (R233). -/
def State.requestFired (s : State) (b : Block) (nul : Bool) (q : Req) : State :=
  s.firedBlock b fun b1 =>
    if nul then (b1.resolveL s.dev.focus.idx (some q.lsid)).deliver q.t0 tokNull else b1.addReq q

section Request
variable {s : State} {b : Block} {l r : Token} {zone : Nat} {lsid : BitVec 5} {t0 : BitVec 9} {z o w pr : BitVec 2} {sc : BitVec 3}
  (hzone : (s.hart s.dev.focus.hart).zoneFor s.dev.focus.tag z.toNat = some zone)
include hzone

/-- An atomic is aligned to its size, reads, and writes but for an ACAS outside of host memory (R242, R414). -/
theorem atomic_of_fires {op : Nat} {wr : Bool} (h : Fires s ⟨pr, 2, false, some lsid.toNat, none, .whole⟩ b l r)
    (hwr : (op != 9 || zoneOf zone == .host) = wr)
    (hclear : (l.null || r.null) = true ∨ clear s [⟨zone, l.lo, atomicSize w, aligned l.lo (atomicSize w), true, wr, true⟩]) :
    atomic s lsid t0 z o sc w pr op = .next (s.requestFired b (l.null || r.null)
      ⟨s.dev.focus.idx, lsid.toNat, 2 ^ o.toNat - 1, zone, l.lo, t0, .atomic op (atomicSize w) sc.toNat r.val⟩) := by
  subst hwr
  unfold atomic
  dsimp only
  exact congrArg _ (State.fireMem_issue_of_clear h hzone rfl rfl hclear)

theorem exec_acq_of_fires (h : Fires s ⟨pr, 1, false, some lsid.toNat, none, .whole⟩ b l r)
    (hclear : l.null = true ∨ clear s [⟨zone, l.lo, 64, aligned l.lo 64, true, false, true⟩]) :
    exec (.acq lsid t0 z o sc pr) s = .next (s.requestFired b l.null
      ⟨s.dev.focus.idx, lsid.toNat, 2 ^ o.toNat - 1, zone, l.lo, t0, .acq sc.toNat none⟩) := by
  rw [← nullOperand_one l r] at hclear ⊢
  show execAcq lsid t0 z o sc pr s = _
  unfold execAcq
  dsimp only
  exact congrArg _ (State.fireMem_issue_of_clear h hzone rfl rfl hclear)

end Request

/-- Settles O17: eleven atomics of one form, of which ACAS alone asks for write permission by the zone, and ACQ. -/
theorem atomicsLeaveTheirRequest : Obligations.AtomicsLeaveTheirRequest := by
  unfold Obligations.AtomicsLeaveTheirRequest
  intro lsid t0 z o w pr sc s b l r zone c hzone
  simp only [← aligned_eq_decide]
  refine ⟨?aadd, ?aand, ?aor, ?axor, ?amin, ?amax, ?aminn, ?amaxn, ?aswp, ?acas, ?afadd, ?acq⟩
  case acas => exact fun h hclear => atomic_of_fires hzone h (Bool.false_or _) hclear
  case acq =>
    intro h hclear
    rw [show (operandCount (.acq lsid t0 z o sc pr) == 2 && r.null) = false from rfl, Bool.or_false] at hclear ⊢
    exact exec_acq_of_fires hzone h hclear
  all_goals exact fun h hclear => atomic_of_fires hzone h (Bool.true_or _) hclear

end Sys2Proof.Machine

/-! Fences, cache controls, IBAR and LNCFG (R216, R248 to R253). -/
namespace Sys2Proof.Machine

/-- Fences and IBAR have no operand and are held for the commit. -/
theorem exec_addEff_of_fires {i : Instr} {e : Eff} {s : State} {b : Block} {l r : Token} (h : Fires s (formOf i false) b l r)
    (hexec : exec i s = .next (s.fire (formOf i false) (onBlock fun _ b _ _ => b.addEff s.dev.focus.idx e))) :
    exec i s = .next (s.firedBlock b fun b1 => b1.addEff s.dev.focus.idx e) :=
  exec_onBlock_of_fires h _ hexec rfl

section Zoned
variable {s : State} {b : Block} {l r : Token} {zone : Nat} {z pr : BitVec 2}
  (h : Fires s ⟨pr, 2, false, none, none, .whole⟩ b l r)
include h

/-- An instruction without identifiers or targets acts on its block by its zone; a null operand leaves it alone. -/
theorem State.fireMem_onBlock_of_fires (hzone : (s.hart s.dev.focus.hart).zoneFor s.dev.focus.tag z.toNat = some zone)
    {g : Nat → Hart → Block → Token → Token → Hart} {k : Block → Block} (hk : ∀ h1 b1, g zone h1 b1 l r = h1.putBlock (k b1)) :
    s.fireMem ⟨pr, 2, false, none, none, .whole⟩ z noTarget g =
      s.firedBlock b fun b1 => if l.null || r.null then b1 else k b1 := by
  rw [State.fireMem_of_fires h hzone]
  simp only [hk, ← apply_ite]
  rfl

theorem cacheRange_of_fires (hzone : (s.hart s.dev.focus.hart).zoneFor s.dev.focus.tag z.toNat = some zone) (inv : Bool) :
    cacheRange s z pr inv = .next (s.firedBlock b fun b1 =>
      if l.null || r.null then b1
      else if zoneOf zone = .invalid then b1.addFault { plainFault 0x10 (32 + s.dev.focus.idx) with zone := zone, va := l.lo }
      else b1.addEff s.dev.focus.idx (.cache inv zone l.lo r.lo)) :=
  congrArg _ (State.fireMem_onBlock_of_fires h hzone fun _ _ => (apply_ite ..).symm)

/-- The z-register that an LNCFG names, once its right token is there. -/
theorem lncfgZs_toNat : (lncfgZs s).toNat = bitsOf r.lo.toNat 9 8 := by
  have hr : b.tok (4 * s.dev.focus.idx + 1) = some r := h.right
  have hlt : bitsOf r.lo.toNat 9 8 < 2 ^ 2 := Nat.mod_lt _ (by decide)
  simp only [lncfgZs, h.block, hr, BitVec.toNat_ofNat, Nat.mod_eq_of_lt hlt]

end Zoned

/-- A record in the own scratchpad ends below 0x7E000, so its address is one of the low 4 GiB (R252). -/
theorem lncfgCause_eq (zone : Nat) (rec : Dbl) : lncfgCause zone rec =
    if zoneOf zone = .invalid then some 0x10
    else if zone ≠ 0 ∧ ¬(zone = 0xFE ∧ rec.toNat + 128 ≤ 0x7E000) then some 0x11
    else if rec.toNat % 128 ≠ 0 then some 0x12
    else none := by
  have hlow : (rec.toNat < 2 ^ 32 ∧ rec.toNat + 128 ≤ 0x7E000) ↔ rec.toNat + 128 ≤ 0x7E000 :=
    and_iff_right_of_imp fun h => by omega
  simp only [lncfgCause, hlow]

/-- What an LNCFG of live operands makes of its block: a second change of the port or of the AGE is a token conflict, a bad record address its fault. -/
def Block.lncfgFired (b : Block) (idx zone : Nat) (l r : Token) : Block :=
  let e : Eff := .lncfg (bitsOf r.lo.toNat 3 0) (bitsOf r.lo.toNat 6 4) zone l.lo
  if portClash b e then b.fault 0x03 idx 0 0
  else
    match lncfgCause zone l.lo with
    | some x => b.addFault { plainFault x (32 + idx) with zone := zone, va := l.lo, d1 := 5 + 256 * 7 }
    | none => b.addEff idx e

theorem exec_lncfg_of_fires {s : State} {b : Block} {l r : Token} {zone : Nat} {pr : BitVec 2}
    (h : Fires s ⟨pr, 2, false, none, none, .whole⟩ b l r)
    (hzone : (s.hart s.dev.focus.hart).zoneFor s.dev.focus.tag (bitsOf r.lo.toNat 9 8) = some zone) :
    exec (.lncfg pr) s = .next (s.firedBlock b fun b1 => if l.null || r.null then b1 else b1.lncfgFired s.dev.focus.idx zone l r) := by
  rw [← lncfgZs_toNat h] at hzone
  show execLncfg pr s = _
  refine congrArg _ (State.fireMem_onBlock_of_fires h hzone fun h1 b1 => ?_)
  unfold Block.lncfgFired
  dsimp only
  rw [apply_ite h1.putBlock]
  congr 1
  cases lncfgCause zone l.lo <;> rfl

/-- Settles O18: four fences and IBAR, the two cache controls, and LNCFG with the checks of its record's address. -/
theorem fencesAndCacheControlsAwaitCommit : Obligations.FencesAndCacheControlsAwaitCommit := by
  unfold Obligations.FencesAndCacheControlsAwaitCommit
  intro z pr sc s b l r zone c
  refine ⟨fun h => ?full, fun h => ?acq, fun h => ?rel, fun h => ?ss, fun h => ?ibar, fun h => exec_onBlock_of_fires h _ rfl rfl,
    fun h hzone => ?wbr, fun h hzone => ?invr, fun h hzone => ?lncfg⟩
  case full => exact exec_addEff_of_fires h rfl
  case acq => exact exec_addEff_of_fires h rfl
  case rel => exact exec_addEff_of_fires h rfl
  case ss => exact exec_addEff_of_fires h rfl
  case ibar => exact exec_addEff_of_fires h rfl
  case wbr => exact cacheRange_of_fires h hzone false
  case invr => exact cacheRange_of_fires h hzone true
  case lncfg =>
    refine (exec_lncfg_of_fires h hzone).trans ?_
    refine congrArg _ (State.firedBlock_congr ?_)
    unfold Block.lncfgFired
    simp only [lncfgCause_eq]
    refine if_congr Iff.rfl rfl (if_congr Iff.rfl rfl ?_)
    split_ifs <;> rfl

end Sys2Proof.Machine

/-! Posted items, their replay and their timeouts (R208, R210, R218, R281, R282, R416). -/
namespace Sys2Proof.Machine

/-! Items at their homes (R210, R218) -/

section Ready
variable {s t : State} {hart n : Nat} {p : Posted} (hready : s.readyItem hart n = some p) (halone : s.joinsReplay hart n = none)
include hready halone

theorem exec_postedStorePerform_of_ready (hstatus : p.status = 0) :
    exec (.postedStorePerform hart n) s = .next ((s.performItem hart n p).tryLeave hart) := by
  show execPostedStorePerform hart n s = _
  simp only [execPostedStorePerform, halone, hready, hstatus, OfNat.zero_ne_ofNat, false_and, if_false]

theorem exec_relItemPerform_of_ready {z : Nat} {va v : Dbl} (hwhat : p.what = .rel z va v) :
    exec (.relItemPerform hart n) s = .next (s.performRel hart n p z va v) := by
  show execRelItemPerform hart n s = _
  simp only [execRelItemPerform, halone, hready, hwhat]

end Ready

section Perform
variable {s t : State} {hart n : Nat} {p : Posted} {z : Nat} {va : Dbl}

theorem State.performItem_of_store {d : List (Byte × Byte)} (hwhat : p.what = .store z va d) :
    s.performItem hart n p = finishStore hart n p (s.storeAs hart z va d p.seq) := by
  simp only [State.performItem, hwhat]

/-- A REL whose binder has been read has its dirty region lines written back, or writes WORD. -/
theorem State.performRel_of_regions {v : Dbl} {rs : List (Nat × Nat × Nat)} (hstatus : p.status = 0)
    (hread : s.readBinder (s.hart hart).ctxid.toNat hart z va = (t, .regions rs)) :
    s.performRel hart n p z va v =
      if (t.hart hart).regionDirty rs then t.setHart hart (((t.hart hart).setPosted n { p with status := 4 }).regionWork false rs)
      else finishStore hart n p (t.writeWord hart p z va v) := by
  simp only [State.performRel, hstatus, hread, OfNat.zero_ne_ofNat, if_false]

theorem State.writeWord_of_bytes {v : Dbl} {bs : List Byte}
    (hwrite : s.writeHome (s.hart hart).ctxid.toNat hart z va (full (natLe 8 v.toNat)) (hartWriter hart p.seq) = (t, .bytes bs)) :
    s.writeWord hart p z va v = (t.patchOwn hart z va.toNat (relData v), .bytes bs) := by
  simp only [State.writeWord, hwrite]

end Perform

/-! Accesses that leave the device (R414, R416) -/

/-- An access over a link can time out unless it waits for its page's answer. -/
theorem Dev.canTimeOut_of_leaves {d : Dev} {ctx zone page : Nat} {va : Dbl} {rights : Bool × Bool} (hpage : va.toNat / 4096 = page)
    (h : (zoneOf zone = .fabric ∧ zone ≠ d.node) ∨
      (zoneOf zone = .host ∧ ¬∃ q ∈ d.pri, q.ctx = ctx ∧ q.page = page ∧ q.rd = rights.1 ∧ q.wr = rights.2)) :
    d.canTimeOut ctx zone va rights = true := by
  unfold Dev.canTimeOut Dev.overLink Dev.waitsPage
  rw [hpage]
  obtain ⟨hfabric, hother⟩ | ⟨hhost, hnone⟩ := h
  · simp [hfabric, hother]
  · have hfree : d.pri.contains ⟨ctx, page, rights.1, rights.2⟩ = false := by
      rw [List.contains_eq_mem, decide_eq_false_iff_not]
      exact fun hmem => hnone ⟨_, hmem, rfl, rfl, rfl, rfl⟩
    simp only [hhost, hfree, BEq.rfl, Bool.true_or, Bool.and_false, Bool.false_and, Bool.not_false, Bool.and_true]

/-- The page number of a page's first address. -/
theorem page_of_base (g : Nat) : (BitVec.ofNat 64 (4096 * g)).toNat / 4096 = g % 2 ^ 52 := by
  rw [BitVec.toNat_ofNat]
  omega

theorem exec_completionTimeout_posted {s : State} {hart n : Nat} {p : Posted} {z g : Nat} (hready : s.readyItem hart n = some p)
    (hpage : p.what.page = some (z, g))
    (hcan : s.dev.canTimeOut (s.hart hart).ctxid.toNat z (BitVec.ofNat 64 (4096 * g)) p.rights = true) :
    exec (.completionTimeout hart 8 n) s = .next (s.enterReplay hart n p 0x1C) := by
  show execCompletionTimeout hart 8 n s = _
  simp only [execCompletionTimeout, if_true, hready, hpage, hcan]

theorem exec_completionTimeout_age {s : State} {hart n kind size z : Nat} {va : Dbl} (haccess : s.ageAccess hart n = some (kind, size, z, va))
    (hcan : s.dev.canTimeOut (s.age hart n).ctx z va (kindRights kind) = true) :
    exec (.completionTimeout hart 9 n) s = .next ((s.ageRewind hart n 0).ageFault hart n 0x1C z va 0 (BitVec.ofNat 64 (kind + 256 * Nat.log2 size))) := by
  have hcan' : s.dev.canTimeOut ((s.mt hart).age n).ctx z va (kindRights kind) = true := hcan
  show execCompletionTimeout hart 9 n s = _
  simp only [execCompletionTimeout, Nat.reduceEqDiff, if_false, if_true, haccess, hcan']
  rfl

theorem exec_storeRetryReoffer_of_retry {s : State} {hart n : Nat} {p : Posted} (hitem : (s.hart hart).posted[n]? = some p) (hstatus : p.status = 3) :
    exec (.storeRetryReoffer hart n) s = .next (s.setHart hart ((s.hart hart).setPosted n { p with status := 0 })) := by
  show execStoreRetryReoffer hart n s = _
  simp only [execStoreRetryReoffer, hitem, hstatus, if_true]

/-! Replay queues (R223, R282, R383) -/

theorem exec_rplcmdReplay_of_entries {s : State} {bank hart i : Nat} {is : List Nat}
    (hentries : s.dev.rplEntries bank (mget 0 s.dev.rplsel bank) = some (hart, i :: is))
    (hnew : mget 0 s.dev.rplsel bank ∉ mget [] s.dev.rplrun bank) :
    exec (.rplcmdReplay bank) s = .next (s.setRplrun bank (mget [] s.dev.rplrun bank ++ [mget 0 s.dev.rplsel bank])) := by
  show execRplcmdReplay bank s = _
  simp only [execRplcmdReplay, hentries, List.contains_eq_mem, hnew, decide_false, Bool.false_eq_true, if_false]

theorem exec_rplcmdDiscard_of_entries {s : State} {bank hart : Nat} {is : List Nat}
    (hentries : s.dev.rplEntries bank (mget 0 s.dev.rplsel bank) = some (hart, is)) :
    let kept := ((upTo (s.hart hart).posted.length).zip (s.hart hart).posted).filter fun p => !is.contains p.1
    exec (.rplcmdDiscard bank) s =
      .next (((s.setHart hart ({ s.hart hart with posted := kept.map Prod.snd }).settleNotices).promoteHold bank).armWatches) := by
  show execRplcmdDiscard bank s = _
  simp only [execRplcmdDiscard, hentries]

section Replay
variable {s t : State} {bank hart n : Nat} {agent : Dbl} {more : List Dbl} {is : List Nat} {p : Posted}
  (hruns : mget [] s.dev.rplrun bank = agent :: more) (hentries : s.dev.rplEntries bank agent = some (hart, n :: is))
  (hitem : (s.hart hart).posted[n]? = some p)
include hruns hentries hitem

/-- The first entry of the replay that was started first is performed where it goes on. -/
theorem exec_replayEntryPerform_of_first (hnext : (s.hart hart).replayNext bank n = n)
    (hgoes : s.replayOne bank agent hart n p = (t, true)) : exec (.replayEntryPerform bank) s = .next t := by
  show execReplayEntryPerform bank s = _
  simp only [execReplayEntryPerform, hruns, State.replayStep, hentries, hnext, hitem, hgoes]

theorem exec_replayEntryPerform_of_store {z : Nat} {va : Dbl} {d : List (Byte × Byte)} {bs : List Byte} (hstatus : p.status = 1)
    (hwhat : p.what = .store z va d) (hstore : s.storeAs hart z va d p.seq = (t, .bytes bs)) :
    exec (.replayEntryPerform bank) s = .next ((t.itemDone hart n).promoteHold bank) := by
  refine exec_replayEntryPerform_of_first hruns hentries hitem ?_ ?_
  · simp only [Hart.replayNext, hitem, hstatus, OfNat.one_ne_ofNat, if_false]
  · simp only [State.replayOne, hwhat, hstore]

theorem exec_replayEntryPerform_of_rel {z : Nat} {va v : Dbl} {bs : List Byte} (hstatus : p.status = 6) (hwhat : p.what = .rel z va v)
    (hneeds : (s.hart hart).relNeeds bank n = none) (hturn : itemTurn (s.namesOf hart) ((s.hart hart).posted.take n) p = true)
    (hword : s.writeWord hart p z va v = (t, .bytes bs)) :
    exec (.replayEntryPerform bank) s = .next ((t.itemDone hart n).promoteHold bank) := by
  refine exec_replayEntryPerform_of_first hruns hentries hitem ?_ ?_
  · simp only [Hart.replayNext, hitem, hstatus, if_true, hneeds, Option.getD_none]
  · simp only [State.replayOne, hwhat, hstatus, if_true, hturn, hword]

end Replay

theorem exec_l1dEviction_of_line {s : State} {hart zone line : Nat} {l : Line}
    (hline : (s.hart hart).findLine (s.hart hart).ctxid.toNat zone line = some l) :
    let h := s.hart hart
    let left := h.l1d.filter fun k => !k.same h.ctxid.toNat zone line
    exec (.l1dEviction hart zone line) s =
      .next (s.setHart hart { h with l1d := left, posted := if l.dirty = 0 then h.posted else placeWback h.posted (evictItem h.seq l) }) := by
  show execL1dEviction hart zone line s = _
  simp only [execL1dEviction, hline]
  split <;> rfl

/-! What a tile's deque engine holds (R274, R275) -/

section Engine
variable {s : State} {hn : Nat}

theorem State.dequeStep_of_stopped (h : (s.deque hn).stopped = true) : s.dequeStep hn = s := by
  simp only [State.dequeStep, h, if_true]

theorem State.dequeStep_of_nothing (hdecs : (s.deque hn).decs = []) (hredo : (s.deque hn).redo = []) : s.dequeStep hn = s := by
  simp only [State.dequeStep, hdecs, hredo, ite_self]

section Goes
variable (hgoes : (s.deque hn).stopped = false)
include hgoes

theorem State.dequeStep_of_decs {d : Dbl × Nat × Bool} {rest : List (Dbl × Nat × Bool)} (hdecs : (s.deque hn).decs = d :: rest) :
    s.dequeStep hn = s.decrement hn d := by
  simp only [State.dequeStep, hgoes, Bool.false_eq_true, if_false, hdecs]

theorem State.dequeStep_of_redo {r : Bool × Dbl × Nat × Bool} {rest : List (Bool × Dbl × Nat × Bool)} (hdecs : (s.deque hn).decs = [])
    (hredo : (s.deque hn).redo = r :: rest) : s.dequeStep hn = s.redoStep hn r := by
  simp only [State.dequeStep, hgoes, Bool.false_eq_true, if_false, hdecs, hredo]

end Goes

variable {seg : Dbl} {ctx : Nat} {eng : Bool}

/-- The oldest decrement leaves the list with its count one lower. -/
theorem State.decrement_of_counted {rest : List (Dbl × Nat × Bool)} {t : State} {m : Miss} (hdecs : (s.deque hn).decs = (seg, ctx, eng) :: rest)
    (hcount : (s.setDeque hn { s.deque hn with decs := rest }).addJcount (if eng then 1024 + hn else hn) ctx seg (-1) Asker.none = (t, m))
    (hdone : m.cause = 0) : s.decrement hn (seg, ctx, eng) = t := by
  simp only [State.decrement, hdecs, List.erase_cons_head, hcount, hdone, true_or, if_true]

theorem State.redoStep_of_first {push : Bool} {rest : List (Bool × Dbl × Nat × Bool)}
    (hredo : (s.deque hn).redo = (push, seg, ctx, eng) :: rest) :
    let u := s.setDeque hn { s.deque hn with redo := rest }
    let n := if eng then 1024 + hn else hn
    s.redoStep hn (push, seg, ctx, eng) = if push then u.pushResume n ctx seg else u.retire n ctx seg := by
  simp only [State.redoStep, hredo, List.erase_cons_head]

end Engine

/-! Resume frames of the placement unit (R275, R388) -/

section Resume
variable {s t : State} {seg : Dbl} {g : Nat} {rest : List (Dbl × Nat)} {x : Graph} (hframes : s.dev.resumes = (seg, g) :: rest)
  (hgraph : s.dev.graph g = some x)
include hframes hgraph

theorem exec_resumeFrameHandoff_of_live (hlive : x.state = 0)
    (hpush : let s0 : State := { s with dev := { s.dev with resumes := rest } }
      s0.pushFrame x.launch.ctx (s0.dev.origin x) ({ entry := seg, args := [], parent := 0, status := 0, resume := true } : Frame).dbls = (t, true)) :
    exec .resumeFrameHandoff s = .next t := by
  show execResumeFrameHandoff s = _
  have hgraph' : ({ s.dev with resumes := rest } : Dev).graph g = some x := hgraph
  simp only [execResumeFrameHandoff, hframes, hgraph', hlive, if_true, hpush]

theorem exec_resumeFrameHandoff_of_away (haway : x.state ≠ 0) :
    let s0 : State := { s with dev := { s.dev with resumes := rest } }
    exec .resumeFrameHandoff s = .next { s0 with dev := { s0.dev with msgs := s0.dev.msgs ++ [(g, { seg := seg })] } } := by
  show execResumeFrameHandoff s = _
  have hgraph' : ({ s.dev with resumes := rest } : Dev).graph g = some x := hgraph
  simp only [execResumeFrameHandoff, hframes, hgraph', haway, if_false]

end Resume

/-- Settles O52: each clause is what its event does under the conditions that the clause names. -/
theorem committedWorkIsPerformed : Obligations.CommittedWorkIsPerformed := by
  unfold Obligations.CommittedWorkIsPerformed
  refine ⟨?items, ?replays, ?engines⟩
  case items =>
    intro hart n s t p z va bs c pa
    refine ⟨fun hready halone => ⟨fun data hwhat hstatus => ?store, fun v u rs hwhat hstatus hread => ?rel⟩, fun g hready hpage hleaves => ?posted,
      fun kind size haccess hleaves => ?age, exec_storeRetryReoffer_of_retry⟩
    case store =>
      rw [exec_postedStorePerform_of_ready hready halone hstatus, State.performItem_of_store hwhat]
      exact ⟨fun hstore => by rw [hstore]; rfl, fun hstore => by rw [hstore]; rfl⟩
    case rel =>
      rw [exec_relItemPerform_of_ready hready halone hwhat, State.performRel_of_regions hstatus hread]
      refine ⟨fun hdirty => by rw [if_pos hdirty], fun hclean xs hwrite => ?_⟩
      rw [if_neg (ne_true_of_eq_false hclean), State.writeWord_of_bytes hwrite]
      rfl
    case posted => exact exec_completionTimeout_posted hready hpage (Dev.canTimeOut_of_leaves (page_of_base g) hleaves)
    case age => exact exec_completionTimeout_age haccess (Dev.canTimeOut_of_leaves rfl hleaves)
  case replays =>
    intro bank hart zone line n s sel runs
    exact ⟨fun i is => exec_rplcmdReplay_of_entries, fun is => exec_rplcmdDiscard_of_entries,
      fun agent more is p z va d t bs hruns hentries hitem hstatus => exec_replayEntryPerform_of_store hruns hentries hitem hstatus,
      fun agent more is p z va v t bs hruns hentries hitem hstatus => exec_replayEntryPerform_of_rel hruns hentries hitem hstatus,
      rfl, fun l => exec_l1dEviction_of_line⟩
  case engines =>
    intro seg ctx hn g s t m
    refine ⟨rfl, ⟨?rests,
      fun eng rest hgoes hdecs hcount hdone => (State.dequeStep_of_decs hgoes hdecs).trans (State.decrement_of_counted hdecs hcount hdone),
      fun eng push rest hgoes hdecs hredo => (State.dequeStep_of_redo hgoes hdecs hredo).trans (State.redoStep_of_first hredo)⟩,
      fun rest x hframes hgraph => ⟨exec_resumeFrameHandoff_of_live hframes hgraph, exec_resumeFrameHandoff_of_away hframes hgraph⟩⟩
    case rests =>
      rintro (hstopped | ⟨hdecs, hredo⟩)
      · exact State.dequeStep_of_stopped hstopped
      · exact State.dequeStep_of_nothing hdecs hredo

end Sys2Proof.Machine

/-! The enable of a work ring that drops the entry of an RMA read (R419, R420, log 61). -/
namespace Sys2Proof.Machine

/-- A work entry of an RMA read (R419). -/
def readEntry : List Byte := 3 :: List.replicate 63 0

/-- A ring of port 0 whose EN was cleared while its entry, an RMA read, was being performed: the read's request still stands on the wire. The home of page 0
holds a translation that lets the port read the ring's header there. -/
def ringWithRead : State :=
  let attr : Attr := { r := true, w := true, x := false, e := true, cls := 2, size := 0 }
  let dev : Dev :=
    { Dev.reset with
      tlb := [{ ctx := 0, zone := 0, page := 0, frame := 0, attr := attr, leaf := 0, dset := true }]
      wire := [netMsg 0 readEntry []] }
  { State.reset with dev := dev.setNetRing 0 0 { Ring.reset with entry := some readEntry } }

/-- The ring as its enable configures it. -/
def enabledRing : Ring :=
  { Ring.reset with log2n := 4, en := true, headless := true }

/-- The port's read of HEAD for the ring so enabled, with the entry's request left on the wire. -/
def headRead : State × Access :=
  ({ ringWithRead with dev := ringWithRead.dev.setNetRing 0 0 enabledRing } : State).extRange 7 0 0 64 false (List.replicate 8 0)

theorem headRead_bytes : headRead.2 = .bytes (List.replicate 8 0) := by decide

/-- Reading HEAD leaves the request on the wire. -/
theorem headRead_wire : headRead.1.dev.wire = [netMsg 0 readEntry []] := by decide

/-- The enable takes the request of the dropped entry from the wire. -/
theorem ringEnable_wire : (startedBy ringWithRead (exec (.ringEnable 0 0) ringWithRead)).dev.wire = [] := by decide

/-- Refutes O59: its clause for the enable of a ring leaves the wire as it was, and where the ring still holds the entry of an RMA read the enable takes that
read's request from the wire (log 61). -/
theorem not_platformLoaderAndFabric : ¬ Obligations.PlatformLoaderAndFabric := by
  unfold Obligations.PlatformLoaderAndFabric
  intro h
  have hclauses := h 0 0 0 0 0 0 [] (List.replicate 8 0) ringWithRead headRead.1
  obtain ⟨-, -, -, -, -, -, -, -, -, -, -, -, -, -, -, -, -, -, -, -, -, -, -, -, -, -, -, -, -, -, -, henable, -⟩ := hclauses
  have hexec := henable (by decide) (Prod.ext rfl headRead_bytes)
  have hwire := congrArg (fun o => (startedBy ringWithRead o).dev.wire) hexec
  exact absurd (ringEnable_wire.symm.trans (hwire.trans headRead_wire)) (by decide)

end Sys2Proof.Machine

/-! Scalar and vector loads (R232 to R234, R237, R240). -/
namespace Sys2Proof.Machine

section Load
variable {s : State} {b : Block} {l r : Token} {zone : Nat} {lsid : BitVec 5} {z o pr : BitVec 2}
  (hzone : (s.hart s.dev.focus.hart).zoneFor s.dev.focus.tag z.toNat = some zone)
include hzone

/-- What a scalar load asks at fire is that its bytes lie in one line (R234), and it leaves its request at the operand plus its scaled offset (R237). -/
theorem scalarLoad_of_fires {t0 : BitVec 9} {off : BitVec 5} {size : Nat} {signed : Bool}
    (h : Fires s ⟨pr, 1, false, some lsid.toNat, none, .whole⟩ b l r)
    (hclear : l.null = true ∨ clear s [⟨zone, l.lo + offL off size, size, inLine (l.lo + offL off size) size, true, false, true⟩]) :
    scalarLoad s lsid t0 z o off pr size signed = .next (s.requestFired b l.null
      ⟨s.dev.focus.idx, lsid.toNat, 2 ^ o.toNat - 1, zone, l.lo + offL off size, t0, .load size signed⟩) := by
  rw [← nullOperand_one l r] at hclear ⊢
  unfold scalarLoad
  dsimp only
  exact congrArg _ (State.fireMem_issue_of_clear h hzone rfl rfl hclear)

/-- A vector load reads its width, context and index as they stood before the firing was counted; of a younger block it needs them decided alone (R139). -/
theorem vecLoad_of_fires {v d : BitVec 5} {form : Nat}
    (h : Fires s ⟨pr, 1, false, some lsid.toNat, some v.toNat, if form = 2 then .whole else .length⟩ b l r) :
    let c := s.dev.focus
    let e : VEnv := ⟨(s.hart c.hart).nenv c.idx, (s.hart c.hart).cwidth.toNat, []⟩
    let x := b.ctxOf (s.hart c.hart)
    (l.null = true ∨ firstClash (vecChecks e x d.toNat form d.toNat false) = none ∧ clear s (vecProbes x e.cw d.toNat form zone l.lo l.hi false)) →
    vecLoad s lsid v d z o pr form = .next (s.firedBlock b fun b1 =>
      if l.null then (b1.resolveL c.idx (some lsid.toNat)).resolveV c.idx (some v.toNat)
      else b1.addReq ⟨c.idx, lsid.toNat, 2 ^ o.toNat - 1, zone, l.lo, noTarget, .vload d.toNat form v.toNat l.hi []⟩) := by
  intro c e x hclear
  rw [← nullOperand_one l r] at hclear
  unfold vecLoad
  dsimp only
  rw [State.fireMem_of_fires_of_eq h hzone (k := fun h1 b1 =>
    h1.putBlock (b1.addReq ⟨c.idx, lsid.toNat, 2 ^ o.toNat - 1, zone, l.lo, noTarget, .vload d.toNat form v.toNat l.hi []⟩)) ?request]
  case request =>
    intro hlive
    obtain ⟨hpass, hfaultless⟩ := hclear.resolve_left (ne_true_of_eq_false hlive)
    have hnone := fireCauses_countedHart_of_clear hfaultless b
    simp only [State.countedHart] at hnone
    simp only [State.countedHart, Hart.nenv_count_putBlock, Hart.cwidth_count_putBlock, Block.ctxOf_markFired, c, e, x, hpass, issue, hnone]
  simp only [State.firedBlock, apply_ite, Block.sendNull, Block.deliver_noTarget, nullOperand_one, c]

end Load

/-- Settles O14: eight scalar loads of one form, each with its size and extension, and three vector loads of one form. -/
theorem loadsLeaveTheirRequest : Obligations.LoadsLeaveTheirRequest := by
  unfold Obligations.LoadsLeaveTheirRequest
  intro lsid t5 d t0 z o pr off s b l r zone c hzone
  refine ⟨?ldb, ?ldbs, ?ldh, ?ldhs, ?ldw, ?ldws, ?ldd, ?ldq, ?ldv, ?ldvStr, ?ldvIdx⟩
  case ldv | ldvStr | ldvIdx => exact fun h hclear => vecLoad_of_fires hzone h hclear
  all_goals exact fun h hclear => scalarLoad_of_fires hzone h hclear

end Sys2Proof.Machine

/-! The wl instructions of the application cores (R405 to R408). -/
namespace Sys2Proof.Machine

/-! What a core's record holds after its updates -/

@[simp] theorem Dev.app_setApp_same (d : Dev) (core : Nat) (a : App) : (d.setApp core a).app core = a := by
  unfold Dev.app Dev.setApp
  simp only [mget_mset_same (Option.some_ne_none a)]

/-- A register write leaves every field but the registers, x0 those too. -/
theorem App.setReg_eq (a : App) (r : BitVec 5) (v : Dbl) : a.setReg r v = { a with x := if r = 0 then a.x else mset 0 a.x r.toNat v } := by
  unfold App.setReg
  split <;> rfl

theorem State.app_wlHold (s : State) (core : Nat) (w : WlWait) : (s.wlHold core w).dev.app core = { s.dev.app core with wait := some w } :=
  Dev.app_setApp_same _ _ _

theorem State.app_wlQueue (s : State) (core op : Nat) (rd : BitVec 5) (record : Dbl) (prio : Nat) :
    (s.wlQueue core op rd record prio).dev.app core =
      { s.dev.app core with queue := (s.dev.app core).queue ++ [{ op := op, rd := rd, record := record, prio := prio }] } :=
  Dev.app_setApp_same _ _ _

/-- A launch that the port takes is queued, stands as outstanding, and is no longer one whose post was refused (R284, R407). -/
def State.wlLaunched (s : State) (core : Nat) (rd : BitVec 5) (record : Dbl) : State :=
  let t := s.wlQueue core 0 rd record 0
  let a := t.dev.app core
  ({ t with dev := t.dev.setApp core { a with out := a.out ++ [record], unread := a.unread.filter fun r => r != record } } : State).wlRet core rd 0

theorem State.app_wlLaunched (s : State) (core : Nat) (rd : BitVec 5) (record : Dbl) :
    let a := s.dev.app core
    (s.wlLaunched core rd record).dev.app core =
      { a.setReg rd 0 with
        pc := a.pc + 4
        queue := a.queue ++ [{ op := 0, rd := rd, record := record, prio := 0 }]
        out := a.out ++ [record]
        unread := a.unread.filter fun r => r != record
        wait := none } := by
  simp only [State.wlLaunched, State.wlRet, Dev.app_setApp_same, App.setReg_eq, State.app_wlQueue]

theorem State.intake_wlLaunched (s : State) (core : Nat) (rd : BitVec 5) (record : Dbl) :
    (s.wlLaunched core rd record).dev.intake = s.dev.intake ++ [wlPost (s.dev.app core) core 0 record 0] := rfl

/-- The launch changes nothing beside the intake and the core's own record. -/
theorem State.wlLaunched_frame (s : State) (core : Nat) (rd : BitVec 5) (record : Dbl) :
    let t := s.wlLaunched core rd record
    t = { s with dev := { s.dev with intake := t.dev.intake, apps := t.dev.apps } } := by
  simp only [State.wlLaunched, State.wlRet, State.wlQueue, Dev.setApp]

/-! The port before an instruction acts (R405, R436) -/

/-- What the seven words have in common: each passes the checks of `State.wl`. -/
theorem exec_eq_wl {rs1 rs2 rd : BitVec 5} {i : Instr} (hi : i ∈ [.wlLaunch rs1 rd, .wlFence rs1 rd, .wlPoll rs1 rd, .wlWait rs2 rs1 rd,
    .wlCancel rs1 rd, .wlStatus rs1 rd, .wlPrio rs2 rs1 rd]) (s : State) : ∃ kind rs f, exec i s = .next (s.wl kind rd rs1 rs f) := by
  simp only [List.mem_cons, List.not_mem_nil, or_false] at hi
  obtain rfl | rfl | rfl | rfl | rfl | rfl | rfl := hi <;> exact ⟨_, _, _, rfl⟩

section Wl
variable {s : State} {rs1 rs2 rd : BitVec 5}

theorem State.wl_of_unreleased (hready : s.dev.ready.getLsbD 19 = false) (kind : Nat) (f : State → Nat → App → State) :
    s.wl kind rd rs1 rs2 f = s := by
  unfold State.wl
  simp only [hready, Bool.not_false, if_true]

theorem State.wl_of_disabled (hready : s.dev.ready.getLsbD 19 = true) (hen : (s.dev.app s.dev.focus.hart).wlctx.getLsbD 13 = false)
    (kind : Nat) (f : State → Nat → App → State) : s.wl kind rd rs1 rs2 f = s.illegalWl s.dev.focus.hart := by
  unfold State.wl
  simp only [hready, hen, Bool.not_true, Bool.not_false, Bool.false_eq_true, if_false, if_true]

/-- A command that the port takes is queued, and its word waits. -/
theorem State.wlCommand_of_room {a : App} (happ : s.dev.app s.dev.focus.hart = a) (hidle : a.wait = none) (hroom : a.queue.length < 64) (op prio : Nat) :
    let t := s.wlCommand s.dev.focus.hart a op rd rs1 rs2 prio
    t.dev.intake = s.dev.intake ++ [wlPost a s.dev.focus.hart op (a.reg rs1) prio] ∧
      (t.dev.app s.dev.focus.hart).queue = a.queue ++ [{ op := op, rd := rd, record := a.reg rs1, prio := prio }] ∧
      (t.dev.app s.dev.focus.hart).wait.isSome = true ∧ (t.dev.app s.dev.focus.hart).x = a.x := by
  have hcommand : s.wlCommand s.dev.focus.hart a op rd rs1 rs2 prio =
      (s.wlQueue s.dev.focus.hart op rd (a.reg rs1) prio).wlHold s.dev.focus.hart (wlWaiting op rd rs1 rs2 [a.reg rs1] 0 true) := by
    simp only [State.wlCommand, hidle, App.portFull, decide_eq_true_eq, Nat.not_le.mpr hroom, if_false]
  simp only [hcommand, State.app_wlHold, State.app_wlQueue, happ, Option.isSome_some, and_self, and_true]
  rw [← happ]
  rfl

section Enabled
variable {a : App} (hready : s.dev.ready.getLsbD 19 = true) (happ : s.dev.app s.dev.focus.hart = a) (hen : a.wlctx.getLsbD 13 = true)
  (hidle : a.wait = none)
include hready happ hen hidle

theorem State.wl_of_enabled (kind : Nat) (f : State → Nat → App → State) : s.wl kind rd rs1 rs2 f = f s s.dev.focus.hart a := by
  unfold State.wl
  simp only [hready, happ, hen, hidle, Bool.not_true, Bool.false_eq_true, if_false]

/-! WL_LAUNCH -/

theorem exec_wlLaunch_of_misaligned (halign : (a.reg rs1).toNat % 64 ≠ 0) :
    exec (.wlLaunch rs1 rd) s = .next (s.wlTrap s.dev.focus.hart 6 (a.reg rs1)) := by
  show execWlLaunch rs1 rd s = _
  unfold execWlLaunch
  rw [State.wl_of_enabled hready happ hen hidle, if_pos halign]

/-- A full port holds the launch. -/
theorem exec_wlLaunch_of_full (halign : (a.reg rs1).toNat % 64 = 0) (hfull : 64 ≤ a.queue.length ∨ 256 ≤ a.out.length) :
    exec (.wlLaunch rs1 rd) s = .next (s.wlHold s.dev.focus.hart (wlWaiting 0 rd rs1 0 [] 0 false)) := by
  have hheld : (a.portFull || decide (256 ≤ a.out.length)) = true := by simpa [App.portFull] using hfull
  show execWlLaunch rs1 rd s = _
  unfold execWlLaunch
  rw [State.wl_of_enabled hready happ hen hidle, if_neg (not_not_intro halign), if_pos hheld]

theorem exec_wlLaunch_of_room (halign : (a.reg rs1).toNat % 64 = 0) (hqueue : a.queue.length < 64) (hout : a.out.length < 256) :
    exec (.wlLaunch rs1 rd) s = .next (s.wlLaunched s.dev.focus.hart rd (a.reg rs1)) := by
  have hroom : (a.portFull || decide (256 ≤ a.out.length)) = false := by
    simpa [App.portFull] using ⟨hqueue, hout⟩
  show execWlLaunch rs1 rd s = _
  unfold execWlLaunch
  rw [State.wl_of_enabled hready happ hen hidle, if_neg (not_not_intro halign), if_neg (ne_true_of_eq_false hroom)]
  rfl

/-! Reads of STATE -/

section Record
variable {t : State}

theorem exec_wlPoll_of_bytes {bs : List Byte} (hread : s.wlState a (a.reg rs1) = (t, .bytes bs)) :
    exec (.wlPoll rs1 rd) s = .next (t.wlRet s.dev.focus.hart rd (BitVec.ofNat 64 (leNat bs))) := by
  show execWlPoll rs1 rd s = _
  unfold execWlPoll
  rw [State.wl_of_enabled hready happ hen hidle]
  simp only [hread]

theorem exec_wlPoll_of_fault {k pa : Nat} (hread : s.wlState a (a.reg rs1) = (t, .fault k pa)) :
    exec (.wlPoll rs1 rd) s = .next (t.wlTrap s.dev.focus.hart 5 (a.reg rs1 + 32)) := by
  show execWlPoll rs1 rd s = _
  unfold execWlPoll
  rw [State.wl_of_enabled hready happ hen hidle]
  simp only [hread]

/-- A STATE that can be read ends wl.wait where it is final, where the record's post was refused or where the deadline has passed. -/
theorem exec_wlWait_of_bytes {bs : List Byte} (hread : s.wlState a (a.reg rs1) = (t, .bytes bs)) :
    exec (.wlWait rs2 rs1 rd) s = .next (
      if 3 ≤ leNat bs ∨ a.unread.contains (a.reg rs1) = true ∨ (a.reg rs2 ≠ 0 ∧ (a.reg rs2).toNat ≤ s.dev.timebase.toNat) then
        t.wlRet s.dev.focus.hart rd (BitVec.ofNat 64 (leNat bs))
      else t.wlHold s.dev.focus.hart (wlWaiting 3 rd rs1 rs2 [a.reg rs1] (a.reg rs2) false)) := by
  show execWlWait rs2 rs1 rd s = _
  unfold execWlWait
  rw [State.wl_of_enabled hready happ hen hidle]
  simp only [hread, Bool.or_eq_true, Bool.and_eq_true, decide_eq_true_eq, bne_iff_ne, or_assoc]

/-- A fence whose named launches are all final returns how many of them are not completed. -/
theorem exec_wlFence_of_final {rs : List (Dbl × Access)} (hread : s.wlReads a (if a.reg rs1 = 0 then a.out else [a.reg rs1]) = (t, rs))
    (hfinal : ∀ x ∈ rs, ∃ v, x.2.number = some v ∧ 3 ≤ v) :
    exec (.wlFence rs1 rd) s = .next (t.wlRet s.dev.focus.hart rd (BitVec.ofNat 64 (rs.filter a.wlIncomplete).length)) := by
  have hdone (all : Bool) : ∀ x ∈ rs, a.wlDone all x = true := by
    intro x hx
    obtain ⟨v, hv, hge⟩ := hfinal x hx
    simp [App.wlDone, hv, hge]
  have hreadable (all : Bool) : rs.find? (fun x => !a.wlDone all x && x.2.failed) = none := by
    rw [List.find?_eq_none]
    intro x hx
    simp [hdone all x hx]
  show execWlFence rs1 rd s = _
  unfold execWlFence
  rw [State.wl_of_enabled hready happ hen hidle]
  simp only [hidle, beq_iff_eq, hread, hreadable, List.all_eq_true.mpr (hdone _), if_true]

end Record

/-! The port's own words (R408) -/

theorem exec_wlStatus : exec (.wlStatus rs1 rd) s =
    .next (({ s with dev := s.dev.setApp s.dev.focus.hart { a with lasterr := if a.reg rs1 = 1 then 0 else a.lasterr } } : State).wlRet
      s.dev.focus.hart rd (s.wlItem a (a.reg rs1).toNat)) := by
  show execWlStatus rs1 rd s = _
  unfold execWlStatus
  rw [State.wl_of_enabled hready happ hen hidle]
  simp only [BitVec.toNat_eq (x := a.reg rs1) (y := 1)]
  rfl

theorem exec_wlCancel : exec (.wlCancel rs1 rd) s = .next (s.wlCommand s.dev.focus.hart a 4 rd rs1 0 0) :=
  congrArg Host.Outcome.next (State.wl_of_enabled hready happ hen hidle 4 _)

theorem exec_wlPrio : exec (.wlPrio rs2 rs1 rd) s = .next (s.wlCommand s.dev.focus.hart a 6 rd rs1 rs2 ((a.reg rs2).toNat % 32)) :=
  congrArg Host.Outcome.next (State.wl_of_enabled hready happ hen hidle 6 _)

end Enabled

end Wl

/-- Any item of wl.status, by the register that selects it. -/
theorem State.wlItem_eq (s : State) (a : App) (v : Dbl) : s.wlItem a v.toNat =
    if v = 0 then BitVec.ofNat 64 (a.queue.length % 128 + 2 ^ 16 * (a.out.length % 512))
    else if v = 1 then a.lasterr else if v = 2 then BitVec.ofNat 64 s.dev.held.length else 0 := by
  simp only [State.wlItem, BitVec.toNat_eq]
  rfl

/-- TIMEBASE at the deadline of a wl.wait that it ends (log 8). -/
def State.atDeadline (s : State) (deadline : Dbl) : State :=
  { s with dev := { s.dev with timebase := if s.dev.timebase.toNat < deadline.toNat then deadline else s.dev.timebase } }

theorem exec_wlWaitDeadline_of_bytes {core : Nat} {s t : State} {w : WlWait} {bs : List Byte} (hwait : (s.dev.app core).wait = some w)
    (hkind : w.kind = 3) (hdeadline : w.deadline ≠ 0)
    (hread : (s.atDeadline w.deadline).wlState (s.dev.app core) ((s.dev.app core).reg w.rs1) = (t, .bytes bs)) :
    exec (.wlWaitDeadline core) s = .next (t.wlRet core w.rd (BitVec.ofNat 64 (leNat bs))) := by
  unfold State.atDeadline at hread
  show execWlWaitDeadline core s = _
  simp only [execWlWaitDeadline, hwait, hkind, hdeadline, ne_eq, not_true_eq_false, or_self, if_false, hread]

/-- Settles O46: the words of an enabled port, what stops a word, and the deadline of a wl.wait. -/
theorem applicationCoreInstructions : Obligations.ApplicationCoreInstructions := by
  unfold Obligations.ApplicationCoreInstructions
  refine ⟨?acts, ?stops, ?deadline⟩
  case acts =>
    intro rs1 rs2 rd s c a record ret queued readState hready hen hidle
    refine ⟨?launch, ?poll, ?ends, ?waits, ?fence, ?status, ?commands⟩
    case launch =>
      intro halign hqueue hout
      refine ⟨_, exec_wlLaunch_of_room hready rfl hen hidle halign hqueue hout, State.intake_wlLaunched _ _ _ _, ?_, State.wlLaunched_frame _ _ _ _⟩
      rw [State.app_wlLaunched, ← hidle, App.setReg_eq]
    case poll =>
      intro t bs hread
      rw [exec_wlPoll_of_bytes hready rfl hen hidle hread]
      rfl
    case ends =>
      intro t bs hread hend
      rw [exec_wlWait_of_bytes hready rfl hen hidle hread, if_pos hend]
      rfl
    case waits =>
      intro t bs hread hstate hkept hlater
      rw [exec_wlWait_of_bytes hready rfl hen hidle hread, if_neg]
      · rfl
      · rintro (hfinal | hrefused | ⟨hset, hpast⟩)
        · omega
        · exact Bool.false_ne_true (hkept.symm.trans hrefused)
        · exact hlater.elim hset (Nat.not_lt.mpr hpast)
    case fence =>
      intro t rs hread hfinal
      rw [exec_wlFence_of_final hready rfl hen hidle hread hfinal]
      rfl
    case status =>
      rw [exec_wlStatus hready rfl hen hidle, State.wlItem_eq]
      rfl
    case commands =>
      intro hroom
      exact ⟨⟨_, exec_wlCancel hready rfl hen hidle, State.wlCommand_of_room rfl hidle hroom 4 0⟩,
        ⟨_, exec_wlPrio hready rfl hen hidle, State.wlCommand_of_room rfl hidle hroom 6 _⟩⟩
  case stops =>
    intro rs1 rs2 rd s c a record trap all
    refine ⟨fun hready i hi => ?unreleased, fun hready hen i hi => ?disabled, fun hready hen hidle => ⟨?misaligned, ?full, ?unreadable⟩⟩
    case unreleased =>
      obtain ⟨kind, rs, f, hexec⟩ := exec_eq_wl hi s
      rw [hexec, State.wl_of_unreleased hready]
    case disabled =>
      obtain ⟨kind, rs, f, hexec⟩ := exec_eq_wl hi s
      exact ⟨_, by rw [hexec, State.wl_of_disabled hready hen]; rfl⟩
    case misaligned => exact exec_wlLaunch_of_misaligned hready rfl hen hidle
    case full =>
      intro halign hfull
      refine ⟨_, exec_wlLaunch_of_full hready rfl hen hidle halign hfull, ?_⟩
      rw [State.app_wlHold]
      exact ⟨rfl, rfl, rfl⟩
    case unreadable => exact fun t k pa => exec_wlPoll_of_fault hready rfl hen hidle
  case deadline => exact fun c s t w bs => exec_wlWaitDeadline_of_bytes

end Sys2Proof.Machine

/-! A Slate core's packet queue where an AGE waits for room in it (R283, R174). -/
namespace Sys2Proof.Machine

/-- The packet of AGE 0 of the tile at place 0, whose access no page maps (R373). -/
def agePacket : Packet := agentPacket Dev.reset 2 0 0 0 0x15 0 0 0 0

/-- AGE 0 has stopped at a fault, and its packet waits at the Slate core of row 0, whose queue has room by now. A CHCFG that binds the AGE to port 8 waits for
the AGE to be free of the packet. -/
def changeBehindPacket : State :=
  let s := State.reset.setAge 0 0 { Age.reset with state := 2 }
  let t := s.setMt 0 { s.mt 0 with waiting := [(0, .chcfgAge 8 0, false)] }
  { t with dev := { t.dev with senders := [(0, agePacket)] } }

theorem changeBehindPacket_waiting : (changeBehindPacket.mt 0).waiting ≠ [] := by decide

/-- With its packet in the queue the AGE is free of it, and the change that waited for that is applied. -/
theorem enqueue_applies_waiting : ((startedBy changeBehindPacket (exec (.ochrePacketEnqueue 0) changeBehindPacket)).mt 0).waiting = [] := by
  decide +kernel

/-- Refutes O50: its clause for a packet that enters the queue lets nothing change but the queue and the senders, and where the packet is that of an AGE the
port change that waited for the AGE is applied in the same step. -/
theorem not_slateQueuesKeepTheirOrder : ¬ Obligations.SlateQueuesKeepTheirOrder := by
  unfold Obligations.SlateQueuesKeepTheirOrder
  intro h
  obtain ⟨-, -, henqueue, -, -⟩ := h 0 changeBehindPacket agePacket
  have hexec := henqueue [] [] rfl (by simp) (by decide)
  have hwaiting := congrArg (fun o => ((startedBy changeBehindPacket o).mt 0).waiting) hexec
  exact changeBehindPacket_waiting (hwaiting.symm.trans enqueue_applies_waiting)

end Sys2Proof.Machine

/-! The steps of tasks between blocks (R267 to R276, R289, R292, R305, R322). -/
namespace Sys2Proof.Machine

/-! What an update of a tile's deque leaves -/

/-- Of two writes at one key the later stands, whatever the store holds. -/
theorem mset_mset_same {α : Type} [DecidableEq α] {d a : α} (ha : a ≠ d) (m : SMap α) (k : Nat) (b : α) :
    mset d (mset d m k a) k b = mset d m k b := by
  induction m with
  | nil => simp [mset, ha]
  | cons p m ih =>
    obtain ⟨j, x⟩ := p
    rcases Nat.lt_trichotomy k j with hlt | rfl | hgt
    · simp [mset, ha, hlt]
    · simp [mset, ha]
    · simp [mset, Nat.lt_asymm hgt, Nat.ne_of_gt hgt, ih]

@[simp] theorem State.mt_setMt_same (s : State) (p : Nat) (m : Mt) : (s.setMt p m).mt p = m := by
  unfold State.setMt State.mt Dev.setMt Dev.mt
  simp only [mget_mset_same (Option.some_ne_none m)]

@[simp] theorem State.setMt_setMt (s : State) (p : Nat) (m k : Mt) : (s.setMt p m).setMt p k = s.setMt p k := by
  unfold State.setMt Dev.setMt
  simp only [mset_mset_same (Option.some_ne_none m)]

/-- An update of a hart neither reads nor writes the memory tiles. -/
theorem Dev.setHart_mts (d : Dev) (ms : SMap (Option Mt)) (n : Nat) (h : Hart) :
    ({ d with mts := ms } : Dev).setHart n h = { d.setHart n h with mts := ms } := by
  by_cases hlive : n < 2048
  · simp only [Dev.setHart, hlive, if_true]
  by_cases hshadow : n < 4096
  · simp only [Dev.setHart, hlive, hshadow, if_false, if_true]
    cases mget none d.shadow (n % 1024) <;> rfl
  · have himage : ({ d with mts := ms } : Dev).imageTile n = d.imageTile n := rfl
    simp only [Dev.setHart, hlive, hshadow, himage, if_false]
    cases d.imageTile n <;> rfl

@[simp] theorem Dev.mts_setHart (d : Dev) (n : Nat) (h : Hart) : (d.setHart n h).mts = d.mts := by
  have hmts := congrArg Dev.mts (d.setHart_mts d.mts n h)
  exact hmts

@[simp] theorem State.mt_setHart (s : State) (p n : Nat) (h : Hart) : (s.setHart n h).mt p = s.mt p := by
  simp only [State.mt, State.setHart, Dev.mt, Dev.mts_setHart]

/-- A hart and a memory tile are updated in either order. -/
theorem State.setHart_setMt (s : State) (p n : Nat) (m : Mt) (h : Hart) : (s.setMt p m).setHart n h = (s.setHart n h).setMt p m := by
  simp only [State.setHart, State.setMt, Dev.setMt, Dev.setHart_mts, Dev.mts_setHart]

@[simp] theorem State.deque_setDeque_same (s : State) (p : Nat) (q : Deque) : (s.setDeque p q).deque p = q := by
  unfold State.deque State.setDeque
  rw [State.mt_setMt_same]
  rfl

@[simp] theorem State.setDeque_setDeque (s : State) (p : Nat) (q k : Deque) : (s.setDeque p q).setDeque p k = s.setDeque p k := by
  unfold State.setDeque
  rw [State.mt_setMt_same, State.setMt_setMt]
  rfl

@[simp] theorem State.hart_setDeque (s : State) (p n : Nat) (q : Deque) : (s.setDeque p q).hart n = s.hart n := rfl

/-- A hart and a deque are updated in either order. -/
theorem State.setHart_setDeque (s : State) (p n : Nat) (q : Deque) (h : Hart) : (s.setDeque p q).setHart n h = (s.setHart n h).setDeque p q := by
  unfold State.setDeque
  rw [State.setHart_setMt, State.mt_setHart]

/-- An engine that holds no segment of a fault returns nothing. -/
theorem State.returnBack_of_nothing {s : State} {p : Nat} (hback : (s.deque p).back = []) (hstopped : (s.deque p).stopped = false) (ctx : Nat) :
    s.returnBack ctx p = s.setDeque p (s.deque p) := by
  have hsame : { s.deque p with back := [], stopped := false } = s.deque p := by rw [← hback, ← hstopped]
  simp only [State.returnBack, hsame, hback, State.returnAll]

/-! JOIN and YIELD (R272, R281, R287, R289, R292) -/

section Join
variable {s t u : State} {hart : Nat}

/-- The home's count decides whether the JOIN continues. -/
theorem exec_joinWordRead_of_bytes {b : Block} {idx : Nat} {c : Dbl} {bs : List Byte} (hcommit : s.committing hart = some (b, idx, .join c))
    (hlive : s.liveState hart = false) (hcode : (s.hart hart).commitNotice b (.join c) = none)
    (hword : (s.hart hart).noticeFor 0 (((s.hart hart).seg + 56).toNat / 4096) = none) (hspawns : (s.hart hart).spawnsPending = false)
    (hloads : (s.hart hart).loadsHeld = false)
    (hread : (s.countWalk hart 0 ((s.hart hart).seg + 56)).readHome (s.hart hart).ctxid.toNat hart 0 ((s.hart hart).seg + 56) 8 = (t, .bytes bs)) :
    let u := t.learnAt hart 0 ((s.hart hart).seg + 56)
    exec (.joinWordRead hart) s = .next ((u.setHart hart ((u.hart hart).acquireWork b.tag)).commitBlock hart b idx
      (if wordJcount (leNat bs) = 0 then .goto c else .join c)) := by
  show execJoinWordRead hart s = _
  simp only [execJoinWordRead, hcommit, hlive, hcode, hword, hspawns, hloads, hread, Option.or_none, Bool.or_self, Bool.false_eq_true, if_false]

section Suspend
variable {c : Dbl} {yields : Bool} (hsusp : (s.hart hart).susp = some (c, yields)) (hrun : (s.hart hart).run = .running)
  (hthalt : (s.hart hart).thalt = false) (hspawns : (s.hart hart).spawnsPending = false)
include hsusp hrun hthalt hspawns

theorem exec_joinSuspend_of_notice {x : Notice} (hnotice : (s.hart hart).noticeFor 0 ((s.hart hart).seg.toNat / 4096) = some x) :
    exec (.joinSuspend hart) s =
      .next { s with dev := s.dev.takeFault hart none ((s.hart hart).asCame (deferredFault x 0xFFFF)) false } := by
  show execJoinSuspend hart s = _
  simp only [execJoinSuspend, hsusp, hrun, hthalt, hspawns, hnotice, bne_self_eq_false, Bool.or_self, Bool.false_eq_true, if_false]

/-- With its suspension record written, a YIELD pushes its resume frame and a JOIN swaps its word. -/
theorem exec_joinSuspend_of_bytes {xs : List Byte} (hnotice : (s.hart hart).noticeFor 0 ((s.hart hart).seg.toNat / 4096) = none)
    (hwrite : (s.countWalk hart 0 ((s.hart hart).seg + 0x40)).writeHomeAll (s.hart hart).ctxid.toNat hart 0 ((s.hart hart).seg + 0x40)
      (hartWriter hart (s.hart hart).came.2.2) (((s.hart hart).suspension c).flatMap (natLe 8)) = (t, .bytes xs)) :
    let u := t.learnAt hart 0 ((s.hart hart).seg + 0x40)
    exec (.joinSuspend hart) s = .next (if yields then u.pushYield hart else u.swapSusp hart) := by
  show execJoinSuspend hart s = _
  simp only [execJoinSuspend, hsusp, hrun, hthalt, hspawns, hnotice, hwrite, bne_self_eq_false, Bool.or_self, Bool.false_eq_true, if_false]

end Suspend

theorem State.pushYield_of_pushed (hpush : s.pushFrame (s.hart hart).ctxid.toNat hart
      ({ entry := (s.hart hart).seg, args := [], parent := 0, status := 0, resume := true } : Frame).dbls = (t, true)) :
    s.pushYield hart = (t.leaveTask hart).setHart hart { (t.leaveTask hart).hart hart with theftFirst := true } := by
  simp only [State.pushYield, hpush]

section Swap
variable {bs : List Byte} (hread : s.readHome (s.hart hart).ctxid.toNat hart 0 ((s.hart hart).seg + 56) 8 = (t, .bytes bs))
include hread

theorem State.swapSusp_of_zero (hcount : wordJcount (leNat bs) = 0) :
    s.swapSusp hart = t.setHart hart { (t.hart hart).acquireWork 8 with susp := none } := by
  simp only [State.swapSusp, hread, hcount, if_true]

theorem State.swapSusp_of_bytes {ys : List Byte} (hcount : wordJcount (leNat bs) ≠ 0)
    (hwrite : t.writeHome (s.hart hart).ctxid.toNat hart 0 ((s.hart hart).seg + 56) (full (natLe 8 (withState (leNat bs) 1)))
      (hartWriter hart (s.hart hart).came.2.2) = (u, .bytes ys)) :
    s.swapSusp hart = ({ u with dev := u.dev.awaits (u.hart hart).graph (s.hart hart).seg true } : State).leaveTask hart := by
  simp only [State.swapSusp, hread, hcount, hwrite, if_false]

end Swap

end Join

/-! Owner pops and thefts (R267, R268, R276, R322, R359) -/

section Theft
variable {s : State} {hart : Nat} {g : Graph}

theorem exec_ownerPop_of_count (hseeks : s.seeks hart = some g) (hfirst : (s.hart hart).theftFirst = false ∨ g.ring.length ≤ 1)
    (hcount : (s.deque hart).count ≠ 0) : exec (.ownerPop hart) s = .next (s.popRing hart) := by
  have hpops : ((s.hart hart).theftFirst && decide (1 < g.ring.length)) = false := by
    obtain hown | halone := hfirst
    · rw [hown, Bool.false_and]
    · rw [decide_eq_false (by omega), Bool.and_false]
  show execOwnerPop hart s = _
  simp only [execOwnerPop, hseeks, hpops, hcount, ne_eq, not_false_eq_true, Bool.false_eq_true, if_false, if_true]

/-- A thief's request at the ring of its victim: an empty reply where there is nothing to take, else the oldest frame is claimed for its copy. -/
theorem exec_theftRequest_of_victim (hseeks : s.seeks hart = some g) :
    let k := (s.hart hart).victimOf g.ring hart
    let v := s.deque k
    1 < g.ring.length → (s.hart hart).lapWait = false → (s.hart hart).theftFirst = true ∨ (s.deque hart).isEmpty = true →
    g.ring.contains k = true → v.stopped = false → v.ovfcnt = 0 →
    exec (.theftRequest hart) s = .next (
      if v.transit = true ∨ v.count = 0 then s.setDeque hart { s.deque hart with reply := some false }
      else
        let t := s.setDeque k { v with tidx := v.tidx + 1, transit := true, thief := some hart, stolen := v.tidx }
        t.setDeque hart { t.deque hart with reply := some true }) := by
  intro k v hring hlap hown hmember hstopped hovf
  have hseek : (!(s.hart hart).theftFirst && !(s.deque hart).isEmpty) = false := by
    obtain hfirst | hempty := hown
    · rw [hfirst, Bool.not_true, Bool.false_and]
    · rw [hempty, Bool.not_true, Bool.and_false]
  show execTheftRequest hart s = _
  simp only [execTheftRequest, hseeks, hlap, hseek, hmember, hstopped, hovf, Nat.not_le.mpr hring, decide_false, Bool.or_self, Bool.not_true,
    Bool.false_eq_true, ne_eq, not_true_eq_false, Bool.or_eq_true, beq_iff_eq, if_false, k, v]

theorem exec_theftReply_of_none (hreply : (s.deque hart).reply = some true) (hcopy : (s.deque hart).copy = none) :
    exec (.theftReply hart) s = .next ((s.setDeque hart { s.deque hart with reply := none, copy := none }).setHart hart
      { s.hart hart with lap := 0, lapWait := false, theftFirst := false }) := by
  show execTheftReply hart s = _
  simp only [execTheftReply, hreply, hcopy]

theorem exec_theftReply_of_frame {fs : List Dbl} (hreply : (s.deque hart).reply = some true) (hcopy : (s.deque hart).copy = some fs) :
    exec (.theftReply hart) s = .next (((s.setDeque hart { s.deque hart with reply := none, copy := none }).setHart hart
      (({ s.hart hart with lap := 0, lapWait := false, theftFirst := false } : Hart).count 11 1)).takeAcquired hart fs) := by
  show execTheftReply hart s = _
  simp only [execTheftReply, hreply, hcopy]

/-- An empty reply is counted and moves the pointer; the lap waits once it has gone round the ring. -/
theorem exec_theftReply_of_empty (hreply : (s.deque hart).reply = some false) (hgraph : s.dev.graph (s.hart hart).graph = some g) :
    exec (.theftReply hart) s = .next (((s.setDeque hart { s.deque hart with reply := none }).setHart hart ((s.hart hart).count 12 1)).setHart hart
      { (s.hart hart).count 12 1 with
        victim := nextVictim g.ring hart ((s.hart hart).victimOf g.ring hart)
        lap := if g.ring.length ≤ (s.hart hart).lap + 1 + 1 then 0 else (s.hart hart).lap + 1
        lapWait := decide (g.ring.length ≤ (s.hart hart).lap + 1 + 1)
        theftFirst := false }) := by
  show execTheftReply hart s = _
  simp only [execTheftReply, hreply, State.emptyReply, hgraph, decide_eq_true_eq]

theorem exec_theftCopyComplete_of_victim {v : Nat} (hgraph : s.dev.graph (s.hart hart).graph = some g)
    (hvictim : g.ring.find? (fun v => (s.deque v).thief == some hart) = some v) (hreply : (s.deque hart).reply = none)
    (htorn : s.dev.torn hart = false) :
    let t := s.setDeque v { s.deque v with transit := false, thief := none, spillf := false }
    exec (.theftCopyComplete hart) s =
      .next (((t.blacken v hart).setHart hart ((t.hart hart).count 11 1)).takeAcquired hart ((s.deque v).slot (s.deque v).stolen)) := by
  show execTheftCopyComplete hart s = _
  simp only [execTheftCopyComplete, hgraph, hvictim, hreply, htorn, Option.isSome_none, Bool.or_self, Bool.false_eq_true, if_false]

end Theft

/-! The retries of a deque engine, and the token of quiescence (R264, R270, R276, R296) -/

section Retry
variable {s : State} {hart : Nat} {g : Graph}

theorem exec_poolTakeRetry_of_start (hgraph : s.dev.graph (s.hart hart).graph = some g) (hlive : g.state = 0)
    (hsent : s.dev.sending 3 hart 0 = false) (hpool : s.poolReady g.launch.ctx hart = true) (hrun : (s.hart hart).run = .idle)
    (hstart : (s.hart hart).start.isSome = true) (hbegun : ((s.beginTask hart).hart hart).start = none) :
    exec (.poolTakeRetry hart) s = .next (s.beginTask hart) := by
  show execPoolTakeRetry hart s = _
  simp only [execPoolTakeRetry, hgraph, hlive, hsent, hpool, hrun, hstart, hbegun, ne_eq, not_true_eq_false, Bool.false_eq_true, Bool.true_eq_false,
    false_and, or_self, BEq.rfl, Bool.and_self, Option.isNone_none, if_false, if_true]

/-- A spill that waited has nothing to do once the ring has a free slot. -/
theorem exec_dequeSpillResume_of_room (hspill : (s.deque hart).spillf = true) (hroom : (s.deque hart).isFull = false)
    (hstopped : (s.deque hart).stopped = false) (hback : (s.deque hart).back = []) (hsent : s.dev.sending 3 hart 0 = false) :
    exec (.dequeSpillResume hart) s =
      .next ((s.setHart hart (s.hart hart).restartItems).setDeque hart { s.deque hart with spillf := false }) := by
  show execDequeSpillResume hart s = _
  simp only [execDequeSpillResume, State.returnBack_of_nothing hback hstopped, State.deque_setDeque_same, State.hart_setDeque,
    State.setHart_setDeque, State.setDeque_setDeque, hspill, hroom, hsent, Bool.not_true, Bool.false_eq_true, if_false]

section Token
variable (hgraph : s.dev.graph (s.hart hart).graph = some g) (hlive : g.state = 0) (hmember : g.ring.contains hart = true)
  (hquiet : s.quiet g hart = true) (htoken : (s.deque hart).token = true)
include hgraph hlive hmember hquiet htoken

theorem exec_quiescenceTokenForward_of_other (horigin : hart ≠ s.dev.origin g) :
    let t := s.setDeque hart { s.deque hart with token := false, tblack := false, black := false }
    exec (.quiescenceTokenForward hart) s = .next (t.setDeque (ringNext g.ring hart)
      { t.deque (ringNext g.ring hart) with token := true, tblack := (s.deque hart).black || (s.deque hart).tblack }) := by
  show execQuiescenceTokenForward hart s = _
  simp only [execQuiescenceTokenForward, hgraph, hlive, hmember, hquiet, htoken, horigin, ne_eq, not_true_eq_false, Bool.true_eq_false, or_self,
    if_false, if_true]

/-- A white token that comes back to a white origin ends every DOMWAIT of the ring. -/
theorem exec_quiescenceTokenForward_of_origin (horigin : hart = s.dev.origin g) (hwhite : (s.deque hart).tblack = false)
    (hown : (s.deque hart).black = false) :
    let t := g.ring.foldl (fun s n => s.endDomwait n) (s.setDeque hart { s.deque hart with token := false })
    exec (.quiescenceTokenForward hart) s = .next { t with dev := t.dev.setGraph { g with active := false } } := by
  show execQuiescenceTokenForward hart s = _
  simp only [execQuiescenceTokenForward, hgraph, hlive, hmember, hquiet, htoken, ← horigin, hwhite, hown, ne_eq, not_true_eq_false,
    Bool.true_eq_false, or_self, Bool.not_false, Bool.and_self, if_false, if_true]

end Token

end Retry

/-! The kick of an engine hart (R219, R305) -/

section Kick
variable {s t : State} {hart : Nat} {l : Loc} {a : Attr}

/-- A kick whose binder can be read waits there while WORD is zero, and starts the hart with its regions once it is not. -/
theorem exec_engineKickStart_of_binder (hidle : (s.hart (1024 + hart)).run = .idle) (hsent : s.dev.hartSending (1024 + hart) = false)
    (hkick : (s.mt hart).ekick ≠ 0) (halign : (s.mt hart).ekick.toNat % 64 = 0) (hctx : (s.hart (1024 + hart)).ctxid = (s.mt hart).ectx)
    (hloads : (s.hart (1024 + hart)).loadsHeld = false) (hnotice : (s.hart (1024 + hart)).noticeFor 0 ((s.mt hart).ekick.toNat / 4096) = none)
    (hstores : s.postedTouches (1024 + hart) 0 (s.mt hart).ekick 64 = false)
    (htarget : s.target (s.mt hart).ectx.toNat (1024 + hart) 0 (s.mt hart).ekick 64 true false = (t, .at l a))
    (hzones : (binderRegions (t.binderBytes l (t.mt hart).kick)).find? (fun x => zoneOf x.2.2 == .invalid) = none ∨
      leNat ((t.binderBytes l (t.mt hart).kick).take 8) = 0) :
    let bin := t.binderBytes l (t.mt hart).kick
    let u := t.endKick hart
    let h := (u.hart (1024 + hart)).engineStart hart (s.mt hart).ectx (s.mt hart).eentry (BitVec.ofNat 64 (leNat (bin.take 8))) (s.mt hart).ekick
    exec (.engineKickStart hart) s = .next (if leNat (bin.take 8) = 0 then t.awaitKick hart l
      else u.setHart (1024 + hart) ((h.regionWork true (binderRegions bin)).awaitWbacks h)) := by
  have hkicked : ((s.mt hart).ekick == 0) = false := beq_false_of_ne hkick
  show execEngineKickStart hart s = _
  simp only [execEngineKickStart, hidle, hsent, hkicked, halign, hctx, hloads, hnotice, hstores, htarget, bne_self_eq_false, Bool.false_and, Bool.or_self,
    Bool.false_eq_true, ne_eq, not_true_eq_false, if_false]
  by_cases hword : leNat ((t.binderBytes l (t.mt hart).kick).take 8) = 0
  · simp only [hword, if_true]
  · simp only [hword, if_false, hzones.resolve_right hword]

end Kick

/-- Settles O53: each clause is what its step does under the conditions that the clause names. -/
theorem taskSteps : Obligations.TaskSteps := by
  unfold Obligations.TaskSteps
  intro hart s s1 s2 s3 b idx c g bs xs ys
  refine ⟨exec_joinWordRead_of_bytes, ?suspend, ?seek, exec_theftReply_of_none, fun hreply hgraph => ⟨_, exec_theftReply_of_empty hreply hgraph, rfl⟩,
    fun fs => exec_theftReply_of_frame, fun v => exec_theftCopyComplete_of_victim, rfl, exec_poolTakeRetry_of_start, exec_dequeSpillResume_of_room,
    ?token, ?kick⟩
  case suspend =>
    intro yields hsusp hrun hthalt hspawns
    refine ⟨fun x => exec_joinSuspend_of_notice hsusp hrun hthalt hspawns, ?_⟩
    rintro s0 hnotice hwrite rfl
    rw [exec_joinSuspend_of_bytes hsusp hrun hthalt hspawns hnotice hwrite]
    refine ⟨?yield, ?join⟩
    case yield =>
      rintro rfl w rfl hpush
      rw [if_pos rfl, State.pushYield_of_pushed hpush]
    case join =>
      rintro rfl w rfl hread
      rw [if_neg Bool.false_ne_true]
      exact ⟨fun hcount => by rw [State.swapSusp_of_zero hread hcount], fun hcount hswap => by rw [State.swapSusp_of_bytes hread hcount hswap]⟩
  case seek =>
    intro hseeks
    refine ⟨exec_ownerPop_of_count hseeks, fun hring hlap hown hmember hstopped hovf => ?_⟩
    rw [exec_theftRequest_of_victim hseeks hring hlap hown hmember hstopped hovf]
    refine ⟨fun hempty => by rw [if_pos hempty], fun htransit hcount => ?_⟩
    rw [if_neg (not_or.mpr ⟨ne_true_of_eq_false htransit, hcount⟩)]
  case token =>
    intro hgraph hlive hmember hquiet htoken
    exact ⟨exec_quiescenceTokenForward_of_other hgraph hlive hmember hquiet htoken,
      exec_quiescenceTokenForward_of_origin hgraph hlive hmember hquiet htoken⟩
  case kick =>
    intro l a e m hidle hsent hkick halign hctx hloads hnotice hstores htarget
    have hexec := exec_engineKickStart_of_binder hidle hsent hkick halign hctx hloads hnotice hstores htarget
    refine ⟨fun hword => ?waits, fun hword hzones => ?starts⟩
    case waits => rw [hexec (.inr hword), if_pos hword]
    case starts => rw [hexec (.inl hzones), if_neg hword]

end Sys2Proof.Machine

/-! A device that a fatal event has stopped (R440). -/
namespace Sys2Proof.Machine

theorem Choice.eq_deviceReset_of_afterFatal {c : Choice} (h : c.afterFatal = true) : c = .event .deviceReset := by
  unfold Choice.afterFatal at h
  split at h
  · rfl
  · exact absurd h Bool.false_ne_true

/-- A stopped device answers the state it was in to every choice but its reset. -/
theorem runChoice_of_halted {c : Choice} {s : State} (hhalted : s.dev.halted = true) (hc : c ≠ .event .deviceReset) : runChoice c s = .next s := by
  have hother : c.afterFatal = false := Bool.eq_false_iff.mpr fun h => hc (Choice.eq_deviceReset_of_afterFatal h)
  rw [runChoice, hhalted, hother]
  rfl

theorem defaultStep_of_halted {s : State} (hhalted : s.dev.halted = true) : defaultStep s = none := if_pos hhalted

/-- A stopped device whose agenda does not begin with its reset drops the head of the agenda and does nothing else. -/
theorem step_of_halted {s : State} (hhalted : s.dev.halted = true) (hreset : ∀ cs, s.agenda ≠ .event .deviceReset :: cs) :
    step s = .next { s with agenda := s.agenda.tail } := by
  unfold step
  cases hagenda : s.agenda with
  | cons c cs =>
    refine runChoice_of_halted hhalted ?_
    rintro rfl
    exact hreset cs hagenda
  | nil =>
    dsimp only
    rw [defaultStep_of_halted hhalted, List.tail_nil, ← hagenda]

/-- Settles O39: the one choice that a stopped device takes is its reset, and it has no step of its own. -/
theorem stoppedDeviceMovesOnlyByReset : Obligations.StoppedDeviceMovesOnlyByReset := by
  unfold Obligations.StoppedDeviceMovesOnlyByReset
  intro s t hhalted hstep hreset
  obtain rfl := Host.Outcome.next.inj ((step_of_halted hhalted hreset).symm.trans hstep)
  exact ⟨rfl, hhalted⟩

end Sys2Proof.Machine


/-! Task instructions (R285 to R296, R450). Each acts on its block alone: a child or a record is held for the commit, JOIN, YIELD and TASKEND are its exit. -/
namespace Sys2Proof.Machine

/-- The width hint of a token's low four bits, value by value (R294). -/
theorem hintOf_eq (x : Nat) : hintOf x = match x % 16 with | 0 => 0 | 1 => 1 | 2 | 3 => 2 | 4 | 5 | 6 | 7 => 4 | _ => 8 := by
  unfold hintOf
  have hlt : x % 16 < 16 := Nat.mod_lt _ (by decide)
  generalize x % 16 = k at hlt
  interval_cases k <;> rfl

theorem Hart.seg_count_putBlock (h : Hart) (ev n : Nat) (b : Block) : ((h.count ev n).putBlock b).seg = h.seg := by
  unfold Hart.count
  split <;> rfl

theorem Hart.busy_count_putBlock (h : Hart) (ev n : Nat) (b : Block) : ((h.count ev n).putBlock b).busy = h.busy := by
  unfold Hart.count
  split <;> rfl

/-- What a TASKID sends does not change as the firing is counted. -/
theorem taskidTok_count_putBlock (h : Hart) (ev n : Nat) (b : Block) (sel : BitVec 2) :
    let k : Hart := (h.count ev n).putBlock b
    tokOf (if sel = 0 then k.taskid.setWidth 64 else if sel = 1 then k.seg else k.parent) =
      tokOf (if sel = 0 then h.taskid.setWidth 64 else if sel = 1 then h.seg else h.parent) := by
  unfold Hart.count
  split <;> rfl

/-- What the fault of live engine state reports does not change as the firing is counted. -/
theorem liveWord_count_putBlock (h : Hart) (ev n : Nat) (b : Block) (m : Mt) : liveWord ((h.count ev n).putBlock b) m = liveWord h m := by
  unfold Hart.count
  split <;> rfl

section Fire
variable {s : State} {b : Block} {l r : Token} {pr : BitVec 2}

/-- An instruction of the task form leaves its block alone for a null operand (R286). -/
theorem taskEff_of_fires {operands : Nat} (h : Fires s ⟨pr, operands, false, none, none, .whole⟩ b l r) {g : Hart → Block → Token → Token → Block}
    (k : Block → Block) (hk : g (s.countedHart b) (b.markFired s.dev.focus.idx) l r = k (b.markFired s.dev.focus.idx)) :
    taskEff s pr operands g = .next (s.firedBlock b fun b1 => if l.null || (decide (operands = 2) && r.null) then b1 else k b1) := by
  unfold taskEff
  rw [fire_of_fires h]
  refine congrArg _ (State.fired_eq_firedBlock ?_)
  simp only [Bool.or_eq_true, Bool.and_eq_true, decide_eq_true_eq]
  exact if_congr Iff.rfl rfl hk

theorem taskEff_one_of_fires (h : Fires s ⟨pr, 1, false, none, none, .whole⟩ b l r) {g : Hart → Block → Token → Token → Block}
    (k : Block → Block) (hk : g (s.countedHart b) (b.markFired s.dev.focus.idx) l r = k (b.markFired s.dev.focus.idx)) :
    taskEff s pr 1 g = .next (s.firedBlock b fun b1 => if l.null then b1 else k b1) := by
  refine (taskEff_of_fires h k hk).trans ?_
  simp only [Nat.reduceEqDiff, decide_false, Bool.false_and, Bool.or_false]

theorem exec_spawn_of_fires (h : Fires s (formOf (.spawn pr) false) b l r) :
    exec (.spawn pr) s = .next (s.firedBlock b fun b1 =>
      if l.null then b1 else if !goodTarget l then b1.fault 0x05 s.dev.focus.idx l.lo 0
      else b1.addEff s.dev.focus.idx (.spawn l.lo (s.hart s.dev.focus.hart).seg)) := by
  refine taskEff_one_of_fires h _ ?_
  rw [State.countedHart, Hart.seg_count_putBlock]

theorem exec_spawna_of_fires (h : Fires s (formOf (.spawna pr) false) b l r) :
    exec (.spawna pr) s = .next (s.firedBlock b fun b1 =>
      if l.null || r.null then b1 else if !goodTarget l then b1.fault 0x05 s.dev.focus.idx l.lo 0
      else if r.lo.toNat % 4096 ≠ 0 then b1.addFault { plainFault 0x12 (32 + s.dev.focus.idx) with va := r.lo }
      else b1.addEff s.dev.focus.idx (.spawn l.lo r.lo)) :=
  taskEff_of_fires h _ rfl

theorem exec_width_of_fires (h : Fires s (formOf (.width pr) false) b l r) :
    exec (.width pr) s = .next (s.firedBlock b fun b1 => if l.null then b1 else
      b1.addEff s.dev.focus.idx (.width (match l.lo.toNat % 16 with | 0 => 0 | 1 => 1 | 2 | 3 => 2 | 4 | 5 | 6 | 7 => 4 | _ => 8))) :=
  taskEff_one_of_fires h _ (congrArg (fun k => Block.addEff _ _ (.width k)) (hintOf_eq _))

theorem exec_launch_of_fires (h : Fires s (formOf (.launch pr) false) b l r) :
    exec (.launch pr) s = .next (s.firedBlock b fun b1 =>
      if l.null then b1
      else if l.lo.toNat % 64 ≠ 0 then b1.addFault { plainFault 0x12 (32 + s.dev.focus.idx) with va := l.lo }
      else b1.addEff s.dev.focus.idx (.launch l.lo)) :=
  taskEff_one_of_fires h _ rfl

/-- JOIN and YIELD look at their continuation first, then at the tensor operations outstanding (R286, R290). -/
theorem leaveTask_of_fires (h : Fires s ⟨pr, 1, true, none, none, .whole⟩ b l r) (br : Dbl → Branch) :
    leaveTask s pr br = .next (s.firedBlock b fun b1 =>
      let c := s.dev.focus
      if !goodTarget l then (b1.takeExit c.idx).fault 0x05 c.idx (badTargetDetail l) 0
      else if (s.hart c.hart).busy ≠ 0 then (b1.takeExit c.idx).fault 0x30 c.idx (liveWord (s.hart c.hart) (s.mt (placeOfHart c.hart))) 0
      else (b1.takeExit c.idx).setBranch c.idx (br l.lo)) := by
  show Host.Outcome.next (s.fire ⟨pr, 1, true, none, none, .whole⟩ _) = _
  rw [fire_of_fires h]
  refine congrArg _ (State.fired_eq_firedBlock ?_)
  dsimp only
  rw [Hart.busy_count_putBlock, liveWord_count_putBlock]

theorem exec_taskend_of_fires (h : Fires s (formOf (.taskend pr) false) b l r) :
    exec (.taskend pr) s = .next (s.firedBlock b fun b1 => (b1.takeExit s.dev.focus.idx).setBranch s.dev.focus.idx .taskend) :=
  exec_onBlock_of_fires h _ rfl rfl

theorem exec_domwait_of_fires {t0 : BitVec 9} (h : Fires s (formOf (.domwait t0 pr) false) b l r) :
    exec (.domwait t0 pr) s = .next (s.firedBlock b fun b1 => b1.addReq
      { idx := s.dev.focus.idx, lsid := 0, ord := 0, zone := 0, va := 0, t0 := t0, kind := .domwait (s.openRound s.dev.focus.hart) }) :=
  exec_onBlock_of_fires h _ rfl rfl

theorem taskid_sends (t0 : BitVec 9) (n pr : BitVec 2) : Sends (.taskid t0 n pr) false fun h _ _ =>
    tokOf (if n = 0 then h.taskid.setWidth 64 else if n = 1 then h.seg else h.parent) := by
  intro s b l r h
  refine congrArg Host.Outcome.next (State.fireScalar_sends h ?_)
  exact taskidTok_count_putBlock ..

end Fire

/-- Settles O31: each instruction by its own lemma, JOIN and YIELD by one. -/
theorem taskInstructions : Obligations.TaskInstructions := by
  unfold Obligations.TaskInstructions
  intro t0 n pr s b l r
  dsimp only
  simp only [← goodTarget_eq]
  exact ⟨exec_spawn_of_fires, exec_spawna_of_fires, fun h => leaveTask_of_fires h .join, fun h => leaveTask_of_fires h .yield,
    exec_taskend_of_fires, taskid_sends t0 n pr, exec_width_of_fires, exec_launch_of_fires, exec_domwait_of_fires⟩

end Sys2Proof.Machine

/-! Table instructions (R336, R337, R341, R343, R351). CBLD, ALINV and ATTR act on their block by their zone; an ATTR of a host page without a translation asks
for one. -/
namespace Sys2Proof.Machine

theorem Hart.ctxid_count_putBlock (h : Hart) (ev n : Nat) (b : Block) : ((h.count ev n).putBlock b).ctxid = h.ctxid := by
  unfold Hart.count
  split <;> rfl

section Zoned
variable {s : State} {b : Block} {l r : Token} {zone : Nat} {t0 : BitVec 9} {z pr : BitVec 2} {old : Bool}

/-- An instruction of one operand without identifiers acts on its block by its zone; a null operand sends a null token (R233). -/
theorem State.fireMem_one_of_fires (h : Fires s ⟨pr, 1, old, none, none, .whole⟩ b l r)
    (hzone : (s.hart s.dev.focus.hart).zoneFor s.dev.focus.tag z.toNat = some zone) {g : Nat → Hart → Block → Token → Token → Hart} (k : Block → Block)
    (hk : g zone (s.countedHart b) (b.markFired s.dev.focus.idx) l r = (s.countedHart b).putBlock (k (b.markFired s.dev.focus.idx))) :
    s.fireMem ⟨pr, 1, old, none, none, .whole⟩ z t0 g = s.firedBlock b fun b1 => if l.null then b1.deliver t0 tokNull else k b1 := by
  rw [State.fireMem_of_fires_of_eq h hzone (k := fun h1 b1 => h1.putBlock (k b1)) fun _ => hk]
  simp only [nullOperand_one, ← apply_ite]
  rfl

/-- A CBLD meets an invalid zone before a misaligned address; both faults name a read of 64 bytes (R341, R351). -/
theorem exec_cbld_of_fires (h : Fires s (formOf (.cbld z pr) true) b l r)
    (hzone : (s.hart s.dev.focus.hart).zoneFor s.dev.focus.tag z.toNat = some zone) :
    let read (cause : Nat) : FaultRec := accessFault s.dev.focus.idx none cause zone 0 64 0 l.lo false
    exec (.cbld z pr) s = .next (s.firedBlock b fun b1 =>
      if l.null then b1
      else if zoneOf zone = .invalid then b1.addFault (read 0x10)
      else if !aligned l.lo 4 then b1.addFault (read 0x12)
      else b1.addReq { idx := s.dev.focus.idx, lsid := 0, ord := 0, zone := zone, va := l.lo, t0 := noTarget, kind := .cbld }) := by
  intro read
  refine congrArg Host.Outcome.next (State.fireMem_one_of_fires (t0 := noTarget) h hzone (fun b1 =>
    if zoneOf zone = .invalid then b1.addFault (read 0x10)
    else if !aligned l.lo 4 then b1.addFault (read 0x12)
    else b1.addReq { idx := s.dev.focus.idx, lsid := 0, ord := 0, zone := zone, va := l.lo, t0 := noTarget, kind := .cbld }) ?_)
  simp only [apply_ite (s.countedHart b).putBlock]
  rfl

theorem exec_alinv_of_fires {sc : BitVec 3} (h : Fires s (formOf (.alinv sc z pr) false) b l r)
    (hzone : (s.hart s.dev.focus.hart).zoneFor s.dev.focus.tag z.toNat = some zone) :
    exec (.alinv sc z pr) s = .next (s.firedBlock b fun b1 =>
      if l.null then b1
      else if zoneOf zone = .invalid then b1.addFault { plainFault 0x10 (32 + s.dev.focus.idx) with zone := zone, va := l.lo }
      else b1.addEff s.dev.focus.idx (.alinv zone sc.toNat l.lo)) :=
  congrArg Host.Outcome.next (State.fireMem_one_of_fires (t0 := noTarget) h hzone (fun b1 =>
    if zoneOf zone = .invalid then b1.addFault { plainFault 0x10 (32 + s.dev.focus.idx) with zone := zone, va := l.lo }
    else b1.addEff s.dev.focus.idx (.alinv zone sc.toNat l.lo)) (apply_ite ..).symm)

theorem exec_attr_of_fires (h : Fires s (formOf (.attr t0 z pr) false) b l r)
    (hzone : (s.hart s.dev.focus.hart).zoneFor s.dev.focus.tag z.toNat = some zone) (hwaits : s.attrWaits z.toNat = false) :
    exec (.attr t0 z pr) s = .next (s.firedBlock b fun b1 =>
      if l.null then b1.deliver t0 tokNull
      else if zoneOf zone = .invalid then b1.addFault { plainFault 0x10 (32 + s.dev.focus.idx) with zone := zone, va := l.lo }
      else b1.deliver t0 (tokOf (BitVec.ofNat 64 (attrValue s (s.hart s.dev.focus.hart).ctxid.toNat zone l.lo.toNat)))) := by
  show execAttr t0 z pr s = _
  unfold execAttr
  simp only [hwaits, Bool.false_and, Bool.false_eq_true, if_false]
  refine congrArg Host.Outcome.next (State.fireMem_one_of_fires h hzone _ ?_)
  rw [apply_ite (s.countedHart b).putBlock, State.countedHart, Hart.ctxid_count_putBlock]

theorem exec_attr_of_waits (h : Fires s (formOf (.attr t0 z pr) false) b l r) (hwaits : s.attrWaits z.toNat = true) :
    exec (.attr t0 z pr) s = .next (s.attrAsks z.toNat) := by
  show execAttr t0 z pr s = _
  have hgoes := State.goes_of_fires h
  unfold execAttr
  dsimp only
  rw [if_pos]
  rw [hwaits]
  exact hgoes

end Zoned

theorem orNull_one (l r k : Token) : orNull 1 l r k = if l.null then tokNull else k := by
  simp only [orNull, Nat.le_refl, true_and, Nat.not_ofNat_le_one, false_and, or_false]

theorem operandCount_dmapq (t0 : BitVec 9) (q pr : BitVec 2) : operandCount (.dmapq t0 q pr) = 1 := rfl

/-- A DMAPQ reads the decode map's version, the validity of an opcode, or the version of the scan map (R343). -/
theorem exec_dmapq_of_fires {s : State} {b : Block} {l r : Token} {t0 : BitVec 9} {q pr : BitVec 2} (h : Fires s (formOf (.dmapq t0 q pr) false) b l r) :
    exec (.dmapq t0 q pr) s = .next (s.sends b [t0] (if l.null then tokNull else tokOf (dmapqValue s.dev q.toNat l.lo))) := by
  refine congrArg Host.Outcome.next ((State.fireScalar_of_fires h ..).trans ?_)
  simp only [← Block.deliverAll_one, operandCount_dmapq, orNull_one]
  rfl

/-- Settles O34: each instruction by its own lemma. -/
theorem tableInstructions : Obligations.TableInstructions := by
  unfold Obligations.TableInstructions
  intro t0 sc z q pr s b l r zone
  dsimp only
  refine ⟨fun h hzone => ?cbld, fun h hzone => ?alinv, fun hwaits h hzone => ?attr, exec_attr_of_waits, fun h => ?dmapq⟩
  case cbld =>
    rw [exec_cbld_of_fires h hzone]
    simp only [aligned_eq_decide, ← decide_not, decide_eq_true_eq]
    rfl
  case alinv => exact exec_alinv_of_fires h hzone
  case attr => exact exec_attr_of_fires h hzone hwaits
  case dmapq =>
    rw [exec_dmapq_of_fires h, dmapqValue]
    simp only [← BitVec.toNat_inj]
    rfl

end Sys2Proof.Machine

/-! Count instructions (R359, R361 to R366). A wait leaves its request, RDC and TIME send what they read, JADD and PCFG are held for the commit. An RDC that
reaches a home, or whose counter has risen by a free amount, fires on the state after that: its core differs there from the core before in no more than its
performance counters and its lookaside, which no firing asks. -/
namespace Sys2Proof.Machine

/-- A write leaves what the other keys read, whatever the store holds. -/
theorem mget_mset_of_ne {α : Type} [DecidableEq α] {d : α} {m : SMap α} {k i : Nat} (hne : i ≠ k) (a : α) : mget d (mset d m k a) i = mget d m i := by
  induction m with
  | nil =>
    unfold mset
    split
    · rfl
    · simp [mget, hne.symm]
  | cons p m ih =>
    obtain ⟨j, x⟩ := p
    unfold mset
    rcases Nat.lt_trichotomy k j with hlt | rfl | hgt
    · by_cases ha : a = d <;> simp [mget, hlt, ha, hne.symm]
    · by_cases ha : a = d <;> simp [mget, ha, hne.symm]
    · simp [mget, Nat.lt_asymm hgt, Nat.ne_of_gt hgt, ih]

@[simp] theorem State.focus_setHart (s : State) (n : Nat) (h : Hart) : (s.setHart n h).dev.focus = s.dev.focus := by
  unfold State.setHart Dev.setHart
  dsimp only
  split
  · rfl
  split <;> split <;> rfl

/-! Cores that differ in performance counters and lookaside alone -/

/-- `k` is `h` but for its performance counters and its lookaside. -/
def Hart.SameBeside (h k : Hart) : Prop := ∃ c l, k = { h with pcnt := c, look := l }

theorem Hart.SameBeside.refl (h : Hart) : h.SameBeside h := ⟨h.pcnt, h.look, rfl⟩

theorem Hart.SameBeside.trans {h k m : Hart} (hk : h.SameBeside k) (hm : k.SameBeside m) : h.SameBeside m := by
  obtain ⟨c, l, rfl⟩ := hk
  obtain ⟨c', l', rfl⟩ := hm
  exact ⟨c', l', rfl⟩

theorem Hart.sameBeside_count (h : Hart) (ev n : Nat) : h.SameBeside (h.count ev n) := by
  unfold Hart.count
  split
  · exact .refl h
  · exact ⟨_, h.look, rfl⟩

theorem Hart.sameBeside_learn (h : Hart) (zone page : Nat) (a : Attr) (armed : Bool) : h.SameBeside (h.learn zone page a armed) := by
  unfold Hart.learn
  dsimp only
  split
  · exact .refl h
  · exact ⟨h.pcnt, _, rfl⟩

/-- The focus of `u` is that of `s`, and so is core `n` but for its performance counters and its lookaside. -/
structure State.SameCore (n : Nat) (s u : State) : Prop where
  focus : u.dev.focus = s.dev.focus
  hart : (s.hart n).SameBeside (u.hart n)

theorem State.SameCore.refl (n : Nat) (s : State) : s.SameCore n s := ⟨rfl, .refl _⟩

theorem State.SameCore.trans {n : Nat} {s t u : State} (ht : s.SameCore n t) (hu : t.SameCore n u) : s.SameCore n u :=
  ⟨hu.focus.trans ht.focus, ht.hart.trans hu.hart⟩

theorem State.SameCore.ite {n : Nat} {s t u : State} {c : Prop} {_ : Decidable c} (ht : s.SameCore n t) (hu : s.SameCore n u) :
    s.SameCore n (if c then t else u) := by
  split <;> assumption

/-- Only a live core fires: the tokens of the others stand at their link interfaces (R388). -/
theorem Fires.live {s : State} {f : Form} {b : Block} {l r : Token} (h : Fires s f b l r) : s.dev.focus.hart < 2048 := by
  by_contra hn
  have hheld : s.hart s.dev.focus.hart = s.dev.heldHart s.dev.focus.hart := if_neg hn
  obtain hthalt | hblocks := s.dev.heldHart_quiet s.dev.focus.hart
  · exact absurd (hthalt.symm.trans ((congrArg Hart.thalt hheld).symm.trans h.free)) Bool.noConfusion
  · have hnone : (s.hart s.dev.focus.hart).block s.dev.focus.tag = none := by rw [hheld, Hart.block, hblocks, List.find?_nil]
    exact absurd (hnone.symm.trans h.block) nofun

/-- What firing asks of a core, its counters and its lookaside are no part of. -/
theorem Fires.of_sameCore {s u : State} {f : Form} {b : Block} {l r : Token} (h : Fires s f b l r) (hu : s.SameCore s.dev.focus.hart u) : Fires u f b l r := by
  obtain ⟨hfocus, c, k, hhart⟩ := hu
  constructor
  case alive => exact h.alive
  case turn => exact h.turn
  all_goals rw [hfocus]
  case once => exact h.once
  case predicate => exact h.predicate
  case left => exact h.left
  case right => exact h.right
  all_goals rw [hhart]
  case block => exact h.block
  case running => exact h.running
  case free => exact h.free
  case unspeculated => exact h.unspeculated
  case unfaulted => exact h.unfaulted
  case oldest => exact h.oldest
  case context => exact h.context
  case marked => exact h.marked
  case format => exact h.format

section Updates
variable {s : State} {n : Nat} (hlive : n < 2048)
include hlive

/-- An update of the device that leaves the focus and the live cores. -/
theorem State.SameCore.of_harts {u : State} (hfocus : u.dev.focus = s.dev.focus) (hharts : u.dev.harts = s.dev.harts) : s.SameCore n u := by
  refine ⟨hfocus, ?_⟩
  have hhart : u.hart n = s.hart n := by
    simp only [State.hart, Dev.hart, if_pos hlive, Dev.liveHart, hharts]
  rw [hhart]
  exact .refl _

theorem State.SameCore.setHart {h : Hart} (hh : (s.hart n).SameBeside h) : s.SameCore n (s.setHart n h) := by
  refine ⟨State.focus_setHart .., ?_⟩
  rwa [State.hart_setHart_same hlive]

/-- An update of another live core. -/
theorem State.SameCore.setHart_of_ne {k : Nat} (hk : k < 2048) (hne : n ≠ k) (h : Hart) : s.SameCore n (s.setHart k h) := by
  refine ⟨State.focus_setHart .., ?_⟩
  have hhart : (s.setHart k h).hart n = s.hart n := by
    simp only [State.hart, State.setHart, Dev.setHart, Dev.hart, if_pos hlive, if_pos hk, Dev.liveHart, mget_mset_of_ne hne]
  rw [hhart]
  exact .refl _

theorem State.sameCore_freshened (s : State) : s.SameCore n s.freshened := .of_harts hlive rfl rfl

theorem State.sameCore_countSome (s : State) (ev w : Nat) : s.SameCore n (s.countSome n ev w) :=
  .ite ((State.SameCore.setHart hlive (Hart.sameBeside_count ..)).trans (State.sameCore_freshened hlive _)) (.refl n s)

theorem State.sameCore_learn (s : State) (zone page : Nat) (a : Attr) : s.SameCore n (s.learn n zone page a) :=
  .ite (.refl n s) (.setHart hlive (Hart.sameBeside_learn ..))

theorem State.sameCore_countWalk (s : State) (zone : Nat) (va : Dbl) : s.SameCore n (s.countWalk n zone va) := by
  have hcounted : s.SameCore n ((if (s.dev.tlbFind (s.hart n).ctxid.toNat zone (va.toNat / 4096)).isSome then s
      else s.setHart n ((s.hart n).count 8 1)).countSome n 7 1) :=
    .trans (.ite (.refl n s) (.setHart hlive (Hart.sameBeside_count ..))) (State.sameCore_countSome hlive ..)
  unfold State.countWalk
  dsimp only
  split
  · exact hcounted
  · exact hcounted
  · exact .refl n s

theorem State.sameCore_learnAt (s : State) (zone : Nat) (va : Dbl) : s.SameCore n (s.learnAt n zone va) := by
  unfold State.learnAt
  split
  · exact .refl n s
  · exact State.sameCore_learn hlive ..
  · exact .refl n s

theorem State.sameCore_wake (s : State) (l : Loc) (k : Nat) : s.SameCore n (s.wake l k) := by
  obtain ⟨ws, hwake⟩ := s.wake_eq l k
  rw [hwake]
  exact .of_harts hlive rfl rfl

theorem State.sameCore_putDev (s : State) (pa : Nat) (bs : List Byte) : s.SameCore n (s.putDev pa bs) := by
  unfold State.putDev
  refine .trans ?_ (State.sameCore_wake hlive _ _ _)
  exact .of_harts hlive rfl rfl

theorem State.sameCore_fillTlb (s : State) (ctx zone page pa : Nat) (a : Attr) (leaf : Nat) : s.SameCore n (s.fillTlb ctx zone page pa a leaf) :=
  .trans (.ite (.refl n s) (State.sameCore_putDev hlive ..)) (.of_harts hlive rfl rfl)

theorem State.sameCore_reached (s : State) (ctx zone page pa : Nat) (a : Attr) : s.SameCore n (s.reached ctx zone page pa a).1 := by
  unfold State.reached State.countAccess
  split
  · exact .refl n s
  · dsimp only
    split
    · exact .of_harts hlive rfl rfl
    · exact .refl n s

/-- The home of an address of the own zone keeps the translation; no core changes (R333). -/
theorem State.sameCore_xlate_own (s : State) (ctx va : Nat) (rd wr : Bool) : s.SameCore n (s.xlate ctx 0 va rd wr).1 := by
  have hzone : zoneOf 0 = .own := rfl
  simp only [State.xlate, hzone]
  split
  · exact State.sameCore_reached hlive ..
  split
  · exact .refl n s
  · exact .trans (State.sameCore_fillTlb hlive ..) (State.sameCore_reached hlive ..)

theorem State.sameCore_wordReached (s : State) : s.SameCore n (s.wordReached n) :=
  ((State.sameCore_countWalk hlive ..).trans (State.sameCore_xlate_own hlive ..)).trans (State.sameCore_learnAt hlive ..)

/-- A counter that catches up is that of the core at the place. -/
theorem State.sameCore_holdCounter (s : State) (k : Nat) : s.SameCore n (s.holdCounter (placeOfHart n) k) := by
  unfold State.holdCounter
  dsimp only
  refine .ite (.refl n s) (.trans ?_ (State.sameCore_freshened hlive _))
  by_cases hplace : placeOfHart n = n
  · rw [hplace]
    exact .setHart hlive ⟨_, (s.hart n).look, rfl⟩
  · exact .setHart_of_ne hlive (by unfold placeOfHart; omega) (Ne.symm hplace) _

end Updates

/-! Waits, JADD and PCFG (R362, R364, R365) -/

section Fire
variable {s : State} {b : Block} {l r : Token} {t0 : BitVec 9} {pr : BitVec 2}

/-- A wait leaves its request, whatever it waits for (R362). -/
theorem waitcFire_of_fires (h : Fires s ⟨pr, 0, false, none, none, .whole⟩ b l r) (kind arg : Nat) :
    waitcFire s t0 pr kind arg = .next (s.firedBlock b fun b1 =>
      b1.addReq { idx := s.dev.focus.idx, lsid := 0, ord := 0, zone := 0, va := 0, t0 := t0, kind := .waitc kind arg none }) := by
  rw [waitcFire, fire_of_fires h]
  rfl

theorem exec_jadd_of_fires {sc : BitVec 3} (h : Fires s (formOf (.jadd sc pr) false) b l r) :
    exec (.jadd sc pr) s = .next (s.firedBlock b fun b1 =>
      if l.null || r.null then b1
      else if l.lo.toNat % 4096 ≠ 0 then b1.addFault { plainFault 0x12 (32 + s.dev.focus.idx) with va := l.lo, d1 := 2 + 256 * 3 }
      else b1.addEff s.dev.focus.idx (.jadd sc.toNat l.lo (r.lo.setWidth 32))) :=
  exec_onBlock_of_fires h _ rfl rfl

theorem exec_pcfg_of_fires {k : BitVec 3} (h : Fires s (formOf (.pcfg k pr) false) b l r) :
    exec (.pcfg k pr) s = .next (s.firedBlock b fun b1 =>
      if l.null then b1
      else if b.effs.any (fun e => match e.2 with | .pcfg m _ => m == k.toNat | _ => false) then b1.fault 0x03 s.dev.focus.idx 0 0
      else b1.addEff s.dev.focus.idx (.pcfg k.toNat l.lo)) :=
  exec_onBlock_of_fires h _ rfl rfl

/-! TIME (R360, R366) -/

/-- A reading of TIMEBASE has time pass; the status of the clock and the time of its last step are read as they stand. -/
theorem exec_time_of_fires {q : BitVec 2} (h : Fires s (formOf (.time t0 q pr) false) b l r) :
    let u : State := if q = 0 then s.ticked else s
    exec (.time t0 q pr) s = .next (u.sends b [t0] (tokOf (
      if q = 0 then u.dev.timebase
      else if q = 1 then BitVec.ofNat 64 (s.dev.sync.toNat + 2 ^ 16 * s.dev.steps.toNat) else s.dev.stepAt))) := by
  have hgoes : s.goes (scalarForm pr 0 false) = true := State.goes_of_fires h
  show execTime t0 q pr s = _
  unfold execTime
  simp only [hgoes, and_true]
  by_cases hq : q = 0
  · simp only [if_pos hq]
    exact congrArg _ (State.fireScalar_sends h.ticked rfl)
  · simp only [if_neg hq]
    exact congrArg _ (State.fireScalar_sends h rfl)

/-! RDC (R281, R333, R359, R363) -/

/-- The state on which an RDC of count `c` fires: its home has been reached where no replay notice stands, or its counter has caught up. -/
def State.readyForCount (s : State) (c : BitVec 5) : State :=
  let hn := s.dev.focus.hart
  if c = 3 ∧ isEngine hn = false ∧ s.wordNotice hn = none then s.wordReached hn
  else if s.readsTimed c.toNat then s.holdCounter (placeOfHart hn) (c.toNat - 8)
  else s

/-- What an RDC of count 3 makes of its block: it sends the join counter, or records the fault of a notice or of the access to it. -/
def State.joinCountRead (s : State) (t0 : BitVec 9) (b : Block) : Block :=
  let h := s.hart s.dev.focus.hart
  match s.wordNotice s.dev.focus.hart, s.peekWord h.ctxid.toNat h.seg with
  | some n, _ => b.addFault (deferredFault n (32 + s.dev.focus.idx))
  | none, (w, none) => b.deliver t0 (tokOf (BitVec.ofNat 64 (w / 2 ^ 32)))
  | none, (_, some x) => b.addFault (accessFault s.dev.focus.idx none x.1 0 0 8 x.2 (h.seg + 56) true)

theorem State.sameCore_readyForCount (hlive : s.dev.focus.hart < 2048) (c : BitVec 5) : s.SameCore s.dev.focus.hart (s.readyForCount c) :=
  .ite (State.sameCore_wordReached hlive s) (.ite (State.sameCore_holdCounter hlive s _) (.refl ..))

/-- The segment and the context of a core stand as they were once the state is ready for the count and the firing is counted. -/
theorem State.SameCore.countedHart {u : State} (hu : s.SameCore s.dev.focus.hart u) (b : Block) :
    (u.countedHart b).seg = (s.hart s.dev.focus.hart).seg ∧ (u.countedHart b).ctxid = (s.hart s.dev.focus.hart).ctxid := by
  obtain ⟨hfocus, c, l, hhart⟩ := hu
  rw [State.countedHart, Hart.seg_count_putBlock, Hart.ctxid_count_putBlock, hfocus, hhart]
  exact ⟨rfl, rfl⟩

/-- The detail of an access of eight bytes that only reads: its kind and size, or those of the walk's read of an entry (R374). -/
theorem accessDetail_word (pa : Nat) : accessDetail 0 8 pa = if pa = 2 ^ 64 then 0x304 else 0x300 := by
  unfold accessDetail
  split <;> rfl

theorem exec_rdc_of_fires {c : BitVec 5} (h : Fires s (formOf (.rdc t0 c pr) false) b l r) :
    let u := s.readyForCount c
    exec (.rdc t0 c pr) s = .next (u.firedBlock b fun b1 =>
      if c = 3 then
        if isEngine s.dev.focus.hart then b1.deliver t0 (tokOf 0) else s.joinCountRead t0 b1
      else b1.deliver t0 (tokOf (rdcValue u s.dev.focus.hart (u.countedHart b) b c.toNat))) := by
  have hgoes : s.goes ⟨pr, 0, false, none, none, .whole⟩ = true := State.goes_of_fires h
  have hsame := State.sameCore_readyForCount h.live c
  obtain ⟨hseg, hctx⟩ := hsame.countedHart b
  show execRdc t0 c pr s = _
  unfold execRdc
  simp only [hgoes, and_true, Bool.and_true]
  refine congrArg Host.Outcome.next ((fire_of_fires (h.of_sameCore hsame) _).trans (State.fired_eq_firedBlock ?_))
  change (if c = 3 then _ else _) = _
  unfold State.joinCountRead
  dsimp only
  rw [← hseg, ← hctx]
  rfl

/-- A count other than a performance counter is read on the state as it stands, but for a join counter whose home is reached. -/
theorem State.readyForCount_of_untimed {c : BitVec 5} (hcounter : ¬(8 ≤ c.toNat ∧ c.toNat < 16))
    (hreach : ¬(c = 3 ∧ isEngine s.dev.focus.hart = false ∧ s.wordNotice s.dev.focus.hart = none)) : s.readyForCount c = s := by
  have huntimed : s.readsTimed c.toNat = false := by
    simp only [State.readsTimed, ← Bool.decide_and, decide_eq_false hcounter, Bool.false_and]
  simp only [State.readyForCount, if_neg hreach, huntimed, Bool.false_eq_true, if_false]

/-- A performance counter is read once it has caught up; one that counts no timed events stands as it did (R359). -/
theorem State.readyForCount_of_counter {c : BitVec 5} (hle : 8 ≤ c.toNat) (hlt : c.toNat < 16) :
    s.readyForCount c = s.holdCounter (placeOfHart s.dev.focus.hart) (c.toNat - 8) := by
  have hjoin : c ≠ 3 := by rintro rfl; exact absurd hle (by decide)
  rw [State.readyForCount, if_neg (fun h => hjoin h.1)]
  cases htimed : s.timed (placeOfHart s.dev.focus.hart) (c.toNat - 8) with
  | true => simp only [State.readsTimed, hle, hlt, htimed, decide_true, Bool.and_self, if_true]
  | false =>
    simp only [State.readsTimed, htimed, Bool.and_false, Bool.false_eq_true, if_false, State.holdCounter, Bool.not_false, Bool.or_true, if_true]

theorem Hart.posts_count_putBlock (h : Hart) (ev n : Nat) (b : Block) (cls : Nat) : ((h.count ev n).putBlock b).posts cls = h.posts cls := by
  unfold Hart.count
  split <;> rfl

theorem Hart.notices_count_putBlock (h : Hart) (ev n : Nat) (b : Block) : ((h.count ev n).putBlock b).notices = h.notices := by
  unfold Hart.count
  split <;> rfl

/-- What an RDC sends of posted items, of its block, of notices and of an AGE. -/
theorem rdcValue_countedHart {c : Nat} (hcounter : ¬(8 ≤ c ∧ c < 16)) (hn : Nat) (b b1 : Block) :
    rdcValue s hn (s.countedHart b) b1 c =
      if c < 3 then BitVec.ofNat 64 ((s.hart s.dev.focus.hart).posts c)
      else if c = 4 then (if isEngine hn then 0 else BitVec.ofNat 64 b1.seq)
      else if c = 5 then BitVec.ofNat 64 (s.hart s.dev.focus.hart).notices.length
      else
        let a := (s.mt (placeOfHart hn)).age (c - 16)
        BitVec.ofNat 64 (a.done.toNat + 2 ^ 32 * a.pass.toNat) := by
  simp only [rdcValue, if_neg hcounter, State.countedHart, Hart.posts_count_putBlock, Hart.notices_count_putBlock]

@[simp] theorem Hart.putBlock_pcnt (h : Hart) (b : Block) : (h.putBlock b).pcnt = h.pcnt := rfl

theorem rdcValue_of_counter {c : Nat} (hle : 8 ≤ c) (hlt : c < 16) (hn : Nat) (h : Hart) (b : Block) :
    rdcValue s hn h b c = mget 0 (if isEngine hn then (s.hart (placeOfHart hn)).pcnt else h.pcnt) (c - 8) := by
  rw [rdcValue, if_neg (by omega), if_neg (by omega), if_neg (by omega), if_pos ⟨hle, hlt⟩]

end Fire

/-- Settles O33: the waits by one lemma; RDC by what its count reads. -/
theorem countInstructions : Obligations.CountInstructions := by
  unfold Obligations.CountInstructions
  intro t0 m n3 sc c q pr s b l r
  refine ⟨fun h => waitcFire_of_fires h 0 m.toNat, fun h => waitcFire_of_fires h 1 n3.toNat, fun h => waitcFire_of_fires h 2 0,
    fun h hcounter _ => ?counts, fun h hle hlt => ?performance, exec_jadd_of_fires, exec_pcfg_of_fires, exec_time_of_fires⟩
  case counts =>
    rw [exec_rdc_of_fires h]
    by_cases hjoin : c = 3
    · subst hjoin
      cases hengine : isEngine s.dev.focus.hart with
      | true =>
        rw [State.readyForCount_of_untimed hcounter (by simp [hengine])]
        rfl
      | false =>
        cases hnotice : s.wordNotice s.dev.focus.hart with
        | some x =>
          have hfound : (s.hart s.dev.focus.hart).noticeFor 0 (((s.hart s.dev.focus.hart).seg + 56).toNat / 4096) = some x := hnotice
          rw [State.readyForCount_of_untimed hcounter (by simp [hnotice])]
          simp only [State.joinCountRead, Bool.false_eq_true, if_true, if_false, and_self, hnotice, hfound]
        | none =>
          have hfound : (s.hart s.dev.focus.hart).noticeFor 0 (((s.hart s.dev.focus.hart).seg + 56).toNat / 4096) = none := hnotice
          have hreached : s.readyForCount 3 = s.wordReached s.dev.focus.hart := if_pos ⟨rfl, hengine, hnotice⟩
          rw [hreached]
          simp only [State.joinCountRead, Bool.false_eq_true, if_true, if_false, and_self, hnotice, hfound]
          obtain ⟨w, _ | x⟩ := s.peekWord (s.hart s.dev.focus.hart).ctxid.toNat (s.hart s.dev.focus.hart).seg
          · rfl
          · simp only [accessFault, accessDetail_word]
            rfl
    · rw [State.readyForCount_of_untimed hcounter (fun h => hjoin h.1)]
      simp only [rdcValue_countedHart hcounter, hjoin, false_and, if_false, ← BitVec.toNat_inj]
      rfl
  case performance =>
    have hfocus := (State.sameCore_holdCounter h.live s (c.toNat - 8)).focus
    have hjoin : c ≠ 3 := by rintro rfl; exact absurd hle (by decide)
    rw [exec_rdc_of_fires h, State.readyForCount_of_counter hle hlt]
    simp only [if_neg hjoin, rdcValue_of_counter hle hlt, State.countedHart, Hart.putBlock_pcnt, hfocus, ← apply_ite Hart.pcnt]
    rfl

end Sys2Proof.Machine

/-! Pre-emption (R384 to R404). A command that starts does its step on the state in which its register is written; the steps of the streamer, of drains and of
messages take place under the conditions that each names. -/
namespace Sys2Proof.Machine

/-! The command register (R404) -/

/-- The state in which PECMD holds what was written of it. -/
def State.peWritten (s : State) (cmd : Dbl) : State := { s with dev := { s.dev with pecmd := cmd &&& 0x0000FFFF07FFFFFF } }

section Command
variable {cmd : Dbl} {s : State} {run : State → PeCmd → State}

theorem State.command_of_no_go (hgo : (peCmd cmd.toNat).go = false) : s.command cmd run = s.peWritten cmd := by
  simp only [State.command, hgo, Bool.not_false, if_true]
  rfl

theorem State.command_of_busy (hgo : (peCmd cmd.toNat).go = true) (hbusy : s.dev.pestat.getLsbD 8 = true) :
    s.command cmd run = { s.peWritten cmd with dev := { (s.peWritten cmd).dev with pestat := 0x101 } } := by
  simp only [State.command, hgo, Bool.not_true, Bool.false_eq_true, if_false, hbusy, if_true]
  rfl

theorem State.command_of_free (hgo : (peCmd cmd.toNat).go = true) (hfree : s.dev.pestat.getLsbD 8 = false) :
    s.command cmd run = run (s.peWritten cmd) (peCmd cmd.toNat) := by
  simp only [State.command, hgo, Bool.not_true, Bool.false_eq_true, if_false, hfree]
  rfl

/-- Each of the six commands is a write of PECMD. -/
theorem exec_eq_command {i : Instr}
    (hi : i ∈ [.peSwapOut cmd, .pePreloadShadow cmd, .peClockStop cmd, .peRestoreSepia cmd, .peRestoreIvory cmd, .peDrainIvory cmd]) (s : State) :
    ∃ run, exec i s = .next (s.command cmd run) := by
  simp only [List.mem_cons, List.not_mem_nil, or_false] at hi
  obtain rfl | rfl | rfl | rfl | rfl | rfl := hi
  all_goals exact ⟨_, rfl⟩

end Command

/-- A copy of an image leaves the shadow banks. -/
theorem State.copyOf_shadow (s : State) (i : Image) : (s.copyOf i).1.dev.shadow = s.dev.shadow := by
  unfold State.copyOf
  split <;> rfl

/-! Each command, where it starts (R387, R389, R393, R394, R396, R402) -/

section Started
variable {cmd : Dbl} {s : State} (hgo : (peCmd cmd.toNat).go = true) (hfree : s.dev.pestat.getLsbD 8 = false)
include hgo hfree

section Rectangle
variable {g : Graph} (hlive : (s.peWritten cmd).ctxLive (peCmd cmd.toNat).ctx = true)
  (hgraph : (s.peWritten cmd).dev.graphAt (peCmd cmd.toNat).ctx (peCmd cmd.toNat).clu (peCmd cmd.toNat).row (peCmd cmd.toNat).col = some g)
include hlive hgraph

theorem exec_peSwapOut_of_room {t : State} {dst : Dbl} (hopen : (s.peWritten cmd).dev.shadowOpen g = true)
    (hsave : (s.peWritten cmd).takeSave (g.rows * g.cols) = (t, some dst)) :
    let u := t.signalSwap g 2 dst
    exec (.peSwapOut cmd) s = .next { u with dev := { u.dev with pestat := 0x101 } } := by
  show execPeSwapOut cmd s = _
  rw [execPeSwapOut, State.command_of_free hgo hfree]
  simp only [hlive, hgraph, hopen, hsave, Bool.not_true, Bool.false_eq_true, if_false]

theorem exec_peClockStop_of_room {t : State} {dst : Dbl} (hstop : (s.peWritten cmd).clockStop g = some (t, dst)) :
    exec (.peClockStop cmd) s = .next { t with dev := t.dev.peDone 0 (some dst) } := by
  show execPeClockStop cmd s = _
  rw [execPeClockStop, State.command_of_free hgo hfree]
  simp only [hlive, hgraph, hstop, Bool.not_true, Bool.false_eq_true, if_false]

theorem exec_pePreloadShadow_of_empty {i : Image} (himage : (s.peWritten cmd).dev.imageAt = some i) (hgood : (s.peWritten cmd).dev.imageBad i = none)
    (hrows : i.rows = g.rows) (hcols : i.cols = g.cols) (hcut : i.cut = g.cut) (hrecut : (i.recut g.row g.col).isSome = true)
    (hempty : g.places.all (fun x => (mget none (s.peWritten cmd).dev.shadow x).isNone && !(s.peWritten cmd).dev.streaming x) = true) :
    let u := (s.peWritten cmd).copyOf i
    ∃ t, exec (.pePreloadShadow cmd) s = .next t ∧ t.dev.pestat = 0 ∧
      t.dev.shadow = (g.places.zip u.2.tiles).foldl (fun m x => mset none m x.1 (some { x.2 with graph := (u.1.dev.savedGraph u.2).id }))
        (s.peWritten cmd).dev.shadow := by
  have hfits : ¬(i.rows ≠ g.rows ∨ i.cols ≠ g.cols ∨ i.cut ≠ g.cut ∨ (i.recut g.row g.col).isNone = true) := by
    simp [hrows, hcols, hcut, ← Option.not_isSome, hrecut]
  show ∃ t, execPePreloadShadow cmd s = _ ∧ _
  rw [execPePreloadShadow, State.command_of_free hgo hfree]
  simp only [hlive, hgraph, himage, hgood, hfits, hempty, Bool.not_true, Bool.false_eq_true, if_false]
  refine ⟨_, rfl, rfl, ?_⟩
  dsimp only
  rw [State.copyOf_shadow]

end Rectangle

section Image
variable {i : Image} (hctx : i.ctx = (peCmd cmd.toNat).ctx) (hlive : (s.peWritten cmd).ctxLive (peCmd cmd.toNat).ctx = true)
include hctx hlive

theorem exec_peRestoreSepia_of_target {q : Nat × Nat × Nat} (himage : (s.peWritten cmd).dev.imageAt = some i)
    (hgood : (s.peWritten cmd).dev.imageBad i = none) (htarget : (s.peWritten cmd).dev.target i (peCmd cmd.toNat) = some q) :
    let u := (s.peWritten cmd).restoreImage i q
    exec (.peRestoreSepia cmd) s = .next { u with dev := u.dev.peDone 0 none } := by
  show execPeRestoreSepia cmd s = _
  rw [execPeRestoreSepia, State.command_of_free hgo hfree]
  simp only [himage, hgood, hctx, hlive, htarget, ne_eq, not_true_eq_false, Bool.not_true, Bool.false_eq_true, if_false]

theorem exec_peDrainIvory_of_room {t : State} (himage : (s.peWritten cmd).dev.imageAt = some i) (hgood : (s.peWritten cmd).dev.imageBad i = none)
    (hplace : (s.peWritten cmd).dev.canPlace i (peCmd cmd.toNat).clu (peCmd cmd.toNat).row (peCmd cmd.toNat).col = true)
    (hdrain : (s.peWritten cmd).startDrain i ((peCmd cmd.toNat).clu, (peCmd cmd.toNat).row, (peCmd cmd.toNat).col) (peCmd cmd.toNat).limit = some t) :
    exec (.peDrainIvory cmd) s = .next t := by
  show execPeDrainIvory cmd s = _
  rw [execPeDrainIvory, State.command_of_free hgo hfree]
  simp only [himage, hgood, hctx, hlive, hplace, hdrain, ne_eq, not_true_eq_false, Bool.not_true, Bool.false_eq_true, if_false, Option.getD_some]

theorem exec_peRestoreIvory_of_target {q : Nat × Nat × Nat} (hrecord : (s.peWritten cmd).readRecord s.dev.pearg.toNat = .inr i)
    (htarget : (s.peWritten cmd).dev.target i (peCmd cmd.toNat) = some q) :
    let u := (s.peWritten cmd).restoreIvory i q
    exec (.peRestoreIvory cmd) s = .next { u with dev := u.dev.peDone 0 none } := by
  have hread : (s.peWritten cmd).readRecord (s.peWritten cmd).dev.pearg.toNat = .inr i := hrecord
  show execPeRestoreIvory cmd s = _
  rw [execPeRestoreIvory, State.command_of_free hgo hfree]
  simp only [hread, hctx, hlive, htarget, ne_eq, not_true_eq_false, Bool.not_true, Bool.false_eq_true, if_false]

end Image

/-- A record that cannot be read refuses its restore with the status of what is wrong with it (R401). -/
theorem exec_peRestoreIvory_of_unreadable {status : Nat} (hrecord : (s.peWritten cmd).readRecord s.dev.pearg.toNat = .inl status) :
    exec (.peRestoreIvory cmd) s = .next { s.peWritten cmd with dev := (s.peWritten cmd).dev.peDone status none } := by
  have hread : (s.peWritten cmd).readRecord (s.peWritten cmd).dev.pearg.toNat = .inl status := hrecord
  show execPeRestoreIvory cmd s = _
  rw [execPeRestoreIvory, State.command_of_free hgo hfree]
  simp only [hread]
  rfl

end Started

/-! The streamer (R391, R392) -/

section Streamer
variable {s : State} {p page : Nat}

/-- The page of the incoming side becomes resident, that of the outgoing side is the one still to be written (R392). -/
theorem exec_scratchPageExchange_of_nonresident {v : Saved} (hswaps : s.dev.swaps.contains p = false) (hpage : page < 126)
    (hnonres : mget false (s.mt p).nonres page = true) (hshadow : mget none s.dev.shadow p = some v) :
    let t := s.setMt p { s.mt p with nonres := mset false (s.mt p).nonres page false }
    exec (.scratchPageExchange p page) s = .next { t with dev := { t.dev with
      shadow := mset none t.dev.shadow p (some { v with mt := { v.mt with nonres := mset false v.mt.nonres page true } }) } } := by
  have hin : decide (126 ≤ page) = false := decide_eq_false (Nat.not_le.mpr hpage)
  show execScratchPageExchange p page s = _
  simp only [execScratchPageExchange, hswaps, hin, hnonres, hshadow, Bool.not_true, Bool.or_self, Bool.false_eq_true, if_false]

variable {x : Nat × Nat × Dbl} (hout : s.dev.shadowOut.find? (fun y => y.1 == p) = some x) (hswaps : s.dev.swaps.contains p = false)
  (hexchanged : s.exchanged p = true)
include hout hswaps hexchanged

theorem exec_streamerWriteOut_of_more (hmore : (s.dev.shadowOut.erase x).any (fun y => y.2.1 == x.2.1) = true) :
    exec (.streamerWriteOut p) s = .next { s with dev := { s.dev with shadowOut := s.dev.shadowOut.erase x } } := by
  show execStreamerWriteOut p s = _
  simp only [execStreamerWriteOut, hout, hswaps, hexchanged, hmore, Bool.not_true, Bool.or_self, Bool.false_eq_true, if_false, if_true]

/-- With the last tile of the rectangle its image stands and its banks are empty (R391). -/
theorem exec_streamerWriteOut_of_last {g : Graph} (hlast : (s.dev.shadowOut.erase x).any (fun y => y.2.1 == x.2.1) = false)
    (hgraph : s.dev.graph x.2.1 = some g) :
    let s1 : State := { s with dev := { s.dev with shadowOut := s.dev.shadowOut.erase x } }
    let tiles := (g.places.filterMap fun q => mget none s.dev.shadow q).map fun (v : Saved) => { v with mt := { v.mt with nonres := [] } }
    let k : Graph := { g with image := x.2.2 }
    let u := ({ s1 with dev := s1.dev.setGraph k } : State).writeSepia (s1.dev.imageOf x.2.2 k tiles)
    let d := { u.dev with shadow := g.places.foldl (fun m q => mset none m q none) u.dev.shadow }
    exec (.streamerWriteOut p) s = .next { u with dev := if g.state = 2 ∧ d.pestat.getLsbD 8 = true then d.peDone 0 (some x.2.2) else d } := by
  have hgraph1 : ({ s.dev with shadowOut := s.dev.shadowOut.erase x } : Dev).graph x.2.1 = some g := hgraph
  show execStreamerWriteOut p s = _
  simp only [execStreamerWriteOut, hout, hswaps, hexchanged, hlast, hgraph1, Bool.not_true, Bool.or_self, Bool.false_eq_true, if_false]

end Streamer

/-! Drains (R396, R397) -/

/-- The harts of a rectangle: its cores, then its engine harts. -/
def Graph.harts (g : Graph) : List Nat := g.places ++ g.places.map fun q => 1024 + q

/-- Nothing of the rectangle is left to do for its drain but to write back its lines. -/
structure State.Drained (s : State) (g : Graph) : Prop where
  unheld : g.harts.any (fun k => (s.hart k).heldBound) = false
  harts : g.harts.any (fun k => (s.hart k).undrained) = false
  tiles : g.places.any (fun q => s.tileUndrained q) = false
  calls : s.dev.calling g g.harts = false

/-- A drained rectangle, its lines written back, becomes its Ivory record and is freed (R396, R399). -/
def State.recordDrain (s : State) (x : Drain) (g : Graph) : State :=
  let t := g.places.foldl (fun s q => (upTo 8).foldl (fun s a => s.stopAge q a) s) s
  let tiles := g.places.map fun q => (t.dev.liveTile q g.id).drainedForm
  let kinds := t.kindRefs g (placeOf g.clu g.row g.col) tiles
  let k : Graph := { g with refs := kinds.map Prod.snd, image := x.dest, state := 2 }
  let u := (t.countRefs g.launch.ctx k.refs true).countRefs g.launch.ctx g.refs false
  (({ u with dev := u.dev.setGraph k } : State).writeIvory k x.dest tiles kinds).freeDrain x 0 (some x.dest)

section Drain
variable {s : State} {x : Drain} {g : Graph} (hdrain : s.dev.drain = some x) (hgraph : s.dev.graph x.graph = some g)
include hdrain hgraph

theorem exec_drainComplete_of_held (hheld : g.harts.any (fun k => (s.hart k).heldBound) = true) :
    exec .drainComplete s = .next (s.freeDrain x 2 none) := by
  unfold Graph.harts at hheld
  show execDrainComplete s = _
  simp only [execDrainComplete, hdrain, hgraph, hheld, if_true]

theorem exec_drainComplete_of_dirty {k : Nat} (hdone : s.Drained g) (hlines : s.drainLines g = some k) :
    exec .drainComplete s = .next (s.setHart k ((s.hart k).writeback false true fun _ => true)) := by
  obtain ⟨hunheld, hharts, htiles, hcalls⟩ := hdone
  unfold Graph.harts at hunheld hharts hcalls
  show execDrainComplete s = _
  simp only [execDrainComplete, hdrain, hgraph, hunheld, hharts, htiles, hcalls, hlines, Bool.or_self, Bool.false_eq_true, if_false]

theorem exec_drainComplete_of_clean (hdone : s.Drained g) (hlines : s.drainLines g = none) :
    exec .drainComplete s = .next (s.recordDrain x g) := by
  obtain ⟨hunheld, hharts, htiles, hcalls⟩ := hdone
  unfold Graph.harts at hunheld hharts hcalls
  show execDrainComplete s = _
  simp only [execDrainComplete, hdrain, hgraph, hunheld, hharts, htiles, hcalls, hlines, Bool.or_self, Bool.false_eq_true, if_false]
  rfl

/-- The limit ends the drain with status 4 where replay entries alone are left, else with 3 (R397). -/
theorem exec_drainLimitExpiry_of_limit (hlimit : x.limit ≠ 0) :
    ∃ st, (st = 3 ∨ st = 4) ∧ exec .drainLimitExpiry s = .next (s.freeDrain x st none) := by
  show ∃ st, _ ∧ execDrainLimitExpiry s = _
  simp only [execDrainLimitExpiry, hdrain, hgraph, if_neg hlimit]
  refine ⟨_, ?_, rfl⟩
  split
  · exact .inr rfl
  · exact .inl rfl

end Drain

/-! Messages to saved graphs (R388) -/

section Messages
variable {s : State} {g : Nat} {m : Msg}

theorem exec_arrivalLogAppend_of_message {n : Nat} (hmsg : s.dev.msgs[n]? = some (g, m)) :
    exec (.arrivalLogAppend n) s = .next (({ s with dev := { s.dev with msgs := s.dev.msgs.eraseIdx n } } : State).deliverMsg g m) := by
  show execArrivalLogAppend n s = _
  simp only [execArrivalLogAppend, hmsg]

theorem exec_heldMessageReoffer_of_held {slot : Option Nat} {rest : List (Nat × Msg × Option Nat)} (hheld : s.dev.heldMsgs = (g, m, slot) :: rest) :
    exec .heldMessageReoffer s = .next (({ s with dev := { s.dev with heldMsgs := rest } } : State).deliverMsg g m) := by
  show execHeldMessageReoffer s = _
  simp only [execHeldMessageReoffer, hheld]

end Messages

/-- Settles O57: the commands by the writes of PECMD, each step under the conditions that its clause names. -/
theorem preemptionSteps : Obligations.PreemptionSteps := by
  unfold Obligations.PreemptionSteps
  intro cmd p page n s c s0
  refine ⟨fun i hi => ?command,
    fun hgo hfree => ⟨fun g hlive hgraph => ?rectangle, fun i q himage hgood hctx hlive => ?image,
      fun i q hrecord hctx hlive htarget => exec_peRestoreIvory_of_target hgo hfree hctx hlive hrecord htarget,
      fun st hrecord => exec_peRestoreIvory_of_unreadable hgo hfree hrecord⟩,
    fun _ _ _ _ _ _ => rfl, fun v => exec_scratchPageExchange_of_nonresident, fun x => exec_streamerWriteOut_of_more,
    fun x g hout hswaps hexchanged => exec_streamerWriteOut_of_last hout hswaps hexchanged,
    fun x g hdrain hgraph =>
      ⟨exec_drainComplete_of_held hdrain hgraph, fun hunheld hharts htiles hcalls => ?drained, exec_drainLimitExpiry_of_limit hdrain hgraph⟩,
    fun g m => exec_arrivalLogAppend_of_message, fun g m slot rest => exec_heldMessageReoffer_of_held⟩
  case command =>
    obtain ⟨run, hexec⟩ := exec_eq_command hi s
    rw [hexec]
    exact ⟨fun hgo => congrArg _ (State.command_of_no_go hgo), fun hgo hbusy => congrArg _ (State.command_of_busy hgo hbusy)⟩
  case rectangle =>
    exact ⟨fun t dst => exec_peSwapOut_of_room hgo hfree hlive hgraph, fun t dst => exec_peClockStop_of_room hgo hfree hlive hgraph,
      fun i => exec_pePreloadShadow_of_empty hgo hfree hlive hgraph⟩
  case image =>
    exact ⟨exec_peRestoreSepia_of_target hgo hfree hctx hlive himage hgood, fun t => exec_peDrainIvory_of_room hgo hfree hctx hlive himage hgood⟩
  case drained =>
    have hdone : s.Drained g := ⟨hunheld, hharts, htiles, hcalls⟩
    exact ⟨fun k => exec_drainComplete_of_dirty hdrain hgraph hdone, exec_drainComplete_of_clean hdrain hgraph hdone⟩

end Sys2Proof.Machine

/-! Live migration (R422 to R431). A command that starts acts on the state in which MGCMD has been written; a message that a session takes acts on the state in
which its sequence number has been accepted. -/
namespace Sys2Proof.Machine

/-! Sessions and their descriptors (R422) -/

section Session
variable {s : State} {slot : Nat}

@[simp] theorem State.mig_setMig_same (s : State) (slot : Nat) (m : Mig) : (s.setMig slot m).dev.mig slot = m := by
  unfold State.setMig Dev.setMig Dev.mig
  simp only [mget_mset_same (Option.some_ne_none m), Option.getD_some]

/-- A write of a descriptor changes no session. -/
@[simp] theorem State.mig_note (s : State) (slot off n v k : Nat) : (s.note slot off n v).dev.mig k = s.dev.mig k := by
  unfold State.note Dev.mig
  rw [State.putDev_migs]

theorem State.mig_mgState (s : State) (slot v : Nat) : (s.mgState slot v).dev.mig slot = { s.dev.mig slot with state := v } := by
  rw [State.mgState, State.mig_note, State.mig_setMig_same]

theorem State.mig_endMig (s : State) (slot result : Nat) : (s.endMig slot result).dev.mig slot = { s.dev.mig slot with state := 6 } := by
  rw [State.endMig, State.mgResult, State.mig_note, State.mig_mgState]

/-- A field of the descriptor reads the same while the session keeps its descriptor. -/
theorem State.noted_setMig {m : Mig} (hdesc : m.desc = (s.dev.mig slot).desc) (off n : Nat) : (s.setMig slot m).noted slot off n = s.noted slot off n := by
  unfold State.noted
  rw [State.mig_setMig_same, hdesc]
  rfl

end Session

/-! The command register (R423) -/

/-- The state in which MGCMD holds the command `op` of a slot. -/
def State.mgWritten (s : State) (op slot : Nat) : State :=
  { s with dev := { s.dev with regs := mset 0 s.dev.regs 0x60 (BitVec.ofNat 64 (op + 16 * (slot % 8))) } }

section Command
variable {s : State} {op slot : Nat} {run : State → State}

theorem State.mgCommand_of_busy (hbusy : s.dev.mgstat.getLsbD 8 = true) :
    s.mgCommand op slot run = { s.mgWritten op slot with dev := { (s.mgWritten op slot).dev with mgstat := 0x101 } } := by
  simp only [State.mgCommand, hbusy, if_true]
  rfl

theorem State.mgCommand_of_high (hfree : s.dev.mgstat.getLsbD 8 = false) (hslot : 8 ≤ slot) :
    s.mgCommand op slot run = (s.mgWritten op slot).mgDone 9 := by
  simp only [State.mgCommand, hfree, Bool.false_eq_true, if_false, hslot, if_true]
  rfl

theorem State.mgCommand_of_free (hfree : s.dev.mgstat.getLsbD 8 = false) (hslot : slot < 8) :
    s.mgCommand op slot run = run (s.mgWritten op slot) := by
  simp only [State.mgCommand, hfree, Bool.false_eq_true, if_false, Nat.not_le.mpr hslot]
  rfl

/-- Each of the four commands is a write of MGCMD with its number. -/
theorem exec_eq_mgCommand {c : Nat × Instr} (hc : c ∈ [(1, .mgOpenSource slot), (2, .mgOpenTarget slot), (4, .mgAbort slot), (5, .mgClose slot)]) (s : State) :
    ∃ run, exec c.2 s = .next (s.mgCommand c.1 slot run) := by
  simp only [List.mem_cons, List.not_mem_nil, or_false] at hc
  obtain rfl | rfl | rfl | rfl := hc
  all_goals exact ⟨_, rfl⟩

end Command

/-! Each command, where it starts (R423, R426 to R428, R431) -/

section Started
variable {s : State} {slot : Nat} (hfree : s.dev.mgstat.getLsbD 8 = false) (hslot : slot < 8)
include hfree hslot

theorem exec_mgOpenSource_of_failed (hused : (s.dev.mig slot).used = true) (hsource : (s.dev.mig slot).source = true)
    (hgone : (s.dev.mig slot).gone = true) (hfailed : (s.dev.mig slot).failed = true) :
    let c := s.mgWritten 1 slot
    exec (.mgOpenSource slot) s = .next (((c.reopenMig slot (c.readMig s.dev.mgarg.toNat true)).mgSendOr slot 6 0 0 []).mgDone 0) := by
  have hmig : (s.mgWritten 1 slot).dev.mig slot = s.dev.mig slot := rfl
  show execMgOpenSource slot s = _
  rw [execMgOpenSource, State.mgCommand_of_free hfree hslot]
  simp only [hmig, hused, hsource, hgone, hfailed, Bool.and_self, if_true]
  rfl

theorem exec_mgOpenSource_of_unused (hused : (s.dev.mig slot).used = false) :
    let c := s.mgWritten 1 slot
    let n := c.readMig s.dev.mgarg.toNat true
    let t := c.track n.ctx n.dsess
    let ctl := byteAt s.mem (t.desc + 20)
    c.ctxLive n.ctx = true → bitOf ctl.toNat 0 = false → s.dev.holdsKey n.key = true →
    let u := (c.putDev t.bitmap (List.replicate (8 * t.dbls) 0)).putDev (t.desc + 20) [(ctl ||| 1) &&& 3]
    exec (.mgOpenSource slot) s =
      .next (({ u with dev := u.dev.invalidate { req := 0, ctx := n.ctx, zone := 0, size := 6, va := 0 } } : State).openMig slot n) := by
  intro c n t ctl hlive hclear hkey u
  have hmig : c.dev.mig slot = s.dev.mig slot := rfl
  have harg : c.dev.mgarg = s.dev.mgarg := rfl
  show execMgOpenSource slot s = _
  rw [execMgOpenSource, State.mgCommand_of_free hfree hslot]
  change Host.Outcome.next (if (c.dev.mig slot).used && _ && _ && _ then _ else if (c.dev.mig slot).used then _
    else if !c.ctxLive n.ctx then _ else if bitOf ctl.toNat 0 then _ else if !s.dev.holdsKey n.key then _ else _) = _
  simp only [hmig, hused, hlive, hclear, hkey, Bool.false_and, Bool.not_true, Bool.false_eq_true, if_false]
  rfl

theorem exec_mgOpenTarget_of_failed (hused : (s.dev.mig slot).used = true) (hsource : (s.dev.mig slot).source = false)
    (hgone : (s.dev.mig slot).gone = false) (hfailed : (s.dev.mig slot).failed = true) :
    let c := s.mgWritten 2 slot
    exec (.mgOpenTarget slot) s = .next ((c.reopenMig slot (c.readMig s.dev.mgarg.toNat false)).mgDone 0) := by
  have hmig : (s.mgWritten 2 slot).dev.mig slot = s.dev.mig slot := rfl
  show execMgOpenTarget slot s = _
  rw [execMgOpenTarget, State.mgCommand_of_free hfree hslot]
  simp only [hmig, hused, hsource, hgone, hfailed, Bool.not_false, Bool.and_self, if_true]
  rfl

theorem exec_mgOpenTarget_of_unused (hused : (s.dev.mig slot).used = false) :
    let c := s.mgWritten 2 slot
    let n := c.readMig s.dev.mgarg.toNat false
    c.ctxLive n.ctx = true → c.rangeMapped n.ctx (c.track n.ctx n.dsess) = true → s.dev.holdsKey n.key = true →
    exec (.mgOpenTarget slot) s = .next (c.openMig slot n) := by
  intro c n hlive hmapped hkey
  have hmig : c.dev.mig slot = s.dev.mig slot := rfl
  show execMgOpenTarget slot s = _
  rw [execMgOpenTarget, State.mgCommand_of_free hfree hslot]
  change Host.Outcome.next (if (c.dev.mig slot).used && _ && _ && _ then _ else if (c.dev.mig slot).used then _
    else if !c.ctxLive n.ctx || !c.rangeMapped n.ctx (c.track n.ctx n.dsess) then _ else if !s.dev.holdsKey n.key then _ else _) = _
  simp only [hmig, hused, hlive, hmapped, hkey, Bool.false_and, Bool.not_true, Bool.or_self, Bool.false_eq_true, if_false]
  rfl

/-- A session that has not taken GO ends where it stands, and the other side is told. -/
theorem exec_mgAbort_before_go (hused : (s.dev.mig slot).used = true) (hgone : (s.dev.mig slot).gone = false) (hstate : (s.dev.mig slot).state < 5) :
    exec (.mgAbort slot) s = .next (((s.mgWritten 4 slot).abortMig slot 0 true).mgDone 0) := by
  have hmig : (s.mgWritten 4 slot).dev.mig slot = s.dev.mig slot := rfl
  show execMgAbort slot s = _
  rw [execMgAbort, State.mgCommand_of_free hfree hslot]
  simp only [hmig, hused, hgone, decide_eq_false (show ¬6 ≤ (s.dev.mig slot).state by omega), decide_eq_false (Nat.not_le.mpr hstate),
    Bool.not_true, Bool.and_false, Bool.or_self, Bool.false_eq_true, if_false]

/-- A source that has sent GO refuses. -/
theorem exec_mgAbort_of_committed (hsource : (s.dev.mig slot).source = true) (hgone : (s.dev.mig slot).gone = true) :
    exec (.mgAbort slot) s = .next ((s.mgWritten 4 slot).mgDone 9) := by
  have hmig : (s.mgWritten 4 slot).dev.mig slot = s.dev.mig slot := rfl
  show execMgAbort slot s = _
  rw [execMgAbort, State.mgCommand_of_free hfree hslot]
  simp only [hmig, hsource, hgone, Bool.true_or, Bool.and_self, Bool.or_true, if_true]

/-- At a target that has taken GO the context ends with what GO has placed of it. -/
theorem exec_mgAbort_after_go (hused : (s.dev.mig slot).used = true) (hsource : (s.dev.mig slot).source = false)
    (hgone : (s.dev.mig slot).gone = true) (hstate : (s.dev.mig slot).state < 6) :
    exec (.mgAbort slot) s =
      .next (((((s.mgWritten 4 slot).endContext (s.dev.mig slot).ctx).discardMig slot).endMig slot 0).mgDone 0) := by
  have hmig : (s.mgWritten 4 slot).dev.mig slot = s.dev.mig slot := rfl
  show execMgAbort slot s = _
  rw [execMgAbort, State.mgCommand_of_free hfree hslot]
  simp only [hmig, hused, hsource, hgone, decide_eq_false (Nat.not_le.mpr hstate), Bool.not_true, Bool.false_and, Bool.or_self, Bool.false_eq_true,
    if_false, if_true]

theorem exec_mgClose_of_ended (hused : (s.dev.mig slot).used = true) (hstate : 5 ≤ (s.dev.mig slot).state) :
    ∃ t, exec (.mgClose slot) s = .next t ∧ t.dev.mgstat = 0 ∧ t.dev.migs = mset none ((s.mgWritten 5 slot).mgState slot 7).dev.migs slot none := by
  have hmig : (s.mgWritten 5 slot).dev.mig slot = s.dev.mig slot := rfl
  show ∃ t, execMgClose slot s = _ ∧ _
  rw [execMgClose, State.mgCommand_of_free hfree hslot]
  simp only [hmig, hused, decide_eq_false (Nat.not_lt.mpr hstate), Bool.not_true, Bool.or_self, Bool.false_eq_true, if_false]
  exact ⟨_, rfl, rfl, rfl⟩

theorem exec_mgFinalStop_of_precopy (hused : (s.dev.mig slot).used = true) (hsource : (s.dev.mig slot).source = true)
    (hstate : (s.dev.mig slot).state = 1) :
    let t := (s.mgWritten 3 slot).stopNow slot
    exec (.mgFinalStop (slot, true)) s = .next (t.mgDone (if (t.dev.mig slot).state = 6 then t.noted slot 49 1 else 0)) := by
  have hmig : (s.mgWritten 3 slot).dev.mig slot = s.dev.mig slot := rfl
  show execMgFinalStop (slot, true) s = _
  simp only [execMgFinalStop, if_true, State.mgCommand_of_free hfree hslot, hmig, hused, hsource, hstate, beq_self_eq_true, Bool.and_self]

theorem exec_mgFinalStop_refused (hother : (s.dev.mig slot).used = false ∨ (s.dev.mig slot).source = false ∨ (s.dev.mig slot).state ≠ 1) :
    exec (.mgFinalStop (slot, true)) s = .next ((s.mgWritten 3 slot).mgDone 9) := by
  have hmig : (s.mgWritten 3 slot).dev.mig slot = s.dev.mig slot := rfl
  have hrefused : ((s.dev.mig slot).used && (s.dev.mig slot).source && (s.dev.mig slot).state == 1) = false := by
    obtain h | h | h := hother <;> simp [h]
  show execMgFinalStop (slot, true) s = _
  simp only [execMgFinalStop, if_true, State.mgCommand_of_free hfree hslot, hmig, hrefused, Bool.false_eq_true, if_false]

end Started

/-! The source's own steps (R426, R427) -/

section Source
variable {s : State} {slot : Nat} (hused : (s.dev.mig slot).used = true) (hsource : (s.dev.mig slot).source = true)
include hused hsource

theorem exec_mgFinalStop_of_stopping (hstate : (s.dev.mig slot).state = 2) : exec (.mgFinalStop (slot, false)) s = .next (s.stopStep slot) := by
  show execMgFinalStop (slot, false) s = _
  simp only [execMgFinalStop, hused, hsource, hstate, beq_self_eq_true, Bool.and_self, Bool.false_eq_true, if_false, if_true]

theorem exec_mgRound_of_precopy (hstate : (s.dev.mig slot).state = 1)
    (hpos : (s.dev.mig slot).pos < (s.track (s.dev.mig slot).ctx (s.dev.mig slot).dsess).dbls) :
    exec (.mgRound slot) s = .next (s.roundStep slot) := by
  show execMgRound slot s = _
  simp only [execMgRound, hused, hsource, hstate, if_pos hpos, bne_self_eq_false, Bool.not_true, Bool.or_self, Bool.false_eq_true, if_false]

theorem exec_mgDeadline_of_precopy (hstate : (s.dev.mig slot).state = 1) (hdeadline : (s.dev.mig slot).deadline ≠ 0) :
    let now : Dbl := if s.dev.timebase.toNat < (s.dev.mig slot).deadline.toNat then (s.dev.mig slot).deadline else s.dev.timebase
    exec (.mgDeadline slot) s = .next (({ s with dev := { s.dev with timebase := now } } : State).stopNow slot) := by
  show execMgDeadline slot s = _
  simp only [execMgDeadline, hused, hsource, hstate, beq_false_of_ne hdeadline, bne_self_eq_false, Bool.not_true, Bool.or_self, Bool.false_eq_true, if_false]

end Source

/-! Messages (R425, R428 to R430) -/

/-- The sequence number of a message has been accepted. -/
def State.accepted (s : State) (slot seq : Nat) : State := s.setMig slot { s.dev.mig slot with seen := (s.dev.mig slot).seen ++ [seq] }

/-- A target that accepts a message notes the greatest sequence number so far in the session's descriptor. -/
def State.acceptedAtTarget (s : State) (slot seq : Nat) : State :=
  (s.accepted slot seq).note slot 56 8 (Nat.max ((s.accepted slot seq).noted slot 56 8) seq)

theorem State.mig_accepted (s : State) (slot seq : Nat) :
    (s.accepted slot seq).dev.mig slot = { s.dev.mig slot with seen := (s.dev.mig slot).seen ++ [seq] } :=
  State.mig_setMig_same ..

theorem State.mig_acceptedAtTarget (s : State) (slot seq : Nat) :
    (s.acceptedAtTarget slot seq).dev.mig slot = { s.dev.mig slot with seen := (s.dev.mig slot).seen ++ [seq] } := by
  rw [State.acceptedAtTarget, State.mig_note, State.mig_accepted]

/-- A session that takes messages: it has not ended, and its engine is not stopped. -/
structure Mig.Listens (m : Mig) (source : Bool) : Prop where
  used : m.used = true
  side : m.source = source
  state : m.state < 6
  stopped : m.stopped = none

section Receive
variable {s : State} {slot seq : Nat} {source auth : Bool} {run : State → State}

/-- A session that takes messages comes to the tag, then to the sequence number. -/
theorem State.receive_of_listens (h : (s.dev.mig slot).Listens source) :
    s.receive slot seq source auth run =
      if !auth then
        if !(s.dev.mig slot).gone then (s.bump slot 80 4).abortMig slot 5 true
        else if source then s.bump slot 80 4 else (((s.bump slot 80 4).endContext (s.dev.mig slot).ctx).discardMig slot).endMig slot 5
      else if (s.dev.mig slot).seen.contains seq then s.bump slot 80 4
      else run (if source then s.accepted slot seq else (s.accepted slot seq).note slot 56 8 (Nat.max (s.noted slot 56 8) seq)) := by
  have htakes : (!(s.dev.mig slot).used || (s.dev.mig slot).source != source || decide (6 ≤ (s.dev.mig slot).state) || (s.dev.mig slot).stopped.isSome) = false := by
    simp [h.used, h.side, h.state, h.stopped]
  rw [State.receive, htakes]
  rfl

/-- A message received twice changes only its count. -/
theorem State.receive_of_seen (h : (s.dev.mig slot).Listens source) (hseen : (s.dev.mig slot).seen.contains seq = true) :
    s.receive slot seq source true run = s.bump slot 80 4 := by
  simp only [State.receive_of_listens h, hseen, Bool.not_true, Bool.false_eq_true, if_false, if_true]

theorem State.receive_at_source (h : (s.dev.mig slot).Listens true) (hnew : (s.dev.mig slot).seen.contains seq = false) :
    s.receive slot seq true true run = run (s.accepted slot seq) := by
  simp only [State.receive_of_listens h, hnew, Bool.not_true, Bool.false_eq_true, if_false, if_true]

theorem State.receive_at_target (h : (s.dev.mig slot).Listens false) (hnew : (s.dev.mig slot).seen.contains seq = false) :
    s.receive slot seq false true run = run (s.acceptedAtTarget slot seq) := by
  have hnoted : (s.accepted slot seq).noted slot 56 8 = s.noted slot 56 8 := by
    rw [State.accepted, State.noted_setMig]
    dsimp only
  simp only [State.receive_of_listens h, hnew, State.acceptedAtTarget, hnoted, Bool.not_true, Bool.false_eq_true, if_false]

/-- A message that fails its tag ends the session before GO. -/
theorem State.receive_forged_before_go (h : (s.dev.mig slot).Listens source) (hgone : (s.dev.mig slot).gone = false) :
    s.receive slot seq source false run = (s.bump slot 80 4).abortMig slot 5 true := by
  simp only [State.receive_of_listens h, hgone, Bool.not_false, if_true]

/-- At a target that has taken GO it also ends what GO has placed (log 46). -/
theorem State.receive_forged_after_go (h : (s.dev.mig slot).Listens false) (hgone : (s.dev.mig slot).gone = true) :
    s.receive slot seq false false run = (((s.bump slot 80 4).endContext (s.dev.mig slot).ctx).discardMig slot).endMig slot 5 := by
  simp only [State.receive_of_listens h, hgone, Bool.not_false, Bool.not_true, Bool.false_eq_true, if_false, if_true]

end Receive

section Target
variable {s : State} {slot seq x y : Nat} {data : List Byte} (h : (s.dev.mig slot).Listens false)
include h

section Seen
variable (hseen : (s.dev.mig slot).seen.contains seq = true)
include hseen

theorem exec_toTarget_of_seen {i : Instr}
    (hi : i ∈ [.mgPageReceive slot seq x y true data, .mgRoundendReceive slot seq x y true, .mgFinalReceive slot seq x [] true,
      .mgGoReceive slot seq true, .mgIvoryReceive slot seq (x, y) true data]) : exec i s = .next (s.bump slot 80 4) := by
  have hbumped : ∀ run, s.receive slot seq false true run = s.bump slot 80 4 := fun _ => State.receive_of_seen h hseen
  simp only [List.mem_cons, List.not_mem_nil, or_false] at hi
  obtain rfl | rfl | rfl | rfl | rfl := hi
  case inl =>
    show execMgPageReceive slot seq x y true data s = _
    simp only [execMgPageReceive, hseen, hbumped, Bool.not_true, Bool.and_false, Bool.false_and, Bool.false_eq_true, if_false]
  case inr.inr.inr.inr =>
    show execMgIvoryReceive slot seq (x, y) true data s = _
    simp only [execMgIvoryReceive, hseen, hbumped, Bool.not_true, Bool.and_false, Bool.false_and, Bool.false_eq_true, if_false]
  all_goals exact congrArg Host.Outcome.next (hbumped _)

end Seen

section New
variable (hnew : (s.dev.mig slot).seen.contains seq = false)
include hnew

theorem exec_mgPageReceive_of_new : exec (.mgPageReceive slot seq x y true data) s =
    .next (if s.pageWaits slot x y data then s else ((s.acceptedAtTarget slot seq).applyPage slot x y data).tryReady slot) := by
  show execMgPageReceive slot seq x y true data s = _
  simp only [execMgPageReceive, h.used, hnew, State.receive_at_target h hnew, Bool.not_false, Bool.and_self, Bool.true_and]

theorem exec_mgRoundendReceive_of_new :
    let n := (s.acceptedAtTarget slot seq).dev.mig slot
    let u := (s.acceptedAtTarget slot seq).setMig slot { n with counts := n.counts ++ [(x, y)] }
    exec (.mgRoundendReceive slot seq x y true) s = .next ((u.note slot 52 4 (Nat.max (u.noted slot 52 4) x)).tryReady slot) := by
  intro n u
  have hnoted : u.noted slot 52 4 = (s.acceptedAtTarget slot seq).noted slot 52 4 := by
    dsimp only [u]
    rw [State.noted_setMig]
    dsimp only [n]
  show execMgRoundendReceive slot seq x y true s = _
  rw [execMgRoundendReceive, State.receive_at_target h hnew, hnoted]

theorem exec_mgFinalReceive_of_new : exec (.mgFinalReceive slot seq x [] true) s =
    .next (((s.acceptedAtTarget slot seq).setMig slot
      { (s.acceptedAtTarget slot seq).dev.mig slot with final := some { seq := seq, records := x, entries := [] } }).tryReady slot) :=
  congrArg Host.Outcome.next (State.receive_at_target h hnew)

/-- A part of a record is stored where it has room, and comes again where it has none. -/
theorem exec_mgIvoryReceive_of_new : exec (.mgIvoryReceive slot seq (x, y) true data) s =
    .next (if (s.storePart slot x y data).isNone then s
      else (((s.acceptedAtTarget slot seq).storePart slot x y data).getD (s.acceptedAtTarget slot seq)).tryReady slot) := by
  show execMgIvoryReceive slot seq (x, y) true data s = _
  simp only [execMgIvoryReceive, h.used, hnew, State.receive_at_target h hnew, Bool.not_false, Bool.and_self, Bool.true_and]

/-- GO restores every record; without FINAL it accepts no launch. -/
theorem exec_mgGoReceive_of_new (hstate : (s.dev.mig slot).state = 4) (hfinal : (s.dev.mig slot).final = none) :
    let u := (s.dev.mig slot).recs.foldl (fun s r => s.goRecord slot r) (s.acceptedAtTarget slot seq)
    exec (.mgGoReceive slot seq true) s = .next ((u.setMig slot { u.dev.mig slot with gone := true }).mgState slot 5) := by
  refine congrArg Host.Outcome.next ((State.receive_at_target h hnew).trans ?_)
  simp only [State.mig_acceptedAtTarget, hstate, hfinal, ne_eq, not_true_eq_false, if_false, List.foldl_nil]

theorem exec_mgAbortReceive_of_new (hgone : (s.dev.mig slot).gone = false) :
    exec (.mgAbortReceive slot seq x true) s = .next ((s.acceptedAtTarget slot seq).abortMig slot 6 false) := by
  show execMgAbortReceive slot seq x true s = _
  simp only [execMgAbortReceive, h.side, hgone, State.receive_at_target h hnew, Bool.false_eq_true, if_false]

end New

/-- A PAGE that fails its tag is not looked at. -/
theorem exec_mgPageReceive_forged : exec (.mgPageReceive slot seq x y false data) s =
    .next (if (s.dev.mig slot).gone then (((s.bump slot 80 4).endContext (s.dev.mig slot).ctx).discardMig slot).endMig slot 5
      else (s.bump slot 80 4).abortMig slot 5 true) := by
  show execMgPageReceive slot seq x y false data s = _
  simp only [execMgPageReceive, Bool.false_and, Bool.false_eq_true, if_false]
  cases hgone : (s.dev.mig slot).gone with
  | true => rw [State.receive_forged_after_go h hgone, if_pos rfl]
  | false => rw [State.receive_forged_before_go h hgone, if_neg Bool.false_ne_true]

end Target

/-! READY, failures of the link, a stopped engine and keys (R425, R428, R430, R431) -/

section Ending
variable {s : State} {slot : Nat}

theorem State.mig_abortMig_state (s : State) (slot result : Nat) (tell : Bool) : ((s.abortMig slot result tell).dev.mig slot).state = 6 := by
  unfold State.abortMig
  dsimp only
  rw [State.mig_endMig]

/-- READY commits the source, which sends GO, or ends the session where its sequence numbers are exhausted. -/
theorem exec_mgReadyReceive_of_new {seq : Nat} (h : (s.dev.mig slot).Listens true) (hnew : (s.dev.mig slot).seen.contains seq = false)
    (hstate : (s.dev.mig slot).state = 3) :
    ∃ t, exec (.mgReadyReceive slot seq true) s = .next t ∧ ((t.dev.mig slot).gone = true ∨ (t.dev.mig slot).state = 6) := by
  refine ⟨_, congrArg Host.Outcome.next (State.receive_at_source h hnew), ?_⟩
  simp only [State.mig_accepted, hstate, ne_eq, not_true_eq_false, if_false]
  split
  · exact .inl (by rw [State.mig_setMig_same])
  · exact .inr (State.mig_abortMig_state ..)

section Open
variable (hused : (s.dev.mig slot).used = true) (hstate : (s.dev.mig slot).state < 6)
include hused hstate

theorem exec_mgLinkFailure_before_go (hsource : (s.dev.mig slot).source = true) (hgone : (s.dev.mig slot).gone = false) :
    exec (.mgLinkFailure slot) s = .next (s.abortMig slot 11 false) := by
  show execMgLinkFailure slot s = _
  simp only [execMgLinkFailure, hused, hsource, hgone, decide_eq_false (Nat.not_le.mpr hstate), Bool.not_true, Bool.not_false, Bool.or_self,
    Bool.and_self, Bool.false_eq_true, if_false, if_true]

theorem exec_mgLinkFailure_of_waiting (hwaits : (s.dev.mig slot).source = false ∨ (s.dev.mig slot).gone = true) :
    exec (.mgLinkFailure slot) s = .next ((s.setMig slot { s.dev.mig slot with failed := true }).mgResult slot 11) := by
  have hkept : ((s.dev.mig slot).source && !(s.dev.mig slot).gone) = false := by
    obtain h | h := hwaits <;> simp [h]
  show execMgLinkFailure slot s = _
  simp only [execMgLinkFailure, hkept, decide_eq_false (Nat.not_le.mpr hstate), Bool.or_false, Bool.false_eq_true, if_false]
  rw [hused]
  rfl

end Open

/-- A stopped engine applies its page again, unless the page's write waits for a snoop. -/
theorem exec_migrationEngineResume_of_stopped {page round : Nat} {bs : List Byte} (hstopped : (s.dev.mig slot).stopped = some (page, round, bs))
    (hsent : s.dev.sending 8 0 0 = false) :
    let u := s.setMig slot { s.dev.mig slot with stopped := none }
    exec (.migrationEngineResume slot) s = .next (if u.pageWaits slot page round bs then s else (u.applyPage slot page round bs).tryReady slot) := by
  show execMigrationEngineResume slot s = _
  simp only [execMigrationEngineResume, hstopped, hsent, Bool.false_or]
  rfl

end Ending

/-- Settles O60: the commands by the writes of MGCMD, the messages by what a session accepts, each step under the conditions that its clause names. -/
theorem migrationSteps : Obligations.MigrationSteps := by
  unfold Obligations.MigrationSteps
  intro slot seq x y k data s m cmd got fresh commands toTarget
  refine ⟨fun c hc => ?commands, fun hfree hslot => ⟨⟨exec_mgOpenSource_of_failed hfree hslot, exec_mgOpenSource_of_unused hfree hslot⟩,
      ⟨exec_mgOpenTarget_of_failed hfree hslot, exec_mgOpenTarget_of_unused hfree hslot⟩, exec_mgAbort_before_go hfree hslot,
      fun _ => exec_mgAbort_of_committed hfree hslot, exec_mgAbort_after_go hfree hslot, exec_mgClose_of_ended hfree hslot,
      exec_mgFinalStop_of_precopy hfree hslot, exec_mgFinalStop_refused hfree hslot⟩,
    exec_mgFinalStop_of_stopping, fun hused hsource hstate => ⟨exec_mgRound_of_precopy hused hsource hstate, exec_mgDeadline_of_precopy hused hsource hstate⟩,
    fun hused hsource hstate hstopped => ?messages,
    fun hused hsource hstate hstopped hnew _ _ => exec_mgReadyReceive_of_new ⟨hused, hsource, hstate.trans_lt (by decide), hstopped⟩ hnew hstate,
    fun hused hstate => ⟨exec_mgLinkFailure_before_go hused hstate, exec_mgLinkFailure_of_waiting hused hstate⟩,
    fun page round bs hstopped hsent => ?resume, rfl⟩
  case commands =>
    obtain ⟨run, hexec⟩ := exec_eq_mgCommand hc s
    rw [hexec]
    exact ⟨fun hbusy => congrArg Host.Outcome.next (State.mgCommand_of_busy hbusy),
      fun hfree hslot => congrArg Host.Outcome.next (State.mgCommand_of_high hfree hslot)⟩
  case messages =>
    have h : (s.dev.mig slot).Listens false := ⟨hused, hsource, hstate, hstopped⟩
    refine ⟨fun hseen i => exec_toTarget_of_seen h hseen, fun hnew => ⟨fun hgoes => ?page, fun hwaits => ?waits, exec_mgRoundendReceive_of_new h hnew,
      exec_mgFinalReceive_of_new h hnew, fun t hroom hstored => ?part, fun hroom => ?full, exec_mgGoReceive_of_new h hnew,
      exec_mgAbortReceive_of_new h hnew⟩, fun hgone => ?before, fun hgone => ?after⟩
    case page =>
      rw [exec_mgPageReceive_of_new h hnew, if_neg (ne_true_of_eq_false hgoes)]
      rfl
    case waits => rw [exec_mgPageReceive_of_new h hnew, if_pos hwaits]
    case part =>
      have hstored' : (s.acceptedAtTarget slot seq).storePart slot x y data = some t := hstored
      rw [exec_mgIvoryReceive_of_new h hnew, hstored', if_neg (by rw [← Option.not_isSome, hroom]; decide), Option.getD_some]
    case full => rw [exec_mgIvoryReceive_of_new h hnew, if_pos (by rw [hroom]; rfl)]
    case before => rw [exec_mgPageReceive_forged h, if_neg (ne_true_of_eq_false hgone)]
    case after =>
      rw [exec_mgPageReceive_forged h, if_pos hgone]
  case resume =>
    intro u
    have hexec := exec_migrationEngineResume_of_stopped hstopped hsent
    refine ⟨fun hgoes => ?_, fun hwaits => ?_⟩
    · rw [hexec, if_neg (ne_true_of_eq_false hgoes)]
    · rw [hexec, if_pos hwaits]

end Sys2Proof.Machine

/-! WRSYS (R137) -/
namespace Sys2Proof.Machine

theorem Dev.sysWritten_count_putBlock (d : Dev) (n : Nat) (h : Hart) (ev k : Nat) (b : Block) (sel : Nat) (v : Dbl) :
    d.sysWritten n ((h.count ev k).putBlock b) sel v = d.sysWritten n h sel v := by
  unfold Dev.sysWritten
  simp only [Dev.sysreg_count_putBlock]

theorem exec_wrsys_of_fires {t0 : BitVec 9} {sel : BitVec 4} {pr : BitVec 2} {s : State} {b : Block} {l r : Token}
    (h : Fires s (formOf (.wrsys t0 sel pr) true) b l r) :
    exec (.wrsys t0 sel pr) s = .next (s.firedBlock b fun b1 =>
      if b.wroteSys sel.toNat || b.nullSys sel.toNat then b1.fault 0x03 s.dev.focus.idx 0 0
      else if l.null then (b1.addEff s.dev.focus.idx (.wrsysNull sel.toNat)).deliver t0 tokNull
      else
        let v := s.dev.sysWritten s.dev.focus.hart (s.hart s.dev.focus.hart) sel.toNat l.lo
        (b1.addEff s.dev.focus.idx (.wrsys sel.toNat v)).deliver t0 (tokOf v)) := by
  refine exec_onBlock_of_fires h _ rfl ?_
  dsimp only
  rw [Dev.sysWritten_count_putBlock]
  rfl

/-- SRSTATE never holds zero (R105). -/
theorem setWidth_srValue (v : Dbl) : (srValue v.toNat).setWidth 64 =
    if v.setWidth 32 = (0 : Word) then (0x9E3779B9 : Dbl) else (v.setWidth 32 : Word).setWidth 64 := by
  have hzero : v.toNat % 2 ^ 32 = 0 ↔ v.setWidth 32 = (0 : Word) := by
    rw [← BitVec.toNat_inj, BitVec.toNat_setWidth]
    rfl
  have hlow : BitVec.ofNat 32 v.toNat = v.setWidth 32 := BitVec.ofNat_toNat 32 v
  rw [srValue, hlow]
  simp only [hzero, apply_ite (BitVec.setWidth 64)]
  rfl

theorem Dev.sysWritten_eq (d : Dev) (n : Nat) (h : Hart) (sel : Nat) (v : Dbl) : d.sysWritten n h sel v =
    match sel with
    | 0 => v &&& 0x1F
    | 2 => if isEngine n then 0 else v &&& 0xF
    | 3 => v &&& 0xFFFFFFFFFFFFFFF0
    | 8 => if v.setWidth 32 = (0 : Word) then 0x9E3779B9 else (v.setWidth 32 : Word).setWidth 64
    | k => d.sysreg n h k := by
  match sel with
  | 8 => exact setWidth_srValue v
  | 0 | 1 | 2 | 3 | 4 | 5 | 6 | 7 => rfl
  | _ + 9 => rfl

/-- Settles O10: the value sent and held is the one the register will have, told selector by selector. -/
theorem systemRegisterWrites : Obligations.SystemRegisterWrites := by
  unfold Obligations.SystemRegisterWrites
  intro t0 sel pr s b l r h
  dsimp only
  rw [exec_wrsys_of_fires h, Dev.sysWritten_eq]
  simp only [State.firedBlock_ite, Bool.or_eq_true] <;> rfl

end Sys2Proof.Machine

/-! The port instructions (R299 to R302) -/
namespace Sys2Proof.Machine

section Fire
variable {s : State} {b : Block} {l r : Token} {n : BitVec 4} {pr : BitVec 2}

theorem exec_chcfg_of_fires (h : Fires s (formOf (.chcfg n pr) false) b l r) :
    let x := l.lo.toNat
    let dx := BitVec.ofNat 8 x
    let dy := BitVec.ofNat 8 (x / 2 ^ 8)
    let q := x / 2 ^ 16 % 16
    let e : Eff := .chcfg n.toNat dx dy q (r.lo.setWidth 16)
    exec (.chcfg n pr) s = .next (s.firedBlock b fun b1 =>
      if l.null || r.null then b1
      else if portClash b e then b1.fault 0x03 s.dev.focus.idx 0 0
      else if (s.dev.relPlace s.dev.focus.hart dy.toInt dx.toInt).isNone then b1.fault 0x11 s.dev.focus.idx 0 0
      else if (8 ≤ n.toNat) ↔ (8 ≤ q) then b1.fault 0x31 s.dev.focus.idx (BitVec.ofNat 64 (n.toNat + 2 ^ 8 * q)) 0
      else b1.addEff s.dev.focus.idx e) := by
  refine taskEff_of_fires h _ ?_
  simp only [decide_eq_decide]
  rfl

theorem exec_chcfgAge_of_fires (h : Fires s (formOf (.chcfgAge n pr) false) b l r) :
    let e : Eff := .chcfgAge n.toNat (l.lo.toNat % 8)
    exec (.chcfgAge n pr) s = .next (s.firedBlock b fun b1 =>
      if l.null || r.null then b1
      else if portClash b e then b1.fault 0x03 s.dev.focus.idx 0 0 else b1.addEff s.dev.focus.idx e) := by
  have hage : bitsOf l.lo.toNat 2 0 = l.lo.toNat % 8 := by simp [bitsOf]
  refine taskEff_of_fires h _ ?_
  rw [hage]
  rfl

theorem exec_chclr_of_fires {u : BitVec 1} (h : Fires s (formOf (.chclr u n pr) false) b l r) :
    let e : Eff := .chclr n.toNat (u == 1)
    exec (.chclr u n pr) s = .next (s.firedBlock b fun b1 =>
      if portClash b e then b1.fault 0x03 s.dev.focus.idx 0 0 else b1.addEff s.dev.focus.idx e) :=
  exec_onBlock_of_fires h _ rfl rfl

theorem Hart.olderBlocks_count (h : Hart) (ev n tag : Nat) : (h.count ev n).olderBlocks tag = h.olderBlocks tag := by
  unfold Hart.count
  split <;> rfl

/-- The pops of a marked block and of the older ones stand as before the firing was counted. -/
theorem chlenTok_countedHart (s : State) (b : Block) (p : Port) (k : Nat) :
    chlenTok (s.countedHart b) (b.markFired s.dev.focus.idx) p k = chlenTok (s.hart s.dev.focus.hart) b p k := by
  have holder : (s.countedHart b).olderBlocks b.tag = (s.hart s.dev.focus.hart).olderBlocks b.tag :=
    (Hart.olderBlocks_putBlock _ (b.markFired s.dev.focus.idx)).trans (Hart.olderBlocks_count ..)
  have hpops : ∀ bs : List Block, popsOf (bs ++ [b.markFired s.dev.focus.idx]) k = popsOf (bs ++ [b]) k := fun bs => by
    simp only [popsOf, List.foldl_append]
    rfl
  unfold chlenTok
  rw [show (b.markFired s.dev.focus.idx).tag = b.tag from rfl, holder, hpops]

theorem exec_chlen_of_fires {t0 : BitVec 9} (h : Fires s (formOf (.chlen t0 n pr) false) b l r) :
    exec (.chlen t0 n pr) s = .next (s.sends b [t0]
      (chlenTok (s.hart s.dev.focus.hart) b (s.port (placeOfHart s.dev.focus.hart) n.toNat) n.toNat)) :=
  congrArg Host.Outcome.next (State.fireScalar_sends h (chlenTok_countedHart ..))

end Fire

/-- Settles O32: each holds its change for the commit, or the fault that the first failing check names; CHLEN reads its port. -/
theorem portInstructions : Obligations.PortInstructions := by
  unfold Obligations.PortInstructions
  intro t0 n u pr s b l r
  exact ⟨exec_chcfg_of_fires, exec_chcfgAge_of_fires, exec_chclr_of_fires, exec_chlen_of_fires⟩

end Sys2Proof.Machine

/-! What a step runs (R23, R67, R77, R406) -/
namespace Sys2Proof.Machine

/-- On a device that runs, a step runs the head of the agenda. -/
theorem step_of_agenda {s : State} {c : Choice} {cs : List Choice} (hagenda : s.agenda = c :: cs) (hlive : s.dev.halted = false) :
    step s = runLive c { s with agenda := cs } := by
  unfold step
  rw [hagenda]
  simp only [runChoice, hlive, Bool.false_and, Bool.false_eq_true, if_false]

theorem runLive_fire {s : State} {hart tag idx : Nat} {b : Block} {w : Word} (hblock : (s.hart hart).block tag = some b)
    (hword : b.code[idx]? = some w) : runLive (.fire hart tag idx) s =
      match decodeWord w with
      | some i => exec i (setFocus s hart tag idx)
      | none => .next s := by
  simp only [runLive, blockInstr, hblock, hword] <;> rfl

/-- A wl word has the major opcode of the custom-0 words (R406). -/
theorem opcode_of_decodeWl {w : Word} {i : Instr} (h : decodeWl w = .ok i) : w.toNat % 128 = 11 := by
  by_contra hne
  have hrow : ∀ f7 f12 f15 f20 f25, rowsWl (w.toNat % 2 ^ 7) f7 f12 f15 f20 f25 = none := by
    intro f7 f12 f15 f20 f25
    have hopcode : w.toNat % 2 ^ 7 ≠ 11 := hne
    simp only [rowsWl, hopcode, false_and, if_false]
  rw [decodeWl] at h
  simp only [unpackFields, hrow] at h
  cases h

theorem runLive_app_custom {s : State} {core : Nat} {w : Word} (hop : w.toNat % 128 = 11) : runLive (.app core w) s =
    match decodeWl w with
    | .ok i => exec i (setFocus s core 0 0)
    | .no _ => .next (if s.dev.ready.getLsbD 19 then s.illegalWl core else s) := by
  rw [runLive]
  cases decodeWl w with
  | ok i => rfl
  | no why => cases hready : s.dev.ready.getLsbD 19 <;> simp [hop]

theorem runLive_app_other {s : State} {core : Nat} {w : Word} (hop : w.toNat % 128 ≠ 11) : runLive (.app core w) s =
    if s.dev.ready.getLsbD 19 then
      match wlctxWord w with
      | some (f3, rd, rs1) => .next (s.wlctxAccess core f3 rd rs1)
      | none => .next (s.riscVWord core)
    else .next s := by
  rw [runLive]
  cases hdecode : decodeWl w with
  | ok i => exact absurd (opcode_of_decodeWl hdecode) hop
  | no why =>
    cases s.dev.ready.getLsbD 19 with
    | false => rfl
    | true =>
      simp only [hop, Bool.not_true, Bool.false_eq_true, if_false, if_true] <;> rfl

/-- An application core whose own registers the RISC-V architecture leaves as `r` (R405). -/
def App.leftAs (a : App) (r : RiscV) : App :=
  let canon (m : SMap Dbl) : SMap Dbl := m.foldl (fun m p => mset 0 m p.1 p.2) []
  { a with user := r.user, x := mset 0 (canon r.x) 0 0, pc := r.pc, f := canon r.f, v := r.v.foldl (fun m p => mset 0 m p.1 p.2) [],
           csr := mset 0 (canon r.csr) 0x5C0 0, wait := none }

/-- What the RISC-V architecture leaves of an application core (R405, R407). -/
theorem State.riscVLeaves_app (s : State) (core : Nat) (r : RiscV) :
    ∃ a : App, a.user = r.user ∧ a.pc = r.pc ∧ a.wlctx = (s.dev.app core).wlctx ∧ a.wait = none ∧
      (∀ k, a.reg k = if k = 0 then 0 else mget 0 (r.x.foldl (fun m p => mset 0 m p.1 p.2) []) k.toNat) ∧
      s.riscVLeaves core r = if s.dev.ready.getLsbD 19 = false ∨ (s.dev.app core).wait.any (fun w => w.kind != 1 && w.kind != 3) then s
        else { s with dev := s.dev.setApp core a } := by
  refine ⟨(s.dev.app core).leftAs r, rfl, rfl, rfl, rfl, fun k => ?reg, ?leaves⟩
  case leaves =>
    have hwaits : (fun w : WlWait => !w.interruptible) = fun w => w.kind != 1 && w.kind != 3 := by
      funext w
      exact Bool.not_or _ _
    unfold State.riscVLeaves
    simp only [hwaits, Bool.or_eq_true, Bool.not_eq_true']
    rfl
  case reg =>
    unfold App.reg
    split
    · rfl
    · next hk => exact mget_mset_of_ne (fun hzero => hk (BitVec.eq_of_toNat_eq hzero)) 0

theorem State.slate_slateLeaves_pc (s : State) (row : Nat) (r : Slate) : ((s.slateLeaves row r).dev.slate (row % 128)).pc = r.pc := by
  unfold State.slateLeaves Dev.slate
  dsimp only
  rw [mget_mset_same (Option.some_ne_none _)]

/-- Settles O38: a step runs the head of the agenda, and each kind of choice runs what it names. -/
theorem stepRunsWhatComesNext : Obligations.StepRunsWhatComesNext := by
  unfold Obligations.StepRunsWhatComesNext
  refine ⟨?fire, ?custom, ?other, ?event, ?riscV, State.riscVLeaves_app, ?slate, ?decay, ?hostStore, ?peerStore⟩
  case fire =>
    intro s hart tag idx cs b w hagenda hlive hblock hword
    exact (step_of_agenda hagenda hlive).trans (runLive_fire hblock hword)
  case custom =>
    intro s core w cs hagenda hlive hop
    exact (step_of_agenda hagenda hlive).trans (runLive_app_custom hop)
  case other =>
    intro s core w cs hagenda hlive hop
    rw [step_of_agenda hagenda hlive, runLive_app_other hop]
    exact ⟨fun hready => if_neg (ne_true_of_eq_false hready), fun hready => if_pos hready⟩
  case slate =>
    intro s row r cs hagenda hlive
    exact ⟨_, step_of_agenda hagenda hlive, State.slate_slateLeaves_pc .., rfl⟩
  case event | riscV | decay | hostStore | peerStore =>
    intros
    exact step_of_agenda ‹_› ‹_›

end Sys2Proof.Machine

/-! How an instruction of a block runs, whatever it is (R23 to R26): it fires, with the form of the opcode table and an effect that stays within the
blocks in flight. Four instructions read more than their core as they fire; their reading comes before that firing. -/
namespace Sys2Proof.Machine

/-- The outcome is a firing of `i`, at once or once its zone is decided. -/
inductive FiresAs (i : Instr) (s : State) : Out → Prop
  | fire {old : Bool} {g : Hart → Block → Token → Token → Hart} (hg : Framed g) : FiresAs i s (.next (s.fire (formOf i old) g))
  | fireMem {old : Bool} {zs : BitVec 2} {t0 : BitVec 9} {g : Nat → Hart → Block → Token → Token → Hart} (hg : FramedZ g) :
      FiresAs i s (.next (s.fireMem (formOf i old) zs t0 g))

theorem FiresAs.of_fireMem {i : Instr} {s : State} {old : Bool}
    (h : ∃ zs t0 g, FramedZ g ∧ exec i s = .next (s.fireMem (formOf i old) zs t0 g)) : FiresAs i s (exec i s) := by
  obtain ⟨zs, t0, g, hg, hexec⟩ := h
  rw [hexec]
  exact .fireMem hg

/-- RDSYS and TIME may let time pass, RDC may read its home or have a counter catch up, ATTR may ask for a translation. -/
def readsBeyondCore : Instr → Bool
  | .rdsys .. | .time .. | .rdc .. | .attr .. => true
  | _ => false

theorem firesAs_of_scalar {i : Instr} (h : majorIn 0x1 0x40 i = true) (hread : readsBeyondCore i = false) (s : State) : FiresAs i s (exec i s) := by
  cases i with
  | br | call | bri | calli | ret | scall | brk | trap | mov | null | pair | plo | phi | const | app | wrsys | add | sub | mul | mulh | mulhn
      | mulhsn | div | divn | rem | remn | min | max | minn | maxn | and | or | xor | andn | orn | xnor | shl | shr | shra | rol | ror | clz | ctz
      | popc | brev | bswp | neg | abs | not | sextb | sexth | sextw | zextb | zexth | zextw | bfx | bfxs | bfi | lea | addi | muli | andi | ori
      | xori | shli | shri | shrai | roti | tcmp | tcmpi | fadd | fsub | fmul | fma | fdiv | fsqrt | fmin | fmax | fminnum | fmaxnum | fcmp | fcvt
      | fabs | fneg | fclass | fcopysign => exact .fire (framed_onBlock _)
  | rdsys => exact Bool.noConfusion hread
  | _ => exact absurd h Bool.false_ne_true

theorem firesAs_of_memory {i : Instr} (h : majorIn 0x40 0x60 i = true) (s : State) : FiresAs i s (exec i s) := by
  cases i with
  | ldb | ldbs | ldh | ldhs | ldw | ldws | ldd | ldq | aadd | aand | aor | axor | amin | amax | aminn | amaxn | aswp | acas | afadd | acq =>
    exact .fireMem fun _ _ _ _ _ => framed_issue ..
  | stb | sth | stw | std | stq | stn4 | rel => exact .fireMem fun _ _ _ _ _ => framed_hold ..
  | ldv => exact .of_fireMem (exec_ldv ..)
  | ldvStr => exact .of_fireMem (exec_ldvStr ..)
  | ldvIdx => exact .of_fireMem (exec_ldvIdx ..)
  | stv => exact .of_fireMem (exec_stv ..)
  | stvStr => exact .of_fireMem (exec_stvStr ..)
  | stvIdx => exact .of_fireMem (exec_stvIdx ..)
  | wbr => exact .of_fireMem (exec_wbr ..)
  | invr => exact .of_fireMem (exec_invr ..)
  | lncfg => exact .of_fireMem (exec_lncfg ..)
  | fenceFull | fenceAcq | fenceRel | fenceSs | pref | ibar => exact .fire (framed_onBlock _)
  | _ => exact absurd h Bool.false_ne_true

theorem firesAs_of_vector {i : Instr} (h : majorIn 0x60 0x70 i = true) (s : State) : FiresAs i s (exec i s) := by
  cases i with
  | vsetl | vgetl | vbcast | vidx | vextr | vadd | vsub | vrsub | vmul | vdiv | vmin | vmax | vabsd | vfma | vfms | vfnma | vfnms | vdoti8 | vdoti4
      | vand | vor | vxor | vandn | vshl | vshr | vshra | vnot | vcmp | vmov | vsel | vcmpct | vpermx | vslideup | vslidedn | vzip | vunzip | rsum
      | rmax | rmin | rsumw | rcount | rfirst | vscanSum | vscanMax | vscanMin | vscanSegsum | exp2 | log2 | rcp | rsq | sqrt | tanh | sigm | erf
      | vcvt | vdeq | vscl | vqnt | vamax | pack | unpklo | unpkhi | gettag | settag | clrtag => exact .fire (framed_onBlock _)
  | _ => exact absurd h Bool.false_ne_true

theorem firesAs_of_system {i : Instr} (h : majorIn 0x70 0x80 i = true) (hread : readsBeyondCore i = false) (s : State) : FiresAs i s (exec i s) := by
  cases i with
  | mma | mmas | mmav | mmavSub | mldv | mrdv | msto | maddm | mtrn | mcopy | mshape | mzero | mwait | mstat | mtscl | spawn | spawna | join | taskend
      | yield | taskid | width | launch | domwait | chcfg | chcfgAge | chlen | chclr | waitc | waitcAge | waitcJoin | jadd | pcfg | dmapq =>
    exact .fire (framed_onBlock _)
  | cbld => exact .of_fireMem (exec_cbld ..)
  | alinv => exact .of_fireMem (exec_alinv ..)
  | rdc | time | attr => exact Bool.noConfusion hread
  | _ => exact absurd h Bool.false_ne_true

theorem firesAs_of_isWelit {i : Instr} (h : isWelit i = true) (hread : readsBeyondCore i = false) (s : State) : FiresAs i s (exec i s) := by
  rw [isWelit_eq_majorIn] at h
  obtain hscalar | hmemory | hvector | hsystem : majorIn 0x1 0x40 i = true ∨ majorIn 0x40 0x60 i = true ∨ majorIn 0x60 0x70 i = true ∨
      majorIn 0x70 0x80 i = true := by
    simp only [majorIn_iff] at h ⊢
    omega
  · exact firesAs_of_scalar hscalar hread s
  · exact firesAs_of_memory hmemory s
  · exact firesAs_of_vector hvector s
  · exact firesAs_of_system hsystem hread s

/-! The nullified firing (R24, R75) -/

/-- Whether an instruction acts in the oldest block alone, its nullified form does not ask. -/
theorem Nullified.of_formOf {s : State} {i : Instr} {b : Block} {old : Bool} (h : Nullified s (formOf i false) b) : Nullified s (formOf i old) b :=
  ⟨h.block, h.running, h.free, h.alive, h.once, h.unspeculated, h.unfaulted, h.turn, h.predicate, h.marked, h.format⟩

/-- A nullified instruction does not go. -/
theorem State.goes_of_nullified {s : State} {f : Form} {b : Block} (h : Nullified s f b) : s.goes f = false := by
  unfold State.goes
  dsimp only
  rw [h.block]
  dsimp only
  rw [Hart.ready_of_nullified h]
  rfl

/-- What a nullified firing of `i` in block `b` leaves. -/
def State.nullifiedAs (s : State) (i : Instr) (b : Block) : State :=
  s.nullifiedBlock b fun b1 => (b1.resolveL s.dev.focus.idx (lsidOf i)).resolveV s.dev.focus.idx (vsidOf i)

section Nullified
variable {i : Instr} {s : State} {b : Block} (h : Nullified s (formOf i false) b)
include h

theorem State.fire_formOf_of_nullified (old : Bool) (g : Hart → Block → Token → Token → Hart) : s.fire (formOf i old) g = s.nullifiedAs i b :=
  State.fire_of_nullified (f := formOf i old) h.of_formOf g

theorem State.fireMem_of_nullified (hzones : ∀ zs, (s.hart s.dev.focus.hart).zoneFor s.dev.focus.tag zs ≠ none) (old : Bool) (zs : BitVec 2)
    (t0 : BitVec 9) (g : Nat → Hart → Block → Token → Token → Hart) : s.fireMem (formOf i old) zs t0 g = s.nullifiedAs i b := by
  obtain ⟨zone, hzone⟩ := Option.ne_none_iff_exists'.mp (hzones zs.toNat)
  rw [State.fireMem]
  simp only [hzone]
  exact State.fire_formOf_of_nullified h old _

theorem FiresAs.eq_of_nullified {o : Out} (ho : FiresAs i s o)
    (hzones : ∀ zs, (s.hart s.dev.focus.hart).zoneFor s.dev.focus.tag zs ≠ none) : o = .next (s.nullifiedAs i b) := by
  cases ho with
  | fire _ => rw [State.fire_formOf_of_nullified h]
  | fireMem _ => rw [State.fireMem_of_nullified h hzones]

end Nullified

/-! The four that read more read nothing where they do not go. -/

section Stays
variable {s : State} {t0 : BitVec 9} {pr : BitVec 2}

theorem firesAs_rdsys_of_stays {sel : BitVec 4} (hstays : s.goes (scalarForm pr 0 true) = false) :
    FiresAs (.rdsys t0 sel pr) s (exec (.rdsys t0 sel pr) s) := by
  show FiresAs (.rdsys t0 sel pr) s (execRdsys t0 sel pr s)
  simp only [execRdsys, hstays, Bool.false_eq_true, and_false, if_false]
  exact .fire (framed_onBlock _)

theorem firesAs_time_of_stays {q : BitVec 2} (hstays : s.goes (scalarForm pr 0 false) = false) :
    FiresAs (.time t0 q pr) s (exec (.time t0 q pr) s) := by
  show FiresAs (.time t0 q pr) s (execTime t0 q pr s)
  simp only [execTime, hstays, Bool.false_eq_true, and_false, if_false]
  exact .fire (framed_onBlock _)

theorem firesAs_rdc_of_stays {c : BitVec 5} (hstays : s.goes (scalarForm pr 0 false) = false) :
    FiresAs (.rdc t0 c pr) s (exec (.rdc t0 c pr) s) := by
  rw [scalarForm] at hstays
  show FiresAs (.rdc t0 c pr) s (execRdc t0 c pr s)
  simp only [execRdc, hstays, Bool.false_eq_true, and_false, Bool.and_false, if_false]
  exact .fire (framed_onBlock _)

/-- ATTR fires unless it asks for a translation. -/
theorem firesAs_attr {z : BitVec 2} (hstays : (s.attrWaits z.toNat && s.goes (scalarForm pr 1 false)) = false) :
    FiresAs (.attr t0 z pr) s (exec (.attr t0 z pr) s) := by
  rw [scalarForm] at hstays
  show FiresAs (.attr t0 z pr) s (execAttr t0 z pr s)
  simp only [execAttr, hstays, Bool.false_eq_true, if_false]
  refine .fireMem fun zone _ _ _ _ => ?_
  split <;> rfl

end Stays

/-- Settles O42: an instruction that only fires does so in its nullified form; the four that read more do not go, and so they read nothing. -/
theorem nullifiedInstructionsOnlyResolve : Obligations.NullifiedInstructionsOnlyResolve := by
  unfold Obligations.NullifiedInstructionsOnlyResolve
  intro i s b hwelit h hzones
  have hgoes : ∀ old, s.goes (formOf i old) = false := fun old => State.goes_of_nullified h.of_formOf
  refine FiresAs.eq_of_nullified h ?_ hzones
  cases hread : readsBeyondCore i with
  | false => exact firesAs_of_isWelit hwelit hread s
  | true =>
    cases i with
    | rdsys => exact firesAs_rdsys_of_stays (hgoes true)
    | time => exact firesAs_time_of_stays (hgoes false)
    | rdc => exact firesAs_rdc_of_stays (hgoes false)
    | attr => exact firesAs_attr (Bool.and_eq_false_imp.mpr fun _ => hgoes false)
    | _ => exact Bool.noConfusion hread

/-! What a firing changes (R25, R26) -/

/-- Firing on `u` changes the firing core alone, and there nothing committed. -/
theorem State.fire_committed (u : State) (f : Form) {g : Hart → Block → Token → Token → Hart} (hg : Framed g) :
    ∃ h, u.fire f g = u.setHart u.dev.focus.hart h ∧ committed h = committed (u.hart u.dev.focus.hart) := u.fire_frame f hg

/-- Nothing happens before the zone is decided, and then the instruction fires. -/
theorem State.fireMem_committed (s : State) (f : Form) (zs : BitVec 2) (t0 : BitVec 9) {g : Nat → Hart → Block → Token → Token → Hart} (hg : FramedZ g) :
    s.fireMem f zs t0 g = s ∨
      ∃ h, s.fireMem f zs t0 g = s.setHart s.dev.focus.hart h ∧ committed h = committed (s.hart s.dev.focus.hart) := by
  rw [State.fireMem]
  cases hzone : (s.hart s.dev.focus.hart).zoneFor s.dev.focus.tag zs.toNat with
  | none => exact .inl rfl
  | some zone =>
    dsimp only
    refine .inr (s.fire_committed f fun h b l r => ?_)
    split
    · rfl
    · exact hg zone h b l r

theorem FiresAs.committed {i : Instr} {s t : State} (h : FiresAs i s (.next t)) :
    t = s ∨ ∃ h, t = s.setHart s.dev.focus.hart h ∧ Machine.committed h = Machine.committed (s.hart s.dev.focus.hart) := by
  cases h with
  | fire hg => exact .inr (s.fire_committed _ hg)
  | fireMem hg => exact s.fireMem_committed _ _ _ hg

/-- An instruction goes on a live core alone (R388). -/
theorem State.live_of_goes {s : State} {f : Form} (h : s.goes f = true) : s.dev.focus.hart < 2048 := by
  by_contra hn
  have hheld : s.hart s.dev.focus.hart = s.dev.heldHart s.dev.focus.hart := if_neg hn
  unfold State.goes at h
  obtain hthalt | hblocks := s.dev.heldHart_quiet s.dev.focus.hart
  · have hready : ∀ b idx f, (s.hart s.dev.focus.hart).ready b idx f = none := fun b idx f => by
      simp [Hart.ready, Hart.flows, hheld, hthalt]
    simp only [hready] at h
    split at h <;> exact Bool.noConfusion h
  · simp [hheld, Hart.block, hblocks] at h

theorem State.focus_holdCounter (s : State) (p k : Nat) : (s.holdCounter p k).dev.focus = s.dev.focus := by
  unfold State.holdCounter
  dsimp only
  split
  · rfl
  · exact State.focus_setHart ..

/-- What is left where an instruction has read, which leaves `u`, and then fires. -/
theorem committed_of_fires_after {i : Instr} {s t u : State} {f : Form} {g : Hart → Block → Token → Token → Hart} (hexec : exec i s = .next t)
    (hfires : exec i s = .next (u.fire f g)) (hg : Framed g) (hfocus : u.dev.focus = s.dev.focus) :
    ∃ h, t = u.setHart s.dev.focus.hart h ∧ committed h = committed (u.hart s.dev.focus.hart) := by
  obtain rfl := Host.Outcome.next.inj (hexec.symm.trans hfires)
  rw [← hfocus]
  exact u.fire_committed f hg

theorem FiresAs.committed_of_exec {i : Instr} {s t : State} (h : FiresAs i s (exec i s)) (hexec : exec i s = .next t) :
    t = s ∨ ∃ h, t = s.setHart s.dev.focus.hart h ∧ Machine.committed h = Machine.committed (s.hart s.dev.focus.hart) :=
  FiresAs.committed (hexec ▸ h)

/-- Settles O43: a firing changes the blocks in flight of its core; what four instructions read first is told for each. -/
theorem firingChangesOnlyTheBlocksInFlight : Obligations.FiringChangesOnlyTheBlocksInFlight := by
  unfold Obligations.FiringChangesOnlyTheBlocksInFlight
  intro i s t hwelit hexec
  cases hread : readsBeyondCore i with
  | false => exact ((firesAs_of_isWelit hwelit hread s).committed_of_exec hexec).imp_right fun ⟨h, hh⟩ => .inr ⟨s, h, .inl rfl, hh⟩
  | true =>
    cases i with
    | rdsys t0 sel pr =>
      obtain ⟨g, u, hg, rfl | ⟨rfl, rfl⟩, hfires⟩ := exec_rdsys t0 sel pr s
      · obtain ⟨h, hh⟩ := committed_of_fires_after hexec hfires hg rfl
        exact .inr (.inr ⟨u, h, .inl rfl, hh⟩)
      · obtain ⟨h, hh⟩ := committed_of_fires_after hexec hfires hg rfl
        exact .inr (.inr ⟨_, h, .inr (.inr (.inr ⟨.inl ⟨t0, pr, rfl⟩, rfl⟩)), hh⟩)
    | time t0 q pr =>
      obtain ⟨g, u, hg, rfl | ⟨rfl, rfl⟩, hfires⟩ := exec_time t0 q pr s
      · obtain ⟨h, hh⟩ := committed_of_fires_after hexec hfires hg rfl
        exact .inr (.inr ⟨u, h, .inl rfl, hh⟩)
      · obtain ⟨h, hh⟩ := committed_of_fires_after hexec hfires hg rfl
        exact .inr (.inr ⟨_, h, .inr (.inr (.inr ⟨.inr ⟨t0, pr, rfl⟩, rfl⟩)), hh⟩)
    | rdc t0 c pr =>
      cases hgoes : s.goes (scalarForm pr 0 false) with
      | false => exact ((firesAs_rdc_of_stays hgoes).committed_of_exec hexec).imp_right fun ⟨h, hh⟩ => .inr ⟨s, h, .inl rfl, hh⟩
      | true =>
        obtain ⟨g, u, hg, rfl | ⟨rfl, rfl⟩ | ⟨htimed, rfl⟩, hfires⟩ := exec_rdc t0 c pr s
        · obtain ⟨h, hh⟩ := committed_of_fires_after hexec hfires hg rfl
          exact .inr (.inr ⟨u, h, .inl rfl, hh⟩)
        · obtain ⟨h, hh⟩ := committed_of_fires_after hexec hfires hg (State.sameCore_wordReached (State.live_of_goes hgoes) s).focus
          exact .inr (.inr ⟨_, h, .inr (.inl ⟨⟨t0, pr, rfl⟩, rfl⟩), hh⟩)
        · obtain ⟨h, hh⟩ := committed_of_fires_after hexec hfires hg (s.focus_holdCounter _ _)
          exact .inr (.inr ⟨_, h, .inr (.inr (.inl ⟨t0, c, pr, rfl, htimed, rfl⟩)), hh⟩)
    | attr t0 z pr =>
      cases hasks : s.attrWaits z.toNat && s.goes (scalarForm pr 1 false) with
      | false => exact ((firesAs_attr hasks).committed_of_exec hexec).imp_right fun ⟨h, hh⟩ => .inr ⟨s, h, .inl rfl, hh⟩
      | true =>
        have hnext : exec (.attr t0 z pr) s = .next (s.attrAsks z.toNat) := congrArg Host.Outcome.next (if_pos hasks)
        exact .inr (.inl ⟨t0, z, pr, rfl, Host.Outcome.next.inj (hexec.symm.trans hnext)⟩)
    | _ => exact Bool.noConfusion hread

end Sys2Proof.Machine

/-! BLOCK_FETCH (R67, R83, R85) -/
namespace Sys2Proof.Machine

theorem exec_blockFetch_of_room {hart tag : Nat} {guess : Option Dbl} {addr : Dbl} {s : State} (hmay : s.mayFetch hart = true)
    (haddr : (s.hart hart).fetchAddr guess = some addr) (htag : (s.hart hart).freeTag = some tag) :
    exec (.blockFetch hart guess) s = .next (s.fetchBlock hart tag addr) := by
  show execBlockFetch hart guess s = _
  simp only [execBlockFetch, hmay, haddr, htag, if_true]

section Fetch
variable {hart tag : Nat} {addr : Dbl} {s s1 s2 : State} {hdr code : List Word} {f : FaultRec}

theorem State.fetchBlock_of_headerFault (hhdr : s.fetchPart hart addr 32 = (s1, .fault f)) :
    s.fetchBlock hart tag addr = s1.mapBlock hart tag addr [] [] [f] := by
  rw [State.fetchBlock, hhdr]

theorem State.fetchBlock_of_rowFault (hhdr : s.fetchPart hart addr 32 = (s1, .words hdr))
    (hrows : s1.fetchRows hart (addr + 128) (hdrRows hdr) = (s2, .fault f)) :
    s.fetchBlock hart tag addr = s2.mapBlock hart tag addr [] [] [f] := by
  rw [State.fetchBlock, hhdr]
  simp only [hrows]

/-- Header and rows have been read: what R83 checks decides. -/
theorem State.fetchBlock_of_words (hhdr : s.fetchPart hart addr 32 = (s1, .words hdr))
    (hrows : s1.fetchRows hart (addr + 128) (hdrRows hdr) = (s2, .words code)) :
    s.fetchBlock hart tag addr = match formatFault (isEngine hart) hdr code with
      | some w => s2.mapBlock hart tag addr [] [] [plainFault 0x01 w]
      | none => s2.mapBlock hart tag addr hdr code [] := by
  rw [State.fetchBlock, hhdr]
  simp only [hrows] <;> rfl

end Fetch

/-- Settles O47: header, rows and checks in the order in which the fetch meets them. -/
theorem fetchMapsTheCheckedBlock : Obligations.FetchMapsTheCheckedBlock := by
  unfold Obligations.FetchMapsTheCheckedBlock
  intro hart tag guess addr s s1 s2 hdr code hmay haddr htag
  rw [exec_blockFetch_of_room hmay haddr htag]
  refine ⟨fun f hhdr => by rw [State.fetchBlock_of_headerFault hhdr], fun hhdr => ⟨fun f hrows => by rw [State.fetchBlock_of_rowFault hhdr hrows], fun hrows => ?_⟩⟩
  rw [State.fetchBlock_of_words hhdr hrows]
  exact ⟨fun hgood => by rw [hgood], fun w hbad => by rw [hbad]⟩

end Sys2Proof.Machine

/-! The steps of the homes, and the widening of a core (R31 to R33, R199 to R204, R380, R411 to R417) -/
namespace Sys2Proof.Machine

section Home
variable {s : State}

theorem exec_invalidationComplete_of_first {i : Inval} {rest : List Inval} (h : s.dev.inval = i :: rest) :
    exec .invalidationComplete s = .next { s with dev := { s.dev.invalidate i with inval := rest } } := by
  show execInvalidationComplete s = _
  rw [execInvalidationComplete, h]

theorem exec_tinvInvalidate_of_go {ctl : Dbl} (hfree : s.dev.inval.any (fun i => i.req == 2048) = false) (hgo : bitOf ctl.toNat 63 = true)
    (hsize : bitsOf ctl.toNat 22 20 ≠ 7) :
    let e := { s.dev with regs := mset 0 s.dev.regs 0x18 (BitVec.ofNat 64 (ctl.toNat % 2 ^ 23)) }
    exec (.tinvInvalidate ctl) s = .next { s with dev := { e with inval := s.dev.inval ++
      [{ req := 2048, ctx := bitsOf ctl.toNat 11 0, zone := bitsOf ctl.toNat 19 12, size := bitsOf ctl.toNat 22 20, va := mget 0 e.regs 0x10 }] } } := by
  show execTinvInvalidate ctl s = _
  simp only [execTinvInvalidate, hfree, hgo, hsize, Bool.false_eq_true, Bool.true_eq_false, and_false, or_false, if_false]

theorem exec_pageWalkComplete_of_own {ctx zone : Nat} {va : Dbl} (h : zoneOf zone = .own) :
    exec (.pageWalkComplete ctx zone va) s = .next (s.xlate ctx zone va.toNat false false).1 := by
  show execPageWalkComplete ctx zone va s = _
  simp only [execPageWalkComplete, h]

/-! Page moves (R204, R332) -/

theorem exec_pageMove_of_movable {ctx n first f : Nat} {va : Dbl} {vals : List Nat} (hmoving : s.dev.moving = none) (hn : n < 12)
    (hready : s.dev.ready.getLsbD n = true) (hleaf : s.movable ctx (va.toNat / 4096) = some (first, vals)) (hframe : s.ringHead (poolKey n) = some f)
    (hsize : bitOf f 0 = (vals.length == 16)) :
    let t := s.ringTake (poolKey n)
    let m : Move := { ctx := ctx, page := va.toNat / 4096, stack := n, first := first, vals := vals,
                      dst := bitsOf f 51 12 * 4096 / (4096 * vals.length) * (4096 * vals.length) }
    exec (.pageMove ctx va n) s = .next { t with dev := { t.dev with moving := some m } } := by
  show execPageMove ctx va n s = _
  simp [execPageMove, hmoving, hleaf, hframe, hsize, hready, Nat.not_le.mpr hn]

theorem exec_pageMove_of_moving {ctx n : Nat} {va : Dbl} {m : Move} (hmoving : s.dev.moving = some m) (hctx : m.ctx = ctx)
    (hpage : m.page = va.toNat / 4096) (hstack : m.stack = n) : exec (.pageMove ctx va n) s = .next (s.finishMove m) := by
  show execPageMove ctx va n s = _
  simp only [execPageMove, hmoving, hctx, hpage, hstack, and_self, if_true]

/-- The state in which the pieces of a move stand in the new frame, and its leaf has not been swapped yet. -/
def State.movedPieces (s : State) (m : Move) : State := ({ s with dev := { s.dev with moving := none } } : State).copyPieces m

theorem State.finishMove_of_swapped {m : Move} {u : State} (h : (s.movedPieces m).swapLeaves m (upTo m.vals.length) = (u, true)) :
    s.finishMove m = ({ u with dev := u.dev.moveTlb m } : State).vacate m := by
  unfold State.movedPieces at h
  simp only [State.finishMove, h]

theorem State.finishMove_of_changed {m : Move} {u : State} (h : (s.movedPieces m).swapLeaves m (upTo m.vals.length) = (u, false)) :
    s.finishMove m = u.ringGive (poolKey m.stack) (m.dst + (m.vals.length == 16).toNat) := by
  unfold State.movedPieces at h
  simp only [State.finishMove, h]

/-- A page of one entry is swapped where the entry still holds what the move has read. -/
theorem State.swapLeaves_one (t : State) {m : Move} {e : Nat} (h : m.vals = [e]) :
    t.swapLeaves m (upTo m.vals.length) =
      if t.phys64 (m.first + 8 * 0) = e then (t.setPhys64 (m.first + 8 * 0) (setBits e 51 12 (m.dst / 4096 + 0)), true) else (t, false) := by
  have hupTo : upTo m.vals.length = [0] := by rw [h]; rfl
  have hold : m.old 0 = e := by rw [Move.old, h]; rfl
  rw [hupTo]
  simp only [State.swapLeaves, State.casLeaf, Move.new, hold]
  by_cases hsame : t.phys64 (m.first + 8 * 0) = e
  · simp only [if_pos hsame]
  · simp only [if_neg hsame]

/-! Soft errors (R203, R437) -/

theorem contains_insert_absent (xs : List Nat) (x : Nat) : (if xs.contains x then xs else xs ++ [x]).contains x = true := by
  split
  · assumption
  · simp

theorem exec_memorySoftError_device {pa : Nat} (h : pa < 2 ^ 52) :
    exec (.memorySoftError pa true) s = .next { s with dev := s.dev.spoil (pa / 32) } := by
  show execMemorySoftError pa true s = _
  simp only [execMemorySoftError, Bool.not_true, Bool.false_eq_true, if_false, if_pos h]

theorem exec_memorySoftError_scratch {pa : Nat} (hlow : 2 ^ 52 ≤ pa) (hhigh : pa < 2 ^ 60) :
    let w := (pa - 2 ^ 52) / 2 ^ 20
    let g := pa % 2 ^ 20 / 32
    exec (.memorySoftError pa true) s =
      .next (s.setMt w { s.mt w with errs := if (s.mt w).errs.contains g then (s.mt w).errs else (s.mt w).errs ++ [g] }) := by
  show execMemorySoftError pa true s = _
  simp only [execMemorySoftError, Bool.not_true, Bool.false_eq_true, if_false, if_neg (Nat.not_lt.mpr hlow), if_pos hhigh]
  rfl

/-! The host's translations (R414, R415) -/

theorem exec_atsTranslationCompletion_of_asked {ctx frame n : Nat} {va : Dbl} {rd wr : Bool} (hpasid : (s.ctxPasid ctx).isSome = true)
    (hasked : (ctx, va.toNat / 4096) ∈ s.dev.atsAsked) :
    let page := va.toNat / 4096
    exec (.atsTranslationCompletion ctx va (rd, wr) (frame, n)) s = .next { s with dev := { s.dev with
      atsAsked := s.dev.atsAsked.erase (ctx, page),
      ats := (s.dev.ats.filter fun t => !(t.ctx == ctx && t.page == page)) ++ [{ ctx := ctx, page := page, frame := frame, rd := rd, wr := wr, size := n }] } } := by
  obtain ⟨k, hk⟩ := Option.isSome_iff_exists.mp hpasid
  show execAtsTranslationCompletion ctx va (rd, wr) (frame, n) s = _
  simp only [execAtsTranslationCompletion, hk, List.contains_iff_mem.mpr hasked]

theorem exec_atsTranslationCompletion_of_unasked {ctx : Nat} {va : Dbl} {rights : Bool × Bool} {frame : Nat × Nat}
    (hasked : (ctx, va.toNat / 4096) ∉ s.dev.atsAsked) : exec (.atsTranslationCompletion ctx va rights frame) s = .next s := by
  have hnone : s.dev.atsAsked.contains (ctx, va.toNat / 4096) = false := by simpa using hasked
  show execAtsTranslationCompletion ctx va rights frame s = _
  simp only [execAtsTranslationCompletion, hnone]
  cases s.ctxPasid ctx <;> rfl

/-- The Page Requests sent once the oldest that stood beyond the host's allocation has taken the answered one's place. -/
def Dev.priSentNext (d : Dev) : Nat := d.priSent + if Config.priAllocation < d.pri.length then 1 else 0

theorem exec_priResponse_of_asked {ctx n : Nat} {va : Dbl} {q : Pri}
    (hq : (s.dev.pri.take Config.priAllocation).find? (fun q => q.ctx == ctx && q.page == va.toNat / 4096) = some q) :
    let d : Dev := { s.dev with priSent := s.dev.priSentNext }
    exec (.priResponse ctx va n) s = .next (
      if n = 0 then { s with dev := { d with pri := d.pri.erase q, ats := d.ats.filter fun t => !(t.ctx == ctx && t.page == va.toNat / 4096) } }
      else ({ s with dev := d } : State).failPage q) := by
  have hsent : s.dev.priSent + (decide (Config.priAllocation < s.dev.pri.length)).toNat = s.dev.priSentNext := by
    unfold Dev.priSentNext
    split <;> simp [*]
  show execPriResponse ctx va n s = _
  simp only [execPriResponse, hq, hsent]

theorem exec_atsInvalidation_of_taken {pasid n : Nat} {va : Dbl} (h : (pasid, va, n) ∈ s.dev.atsInval) :
    exec (.atsInvalidation pasid va n) s =
      .next { s with dev := { s.dev with atsInval := s.dev.atsInval.erase (pasid, va, n), invalSent := s.dev.invalSent + 1 } } := if_pos h

theorem exec_atsInvalidation_of_new {pasid n : Nat} {va : Dbl} (h : (pasid, va, n) ∉ s.dev.atsInval) :
    let hit := s.inAtsRange pasid va n
    let e := s.dev.mapHarts fun k => { k with look := k.look.filter fun t => !(t.zone == 0xF0 && hit t.ctx t.page),
                                              l1d := k.l1d.filter fun l => !(l.zone == 0xF0 && hit l.ctx (l.line / 64)) }
    let f : Dev := if s.holdsAtsRange pasid va n then { e with ats := e.ats.filter fun x => !hit x.ctx x.page, atsInval := e.atsInval ++ [(pasid, va, n)] }
      else { s.dev with invalSent := s.dev.invalSent + 1 }
    exec (.atsInvalidation pasid va n) s = .next { s with dev := f } := by
  show execAtsInvalidation pasid va n s = _
  unfold execAtsInvalidation
  dsimp only
  rw [if_neg h]
  split <;> rfl

end Home

/-! Widening (R31, R32) -/

/-- The tiles of a graph's cut that complete its core at `hart` to the width `w`: those of the wider shape that it has not got yet. -/
def Graph.completing (g : Graph) (h : Hart) (hart w : Nat) : List (Nat × Nat × Nat) :=
  g.cut.filter fun c => inShape w hart (placeOf g.clu (g.row + c.1) (g.col + c.2.1)) &&
    !inShape h.cwidth.toNat hart (placeOf g.clu (g.row + c.1) (g.col + c.2.1)) && !g.absorbed.contains (c.1, c.2.1)

theorem exec_widenReserve_of_idle {s : State} {hart : Nat} {g : Graph} (hgraph : s.dev.graph (s.hart hart).graph = some g)
    (hrun : (s.hart hart).run = .running) (hreserve : (s.hart hart).reserve = none) (hstays : (s.hart hart).leaving = false)
    (hsusp : (s.hart hart).susp = none) (hcore : isEngine hart = false) (hlive : g.state = 0) (hmax : 2 * (s.hart hart).cwidth.toNat ≤ 8)
    (hhint : (s.hart hart).cwidth.toNat < (s.hart hart).whint) (hshape : g.holdsShape (2 * (s.hart hart).cwidth.toNat) hart = true)
    (hidle : (g.completing (s.hart hart) hart (2 * (s.hart hart).cwidth.toNat)).all
      (fun c => s.absorbable g (placeOf g.clu (g.row + c.1) (g.col + c.2.1))) = true) :
    let w := 2 * (s.hart hart).cwidth.toNat
    let t := s.setHart hart { s.hart hart with reserve := some w }
    let k : Graph := { g with absorbed := g.absorbed ++ (g.completing (s.hart hart) hart w).map fun c => (c.1, c.2.1) }
    exec (.widenReserve hart) s = .next { t with dev := t.dev.setGraph k } := by
  have hmay : ((s.hart hart).run != .running || (s.hart hart).reserve.isSome || (s.hart hart).leaving || (s.hart hart).susp.isSome ||
      isEngine hart || g.state != 0 || decide (8 < 2 * (s.hart hart).cwidth.toNat) || decide ((s.hart hart).whint ≤ (s.hart hart).cwidth.toNat) ||
      !g.holdsShape (2 * (s.hart hart).cwidth.toNat) hart) = false := by
    simp [hrun, hreserve, hstays, hsusp, hcore, hlive, hshape, Nat.not_lt.mpr hmax, Nat.not_le.mpr hhint]
  show execWidenReserve hart s = _
  unfold execWidenReserve
  simp only [hgraph, hmay, Bool.false_eq_true, if_false]
  exact congrArg _ (if_pos hidle)

theorem exec_widenRedistribute_of_drained {s : State} {hart w : Nat} (hreserve : (s.hart hart).reserve = some w)
    (hrun : (s.hart hart).run = .running) (hblocks : (s.hart hart).blocks = []) (hbusy : (s.hart hart).busy = 0)
    (hsusp : (s.hart hart).susp = none) (hstays : (s.hart hart).leaving = false) :
    exec (.widenRedistribute hart) s = .next (s.setHart hart ((s.hart hart).widened w)) := by
  have hdrained : ((s.hart hart).run == .running && (s.hart hart).blocks.isEmpty && (s.hart hart).busy == 0 && (s.hart hart).susp.isNone &&
      !(s.hart hart).leaving) = true := by
    simp [hrun, hblocks, hbusy, hsusp, hstays]
  show execWidenRedistribute hart s = _
  simp only [execWidenRedistribute, hreserve, hdrained, if_true]

/-- Settles O54: the steps of the homes, the host's answers and the widening, each from the lemma about its instruction. -/
theorem homesAndWidening : Obligations.HomesAndWidening := by
  unfold Obligations.HomesAndWidening
  intro hart ctx n pa zone frame va ctl rd wr s
  refine ⟨fun i rest => exec_invalidationComplete_of_first, exec_tinvInvalidate_of_go, exec_pageWalkComplete_of_own,
    fun first vals f => exec_pageMove_of_movable, ?move, rfl, rfl, rfl, ?device, ?scratch, rfl, rfl, exec_atsTranslationCompletion_of_asked,
    exec_atsTranslationCompletion_of_unasked, ?pri, exec_atsInvalidation_of_taken, ?inval, fun g => exec_widenReserve_of_idle,
    fun w => exec_widenRedistribute_of_drained⟩
  case move =>
    intro m hmoving hctx hpage hstack
    rw [exec_pageMove_of_moving hmoving hctx hpage hstack]
    subst hstack
    refine ⟨fun e hvals => ⟨fun hsame => ?swapped, fun hchanged => ?changed⟩, fun u hswap => by rw [State.finishMove_of_swapped hswap],
      fun u hswap => by rw [State.finishMove_of_changed hswap]⟩
    case swapped => exact congrArg Host.Outcome.next (State.finishMove_of_swapped ((State.swapLeaves_one _ hvals).trans (if_pos hsame)))
    case changed =>
      rw [State.finishMove_of_changed ((State.swapLeaves_one _ hvals).trans (if_neg hchanged)), hvals]
      rfl
  case device =>
    intro hpa
    exact ⟨_, exec_memorySoftError_device hpa, contains_insert_absent .., rfl⟩
  case scratch =>
    intro hlow hhigh
    refine ⟨_, exec_memorySoftError_scratch hlow hhigh, ?_, ?_⟩
    · rw [State.mt_setMt_same]
      exact contains_insert_absent ..
    · rw [State.mt_setMt_same]
      rfl
  case pri =>
    intro q hq
    exact ⟨exec_priResponse_of_asked hq, fun hn => (exec_priResponse_of_asked hq).trans (congrArg _ (if_neg hn))⟩
  case inval =>
    intro hnew
    rw [exec_atsInvalidation_of_new hnew]
    split <;> rfl

end Sys2Proof.Machine

/-! Faults that are taken, and spills of the return stack (R26, R117, R480) -/
namespace Sys2Proof.Machine

section Take
variable {hart : Nat} {s : State}

/-- A running core with no deferred store to report looks at its oldest block, or without one at the faults that wait (R480). -/
theorem exec_faultTake_of_running (hrun : (s.hart hart).run = .running) (hflows : (s.hart hart).thalt = false)
    (hnotice : (s.hart hart).waitNotice = none) : exec (.faultTake hart) s = .next (
      match (s.hart hart).blocks with
      | [] =>
        match (s.hart hart).pending with
        | f :: fs =>
          let s1 := s.setHart hart { s.hart hart with pending := fs }
          { s1 with dev := s1.dev.takeFault hart none f false }
        | [] => s
      | b :: _ =>
        match pickFault b.faults with
        | some f => s.takeBlockFault hart b f
        | none => if b.stuck then s.takeBlockFault hart b (plainFault 0x04 0xFFFF) else s) := by
  have hnotIdle : ¬(s.hart hart).run = .idle := by rw [hrun]; exact Run.noConfusion
  have hgoes : ¬((s.hart hart).run != .running || (s.hart hart).thalt) = true := by simp [hrun, hflows]
  refine congrArg Host.Outcome.next ((if_neg hnotIdle).trans ((if_neg hgoes).trans ?_))
  simp only [hnotice] <;> rfl

theorem exec_faultTake_of_idle {f : FaultRec} {fs : List FaultRec} (hrun : (s.hart hart).run = .idle) (hpending : (s.hart hart).pending = f :: fs) :
    let h := s.hart hart
    let p : Packet := { packetOf s.dev hart h none f false false with task := 0 }
    exec (.faultTake hart) s = .next { s with dev := (s.dev.setHart hart { h with pending := fs }).sendPacket (deviceRow (placeOfHart hart)) p } := by
  refine congrArg Host.Outcome.next ((if_pos hrun).trans ?_)
  simp only [hpending]

theorem exec_returnStackSpill_of_bytes {idx : Nat} {t : State} {b : Block} {br : Branch} {bs : List Byte} :
    let h := s.hart hart
    let va := spillSlot h h.spilled.toNat
    let data := full (natLe 8 (h.rstk.headD 0).toNat)
    s.committing hart = some (b, idx, br) → needsSpill h b br = true → h.noticeFor 0 (va.toNat / 4096) = none →
    s.postedTouches hart 0 va 8 = false → h.storesHeld = false →
    (s.countWalk hart 0 va).writeHome h.ctxid.toNat hart 0 va data (hartWriter hart b.seq) = (t, .bytes bs) →
    let u := (t.learnAt hart 0 va).patchOwn hart 0 va.toNat data
    exec (.returnStackSpill hart) s = .next (u.setHart hart
      (((u.hart hart).putBlock { b with spilled := true }).violate (u.namesOf hart) b.tag 0 va 8)) := by
  intro h va data hcommit hspill hnotice hposted hheld hwrite
  show execReturnStackSpill hart s = _
  unfold execReturnStackSpill
  simp only [hcommit]
  have hneeds : ¬(!needsSpill (s.hart hart) b br) = true := by simp [show needsSpill (s.hart hart) b br = true from hspill]
  have hfree : ¬(s.postedTouches hart 0 va 8 || (s.hart hart).storesHeld) = true := by
    simp [hposted, show (s.hart hart).storesHeld = false from hheld]
  rw [if_neg hneeds, hnotice]
  refine congrArg Host.Outcome.next ((if_neg hfree).trans ?_)
  rw [hwrite]

end Take

/-- Settles O49: what FAULT_TAKE finds first on a running core and on an idle one, and the spill whose write the home has taken. -/
theorem faultsAndReturnStackSpills : Obligations.FaultsAndReturnStackSpills := by
  unfold Obligations.FaultsAndReturnStackSpills
  refine ⟨fun hart s hrun hflows hnotice => ?running, fun hart s f fs => exec_faultTake_of_idle, fun hart idx s t b br bs => exec_returnStackSpill_of_bytes⟩
  rw [exec_faultTake_of_running hrun hflows hnotice]
  refine ⟨fun b bs f hblocks hpick => ?fault, fun b bs hblocks hfaults hstuck => ?stuck, fun f fs hblocks hpending => ?waiting⟩
  case fault => simp only [hblocks, hpick]
  case stuck => simp only [hblocks, hfaults, pickFault, hstuck, if_true]
  case waiting => simp only [hblocks, hpending]

end Sys2Proof.Machine

/-! The steps of the placement unit and the launch table (R310 to R320, R344, R408, R412) -/
namespace Sys2Proof.Machine

section Intake
variable {s : State} {n : Nat}

/-- The state in which the post at the intake's head has left it and its core's command port (R407, R408). -/
def State.postTaken (s : State) (p : Post) (rest : List Post) : State :=
  let a := s.dev.app p.srcN
  let e := { s.dev with intake := rest }
  { s with dev := if p.src = 0 then e.setApp p.srcN { a with queue := a.queue.drop 1 } else e }

theorem exec_launchPost_of_first {p : Post} {rest : List Post} (hintake : s.dev.intake = p :: rest) (hready : s.dev.ready.getLsbD 15 = true) :
    let rd : BitVec 5 := match (s.dev.app p.srcN).queue with | c :: _ => c.rd | [] => 0
    let t := s.postTaken p rest
    exec .launchPost s = .next (if p.op = 0 then t.post p
      else if p.op = 4 then (t.cancel p).1.commandDone p rd (t.cancel p).2 else (t.reprio p).1.commandDone p rd (t.reprio p).2) := by
  show execLaunchPost s = _
  unfold execLaunchPost
  simp only [hintake, hready, Bool.not_true, Bool.false_eq_true, if_false]
  refine congrArg Host.Outcome.next ?_
  split
  next hpost => exact (if_pos hpost).symm
  next hcancel => exact ((if_neg (by omega)).trans (if_pos hcancel)).symm
  next hpost hcancel => exact ((if_neg hpost).trans (if_neg hcancel)).symm

theorem exec_doorbellWrite_of_trained {addr : Dbl} (htrained : s.dev.ready.getLsbD 16 = true) :
    exec (.doorbellWrite n addr) s = .next (s.ringBell n addr) := congrArg Host.Outcome.next (if_pos htrained)

theorem State.ringBell_of_open {addr : Dbl} (hopen : s.dev.doorOpen n = true) :
    s.ringBell n addr = { s with dev := { s.dev with intake := s.dev.intake ++ [pagePost n (s.dev.page n) 0 addr 0] } } := if_pos hopen

theorem State.ringBell_of_closed {addr : Dbl} (hclosed : s.dev.doorOpen n = false) :
    s.ringBell n addr = { s with dev := s.dev.setPage n { s.dev.page n with lasterr := addr ||| 1 } } := if_neg (ne_true_of_eq_false hclosed)

end Intake

/-! The launch table (R312, R344, R358) -/

/-- Nothing more missed leaves MISSED. -/
theorem LTab.miss_zero (e : LTab) : e.miss 0 = e := by
  have hmin : Nat.min (e.missed.toNat + 0) (2 ^ 32 - 1) = e.missed.toNat := Nat.min_eq_left (Nat.le_sub_one_of_lt e.missed.isLt)
  rw [LTab.miss, hmin, BitVec.ofNat_toNat, BitVec.setWidth_eq]

/-- The time of a slot has reached that slot and no later one. -/
theorem LTab.latest_slotTime {e : LTab} (hperiod : e.period ≠ 0) : e.latest (e.slotTime e.slot) = e.slot := by
  have hpos : 0 < e.period.toNat := Nat.pos_of_ne_zero fun hzero => hperiod (BitVec.eq_of_toNat_eq hzero)
  rw [LTab.latest, if_neg hperiod, LTab.slotTime, Nat.add_sub_cancel_left, Nat.mul_div_cancel _ hpos]
  exact Nat.max_self _

section Slot
variable {s : State} {n : Nat} (hen : (s.dev.entry n).en = true) (hperiod : (s.dev.entry n).period ≠ 0)
  (htime : s.dev.timebase.toNat ≤ (s.dev.entry n).slotTime (s.dev.entry n).slot)
include hen hperiod htime

/-- An entry whose slot has come counts it as missed while its launch is held, and posts its record otherwise; TIMEBASE moves up to the slot (log 8). -/
theorem exec_timeTriggerSlot_of_due :
    let e := s.dev.entry n
    let e1 : LTab := { e with slot := e.slot + 1 }
    let d := { s.dev with timebase := BitVec.ofNat 64 (e.slotTime e.slot) }
    let p : Post := { op := 0, record := e.record, src := 3, srcN := n, ctx := some e.ctx.toNat, via := e.ctx.toNat, prio := 0 }
    exec (.timeTriggerSlot n) s = .next (
      if e.held then { s with dev := d.setEntry n (e1.miss 1) }
      else { s with dev := { (d.setEntry n { e1 with held := true }) with intake := d.intake ++ [p] } }) := by
  have hnow : Nat.max s.dev.timebase.toNat ((s.dev.entry n).slotTime (s.dev.entry n).slot) = (s.dev.entry n).slotTime (s.dev.entry n).slot :=
    Nat.max_eq_right htime
  have hdue : (!(s.dev.entry n).en || ((s.dev.entry n).period == 0 && decide (1 ≤ (s.dev.entry n).slot))) = false := by
    rw [hen, beq_false_of_ne hperiod]
    rfl
  show execTimeTriggerSlot n s = _
  unfold execTimeTriggerSlot
  simp only [hdue, hnow, LTab.latest_slotTime hperiod, Nat.sub_self, LTab.miss_zero, Bool.false_eq_true, if_false]

end Slot

/-! Placement (R317 to R320) -/

section Place
variable {s : State} {h : Held} {rest : List Item} (hlevels : s.dev.levels = .launch h :: rest)
include hlevels

theorem exec_placementDecision_of_candidate {r : Rect} (hready : s.dev.ready.getLsbD 15 = true) (hcand : s.dev.candidate h = some r) :
    exec .placementDecision s = .next (s.placeLaunch h r) := by
  show execPlacementDecision s = _
  simp [execPlacementDecision, hlevels, hready, State.tryPlace, hcand]

theorem exec_placementDecision_of_preempted {t : State} (hready : s.dev.ready.getLsbD 15 = true) (hcand : s.dev.candidate h = none)
    (hpreempt : s.preempt (.launch h) = some t) : exec .placementDecision s = .next t := by
  show execPlacementDecision s = _
  simp [execPlacementDecision, hlevels, hready, State.tryPlace, hcand, hpreempt]

/-- A head with a reservation is passed by no later item (R319). -/
theorem exec_placementDecision_of_reserved (hcand : s.dev.candidate h = none)
    (hpreempt : s.preempt (.launch h) = none) (hreserved : s.dev.reserved.any (fun r => r.1 == h.order) = true) :
    exec .placementDecision s = .next s := by
  show execPlacementDecision s = _
  simp [execPlacementDecision, hlevels, State.tryPlace, hcand, hpreempt, Item.held, hreserved]

theorem exec_backfillReserve_of_head {c : Nat} (hcand : s.dev.candidate h = none) (hnew : s.dev.reserved.any (fun r => r.1 == h.order) = false)
    (hcluster : s.dev.reserveFor h.order (Nat.max h.whint 1) = some c) :
    exec .backfillReserve s = .next { s with dev := { s.dev with reserved := s.dev.reserved ++ [(h.order, c)] } } := by
  show execBackfillReserve s = _
  simp [execBackfillReserve, hlevels, State.tryPlace, hcand, Item.held, hnew, hcluster]

end Place

theorem exec_launchAgeTick_of_held {s : State} {n : Nat} {h : Held} (hage : s.dev.plctl.toNat % 2 ^ 16 ≠ 0) (hheld : s.dev.held[n]? = some h) :
    exec (.launchAgeTick n) s = .next { s with dev := { s.dev with held := s.dev.held.map fun x =>
      if x.order = h.order then (if !x.noage && decide (x.level < x.ceiling) then { x with level := x.level + 1 } else x) else x } } := by
  show execLaunchAgeTick n s = _
  simp only [execLaunchAgeTick, if_neg hage, hheld]

theorem exec_minresExpiry_of_resident {s : State} {n : Nat} {g : Graph} (hgraph : s.dev.graph n = some g) (hlive : g.state = 0) :
    exec (.minresExpiry n) s = .next { s with dev := s.dev.setGraph { g with eligible := true } } := by
  show execMinresExpiry n s = _
  simp only [execMinresExpiry, hgraph, if_pos hlive]

theorem exec_graphComplete_of_done {s : State} {n : Nat} {g : Graph} (hgraph : s.dev.graph n = some g) (hdone : s.graphDone g = true) :
    let t := g.places.foldl (fun s p => s.returnSpares g.launch.ctx p) s
    exec (.graphComplete n) s = .next (if g.places.any (fun p => (t.deque p).stopped) then t
      else ((t.addBinder g).finishLaunch g.launch 0x03).freeGraph g) := by
  show execGraphComplete n s = _
  simp only [execGraphComplete, hgraph, hdone, Bool.not_true, Bool.false_eq_true, if_false]

/-- Settles O56: the steps of the intake, the pages, the launch table and placement, each from the lemma about its instruction. -/
theorem placementUnitSteps : Obligations.PlacementUnitSteps := by
  unfold Obligations.PlacementUnitSteps
  intro n prio addr s
  refine ⟨fun p rest => exec_launchPost_of_first, ⟨?bell, ?closed, ?untrained, rfl, rfl, rfl⟩, ⟨?slot, ?enable, rfl⟩, fun h rest hready hlevels =>
    ⟨fun r => exec_placementDecision_of_candidate hlevels hready, fun t => exec_placementDecision_of_preempted hlevels hready,
      exec_placementDecision_of_reserved hlevels, fun c => exec_backfillReserve_of_head hlevels⟩, ?tick,
    fun g => exec_minresExpiry_of_resident, fun g => exec_graphComplete_of_done⟩
  case bell =>
    intro htrained hen hplace
    rw [exec_doorbellWrite_of_trained htrained, State.ringBell_of_open (by rw [Dev.doorOpen, hen, hplace]; rfl)]
  case closed =>
    intro htrained hclosed
    have hdoor : s.dev.doorOpen n = false := by
      rw [Dev.doorOpen]
      exact Bool.and_eq_false_iff.mpr hclosed
    rw [exec_doorbellWrite_of_trained htrained, State.ringBell_of_closed hdoor]
  case untrained => exact fun htrained => congrArg _ (if_neg (ne_true_of_eq_false htrained))
  case slot =>
    intro hen hperiod htime _
    rw [exec_timeTriggerSlot_of_due hen hperiod htime]
    exact ⟨fun hheld => congrArg _ (if_pos hheld), fun hheld => congrArg _ (if_neg (ne_true_of_eq_false hheld))⟩
  case enable => exact fun hen => congrArg _ (if_neg (ne_true_of_eq_false hen))
  case tick =>
    intro h hage hheld hages hlevel
    refine ⟨_, exec_launchAgeTick_of_held hage hheld, rfl, ?_⟩
    rw [List.getElem?_map, hheld]
    simp [hages, hlevel]

end Sys2Proof.Machine

/-! Vector instructions whose tags do not match what they work on (R42, R141, R240). Each form's checks pass only where its operands carry the right
tags, so that a clash follows wherever they do not. -/
namespace Sys2Proof.Machine

/-! What a passed check says -/

theorem needTag_eq_none {e : VEnv} {x : Vec} {r t : Nat} : needTag e x r t = none ↔ x.tagOf r = t :=
  ⟨fun h => by_contra fun hne => Option.some_ne_none _ ((if_neg hne).symm.trans h), fun h => needTag_of_eq h e⟩

theorem needIn_eq_none {e : VEnv} {x : Vec} {r : Nat} {ts : List Nat} : needIn e x r ts = none ↔ x.tagOf r ∈ ts :=
  ⟨fun h => by_contra fun hne => Option.some_ne_none _ ((if_neg fun hin => hne (List.contains_iff_mem.mp hin)).symm.trans h),
    fun h => needIn_of_mem h e⟩

theorem needWork_eq_none {e : VEnv} {x : Vec} {r : Nat} {ts : List Nat} :
    needWork e x r ts = none ↔ x.vtype.toNat ∈ ts ∧ x.tagOf r = x.vtype.toNat := by
  unfold needWork
  by_cases hin : x.vtype.toNat ∈ ts
  · rw [if_pos (List.contains_iff_mem.mpr hin), needTag_eq_none, and_iff_right hin]
  · rw [if_neg fun h => hin (List.contains_iff_mem.mp h)]
    exact ⟨fun h => absurd h (Option.some_ne_none _), fun h => absurd h.1 hin⟩

theorem ite_some_eq_none {c : Prop} [Decidable c] {d : Dbl} : (if c then none else some d) = none ↔ c := by
  by_cases hc : c <;> simp [hc]

theorem pass_of_pass_singleton {k : Option Dbl} (h : ∀ j ∈ [k], j = none) : k = none := h k (List.mem_singleton_self k)

/-- The first clash of checks that do not all pass. -/
theorem exists_firstClash {cs : List (Option Dbl)} (h : ¬∀ k ∈ cs, k = none) : ∃ d, firstClash cs = some d := by
  induction cs with
  | nil => exact absurd (List.forall_mem_nil _) h
  | cons k cs ih =>
    cases k with
    | some d => exact ⟨d, rfl⟩
    | none => exact ih fun hcs => h (List.forall_mem_cons.mpr ⟨rfl, hcs⟩)

/-! The forms -/

/-- A vector instruction whose body clashes wherever `ok` fails records the fault and leaves its context (R42, R141). -/
theorem fireVec_clashes {i : Instr} {v : BitVec 5} {pr : BitVec 2} {n : Nat} {t0 : BitVec 9} {g : VEnv → Vec → Token → VRes}
    {ok : VEnv → Vec → Prop} (hexec : ∀ s, exec i s = .next (s.fireVec v pr n t0 g))
    (hform : formOf i true = ⟨pr, n, true, none, some v.toNat, .whole⟩) (hg : ∀ e x l, ¬ok e x → ∃ d, g e x l = .clash d) :
    VecClashes i ok := by
  intro s b l r h hlive hbad
  obtain ⟨d, hd⟩ := hg _ _ l hbad
  have hn : operandCount i = n := congrArg Form.operands hform
  rw [hform] at h
  rw [hn] at hlive
  refine ⟨d, (hexec s).trans (congrArg _ ?_)⟩
  unfold State.fireVec
  dsimp only
  rw [fire_of_fires h]
  refine State.fired_eq_firedBlock ?_
  dsimp only
  rw [if_neg hlive, Hart.nenv_count_putBlock, Hart.cwidth_count_putBlock, Block.ctxOf_markFired, State.bookOf_markFired]
  unfold State.vecEnv at hd
  dsimp only at hd
  rw [hd]

/-- A vector instruction whose tag checks pass only where `ok` holds clashes elsewhere. -/
theorem tagged_clashes {i : Instr} {v : BitVec 5} {pr : BitVec 2} {n : Nat} {t0 : BitVec 9} {checks : VEnv → Vec → List (Option Dbl)}
    {body : VEnv → Vec → Token → VRes} {ok : VEnv → Vec → Prop}
    (hexec : ∀ s, exec i s = .next (s.fireVec v pr n t0 fun e x l => whenTags (checks e x) (body e x l)))
    (hform : formOf i true = ⟨pr, n, true, none, some v.toNat, .whole⟩) (hok : ∀ e x, (∀ k ∈ checks e x, k = none) → ok e x) :
    VecClashes i ok := by
  refine fireVec_clashes hexec hform fun e x l hbad => ?_
  obtain ⟨d, hd⟩ := exists_firstClash fun hpass => hbad (hok e x hpass)
  refine ⟨d, ?_⟩
  unfold whenTags
  rw [hd]

/-- Checks of one register against an accepted VTYPE. -/
theorem carries_of_pass {ts : List Nat} {a : BitVec 5} {x : Vec} {e : VEnv} (h : needWork e x a.toNat ts = none) : carries ts [a] x := by
  obtain ⟨hts, ha⟩ := needWork_eq_none.mp h
  exact ⟨hts, List.forall_mem_singleton.mpr ha⟩

/-- Checks of two registers against an accepted VTYPE. -/
theorem carries₂_of_pass {ts : List Nat} {a b : BitVec 5} {x : Vec} {e : VEnv}
    (h : ∀ k ∈ [needWork e x a.toNat ts, needTag e x b.toNat x.vtype.toNat], k = none) : carries ts [a, b] x := by
  obtain ⟨ha, hb⟩ := List.forall_mem_cons.mp h
  obtain ⟨hts, hone⟩ := carries_of_pass ha
  exact ⟨hts, List.forall_mem_cons.mpr ⟨hone a (List.mem_singleton_self a),
    List.forall_mem_singleton.mpr (needTag_eq_none.mp (pass_of_pass_singleton hb))⟩⟩

section Forms
variable {i : Instr} {v d a b : BitVec 5} {pr : BitVec 2} (hform : formOf i true = ⟨pr, 0, true, none, some v.toNat, .whole⟩)
include hform

theorem varith_clashes {ff : VEnv → Nat → Nat → Nat → Nat → Nat} {fi : Int → Int → Int} {rounds : Bool}
    (hexec : ∀ s, exec i s = varith s v d a b pr ff fi rounds) : VecClashes i fun _ x => carries arithTags [a, b] x :=
  tagged_clashes hexec hform fun _ _ h => carries₂_of_pass h

theorem vred_clashes {t0 : BitVec 9} {rounds : Bool} {f : VEnv → Nat → List Nat → Token}
    (hexec : ∀ s, exec i s = vred s v a t0 pr rounds f) : VecClashes i fun _ x => carries arithTags [a] x :=
  tagged_clashes hexec hform fun _ _ h => carries_of_pass (pass_of_pass_singleton h)

theorem vscan_clashes {rounds : Bool} {f : VEnv → Nat → Nat → List Nat → Nat}
    (hexec : ∀ s, exec i s = vscan s v d a pr rounds f) : VecClashes i fun _ x => carries arithTags [a] x :=
  tagged_clashes hexec hform fun _ _ h => carries_of_pass (pass_of_pass_singleton h)

theorem vfunc_clashes {k : Nat} (hexec : ∀ s, exec i s = vfunc s v d a pr k) : VecClashes i fun _ x => carries funcTags [a] x :=
  tagged_clashes hexec hform fun _ _ h => carries_of_pass (pass_of_pass_singleton h)

theorem vfused_clashes {np na : Bool} (hexec : ∀ s, exec i s = vfused s v d a b pr np na) :
    VecClashes i fun _ x => carries wideFloatTags [a, b, d] x := by
  refine tagged_clashes hexec hform fun e x h => ?_
  simp only [List.forall_mem_cons, List.not_mem_nil, false_imp_iff, implies_true, and_true, needWork_eq_none, needTag_eq_none] at h
  obtain ⟨⟨hts, ha⟩, hb, hd⟩ := h
  exact ⟨hts, List.forall_mem_cons.mpr ⟨ha, List.forall_mem_cons.mpr ⟨hb, List.forall_mem_singleton.mpr hd⟩⟩⟩

theorem vdot_clashes {t : Nat} (hexec : ∀ s, exec i s = vdot s v d a b pr t) :
    VecClashes i fun _ x => carries [t] [a, b] x ∧ x.tagOf d.toNat = tagI32 := by
  refine tagged_clashes hexec hform fun e x h => ?_
  simp only [List.forall_mem_cons, List.not_mem_nil, false_imp_iff, implies_true, and_true, ite_some_eq_none, needTag_eq_none] at h
  obtain ⟨hvt, ha, hb, hd⟩ := h
  exact ⟨⟨List.mem_singleton.mpr hvt, List.forall_mem_cons.mpr ⟨ha.trans hvt.symm, List.forall_mem_singleton.mpr (hb.trans hvt.symm)⟩⟩, hd⟩

theorem vlogic_clashes {f : Nat → Nat → Nat → Nat} (hexec : ∀ s, exec i s = vlogic s v d a b pr f) :
    VecClashes i fun _ x => x.tagOf a.toNat ∈ logicTags ∧ x.tagOf b.toNat = x.tagOf a.toNat ∧
      (x.tagOf a.toNat ≠ tagMask → x.tagOf a.toNat = x.vtype.toNat) := by
  refine tagged_clashes hexec hform fun e x h => ?_
  simp only [List.forall_mem_cons, List.not_mem_nil, false_imp_iff, implies_true, and_true, needIn_eq_none, needTag_eq_none] at h
  obtain ⟨hin, hb, hwork⟩ := h
  exact ⟨hin, hb, fun hmask => needTag_eq_none.mp ((if_neg hmask).symm.trans hwork)⟩

theorem vshift_clashes {f : Nat → Nat → Nat → Nat} (hexec : ∀ s, exec i s = vshift s v d a b pr f) :
    VecClashes i fun _ x => carries [tagI32, tagI16, tagI8] [a, b] x :=
  tagged_clashes hexec hform fun _ _ h => carries₂_of_pass h

theorem vredMask_clashes {t0 : BitVec 9} {f : List Bool → Dbl} (hexec : ∀ s, exec i s = vredMask s v a t0 pr f) :
    VecClashes i fun _ x => x.tagOf a.toNat = tagMask :=
  tagged_clashes hexec hform fun _ _ h => needTag_eq_none.mp (pass_of_pass_singleton h)

/-- A permute of one check, which its second register passes with one tag alone. -/
theorem vperm_clashes {t : Vec → Nat} {checks : VEnv → Vec → Nat → List (Option Dbl)} {f : VEnv → Vec → Nat → List Nat}
    (hexec : ∀ s, exec i s = vperm s v d a pr checks f) (hchecks : ∀ e x, checks e x (x.tagOf a.toNat) = [needTag e x b.toNat (t x)]) :
    VecClashes i fun _ x => x.tagOf b.toNat = t x :=
  tagged_clashes hexec hform fun e x h => needTag_eq_none.mp (pass_of_pass_singleton (hchecks e x ▸ h))

theorem vunpack_clashes {hi : Bool} (hexec : ∀ s, exec i s = vunpack s v d a pr hi) :
    VecClashes i fun _ x => ∃ u, widerOf (x.tagOf a.toNat) = some u := by
  refine fireVec_clashes hexec hform fun e x _ hbad => ?_
  have hnone : widerOf (x.tagOf a.toNat) = none := Option.eq_none_iff_forall_ne_some.mpr fun u hu => hbad ⟨u, hu⟩
  simp only [hnone]
  exact ⟨_, rfl⟩

end Forms

theorem vcmp_clashes (v d a b : BitVec 5) (c : BitVec 3) (pr : BitVec 2) :
    VecClashes (.vcmp v d a b c pr) fun _ x => carries arithTags [a, b] x :=
  tagged_clashes (fun _ => rfl) rfl fun _ _ h => carries₂_of_pass h

theorem vscanSegsum_clashes (v d a b : BitVec 5) (pr : BitVec 2) :
    VecClashes (.vscanSegsum v d a b pr) fun _ x => carries arithTags [a] x ∧ x.tagOf b.toNat = tagMask := by
  refine tagged_clashes (fun _ => rfl) rfl fun e x h => ?_
  obtain ⟨ha, hb⟩ := List.forall_mem_cons.mp h
  exact ⟨carries_of_pass ha, needTag_eq_none.mp (pass_of_pass_singleton hb)⟩

theorem vsel_clashes (v d a b : BitVec 5) (pr : BitVec 2) :
    VecClashes (.vsel v d a b pr) fun _ x => x.tagOf d.toNat = tagMask ∧ x.tagOf b.toNat = x.tagOf a.toNat := by
  refine tagged_clashes (fun _ => rfl) rfl fun e x h => ?_
  obtain ⟨hd, hb⟩ := List.forall_mem_cons.mp h
  exact ⟨needTag_eq_none.mp hd, needTag_eq_none.mp (pass_of_pass_singleton hb)⟩

theorem vcvt_clashes (v d a : BitVec 5) (t4 : BitVec 4) (m : BitVec 3) (pr : BitVec 2) :
    VecClashes (.vcvt v d a t4 m pr) fun _ x => x.tagOf a.toNat ∉ [tagNone, tagCB2, tagMask] :=
  fireVec_clashes (fun _ => rfl) rfl fun _ _ _ hbad => ⟨_, if_pos (by simpa using not_not.mp hbad)⟩

theorem vdeq_clashes (v d a : BitVec 5) (k : BitVec 3) (pr : BitVec 2) :
    VecClashes (.vdeq v d a k pr) fun _ x => x.tagOf a.toNat = tagCB2 ∧ x.vtype.toNat = tagBF16 := by
  refine tagged_clashes (fun _ => rfl) rfl fun e x h => ?_
  obtain ⟨ha, hvtype⟩ := List.forall_mem_cons.mp h
  exact ⟨needTag_eq_none.mp ha, ite_some_eq_none.mp (pass_of_pass_singleton hvtype)⟩

theorem vscl_clashes (v d a b : BitVec 5) (pr : BitVec 2) :
    VecClashes (.vscl v d a b pr) fun _ x => carries funcTags [a] x ∧ x.tagOf b.toNat = tagI16 := by
  refine tagged_clashes (fun _ => rfl) rfl fun e x h => ?_
  obtain ⟨ha, hb⟩ := List.forall_mem_cons.mp h
  exact ⟨carries_of_pass ha, needTag_eq_none.mp (pass_of_pass_singleton hb)⟩

theorem vqnt_clashes (v d a b : BitVec 5) (pr : BitVec 2) :
    VecClashes (.vqnt v d a b pr) fun _ x => x.tagOf a.toNat ∈ funcTags ∧ x.tagOf b.toNat = tagI16 ∧ x.vtype.toNat ∈ quantTags := by
  refine tagged_clashes (fun _ => rfl) rfl fun e x h => ?_
  simp only [List.forall_mem_cons, List.not_mem_nil, false_imp_iff, implies_true, and_true, needIn_eq_none, needTag_eq_none, ite_some_eq_none,
    List.contains_iff_mem] at h
  exact h

theorem vamax_clashes (v d a : BitVec 5) (pr : BitVec 2) :
    VecClashes (.vamax v d a pr) fun _ x => x.tagOf a.toNat ∈ funcTags ∧ x.vtype.toNat ∈ quantTags := by
  refine tagged_clashes (fun _ => rfl) rfl fun e x h => ?_
  simp only [List.forall_mem_cons, List.not_mem_nil, false_imp_iff, implies_true, and_true, needIn_eq_none, ite_some_eq_none,
    List.contains_iff_mem] at h
  exact h

theorem pack_clashes (v d a b : BitVec 5) (pr : BitVec 2) :
    VecClashes (.pack v d a b pr) fun _ x => ∃ u, widerOf x.vtype.toNat = some u ∧ x.tagOf a.toNat = u ∧ x.tagOf b.toNat = u := by
  refine fireVec_clashes (fun _ => rfl) rfl fun e x _ hbad => ?_
  cases hwider : widerOf x.vtype.toNat with
  | none =>
    simp only [hwider]
    exact ⟨_, rfl⟩
  | some u =>
    obtain ⟨k, hk⟩ : ∃ k, firstClash [needTag e x a.toNat u, needTag e x b.toNat u] = some k := exists_firstClash fun hpass => by
      obtain ⟨ha, hb⟩ := List.forall_mem_cons.mp hpass
      exact hbad ⟨u, hwider, needTag_eq_none.mp ha, needTag_eq_none.mp (pass_of_pass_singleton hb)⟩
    simp only [hwider, whenTags, hk]
    exact ⟨_, rfl⟩

theorem vbcast_clashes (v a : BitVec 5) (pr : BitVec 2) : VecClashes (.vbcast v a pr) fun _ x => x.vtype.toNat ≠ tagNone :=
  fireVec_clashes (fun _ => rfl) rfl fun _ _ _ hbad => ⟨_, if_pos (not_not.mp hbad)⟩

theorem vidx_clashes (v a : BitVec 5) (pr : BitVec 2) :
    VecClashes (.vidx v a pr) fun _ x => x.vtype.toNat ∉ [tagNone, tagCB2, tagMask] :=
  fireVec_clashes (fun _ => rfl) rfl fun _ _ _ hbad => ⟨_, if_pos (by simpa using not_not.mp hbad)⟩

/-! Vector loads and stores (R240) -/

/-- The checks of an access fail where its elements are not whole bytes, its indices are no I32 or its data carries neither VTYPE nor NONE. -/
theorem exists_firstClash_vecChecks {e : VEnv} {x : Vec} {index form data : Nat} {st : Bool}
    (hbad : 1 ≤ form ∧ tagBits x.vtype.toNat < 8 ∨ form = 2 ∧ x.tagOf index ≠ tagI32 ∨
      st = true ∧ x.tagOf data ≠ x.vtype.toNat ∧ x.tagOf data ≠ tagNone) :
    ∃ k, firstClash (vecChecks e x index form data st) = some k := by
  refine exists_firstClash fun hpass => ?_
  obtain ⟨hwhole, hrest⟩ := List.forall_mem_cons.mp hpass
  obtain ⟨hindex, hdata⟩ := List.forall_mem_cons.mp hrest
  have hdata := pass_of_pass_singleton hdata
  obtain hnarrow | ⟨hform, hne⟩ | ⟨hst, hvtype, hnone⟩ := hbad
  · exact Option.some_ne_none _ ((if_pos hnarrow).symm.trans hwhole)
  · exact hne (needTag_eq_none.mp ((if_pos hform).symm.trans hindex))
  · have hin := needIn_eq_none.mp ((if_pos hst).symm.trans hdata)
    simp [hvtype, hnone] at hin

section Access
variable {s : State} {b : Block} {l r : Token} {zone : Nat} {lsid v d : BitVec 5} {z o pr : BitVec 2} {form : Nat}
  (hzone : (s.hart s.dev.focus.hart).zoneFor s.dev.focus.tag z.toNat = some zone)
include hzone

/-- A memory instruction whose operands are there acts on its block alone where its effect does. -/
theorem State.fireMem_live_of_fires {f : Form} {t0 : BitVec 9} (h : Fires s f b l r) (hlive : nullOperand f.operands l r = false)
    {g : Nat → Hart → Block → Token → Token → Hart} {k : Block → Block}
    (hk : g zone (s.countedHart b) (b.markFired s.dev.focus.idx) l r = (s.countedHart b).putBlock (k (b.markFired s.dev.focus.idx))) :
    s.fireMem f z t0 g = s.firedBlock b k := by
  rw [State.fireMem_of_fires_of_eq h hzone (k := fun h1 b1 => h1.putBlock (k b1)) fun _ => hk, hlive]
  rfl

theorem vecLoad_clashes (hlive : l.null = false) (h : Fires s ⟨pr, 1, false, some lsid.toNat, some v.toNat, if form = 2 then .whole else .length⟩ b l r)
    (hbad : 1 ≤ form ∧ tagBits (b.ctxOf (s.hart s.dev.focus.hart)).vtype.toNat < 8 ∨
      form = 2 ∧ (b.ctxOf (s.hart s.dev.focus.hart)).tagOf d.toNat ≠ tagI32 ∨
      false = true ∧ (b.ctxOf (s.hart s.dev.focus.hart)).tagOf d.toNat ≠ (b.ctxOf (s.hart s.dev.focus.hart)).vtype.toNat ∧
        (b.ctxOf (s.hart s.dev.focus.hart)).tagOf d.toNat ≠ tagNone) :
    ∃ q, vecLoad s lsid v d z o pr form = .next (s.firedBlock b fun b1 => b1.fault 0x40 s.dev.focus.idx q 0) := by
  obtain ⟨q, hq⟩ := exists_firstClash_vecChecks hbad
    (e := ⟨(s.hart s.dev.focus.hart).nenv s.dev.focus.idx, (s.hart s.dev.focus.hart).cwidth.toNat, []⟩)
  refine ⟨q, congrArg _ (State.fireMem_live_of_fires hzone h ((nullOperand_one l r).trans hlive) ?_)⟩
  simp only [State.countedHart, Hart.nenv_count_putBlock, Hart.cwidth_count_putBlock, Block.ctxOf_markFired, hq]

theorem vecStore_clashes (hlive : l.null = false) (h : Fires s ⟨pr, 1, true, some lsid.toNat, some v.toNat, .whole⟩ b l r)
    (hbad : 1 ≤ form ∧ tagBits (b.ctxOf (s.hart s.dev.focus.hart)).vtype.toNat < 8 ∨
      form = 2 ∧ (b.ctxOf (s.hart s.dev.focus.hart)).tagOf ((d.toNat + 1) % 32) ≠ tagI32 ∨
      true = true ∧ (b.ctxOf (s.hart s.dev.focus.hart)).tagOf d.toNat ≠ (b.ctxOf (s.hart s.dev.focus.hart)).vtype.toNat ∧
        (b.ctxOf (s.hart s.dev.focus.hart)).tagOf d.toNat ≠ tagNone) :
    ∃ q, vecStore s lsid v d z o pr form = .next (s.firedBlock b fun b1 => b1.fault 0x40 s.dev.focus.idx q 0) := by
  obtain ⟨q, hq⟩ := exists_firstClash_vecChecks hbad
    (e := ⟨(s.hart s.dev.focus.hart).nenv s.dev.focus.idx, (s.hart s.dev.focus.hart).cwidth.toNat, []⟩)
  refine ⟨q, congrArg _ (State.fireMem_live_of_fires hzone h ((nullOperand_one l r).trans hlive) ?_)⟩
  simp only [State.countedHart, Hart.nenv_count_putBlock, Hart.cwidth_count_putBlock, Block.ctxOf_markFired, hq]

end Access

/-- Settles O28: each form's checks pass only where the statement's condition on the tags holds. -/
theorem vectorTagMismatchFaults : Obligations.VectorTagMismatchFaults := by
  unfold Obligations.VectorTagMismatchFaults
  intro lsid v d a b t0 t4 c m k z o pr
  refine ⟨?vadd, ?vsub, ?vrsub, ?vmul, ?vdiv, ?vmin, ?vmax, ?vabsd, vcmp_clashes v d a b c pr, ?rsum, ?rmax, ?rmin, ?rsumw, ?scanSum, ?scanMax, ?scanMin,
    ?exp2, ?log2, ?rcp, ?rsq, ?sqrt, ?tanh, ?sigm, ?erf, ?vfma, ?vfms, ?vfnma, ?vfnms, ?vdoti8, ?vdoti4, ?vand, ?vor, ?vxor, ?vandn, ?vnot,
    ?vshl, ?vshr, ?vshra, ?rcount, ?rfirst, vscanSegsum_clashes v d a b pr, vsel_clashes v d a b pr, ?vcmpct, ?vpermx, ?vzip, ?vunzip,
    vcvt_clashes v d a t4 m pr, vdeq_clashes v d a k pr, vscl_clashes v d a b pr, vqnt_clashes v d a b pr, vamax_clashes v d a pr,
    pack_clashes v d a b pr, ?unpklo, ?unpkhi, vbcast_clashes v a pr, vidx_clashes v a pr, ?ldv, ?ldvStr, ?ldvIdx, ?stv, ?stvStr, ?stvIdx⟩
  case vadd => exact varith_clashes rfl fun s => (rfl : execVadd v d a b pr s = _)
  case vsub => exact varith_clashes rfl fun s => (rfl : execVsub v d a b pr s = _)
  case vrsub => exact varith_clashes rfl fun s => (rfl : execVrsub v d a b pr s = _)
  case vmul => exact varith_clashes rfl fun s => (rfl : execVmul v d a b pr s = _)
  case vdiv => exact varith_clashes rfl fun s => (rfl : execVdiv v d a b pr s = _)
  case vmin => exact varith_clashes rfl fun s => (rfl : execVmin v d a b pr s = _)
  case vmax => exact varith_clashes rfl fun s => (rfl : execVmax v d a b pr s = _)
  case vabsd => exact varith_clashes rfl fun s => (rfl : execVabsd v d a b pr s = _)
  case rsum => exact vred_clashes rfl fun s => (rfl : execRsum v t0 a pr s = _)
  case rmax => exact vred_clashes rfl fun s => (rfl : execRmax v t0 a pr s = _)
  case rmin => exact vred_clashes rfl fun s => (rfl : execRmin v t0 a pr s = _)
  case rsumw => exact vred_clashes rfl fun s => (rfl : execRsumw v t0 a pr s = _)
  case scanSum => exact vscan_clashes rfl fun s => (rfl : execVscanSum v d a pr s = _)
  case scanMax => exact vscan_clashes rfl fun s => (rfl : execVscanMax v d a pr s = _)
  case scanMin => exact vscan_clashes rfl fun s => (rfl : execVscanMin v d a pr s = _)
  case exp2 | log2 | rcp | rsq | sqrt | tanh | sigm | erf => exact vfunc_clashes rfl fun _ => rfl
  case vfma | vfms | vfnma | vfnms => exact vfused_clashes rfl fun _ => rfl
  case vdoti8 | vdoti4 => exact vdot_clashes rfl fun _ => rfl
  case vand => exact vlogic_clashes rfl fun s => (rfl : execVand v d a b pr s = _)
  case vor => exact vlogic_clashes rfl fun s => (rfl : execVor v d a b pr s = _)
  case vxor => exact vlogic_clashes rfl fun s => (rfl : execVxor v d a b pr s = _)
  case vandn => exact vlogic_clashes rfl fun s => (rfl : execVandn v d a b pr s = _)
  case vnot => exact vlogic_clashes (b := a) rfl fun s => (rfl : execVnot v d a pr s = _)
  case vshl => exact vshift_clashes rfl fun s => (rfl : execVshl v d a b pr s = _)
  case vshr => exact vshift_clashes rfl fun s => (rfl : execVshr v d a b pr s = _)
  case vshra => exact vshift_clashes rfl fun s => (rfl : execVshra v d a b pr s = _)
  case rcount => exact vredMask_clashes rfl fun s => (rfl : execRcount v t0 a pr s = _)
  case rfirst => exact vredMask_clashes rfl fun s => (rfl : execRfirst v t0 a pr s = _)
  case vcmpct => exact vperm_clashes rfl (fun s => (rfl : execVcmpct v d a b pr s = _)) fun _ _ => rfl
  case vpermx => exact vperm_clashes rfl (fun s => (rfl : execVpermx v d a b pr s = _)) fun _ _ => rfl
  case vzip => exact vperm_clashes rfl (fun s => (rfl : execVzip v d a b pr s = _)) fun _ _ => rfl
  case vunzip => exact vperm_clashes rfl (fun s => (rfl : execVunzip v d a b pr s = _)) fun _ _ => rfl
  case unpklo | unpkhi => exact vunpack_clashes rfl fun _ => rfl
  case ldv => exact fun s b l r zone h hlive hzone hbad => vecLoad_clashes (form := 0) hzone hlive h hbad
  case ldvStr => exact fun s b l r zone h hlive hzone hbad => vecLoad_clashes (form := 1) hzone hlive h hbad
  case ldvIdx => exact fun s b l r zone h hlive hzone hbad => vecLoad_clashes (form := 2) hzone hlive h hbad
  case stv => exact fun s b l r zone h hlive hzone hbad => vecStore_clashes (form := 0) hzone hlive h hbad
  case stvStr => exact fun s b l r zone h hlive hzone hbad => vecStore_clashes (form := 1) hzone hlive h hbad
  case stvIdx => exact fun s b l r zone h hlive hzone hbad => vecStore_clashes (form := 2) hzone hlive h hbad

end Sys2Proof.Machine

/-! Accesses that meet a fault at fire (R233 to R235, R240, R242, R374). An access asks its pieces on the core as it stood before its firing was counted;
where one of them fails it leaves the fault record in place of its request or of its stores. -/
namespace Sys2Proof.Machine

/-! What the record names -/

/-- The fault record of an access of instruction `idx` that names the piece `q` (R374). -/
def pieceFault (idx lsid cause zone kind : Nat) (q : Probe) : FaultRec :=
  { cause := cause, word := 32 + idx, lsid := some lsid, zone := zone, va := q.va, late := false, d0 := 0,
    d1 := BitVec.ofNat 64 (kind + 256 * Nat.log2 q.size), seq := none }

theorem accessFault_eq_pieceFault {idx lsid cause zone kind : Nat} {q : Probe} (hq : q.zone = zone) :
    accessFault idx (some lsid) cause q.zone kind q.size 0 q.va false = pieceFault idx lsid cause zone kind q := by
  subst hq
  have hdetail : accessDetail kind q.size 0 = BitVec.ofNat 64 (kind + 256 * Nat.log2 q.size) :=
    congrArg _ (if_neg (by decide))
  unfold accessFault pieceFault
  rw [hdetail, BitVec.ofNat_eq_ofNat]

/-- The piece that a fault names is among those asked. -/
theorem mem_of_fireCauses {d : Dev} {hn : Nat} {h : Hart} {ps : List Probe} {cause : Nat} {p : Probe}
    (hfault : fireCauses d hn h ps = some (cause, p)) : p ∈ ps := by
  have hmem : ∀ a : Nat × Probe, fireCauses d hn h ps = some a → a.2 ∈ ps := by
    unfold fireCauses
    refine List.foldlRecOn (motive := fun acc => ∀ a : Nat × Probe, acc = some a → a.2 ∈ ps) ps _ (fun _ => nofun) fun acc hacc q hq a ha => ?_
    split at ha
    · exact Option.some.inj ha ▸ hq
    · split at ha
      · exact Option.some.inj ha ▸ hq
      · exact hacc _ ha
    · exact hacc _ ha
  exact hmem _ hfault

theorem eq_of_fireCauses_singleton {d : Dev} {hn : Nat} {h : Hart} {q p : Probe} {cause : Nat} (hfault : fireCauses d hn h [q] = some (cause, p)) :
    p = q := List.mem_singleton.mp (mem_of_fireCauses hfault)

/-- Every piece of a vector access lies in the zone of the access. -/
theorem zone_of_mem_vecProbes {x : Vec} {cw index form zone : Nat} {base stride : Dbl} {wr : Bool} {p : Probe}
    (h : p ∈ vecProbes x cw index form zone base stride wr) : p.zone = zone := by
  obtain ⟨_, _, rfl⟩ := List.mem_map.mp h
  rfl

/-! What the access leaves -/

section Faulting
variable {s : State} {b : Block} {ps : List Probe} {cause zone : Nat} {p : Probe}
  (hfault : fireCauses s.dev s.dev.focus.hart (s.hart s.dev.focus.hart) ps = some (cause, p)) (hp : p.zone = zone)
include hfault hp

theorem issue_of_fault (b1 : Block) (kind : Nat) (q : Req) :
    issue s.dev s.dev.focus.hart (s.countedHart b) b1 kind ps q =
      (s.countedHart b).putBlock (b1.addFault (pieceFault q.idx q.lsid cause zone kind p)) := by
  have hcounted := (fireCauses_count_putBlock s.dev s.dev.focus.hart _ 5 1 (b.markFired s.dev.focus.idx) ps).trans hfault
  unfold issue State.countedHart
  simp only [hcounted, accessFault_eq_pieceFault hp]

theorem holdStores_of_fault (b1 : Block) (idx lsid : Nat) (ts : List St) :
    holdStores s s.dev.focus.hart (s.countedHart b) b1 idx lsid ps ts =
      (s.countedHart b).putBlock (b1.addFault (pieceFault idx lsid cause zone 1 p)) := by
  have hcounted := (fireCauses_count_putBlock s.dev s.dev.focus.hart _ 5 1 (b.markFired s.dev.focus.idx) ps).trans hfault
  unfold holdStores State.countedHart
  simp only [hcounted, accessFault_eq_pieceFault hp]

end Faulting

/-! The forms -/

theorem nullOperand_two_of_live {l r : Token} (hl : l.null = false) (hr : r.null = false) : nullOperand 2 l r = false := by
  simp [nullOperand, hl, hr]

section Forms
variable {s : State} {b : Block} {l r : Token} {zone cause : Nat} {p : Probe} {lsid v d : BitVec 5} {t0 : BitVec 9} {z o w pr : BitVec 2} {sc : BitVec 3}
  (hzone : (s.hart s.dev.focus.hart).zoneFor s.dev.focus.tag z.toNat = some zone) (hl : l.null = false)
include hzone hl

theorem scalarLoad_faults {off : BitVec 5} {size : Nat} {signed : Bool} (h : Fires s ⟨pr, 1, false, some lsid.toNat, none, .whole⟩ b l tokNull) :
    let q : Probe := ⟨zone, l.lo + offL off size, size, inLine (l.lo + offL off size) size, true, false, true⟩
    fireCauses s.dev s.dev.focus.hart (s.hart s.dev.focus.hart) [q] = some (cause, p) →
    scalarLoad s lsid t0 z o off pr size signed = .next (s.firedBlock b fun b1 => b1.addFault (pieceFault s.dev.focus.idx lsid.toNat cause zone 0 q)) := by
  intro q hfault
  obtain rfl := eq_of_fireCauses_singleton hfault
  exact congrArg _ (State.fireMem_live_of_fires hzone h ((nullOperand_one ..).trans hl) (issue_of_fault hfault rfl _ _ _))

theorem acq_faults (h : Fires s ⟨pr, 1, false, some lsid.toNat, none, .whole⟩ b l tokNull) :
    let q : Probe := ⟨zone, l.lo, 64, aligned l.lo 64, true, false, true⟩
    fireCauses s.dev s.dev.focus.hart (s.hart s.dev.focus.hart) [q] = some (cause, p) →
    exec (.acq lsid t0 z o sc pr) s = .next (s.firedBlock b fun b1 => b1.addFault (pieceFault s.dev.focus.idx lsid.toNat cause zone 0 q)) := by
  intro q hfault
  obtain rfl := eq_of_fireCauses_singleton hfault
  exact congrArg _ (State.fireMem_live_of_fires hzone h ((nullOperand_one ..).trans hl) (issue_of_fault hfault rfl _ _ _))

theorem vecLoad_faults {form : Nat} (h : Fires s ⟨pr, 1, false, some lsid.toNat, some v.toNat, if form = 2 then .whole else .length⟩ b l tokNull) :
    let e : VEnv := ⟨(s.hart s.dev.focus.hart).nenv s.dev.focus.idx, (s.hart s.dev.focus.hart).cwidth.toNat, []⟩
    let x := b.ctxOf (s.hart s.dev.focus.hart)
    firstClash (vecChecks e x d.toNat form d.toNat false) = none →
    fireCauses s.dev s.dev.focus.hart (s.hart s.dev.focus.hart) (vecProbes x e.cw d.toNat form zone l.lo l.hi false) = some (cause, p) →
    vecLoad s lsid v d z o pr form = .next (s.firedBlock b fun b1 => b1.addFault (pieceFault s.dev.focus.idx lsid.toNat cause zone 0 p)) := by
  intro e x hpass hfault
  refine congrArg _ (State.fireMem_live_of_fires hzone h ((nullOperand_one ..).trans hl)
    (Eq.trans ?_ (issue_of_fault hfault (zone_of_mem_vecProbes (mem_of_fireCauses hfault)) _ 0
      ⟨s.dev.focus.idx, lsid.toNat, 2 ^ o.toNat - 1, zone, l.lo, noTarget, .vload d.toNat form v.toNat l.hi []⟩)))
  simp only [State.countedHart, Hart.nenv_count_putBlock, Hart.cwidth_count_putBlock, Block.ctxOf_markFired, e, x, hpass]

theorem vecStore_faults {form : Nat} (h : Fires s ⟨pr, 1, true, some lsid.toNat, some v.toNat, .whole⟩ b l tokNull) :
    let e : VEnv := ⟨(s.hart s.dev.focus.hart).nenv s.dev.focus.idx, (s.hart s.dev.focus.hart).cwidth.toNat, []⟩
    let x := b.ctxOf (s.hart s.dev.focus.hart)
    let index := (d.toNat + 1) % 32
    firstClash (vecChecks e x index form d.toNat true) = none →
    fireCauses s.dev s.dev.focus.hart (s.hart s.dev.focus.hart) (vecProbes x e.cw index form zone l.lo l.hi true) = some (cause, p) →
    vecStore s lsid v d z o pr form = .next (s.firedBlock b fun b1 =>
      (b1.resolveV s.dev.focus.idx (some v.toNat)).addFault (pieceFault s.dev.focus.idx lsid.toNat cause zone 1 p)) := by
  intro e x index hpass hfault
  refine congrArg _ (State.fireMem_live_of_fires hzone h ((nullOperand_one ..).trans hl)
    (Eq.trans ?_ (holdStores_of_fault hfault (zone_of_mem_vecProbes (mem_of_fireCauses hfault))
      ((b.markFired s.dev.focus.idx).resolveV s.dev.focus.idx (some v.toNat)) s.dev.focus.idx lsid.toNat
      (((vecStores x e.cw index d.toNat form l.lo l.hi).flatMap fun q => cutLine q.1 q.2).map fun q =>
        ⟨s.dev.focus.idx, lsid.toNat, 2 ^ o.toNat - 1, zone, q.1, q.2, false⟩))))
  simp only [State.countedHart, Hart.nenv_count_putBlock, Hart.cwidth_count_putBlock, Block.ctxOf_markFired, e, x, index, hpass]

section TwoOperands
variable (hr : r.null = false) (h : Fires s ⟨pr, 2, false, some lsid.toNat, none, .whole⟩ b l r)
include hr h

theorem scalarStore_faults {off : Dbl} {data : Token → List (Byte × Byte)} {n : Nat} (hn : (data r).length = n) :
    fireCauses s.dev s.dev.focus.hart (s.hart s.dev.focus.hart) [storeProbe zone (l.lo + off) n] = some (cause, p) →
    scalarStore s lsid z o pr off data = .next (s.firedBlock b fun b1 =>
      b1.addFault (pieceFault s.dev.focus.idx lsid.toNat cause zone 1 (storeProbe zone (l.lo + off) n))) := by
  subst hn
  intro hfault
  obtain rfl := eq_of_fireCauses_singleton hfault
  exact congrArg _ (State.fireMem_live_of_fires hzone h (nullOperand_two_of_live hl hr) (holdStores_of_fault hfault rfl _ _ _ _))

theorem rel_faults {off : BitVec 14} :
    fireCauses s.dev s.dev.focus.hart (s.hart s.dev.focus.hart) [relProbe zone (l.lo + off.signExtend 64)] = some (cause, p) →
    exec (.rel lsid z o off pr) s = .next (s.firedBlock b fun b1 =>
      b1.addFault (pieceFault s.dev.focus.idx lsid.toNat cause zone 1 (relProbe zone (l.lo + off.signExtend 64)))) := by
  intro hfault
  obtain rfl := eq_of_fireCauses_singleton hfault
  exact congrArg _ (State.fireMem_live_of_fires hzone h (nullOperand_two_of_live hl hr) (holdStores_of_fault hfault rfl _ _ _ _))

theorem atomic_faults {op : Nat} {wr : Bool} (hwr : (op != 9 || zoneOf zone == .host) = wr) :
    let q : Probe := ⟨zone, l.lo, atomicSize w, aligned l.lo (atomicSize w), true, wr, true⟩
    fireCauses s.dev s.dev.focus.hart (s.hart s.dev.focus.hart) [q] = some (cause, p) →
    atomic s lsid t0 z o sc w pr op = .next (s.firedBlock b fun b1 => b1.addFault (pieceFault s.dev.focus.idx lsid.toNat cause zone 2 q)) := by
  subst hwr
  intro q hfault
  obtain rfl := eq_of_fireCauses_singleton hfault
  exact congrArg _ (State.fireMem_live_of_fires hzone h (nullOperand_two_of_live hl hr) (issue_of_fault hfault rfl _ _ _))

end TwoOperands

end Forms

theorem nibbleData_length (hi : Bool) (k : Token) : (nibbleData hi k).length = 1 := by
  unfold nibbleData
  cases hi <;> rfl

theorem natLe_length (n x : Nat) : (natLe n x).length = n := by
  induction n generalizing x with
  | zero => rfl
  | succ n ih => exact congrArg Nat.succ (ih _)

theorem tokBytes_length (n : Nat) (k : Token) : (tokBytes n k).length = n := by
  simp [tokBytes, full, natLe_length]

/-- Settles O19: one lemma for each form, which names the piece it asks; the bytes of an STN4 and of a scalar store give their number. -/
theorem accessFaultsAreRecordedAtFire : Obligations.AccessFaultsAreRecordedAtFire := by
  unfold Obligations.AccessFaultsAreRecordedAtFire
  intro lsid off v d t0 z o w pr sc disp off13 hi s b l r zone cause p c recd hzone hl
  simp only [← aligned_eq_decide]
  refine ⟨?ldb, ?ldh, ?ldw, ?ldbs, ?ldhs, ?ldws, ?ldd, ?ldq, ?ldv, ?ldvStr, ?ldvIdx, ?stv, ?stvStr, ?stvIdx, ?stn4, ?rel, ?acq,
    ?stb, ?sth, ?stw, ?std, ?stq, ?aadd, ?aand, ?aor, ?axor, ?amin, ?amax, ?aminn, ?amaxn, ?aswp, ?afadd, ?acas⟩
  case ldb | ldh | ldw | ldbs | ldhs | ldws | ldd | ldq => exact fun h hfault => scalarLoad_faults hzone hl h hfault
  case ldv | ldvStr | ldvIdx => exact fun h hpass hfault => vecLoad_faults hzone hl h hpass hfault
  case stv | stvStr | stvIdx => exact fun h hpass hfault => vecStore_faults hzone hl h hpass hfault
  case stn4 => exact fun h hfault => scalarStore_faults hzone hl h.1 h.2 (nibbleData_length _ r) hfault
  case rel => exact fun h hfault => rel_faults hzone hl h.1 h.2 hfault
  case acq => exact fun h hfault => acq_faults hzone hl h hfault
  case stb | sth | stw | std | stq => exact fun h hfault => scalarStore_faults hzone hl h.1 h.2 (tokBytes_length _ r) hfault
  case acas => exact fun h hfault => atomic_faults hzone hl h.1 h.2 (Bool.false_or _) hfault
  all_goals exact fun h hfault => atomic_faults hzone hl h.1 h.2 rfl hfault

end Sys2Proof.Machine

/-! Replies of the memory system: loads, RET refills, CBLD and LDV (R209, R213, R214, R235, R237, R240, R281, R341). -/
namespace Sys2Proof.Machine

/-! A read with nothing read early that its bytes could contradict (R214) -/

theorem Block.asSeen_of_unseen {b : Block} (h : b.seen = []) (lsid : Nat) (ps : List Part) (bs : List Byte) :
    b.asSeen lsid ps bs = bs.take (ps.map fun p => p.2.2).sum := by
  induction ps generalizing bs with
  | nil => rfl
  | cons p ps ih =>
    obtain ⟨zone, va, n⟩ := p
    have hown : (List.zip (upTo n) (bs.take n)).map Prod.snd = bs.take n := List.map_snd_zip (by simp [upTo])
    unfold Block.asSeen
    simp only [h, List.find?_nil, hown, ite_self, ih, List.map_cons, List.sum_cons, List.take_add]

theorem Hart.staleBlock_of_unseen {h : Hart} {b : Block} (hb : b.seen = []) (hblocks : ∀ y ∈ h.blocks, y.seen = []) (lsid : Nat) (ps : List Part)
    (bs : List Byte) : h.staleBlock b lsid ps bs = none := by
  have hnone : (h.youngerBlocks b.tag).find? (fun y => y.seen.any fun x => stalePart x ps bs) = none := by
    refine List.find?_eq_none.mpr fun y hy => ?_
    have hmem : y ∈ h.blocks := (List.dropWhile_sublist _).mem (List.mem_of_mem_drop hy)
    simp [hblocks y hmem]
  unfold Hart.staleBlock
  simp only [hb, List.any_nil, Bool.and_false, Bool.false_eq_true, if_false, hnone]

theorem seen_renamed_eq_nil {f : Nat → Dbl → Nat × Dbl} {b : Block} (h : b.seen = []) : (b.renamed f).seen = [] := by
  unfold Block.renamed
  simp only [h, List.map_nil]

theorem State.map_size_parts (s : State) (hn zone : Nat) (ps : List (Nat × Nat)) :
    (s.parts hn zone ps).map (fun p => p.2.2) = ps.map Prod.snd := by
  unfold State.parts
  rw [List.map_map]
  rfl

/-! The outcomes of a read -/

section Perform
variable {s t : State} {hn tag : Nat} {b : Block} {r : Req} {ps : List (Nat × Nat)} {kind size : Nat} {g : Hart → Block → List Byte → Hart} {note : Notice}

theorem State.performLoad_of_ordNotice (h : (s.hart hn).ordNotice b r = some note) :
    s.performLoad hn tag b r ps kind size g = s.lateFault hn tag r (deferredFault note 0) := by
  unfold State.performLoad
  simp only [h]

section Turn
variable (hord : (s.hart hn).ordNotice b r = none) (hturn : s.loadTurn hn b r ps = true)
include hord hturn

theorem State.performLoad_of_notice (h : ps.findSome? (fun p => (s.hart hn).noticeFor r.zone (p.1 / 4096)) = some note) :
    s.performLoad hn tag b r ps kind size g = s.lateFault hn tag r (deferredFault note 0) := by
  unfold State.performLoad
  simp only [hord, hturn, h, Bool.not_true, Bool.false_eq_true, if_false]

variable (hnotice : ps.findSome? (fun p => (s.hart hn).noticeFor r.zone (p.1 / 4096)) = none)
include hnotice

theorem State.performLoad_of_fault {c pa : Nat} (h : s.readPieces hn r.zone ps = (t, .fault c pa)) :
    s.performLoad hn tag b r ps kind size g =
      t.lateFault hn tag r (accessFault r.idx r.packetLsid (r.cause c) r.zone kind size pa r.va true) := by
  unfold State.performLoad
  simp only [hord, hturn, hnotice, h, Bool.not_true, Bool.false_eq_true, if_false]

/-- With nothing read early, no block is discarded, and the request sees the home's bytes under the core's own older stores. -/
theorem State.performLoad_of_bytes {bs : List Byte} (h : s.readPieces hn r.zone ps = (t, .bytes bs)) (hb : b.seen = [])
    (hblocks : ∀ y ∈ (t.hart hn).blocks, y.seen = []) :
    let read := bs.take (ps.map Prod.snd).sum
    let value := ((t.hart hn).renamed (t.namesOf hn)).ownParts tag r.lsid (t.parts hn r.zone ps) read
    let b1 := { b.dropReq r.idx with seen := t.seenPieces hn r.lsid r.zone ps read }
    let h1 := g ((t.hart hn).putBlock b1) b1 value
    s.performLoad hn tag b r ps kind size g = t.settleVia hn (some (tag, r.idx)) h1 h1 := by
  have hrenamed : ∀ y ∈ ((t.hart hn).renamed (t.namesOf hn)).blocks, y.seen = [] := by
    intro y hy
    obtain ⟨z, hz, rfl⟩ := List.mem_map.mp hy
    exact seen_renamed_eq_nil (hblocks z hz)
  have hread := Block.asSeen_of_unseen (seen_renamed_eq_nil (f := t.namesOf hn) hb) r.lsid (t.parts hn r.zone ps) bs
  rw [State.map_size_parts] at hread
  unfold State.performLoad
  simp only [hord, hturn, hnotice, h, Bool.not_true, Bool.false_eq_true, if_false, hread, hb, List.nil_append,
    Hart.staleBlock_of_unseen (seen_renamed_eq_nil hb) hrenamed]

end Turn

end Perform

/-! The requests that read -/

theorem lo_tokOf (a : Dbl) : (tokOf a).lo = a := BitVec.setWidth_setWidth_of_le a (by decide)

section Kinds
variable {s : State} {hart tag idx : Nat} {b : Block} {r : Req} (hpend : s.pendingReq hart tag idx = some (b, r))
include hpend

theorem exec_loadReply_of_load {n : Nat} {signed : Bool} (hkind : r.kind = .load n signed) :
    exec (.loadReply hart tag idx) s = .next (s.replied hart r (s.performLoad hart tag b r [(r.va.toNat, n)] 0 n fun h b bs =>
      h.putBlock ((b.resolveL idx (some r.lsid)).arrive h.thalt idx r.t0 (loadToken n signed bs)))) := by
  show execLoadReply hart tag idx s = _
  unfold execLoadReply
  simp only [hpend, hkind]

theorem exec_loadReply_of_refill (hkind : r.kind = .refill) :
    exec (.loadReply hart tag idx) s = .next (s.replied hart r (s.performLoad hart tag b r [(r.va.toNat, 8)] 8 8 fun h b bs =>
      let a : Dbl := BitVec.ofNat 64 (leNat bs)
      h.putBlock (if a.toNat % 128 = 0 then b.setBranch idx (.ret a true) else b.fault 0x05 idx a 0))) := by
  have hgood (a : Dbl) : goodTarget (tokOf a) = decide (a.toNat % 128 = 0) := by
    rw [goodTarget_eq, lo_tokOf]
    exact (Bool.true_and _).trans (beq_eq_decide _ _)
  show execLoadReply hart tag idx s = _
  unfold execLoadReply
  simp only [hpend, hkind, hgood, decide_eq_true_eq]

theorem exec_loadReply_of_cbld (hkind : r.kind = .cbld) (hold : (s.hart hart).isOldest tag = true) :
    exec (.loadReply hart tag idx) s = .next (s.replied hart r (s.performLoad hart tag b r (piecesOf r.va.toNat 1024) 0 64 fun h b bs =>
      h.putBlock (b.addEff idx (.cbld bs)))) := by
  show execLoadReply hart tag idx s = _
  unfold execLoadReply
  simp only [hpend, hkind, hold, if_true]

theorem exec_loadReply_of_vload {d form v : Nat} {stride : Dbl} {got : List Byte} (hkind : r.kind = .vload d form v stride got) :
    let h := s.hart hart
    let x := b.ctxOf h
    let rest := partsAfter got.length (vecPieces x h.cwidth.toNat d form r.va stride)
    let ps := rest.take (s.vecTake rest.length)
    exec (.loadReply hart tag idx) s = .next (s.replied hart r (s.freshened.performLoad hart tag b r ps 0 (tagBits x.vtype.toNat / 8) fun h2 b bs =>
      h2.putBlock (if ps.length = rest.length then b.loaded h.cwidth.toNat r d form v (got ++ bs)
        else b.addReq { r with kind := .vload d form v stride (got ++ bs) }))) := by
  show execLoadReply hart tag idx s = _
  unfold execLoadReply
  simp only [hpend, hkind, Hart.restOf]
  rfl

theorem exec_loadReply_of_vdone {d form v : Nat} {bs : List Byte} (hkind : r.kind = .vdone d form v bs) (hturn : b.vsidTurn v = true) :
    exec (.loadReply hart tag idx) s = .next (s.replied hart r (s.settle hart (some (tag, idx))
      ((s.hart hart).putBlock (((b.dropReq idx).leave (.load d form (s.hart hart).cwidth.toNat bs)).resolveV idx (some v))))) := by
  show execLoadReply hart tag idx s = _
  unfold execLoadReply
  simp only [hpend, hkind, hturn, if_true]
  rfl

end Kinds

/-- What a read that `exec` makes from `s0`, the state itself or with its next free value drawn, answers: a fault, of a deferred store or of the access,
or what `K` says of the bytes. -/
theorem exec_loadReply_fails_or_reads {s s0 t : State} {hart tag idx : Nat} {b : Block} {r : Req} {ps : List (Nat × Nat)}
    {kind size : Nat} {g : Hart → Block → List Byte → Hart}
    (hexec : exec (.loadReply hart tag idx) s = .next (s.replied hart r (s0.performLoad hart tag b r ps kind size g)))
    (bs : List Byte) (c pa : Nat) (note : Notice) {K : Prop}
    (hK : let read := bs.take (ps.map Prod.snd).sum
      let value := ((t.hart hart).renamed (t.namesOf hart)).ownParts tag r.lsid (t.parts hart r.zone ps) read
      let b1 := { b.dropReq r.idx with seen := t.seenPieces hart r.lsid r.zone ps read }
      let h1 := g ((t.hart hart).putBlock b1) b1 value
      exec (.loadReply hart tag idx) s = .next (s.replied hart r (t.settleVia hart (some (tag, r.idx)) h1 h1)) → K) :
    let h := s0.hart hart
    let fails (u : State) (f : FaultRec) : Prop := exec (.loadReply hart tag idx) s = .next (s.replied hart r (u.lateFault hart tag r f))
    (h.ordNotice b r = some note → fails s0 (deferredFault note 0)) ∧
    (h.ordNotice b r = none → s0.loadTurn hart b r ps = true →
      (ps.findSome? (fun p => h.noticeFor r.zone (p.1 / 4096)) = some note → fails s0 (deferredFault note 0)) ∧
      (ps.findSome? (fun p => h.noticeFor r.zone (p.1 / 4096)) = none →
        (s0.readPieces hart r.zone ps = (t, .fault c pa) →
          fails t (accessFault r.idx r.packetLsid (r.cause c) r.zone kind size pa r.va true)) ∧
        (s0.readPieces hart r.zone ps = (t, .bytes bs) → b.seen = [] → (∀ y ∈ (t.hart hart).blocks, y.seen = []) → K))) := by
  intro h fails
  have hans {u : State} (hu : s0.performLoad hart tag b r ps kind size g = u) :
      exec (.loadReply hart tag idx) s = .next (s.replied hart r u) := hu ▸ hexec
  refine ⟨fun hord => hans (State.performLoad_of_ordNotice hord), fun hord hturn =>
    ⟨fun hnotice => hans (State.performLoad_of_notice hord hturn hnotice), fun hnotice =>
      ⟨fun hread => hans (State.performLoad_of_fault hord hturn hnotice hread), fun hread hb hblocks =>
        hK (hans (State.performLoad_of_bytes hord hturn hnotice hread hb hblocks))⟩⟩⟩
theorem Block.arrive_eq (b : Block) (halted : Bool) (idx : Nat) (target : BitVec 9) (k : Token) :
    b.arrive halted idx target k =
      if halted = false then b.deliver target k else if target = noTarget then b else { b with links := b.links ++ [(idx, target, k)] } := by
  unfold Block.arrive
  cases halted <;> rfl

theorem State.vecTake_eq_or (s : State) (n : Nat) : s.vecTake n = n ∨ s.vecTake n = 1 := by
  unfold State.vecTake
  split
  · exact .inl rfl
  · exact .inr rfl

end Sys2Proof.Machine

/-! Waits of the oldest block, ACQ, the end of a DOMWAIT, and atomics (R162, R163, R169, R219, R242 to R245, R296, R362). -/
namespace Sys2Proof.Machine

/-! WAITC and MWAIT (R169, R362) -/

section Waits
variable {s : State} {hart tag idx : Nat} {b : Block} {r : Req} (hpend : s.pendingReq hart tag idx = some (b, r))

/-- How a WAITC that has what it waits for ends, by its acquire work (R362). -/
theorem State.sendWaitc_cases (s : State) (hart tag : Nat) (b : Block) (r : Req) (v : Dbl) (note : Notice) :
    let h := s.hart hart
    (h.acquireDone = true → s.sendWaitc hart tag b r (tokOf v) =
      s.settle hart (some (tag, r.idx)) ((h.putBlock ((b.dropReq r.idx).deliver r.t0 (tokOf v))).acquireWork tag)) ∧
    (h.acquireDone = false → h.wbackNotice = none → s.sendWaitc hart tag b r (tokOf v) = s.setHart hart h.invalidateLines) ∧
    (h.acquireDone = false → h.wbackNotice = some note →
      s.sendWaitc hart tag b r (tokOf v) = s.lateFault hart tag r (deferredFault note 0)) := by
  refine ⟨fun hdone => ?_, fun hdone hnote => ?_, fun hdone hnote => ?_⟩ <;> unfold State.sendWaitc
  · simp only [hdone, if_true]
    rfl
  · simp only [hdone, hnote, Bool.false_eq_true, if_false]
  · simp only [hdone, hnote, Bool.false_eq_true, if_false]

section Kinds
include hpend

theorem exec_loadReply_of_mwait {mask : Nat} (hold : (s.hart hart).isOldest tag = true) (hkind : r.kind = .mwait mask) (hissued : tensorsIssued b = true)
    (hfree : (s.hart hart).busy.toNat &&& mask = 0) :
    exec (.loadReply hart tag idx) s = .next (s.replied hart r (s.settle hart (some (tag, idx))
      ((s.hart hart).putBlock ((b.dropReq r.idx).deliver r.t0 (tokOf (mstatWord (s.hart hart))))))) := by
  show execLoadReply hart tag idx s = _
  unfold execLoadReply
  simp only [hpend, hkind, hold, hissued, hfree, BEq.rfl, Bool.and_self, if_true]
  rfl

theorem exec_loadReply_of_waitc {k arg : Nat} {w : Option Nat} (hkind : r.kind = .waitc k arg w) :
    exec (.loadReply hart tag idx) s = .next (s.replied hart r (s.performWaitc hart tag b r k arg w)) := by
  show execLoadReply hart tag idx s = _
  unfold execLoadReply
  simp only [hpend, hkind]

theorem exec_loadReply_of_acq {sc : Nat} {w : Option Nat} (hkind : r.kind = .acq sc w) :
    exec (.loadReply hart tag idx) s = .next (s.replied hart r (s.performAcq hart tag b r sc w)) := by
  show execLoadReply hart tag idx s = _
  unfold execLoadReply
  simp only [hpend, hkind]

end Kinds

section Performed
variable {s1 : State} {arg : Nat} {w : Option Nat} {note : Notice} (hold : (s.hart hart).isOldest tag = true)
include hold

theorem performWaitc_posted (hnotice : (s.hart hart).noticeIn arg = none) (hzero : (s.hart hart).countsZero arg = true) :
    s.performWaitc hart tag b r 0 arg w = s.sendWaitc hart tag b r (tokOf 0) := by
  unfold State.performWaitc
  simp only [hold, hnotice, hzero, Bool.not_true, Bool.false_eq_true, if_false, if_true]

theorem performWaitc_posted_of_notice (hnotice : (s.hart hart).noticeIn arg = some note) :
    s.performWaitc hart tag b r 0 arg w = s.lateFault hart tag r (deferredFault note 0) := by
  unfold State.performWaitc
  simp only [hold, hnotice, Bool.not_true, Bool.false_eq_true, if_false]

theorem performWaitc_age (hidle : (s.age (placeOfHart hart) arg).state ≠ 1) :
    s.performWaitc hart tag b r 1 arg w = s.sendWaitc hart tag b r (tokOf (BitVec.ofNat 64 (s.age (placeOfHart hart) arg).state)) := by
  unfold State.performWaitc
  simp only [hold, hidle, Bool.not_true, Bool.false_eq_true, if_false]

theorem performWaitc_join_of_engine (hengine : isEngine hart = true) :
    s.performWaitc hart tag b r 2 arg w = s.sendWaitc hart tag b r (tokOf 0) := by
  unfold State.performWaitc
  simp only [hold, hengine, Bool.not_true, Bool.false_eq_true, if_false, if_true]

section Join
variable (hcore : isEngine hart = false) (hloads : (s.hart hart).loadsHeld = false) (hspawns : (s.hart hart).spawnsPending = false)
include hcore hloads hspawns

theorem performWaitc_join_of_notice (hnotice : (s.hart hart).noticeFor 0 (((s.hart hart).seg + 56).toNat / 4096) = some note) :
    s.performWaitc hart tag b r 2 arg w = s.lateFault hart tag r (deferredFault note 0) := by
  unfold State.performWaitc
  simp only [hold, hcore, hloads, hspawns, hnotice, Bool.not_true, Bool.or_self, Bool.false_eq_true, if_false]

variable (hnotice : (s.hart hart).noticeFor 0 (((s.hart hart).seg + 56).toNat / 4096) = none)
  (hposted : s.postedTouches hart 0 ((s.hart hart).seg + 56) 8 = false)
include hnotice hposted

theorem performWaitc_join_of_fault {c pa : Nat}
    (htarget : (s.countWalk hart 0 ((s.hart hart).seg + 56)).target (s.hart hart).ctxid.toNat hart 0 ((s.hart hart).seg + 56) 8 true false =
      (s1, .fault c pa)) :
    s.performWaitc hart tag b r 2 arg w =
      (s1.learnAt hart 0 ((s.hart hart).seg + 56)).lateFault hart tag r (accessFault r.idx none c 0 0 8 pa ((s.hart hart).seg + 56) true) := by
  unfold State.performWaitc
  simp only [hold, hcore, hloads, hspawns, hnotice, hposted, htarget, Bool.not_true, Bool.or_self, Bool.false_eq_true, if_false]

/-- The home has the join word: a zero that it has seen ends the wait once the acquire work is done; else the wait stands there. -/
theorem performWaitc_join_of_found {l : Loc} {a : Attr}
    (htarget : (s.countWalk hart 0 ((s.hart hart).seg + 56)).target (s.hart hart).ctxid.toNat hart 0 ((s.hart hart).seg + 56) 8 true false =
      (s1, .at l a)) :
    let u := s1.learnPage hart 0 ((s.hart hart).seg + 56) l a
    let bs := u.binderBytes l w
    let zero : Prop := leNat ((bs.drop 4).take 4) = 0
    let waiting (got : Option (List Byte)) : State := if u.waitsAt l w then u else u.beginWait hart b r (.waitc 2 arg) 2 l got
    (zero → (s.hart hart).acquireDone = true → s.performWaitc hart tag b r 2 arg w = (u.endWait w).sendWaitc hart tag b r (tokOf 0)) ∧
    (zero → (s.hart hart).acquireDone = false → s.performWaitc hart tag b r 2 arg w = (waiting (some bs)).sendWaitc hart tag b r (tokOf 0)) ∧
    (¬zero → s.performWaitc hart tag b r 2 arg w = waiting none) := by
  intro u bs zero waiting
  refine ⟨fun hzero hdone => ?_, fun hzero hdone => ?_, fun hzero => ?_⟩
  · have hmet : condMet 2 bs = true := beq_of_eq hzero
    unfold State.performWaitc
    simp only [hold, hcore, hloads, hspawns, hnotice, hposted, htarget, Bool.not_true, Bool.or_self, Bool.false_eq_true, if_false]
    simp only [u, bs] at hmet
    simp only [hmet, hdone, Bool.and_self, if_true]
    rfl
  · have hmet : condMet 2 bs = true := beq_of_eq hzero
    unfold State.performWaitc
    simp only [hold, hcore, hloads, hspawns, hnotice, hposted, htarget, Bool.not_true, Bool.or_self, Bool.false_eq_true, if_false]
    simp only [u, bs] at hmet
    simp only [hmet, hdone, Bool.and_false, Bool.false_eq_true, if_false, if_true]
    rfl
  · have hmet : condMet 2 bs = false := beq_false_of_ne hzero
    unfold State.performWaitc
    simp only [hold, hcore, hloads, hspawns, hnotice, hposted, htarget, Bool.not_true, Bool.or_self, Bool.false_eq_true, if_false]
    simp only [u, bs] at hmet
    simp only [hmet, Bool.false_and, Bool.false_eq_true, if_false]
    rfl

end Join

/-! ACQ (R219) -/

section Acquire
variable {sc : Nat} (hturn : b.lsidTurn r.lsid = true) (hord : (s.hart hart).noticeIn r.ord = none)
  (hloads : (s.hart hart).loadsHeld = false) (hdrained : (s.hart hart).drained r.ord = true)
include hturn hord hloads hdrained

theorem performAcq_of_notice (hnotice : (s.hart hart).noticeFor r.zone (r.va.toNat / 4096) = some note) :
    s.performAcq hart tag b r sc w = s.lateFault hart tag r (deferredFault note 0) := by
  unfold State.performAcq Hart.ordNotice
  simp only [hold, hturn, hord, hloads, hdrained, hnotice, ite_self, Bool.not_true, Bool.or_self, Bool.false_eq_true, if_false]

variable (hnotice : (s.hart hart).noticeFor r.zone (r.va.toNat / 4096) = none) (hposted : s.postedTouches hart r.zone r.va 64 = false)
include hnotice hposted

theorem performAcq_of_fault {c pa : Nat}
    (htarget : (s.countWalk hart r.zone r.va).target (s.hart hart).ctxid.toNat hart r.zone r.va 64 true false = (s1, .fault c pa)) :
    s.performAcq hart tag b r sc w =
      (s1.learnAt hart r.zone r.va).lateFault hart tag r (accessFault r.idx (some r.lsid) c r.zone 0 64 pa r.va true) := by
  unfold State.performAcq Hart.ordNotice
  simp only [hold, hturn, hord, hloads, hdrained, hnotice, hposted, htarget, ite_self, Bool.not_true, Bool.or_self, Bool.false_eq_true, if_false]

/-- The home has the binder: one that is not ready is waited for, a region in no zone is a fault, and else the WORD comes with the work of the regions. -/
theorem performAcq_of_found {l : Loc} {a : Attr}
    (htarget : (s.countWalk hart r.zone r.va).target (s.hart hart).ctxid.toNat hart r.zone r.va 64 true false = (s1, .at l a)) :
    let u := s1.learnPage hart r.zone r.va l a
    let bs := u.binderBytes l w
    let rs := binderRegions bs
    (bytesReady bs = false → s.performAcq hart tag b r sc w = if u.waitsAt l w then u else u.beginWait hart b r (.acq sc) 0 l none) ∧
    (∀ x, bytesReady bs = true → rs.find? (fun x => zoneOf x.2.2 == .invalid) = some x → s.performAcq hart tag b r sc w =
      u.lateFault hart tag r (accessFault r.idx (some r.lsid) 0x10 x.2.2 0 64 0 (BitVec.ofNat 64 x.1) true)) ∧
    (bytesReady bs = true → rs.find? (fun x => zoneOf x.2.2 == .invalid) = none → (s.hart hart).thalt = false →
      let v := u.endWait w
      let h1 := (v.hart hart).putBlock (((b.dropReq r.idx).resolveL r.idx (some r.lsid)).deliver r.t0 (tokOf (BitVec.ofNat 64 (leNat (bs.take 8)))))
      s.performAcq hart tag b r sc w =
        v.settle hart (some (tag, r.idx)) (((h1.regionWork true rs).awaitWbacks h1).redoLoads tag fun _ => true)) := by
  intro u bs rs
  refine ⟨fun hready => ?_, fun x hready hzone => ?_, fun hready hzone hthalt => ?_⟩
  all_goals
    unfold State.performAcq Hart.ordNotice
    simp only [hold, hturn, hord, hloads, hdrained, hnotice, hposted, htarget, ite_self, Bool.not_true, Bool.or_self, Bool.false_eq_true, if_false]
  · simp only [u, bs] at hready
    simp only [hready, Bool.not_false, if_true]
    rfl
  · simp only [u, bs, rs] at hready hzone
    simp only [hready, hzone, Bool.not_true, Bool.false_eq_true, if_false]
    rfl
  · simp only [u, bs, rs] at hready hzone
    simp only [hready, hzone, hthalt, Block.arrive, Bool.not_true, Bool.false_eq_true, if_false]
    rfl

end Acquire

end Performed

end Waits

/-! The end of a DOMWAIT (R276, R296) -/

theorem State.endDomwait_of_sole {s : State} {hart k : Nat} {b : Block} {bs : List Block} {r : Req} (hblocks : (s.hart hart).blocks = b :: bs)
    (hreqs : b.reqs = [r]) (hkind : r.kind = .domwait k) :
    s.endDomwait hart = s.settle hart (some (b.tag, r.idx))
      ((s.hart hart).putBlock ((b.dropReq r.idx).deliver r.t0 (tokOf (BitVec.ofNat 64 (if k = 0 then 1 else k))))) := by
  have hcount : Nat.max k 1 = if k = 0 then 1 else k := by
    cases k with
    | zero => rfl
    | succ k => exact Nat.max_eq_left (Nat.succ_pos k)
  unfold State.endDomwait
  simp only [hblocks, hreqs, List.foldl_cons, List.foldl_nil, State.endOneDomwait, hkind, hcount]
  rfl

/-! Atomics (R225, R242 to R245, R264) -/

section Atomic
variable {s : State} {hart tag idx : Nat} {b : Block} {r : Req} {op n sc : Nat} {v : Quad} (hpend : s.pendingReq hart tag idx = some (b, r))
  (hkind : r.kind = .atomic op n sc v)
include hpend hkind

theorem exec_atomicPerform_of_ordNotice {note : Notice} (hord : (s.hart hart).ordNotice b { r with ord := r.ord ||| scopeMask sc } = some note) :
    exec (.atomicPerform hart tag idx) s = .next (s.replied hart r (s.lateFault hart tag r (deferredFault note 0))) := by
  rw [hkind] at hord
  show execAtomicPerform hart tag idx s = _
  unfold execAtomicPerform
  simp only [hpend, hkind, hord]

section MayPerform
variable (hold : (s.hart hart).isOldest tag = true) (hturn : b.lsidTurn r.lsid = true)
include hold hturn

/-- Another agent's write between the read and the compare-and-swap of the home (R245). -/
theorem exec_hostAtomicCasRetry_of_host {s1 : State} {l : Loc} {a : Attr} (other : Dbl) (hzone : zoneOf r.zone = .host)
    (hop : op ≠ 0 ∧ op ≠ 8 ∧ (op = 9 → n = 16)) (hxlate : s.xlate (s.hart hart).ctxid.toNat r.zone r.va.toNat true true = (s1, .ok l a)) :
    exec (.hostAtomicCasRetry hart tag idx other) s = .next (s1.writeLoc l (full (natLe (Nat.min n 8) other.toNat))) := by
  have hcas : byCas op n = true := by
    obtain ⟨hadd, hswap, hwide⟩ := hop
    unfold byCas
    by_cases h9 : op = 9
    · simp [h9, hwide h9]
    · simp [hadd, hswap, h9]
  show execHostAtomicCasRetry hart tag idx other s = _
  unfold execHostAtomicCasRetry
  simp only [hpend, hkind, hold, hturn, hzone, hcas, hxlate, bne_self_eq_false, Bool.not_true, Bool.or_self, Bool.false_eq_true, if_false]

variable {s1 : State} (hord : (s.hart hart).ordNotice b { r with ord := r.ord ||| scopeMask sc } = none)
  (hfence : (s.hart hart).fenced = false) (hdrained : (s.hart hart).drained r.ord = true)
  (hscope : sc = 0 ∨ (b.lowerDone r.lsid = true ∧ (s.hart hart).anyDirty = false)) (hwork : (s.hart hart).workDone (scopeMask sc) = true)
  (hline : s.holdsLine hart r.zone r.va.toNat = false) (hposted : s.postedTouches hart r.zone r.va n = false)
  (hnotice : (s.hart hart).noticeFor r.zone (r.va.toNat / 4096) = none)
include hord hfence hdrained hscope hwork hline hposted hnotice

theorem exec_atomicPerform_of_fault {c pa : Nat}
    (htarget : (s.countWalk hart r.zone r.va).target (s.hart hart).ctxid.toNat hart r.zone r.va n true (zoneOf r.zone == .host) = (s1, .fault c pa)) :
    exec (.atomicPerform hart tag idx) s = .next (s.replied hart r
      ((s1.learnAt hart r.zone r.va).lateFault hart tag r (accessFault r.idx (some r.lsid) c r.zone 2 n pa r.va true))) := by
  have hlower : ¬(sc ≠ 0 ∧ b.lowerDone r.lsid = false) := by grind
  have hdirty : ¬(sc ≠ 0 ∧ (s.hart hart).anyDirty = true) := by grind
  rw [hkind] at hord
  show execAtomicPerform hart tag idx s = _
  unfold execAtomicPerform
  simp only [hpend, hkind, hord, hold, hturn, hfence, hdrained, if_neg hlower, if_neg hdirty, hwork, hline, hposted, hnotice, htarget, Bool.not_true,
    Bool.or_self, Bool.false_eq_true, if_false]

theorem exec_atomicPerform_of_found {l : Loc} {a : Attr}
    (htarget : (s.countWalk hart r.zone r.va).target (s.hart hart).ctxid.toNat hart r.zone r.va n true (zoneOf r.zone == .host) = (s1, .at l a))
    (hsnooped : l.snooped s1.dev = false) :
    exec (.atomicPerform hart tag idx) s =
      .next (s.replied hart r ((s1.learnPage hart r.zone r.va l a).atomicAt hart tag b r op n sc v l a)) := by
  have hlower : ¬(sc ≠ 0 ∧ b.lowerDone r.lsid = false) := by grind
  have hdirty : ¬(sc ≠ 0 ∧ (s.hart hart).anyDirty = true) := by grind
  rw [hkind] at hord
  show execAtomicPerform hart tag idx s = _
  unfold execAtomicPerform
  simp only [hpend, hkind, hord, hold, hturn, hfence, hdrained, if_neg hlower, if_neg hdirty, hwork, hline, hposted, hnotice, htarget, hsnooped,
    Bool.not_true, Bool.or_self, Bool.false_eq_true, if_false]

end MayPerform

end Atomic

theorem State.atomicAt_of_unwritable {u : State} {hn tag : Nat} {b : Block} {r : Req} {op n sc : Nat} {v : Quad} {l : Loc} {a : Attr}
    (hwrites : (atomicNew op n (leNat (u.readLoc l n)) v).isSome = true) (hw : a.w = false) :
    u.atomicAt hn tag b r op n sc v l a = u.lateFault hn tag r (accessFault r.idx (some r.lsid) 0x13 r.zone 2 n l.addr r.va true) := by
  unfold State.atomicAt
  simp only [hwrites, hw, Bool.not_false, Bool.and_self, if_true]

/-- What an atomic leaves that writes nothing, or may write (R242, R244). -/
theorem State.atomicAt_of_writable {u : State} {hn tag : Nat} {b : Block} {r : Req} {op n sc : Nat} {v : Quad} {l : Loc} {a : Attr}
    (hok : atomicNew op n (leNat (u.readLoc l n)) v = none ∨ a.w = true) :
    let ctx := (u.hart hn).ctxid.toNat
    let w := hartWriter hn b.seq
    let bs := u.readLoc l n
    let s2 := match atomicNew op n (leNat bs) v with
      | some x => (u.homeWrite ctx r.zone r.va l (full (natLe n x)) w).pooled ctx r.zone r.va op n w
      | none => u
    let b0 := { b.dropReq r.idx with bound := true, seen := b.seen ++ u.seenPieces hn r.lsid r.zone [(r.va.toNat, n)] bs }
    let b1 := (b0.resolveL r.idx (some r.lsid)).arrive (u.hart hn).thalt r.idx r.t0 (atomicToken n (leNat bs))
    let h1 := ((s2.hart hn).putBlock b1).violate (s2.namesOf hn) tag r.zone r.va n
    u.atomicAt hn tag b r op n sc v l a = s2.settle hn (some (tag, r.idx)) (if sc = 0 then h1 else h1.acquireWork tag) := by
  have hmay : ((atomicNew op n (leNat (u.readLoc l n)) v).isSome && !a.w) = false := by
    obtain hnone | hw := hok
    · rw [hnone]
      rfl
    · rw [hw]
      exact Bool.and_false _
  unfold State.atomicAt
  simp only [hmay, Bool.false_eq_true, if_false] <;> rfl

theorem exec_quiescenceTokenForward_of_sole {s : State} {hart k : Nat} {g : Graph} {b : Block} {bs : List Block} {r : Req}
    (hgraph : s.dev.graph (s.hart hart).graph = some g) (hlive : g.state = 0) (hring : g.ring = [hart]) (horigin : hart = s.dev.origin g)
    (hquiet : s.quiet g hart = true) (htoken : (s.deque hart).token = true) (hwhite : (s.deque hart).tblack = false)
    (hown : (s.deque hart).black = false) (hblocks : (s.hart hart).blocks = b :: bs) (hreqs : b.reqs = [r]) (hkind : r.kind = .domwait k) :
    let v := s.setDeque hart { s.deque hart with token := false }
    let u := v.settle hart (some (b.tag, r.idx)) ((v.hart hart).putBlock ((b.dropReq r.idx).deliver r.t0 (tokOf (BitVec.ofNat 64 (if k = 0 then 1 else k)))))
    exec (.quiescenceTokenForward hart) s = .next { u with dev := u.dev.setGraph { g with active := false } } := by
  intro v u
  have hmember : g.ring.contains hart = true := by simp [hring]
  have hend : g.ring.foldl (fun s n => s.endDomwait n) v = u := by
    rw [hring, List.foldl_cons, List.foldl_nil]
    exact State.endDomwait_of_sole hblocks hreqs hkind
  rw [exec_quiescenceTokenForward_of_origin hgraph hlive hmember hquiet htoken horigin hwhite hown]
  simp only [v] at hend
  simp only [hend]

/-- A WAITC that ends by its acquire work answers with its value (R362). -/
theorem exec_loadReply_of_sendWaitc {s : State} {hart tag idx : Nat} {b : Block} {r : Req} {v : Dbl} (note : Notice)
    (hexec : exec (.loadReply hart tag idx) s = .next (s.replied hart r (s.sendWaitc hart tag b r (tokOf v)))) :
    let h := s.hart hart
    let next (t : State) : Prop := exec (.loadReply hart tag idx) s = .next (s.replied hart r t)
    (h.acquireDone = true → next (s.settle hart (some (tag, r.idx)) ((h.putBlock ((b.dropReq r.idx).deliver r.t0 (tokOf v))).acquireWork tag))) ∧
    (h.acquireDone = false → h.wbackNotice = none → next (s.setHart hart h.invalidateLines)) ∧
    (h.acquireDone = false → h.wbackNotice = some note → next (s.lateFault hart tag r (deferredFault note 0))) := by
  obtain ⟨hdone, hwork, hnotice⟩ := s.sendWaitc_cases hart tag b r v note
  exact ⟨fun h => hdone h ▸ hexec, fun h h0 => hwork h h0 ▸ hexec, fun h h0 => hnotice h h0 ▸ hexec⟩

/-- Settles O51: each request by its kind; what a read can answer is told once for all that read. -/
theorem repliesOfTheMemorySystem : Obligations.RepliesOfTheMemorySystem := by
  unfold Obligations.RepliesOfTheMemorySystem
  refine ⟨?reads, ?vectorTurn, ?waits, ?quiescence, ?atomics⟩
  case reads =>
    intro hart tag idx s t b r ps bs c pa note
    dsimp only
    intro hpend
    cases hkind : r.kind with
    | load n signed =>
      rintro rfl
      refine exec_loadReply_fails_or_reads (exec_loadReply_of_load hpend hkind) bs c pa note fun hexec => ⟨?_, nofun, nofun, nofun⟩
      rintro _ _ ⟨⟩
      rw [Block.arrive_eq] at hexec
      exact hexec
    | refill =>
      rintro rfl
      exact exec_loadReply_fails_or_reads (exec_loadReply_of_refill hpend hkind) bs c pa note fun hexec => ⟨nofun, fun _ => hexec, nofun, nofun⟩
    | cbld =>
      rintro ⟨rfl, hold⟩
      exact exec_loadReply_fails_or_reads (exec_loadReply_of_cbld hpend hkind hold) bs c pa note fun hexec => ⟨nofun, nofun, fun _ => hexec, nofun⟩
    | vload d form v stride got =>
      rintro rfl
      refine exec_loadReply_fails_or_reads (exec_loadReply_of_vload hpend hkind) bs c pa note fun hexec => ⟨nofun, nofun, nofun, ?_⟩
      rintro _ _ _ _ _ ⟨⟩
      exact ⟨hexec, s.vecTake_eq_or _⟩
    | vdone | acq | waitc | mwait | atomic | domwait | tensor => exact False.elim
  case vectorTurn => exact fun hart tag idx d form v bs s b r hpend hkind hturn => exec_loadReply_of_vdone hpend hkind hturn
  case waits =>
    intro hart tag idx arg sc c pa w s s1 b r l a note h sent next hpend hold ends
    have hwaitc {k : Nat} (hkind : r.kind = .waitc k arg w) {u : State} (hu : s.performWaitc hart tag b r k arg w = u) : next u :=
      hu ▸ exec_loadReply_of_waitc hpend hkind
    have hacq (hkind : r.kind = .acq sc w) {u : State} (hu : s.performAcq hart tag b r sc w = u) : next u := hu ▸ exec_loadReply_of_acq hpend hkind
    refine ⟨?posted, ?postedNotice, ?age, ?engine, ?join, ?tensors, ?acquire⟩
    case posted => exact fun hkind hnotice hzero => exec_loadReply_of_sendWaitc note (hwaitc hkind (performWaitc_posted hold hnotice hzero))
    case postedNotice => exact fun hkind hnotice => hwaitc hkind (performWaitc_posted_of_notice hold hnotice)
    case age => exact fun hkind hidle => exec_loadReply_of_sendWaitc note (hwaitc hkind (performWaitc_age hold hidle))
    case engine => exact fun hkind hengine => exec_loadReply_of_sendWaitc note (hwaitc hkind (performWaitc_join_of_engine hold hengine))
    case join =>
      intro va hkind hcore hloads hspawns
      refine ⟨fun hnotice => hwaitc hkind (performWaitc_join_of_notice hold hcore hloads hspawns hnotice), fun hnotice hposted =>
        ⟨fun htarget => hwaitc hkind (performWaitc_join_of_fault hold hcore hloads hspawns hnotice hposted htarget), fun htarget => ?_⟩⟩
      obtain ⟨hends, hbegins, hwaiting⟩ := performWaitc_join_of_found (b := b) (r := r) (arg := arg) (w := w)
        hold hcore hloads hspawns hnotice hposted htarget
      exact ⟨fun hzero hdone => hwaitc hkind (hends hzero hdone), fun hzero hdone => hwaitc hkind (hbegins hzero hdone),
        fun hzero => hwaitc hkind (hwaiting hzero)⟩
    case tensors => exact fun hkind hissued hfree => exec_loadReply_of_mwait hpend hold hkind hissued hfree
    case acquire =>
      intro hkind hturn hord hloads hdrained
      refine ⟨fun hnotice => hacq hkind (performAcq_of_notice hold hturn hord hloads hdrained hnotice), fun hnotice hposted =>
        ⟨fun htarget => hacq hkind (performAcq_of_fault hold hturn hord hloads hdrained hnotice hposted htarget), fun htarget => ?_⟩⟩
      obtain ⟨hwaiting, hzone, hready⟩ := performAcq_of_found (w := w) (sc := sc) hold hturn hord hloads hdrained hnotice hposted htarget
      exact ⟨fun h => hacq hkind (hwaiting h), fun x h h0 => hacq hkind (hzone x h h0), fun h h0 hthalt => hacq hkind (hready h h0 hthalt)⟩
  case quiescence =>
    exact fun hart k s g b bs r hgraph hlive hring horigin hquiet htoken hwhite hown hblocks hreqs hkind =>
      exec_quiescenceTokenForward_of_sole hgraph hlive hring horigin hquiet htoken hwhite hown hblocks hreqs hkind
  case atomics =>
    intro hart tag idx op n sc v s s1 b r l a h hpend hkind hold hturn
    refine ⟨fun note hord => exec_atomicPerform_of_ordNotice hpend hkind hord, ?performs, fun other hzone hop hxlate =>
      exec_hostAtomicCasRetry_of_host hpend hkind hold hturn other hzone hop hxlate⟩
    intro hord hfence hdrained hscope hwork hline hposted hnotice
    refine ⟨fun c pa htarget => exec_atomicPerform_of_fault hpend hkind hold hturn hord hfence hdrained hscope hwork hline hposted hnotice htarget,
      fun htarget hsnooped => ?_⟩
    have hexec := exec_atomicPerform_of_found hpend hkind hold hturn hord hfence hdrained hscope hwork hline hposted hnotice htarget hsnooped
    exact ⟨fun hwrites hw => State.atomicAt_of_unwritable hwrites hw ▸ hexec, fun hok =>
      hexec.trans (congrArg (fun u => Host.Outcome.next (s.replied hart r u)) (State.atomicAt_of_writable hok))⟩

end Sys2Proof.Machine

/-! A commit of PCFG over a store of counters that is not canonical (R364, R365). -/
namespace Sys2Proof.Machine

/-- A block that leaves to 0x2000, of which a PCFG that clears counter 0 and leaves it disabled is held for the commit. -/
def clearingBlock : Block := { emptyBlock with branch := some (0, .goto 0x2000), effs := [(0, .pcfg 0 0x200)] }

/-- Core 0 with that block alone in flight. Its store of counters lists counter 0 twice, as no canonical store does (`mwf`); a read finds the first entry. -/
def countedTwice : State :=
  State.reset.setHart 0 { Hart.reset with run := .running, blocks := [clearingBlock], pcnt := [(0, 5), (0, 7)] }

theorem countedTwice_commits : Commits countedTwice 0 0 clearingBlock (.goto 0x2000) where
  ready := by decide
  noticed := by decide
  spilled := by decide
  unbroken := by decide
  unwatched := by decide
  unhalted := by decide
  unstepped := by decide
  staying := by decide
  unreserved := by decide
  portsFree := by decide

/-- Writing the default takes the first of the two entries away, so that the counter then reads what the second holds. -/
theorem clearingBlock_leaves_counter :
    mget 0 ((startedBy countedTwice (exec (.blockCommit 0) countedTwice)).hart 0).pcnt 0 = 7 := by decide

/-- Refutes O48: its clause for a PCFG that clears its counter asks that the counter then reads 0 in every state, and the statement lacks the hypothesis
that the core's store of counters is canonical: where the store lists the counter twice, the clear takes one entry away and the other shows. -/
theorem not_commitWritesTheRegisters : ¬ Obligations.CommitWritesTheRegisters := by
  unfold Obligations.CommitWritesTheRegisters
  intro h
  obtain ⟨-, -, heffect, -⟩ := h 0 0 0 0x2000 countedTwice clearingBlock
  obtain ⟨-, -, -, -, -, -, -, -, -, -, -, -, -, -, -, -, -, hclear, -⟩ := heffect ⟨rfl, rfl, rfl⟩ countedTwice_commits
  have hzero := hclear 0 0x200 (startedBy countedTwice (exec (.blockCommit 0) countedTwice)) (by decide) rfl (by decide) (by decide) rfl
  exact absurd (clearingBlock_leaves_counter.symm.trans hzero) (by decide)

end Sys2Proof.Machine
